-- ==== Sys2Proof/Word.lean ====
section
/-! DEFINITION. The machine word, the byte, and their plainest arithmetic. -/

namespace Sys2Proof

/-- A scalar register's contents, an address, a system register (R195). -/
abbrev Word := BitVec 64

/-- The unit of memory. -/
abbrev Byte := BitVec 8

/-- One element of a vector register, or one instruction word. -/
abbrev Half := BitVec 32

end Sys2Proof
end

