-- ==== Sys2Proof/Syntax.lean ====
section
/-! DEFINITION. The instruction syntax: one constructor of `Instr` for every row of the opcode table (spec/opcode_table.json),
with the fields of its word as the spec's encodings lay them out (R216 to R218, R224 and the instruction chapters), and the
steps of the device, the hosts and the peers, with what the outside world supplies to each of them. -/

namespace Sys2Proof

/-- The three roles of a group (R176). -/
inductive Role where
  | c | m | v
  deriving DecidableEq, Repr

/-- Where a block stands: die, cluster, site, and `part` 0 for a whole core, 1 or 2 for half 0 or 1 of a partitioned EC
(R11, R12, R15). A core is named by the same record with `part` 0. -/
structure Place where
  die : Nat
  cl : Nat
  site : Nat
  part : Nat
  deriving DecidableEq, Repr

/-- A copy queue: queue `q` of a core or half (R353), or the queue of a die's command front end (R106). -/
inductive QKey where
  | core (pl : Place) (q : Nat)
  | front (die : Nat)
  deriving DecidableEq, Repr

/-- A path of a group of a block, by the block's handle, the group's GIDX and the path index. -/
structure Who where
  uid : Nat
  gidx : Nat
  pidx : Nat
  deriving DecidableEq, Repr

/-- A place in the device's storage, as hosts and the patrol scrub name it (R41, R432). -/
inductive Target where
  | phys (pa : Nat)
  | cellar (die off : Nat)
  | spad (uid off : Nat)
  | obuf (uid off : Nat)
  | tile (uid t i : Nat)   -- element i (m * 64 + n) of an accumulator tile (R76)
  deriving DecidableEq, Repr

/-- The fields of the long vector form (R271). `ls` is LS, `sb` SB, `ord` ORD. -/
structure VecLong where
  d : BitVec 6
  a : BitVec 6
  b : BitVec 6
  xop : BitVec 6
  hint : BitVec 4
  pm4 : BitVec 4
  ls : BitVec 2
  nw : BitVec 1
  x : BitVec 1
  dw : BitVec 1
  ord : BitVec 1
  sb : BitVec 1
  fsub : BitVec 4
  k : BitVec 3
  ef : BitVec 5
  pln : BitVec 4
  prnd : BitVec 1
  deriving DecidableEq, Repr

/-- The fields of the block forms of vfcvt (R284); `la` is LS[0], the direction is the constructor's. -/
structure BlockCvt where
  d : BitVec 6
  a : BitVec 6
  hint : BitVec 4
  pm4 : BitVec 4
  la : BitVec 1
  nw : BitVec 1
  k : BitVec 3
  ef : BitVec 5
  pln : BitVec 4
  prnd : BitVec 1
  deriving DecidableEq, Repr

/-- The fields of the long forms of vldgl and vstsc (R309); `ps` is FSUB, the success predicate of vstsc. -/
structure LinkLong where
  d : BitVec 6
  a : BitVec 6
  b : BitVec 6
  hint : BitVec 4
  pm4 : BitVec 4
  dw : BitVec 1
  ord : BitVec 1
  ps : BitVec 4
  scope : BitVec 3
  cls : BitVec 4
  deriving DecidableEq, Repr

/-- The fields of the control form of the long memory forms (R307); `low` is second-word bits [18:0]. -/
structure MemCtl where
  d : BitVec 6
  a : BitVec 6
  xop : BitVec 4
  cls : BitVec 4
  scope : BitVec 3
  dw : BitVec 1
  hint : BitVec 4
  pm4 : BitVec 4
  ra : BitVec 2
  f : BitVec 2
  s : BitVec 1
  low : BitVec 19
  deriving DecidableEq, Repr

/-- Every row of the opcode table: first the steps of the device, the hosts and the peers, then the instructions that words
encode, whose `e` is bit [31] of the (first) word (R215). -/
inductive Instr where
  | tlbinvAll (w : Option Who)
  | tlbinvAsid (w : Option Who) (asid : BitVec 16)
  | tlbinvPage (w : Option Who) (asid : BitVec 16) (vpn : BitVec 36)
  | faultSlotWaitRecord (die n : Nat)
  | faultDoorbell (port die slot : Nat)
  | runIssue (pl : Place) (role : Role)
  | waitSatisfied (w : Who)
  | waitwRecheck (w : Who)
  | waitwPoll (w : Who)
  | gangTimeout (uid entry : Nat)
  | watchdogFire (ctx : Nat)
  | copyExecute (q : QKey)
  | copyComplete (q : QKey)
  | matrixQueueComplete (pl : Place)
  | launchPacketCheck (id : Nat)
  | placementStep (die pick : Nat)
  | groupCapture (uid gidx : Nat)
  | blockRetire (uid : Nat)
  | submitDoorbell (port die rcb : Nat)
  | nodeKernel (ctx va : Nat)
  | nodeCopy (ctx va : Nat)
  | nodeWsload (ctx va : Nat)
  | nodeCond (ctx va : Nat)
  | nodeLoop (ctx va : Nat)
  | nodeSignal (ctx va : Nat)
  | nodeWait (ctx va : Nat)
  | waitNodeRetest (ctx va : Nat)
  | nodeEnd (ctx va : Nat)
  | ckptStart (ctx va : Nat)
  | ckptCut (ctx va : Nat)
  | ckptDrain (ctx va : Nat)
  | ckptCommit (ctx va : Nat)
  | ckptApply (ctx va : Nat)
  | ckptApplyDone (ctx va : Nat)
  | ckptRestore (ctx va : Nat)
  | hostMemoryWrite (port : Nat) (t : Target) (bytes : List (BitVec 8))
  | hostMemoryRead (port pa n : Nat)
  | heartbeat (port : Nat)
  | hostFailed (port : Nat)
  | hostLinkDown (port : Nat)
  | mailboxWrite (port off : Nat) (val : BitVec 64)
  | resync (port : Nat)
  | mailboxTlbinv (port : Nat)
  | setis (port : Nat)
  | handover (port : Nat)
  | attest (port : Nat)
  | setroute (port : Nat)
  | setwin (port : Nat)
  | peerAccess (peer pa n : Nat) (bytes : Option (List (BitVec 8)))
  | peerStoreAck (id : Nat)
  | flitReplay (link : Nat)
  | pause (link : Nat)
  | resume (link : Nat)
  | linkRewidth (link lanes : Nat)
  | linkRewidthEnd (link : Nat)
  | linkDown (link : Nat)
  | linkCalibration (link : Nat)
  | dramCalibration (die : Nat)
  | patrolScrub (t : Target)
  | telemetry
  | powerSample (mw : Nat)
  | boostClassify
  | thermalSample (dom temp : Nat)
  | panRotation (die : Nat) (temps : List Nat)
  | panExchange (die cl : Nat)
  | panExchangeAbandon (die cl : Nat)
  | panTransferEnd (die cl : Nat)
  | bandPowerOff (pl : Place) (band : Nat)
  | restEnter (die : Nat)
  | restExit (die : Nat)
  | cellarRefreshStart (die bg : Nat)
  | cellarRefreshEnd (die bg : Nat)
  | deviceReset (good : Bool)
  | powerHintExpiry (uid : Nat)
  | peerResponse (id : Nat) (bytes : Option (List (BitVec 8)))
  | hostApertureCompletion (id : Nat) (bytes : Option (List (BitVec 8)))
  | sadd (e : Bool) (d a b : BitVec 6)
  | ssub (e : Bool) (d a b : BitVec 6)
  | sand (e : Bool) (d a b : BitVec 6)
  | sandn (e : Bool) (d a b : BitVec 6)
  | sor (e : Bool) (d a b : BitVec 6)
  | sxor (e : Bool) (d a b : BitVec 6)
  | sshl (e : Bool) (d a b : BitVec 6)
  | sshr (e : Bool) (d a b : BitVec 6)
  | ssra (e : Bool) (d a b : BitVec 6)
  | smin (e : Bool) (d a b : BitVec 6)
  | smax (e : Bool) (d a b : BitVec 6)
  | sminu (e : Bool) (d a b : BitVec 6)
  | smaxu (e : Bool) (d a b : BitVec 6)
  | smul (e : Bool) (d a b : BitVec 6)
  | smulh (e : Bool) (d a b : BitVec 6)
  | smulhu (e : Bool) (d a b : BitVec 6)
  | sdiv (e : Bool) (d a b : BitVec 6)
  | sdivu (e : Bool) (d a b : BitVec 6)
  | srem (e : Bool) (d a b : BitVec 6)
  | sremu (e : Bool) (d a b : BitVec 6)
  | sseq (e : Bool) (d a b : BitVec 6)
  | ssne (e : Bool) (d a b : BitVec 6)
  | sslt (e : Bool) (d a b : BitVec 6)
  | ssltu (e : Bool) (d a b : BitVec 6)
  | ssle (e : Bool) (d a b : BitVec 6)
  | ssleu (e : Bool) (d a b : BitVec 6)
  | sclz (e : Bool) (d a : BitVec 6)
  | sctz (e : Bool) (d a : BitVec 6)
  | spopc (e : Bool) (d a : BitVec 6)
  | sbrev (e : Bool) (d a : BitVec 6)
  | ssext (e : Bool) (d a w : BitVec 6)
  | szext (e : Bool) (d a w : BitVec 6)
  | smov (e : Bool) (d a : BitVec 6)
  | saddi (e : Bool) (d a : BitVec 6) (i : BitVec 12)
  | sandi (e : Bool) (d a : BitVec 6) (i : BitVec 12)
  | sori (e : Bool) (d a : BitVec 6) (i : BitVec 12)
  | sxori (e : Bool) (d a : BitVec 6) (i : BitVec 12)
  | sshli (e : Bool) (d a n : BitVec 6)
  | sshri (e : Bool) (d a n : BitVec 6)
  | ssrai (e : Bool) (d a n : BitVec 6)
  | sslti (e : Bool) (d a : BitVec 6) (i : BitVec 11)
  | ssltui (e : Bool) (d a : BitVec 6) (i : BitVec 11)
  | sli (e : Bool) (d : BitVec 6) (i : BitVec 18)
  | slhi (e : Bool) (d : BitVec 6) (i : BitVec 18)
  | sadr (e : Bool) (d a b : BitVec 6) (s : BitVec 3)
  | sadrPc (e : Bool) (d b : BitVec 6) (s : BitVec 3)
  | sadrLoc (e : Bool) (d a b : BitVec 6) (s : BitVec 3)
  | sadrCw (e : Bool) (d a b : BitVec 6) (s : BitVec 3)
  | sadrWs (e : Bool) (d a b : BitVec 6) (s : BitVec 3)
  | saluLongImm (e : Bool) (d a fn : BitVec 6) (imm : BitVec 32) (hint : BitVec 4)
  | sliLong (e : Bool) (d : BitVec 6) (imm : BitVec 32) (hint : BitVec 4)
  | slhiW (e : Bool) (d : BitVec 6) (imm : BitVec 32) (hint : BitVec 4)
  | sadrLong (e : Bool) (d a fn : BitVec 6) (imm : BitVec 32) (hint : BitVec 4)
  | sfadd (e : Bool) (d a b : BitVec 6) (t : BitVec 1)
  | sfsub (e : Bool) (d a b : BitVec 6) (t : BitVec 1)
  | sfmul (e : Bool) (d a b : BitVec 6) (t : BitVec 1)
  | sffma (e : Bool) (d a b : BitVec 6) (t : BitVec 1)
  | sfdiv (e : Bool) (d a b : BitVec 6) (t : BitVec 1)
  | sfsqrt (e : Bool) (d a : BitVec 6) (t : BitVec 1)
  | sfmin (e : Bool) (d a b : BitVec 6) (t : BitVec 1)
  | sfmax (e : Bool) (d a b : BitVec 6) (t : BitVec 1)
  | sfcmpEq (e : Bool) (d a b : BitVec 6) (t : BitVec 1)
  | sfcmpLt (e : Bool) (d a b : BitVec 6) (t : BitVec 1)
  | sfcmpLe (e : Bool) (d a b : BitVec 6) (t : BitVec 1)
  | sfcmpUn (e : Bool) (d a b : BitVec 6) (t : BitVec 1)
  | sfcvt (e : Bool) (d a : BitVec 6) (x y : BitVec 3)
  | br (e : Bool) (o : BitVec 24)
  | bnz (e : Bool) (s : BitVec 6) (o : BitVec 18)
  | bz (e : Bool) (s : BitVec 6) (o : BitVec 18)
  | call (e : Bool) (o : BitVec 24)
  | jr (e : Bool) (a : BitVec 6)
  | callr (e : Bool) (a : BitVec 6)
  | ret (e : Bool)
  | loop (e : Bool) (s : BitVec 6) (o : BitVec 18)
  | rpt (e : Bool) (s : BitVec 6) (l : BitVec 4) (n : BitVec 9)
  | vbr (e : Bool) (p t : BitVec 4) (o : BitVec 16)
  | vjoin (e : Bool) (t : BitVec 4)
  | vmeld (e : Bool) (t : BitVec 4) (o : BitVec 18)
  | vunmeld (e : Bool) (t : BitVec 4)
  | vexit (e : Bool) (p : BitVec 4)
  | vbrk (e : Bool) (p : BitVec 4)
  | vany (e : Bool) (d : BitVec 6) (p m : BitVec 4)
  | vall (e : Bool) (d : BitVec 6) (p m : BitVec 4)
  | vnone (e : Bool) (d : BitVec 6) (p m : BitVec 4)
  | vcfg (e : Bool) (d : BitVec 6) (n : BitVec 2)
  | vgrant (e : Bool) (d a : BitVec 6)
  | vadd (e : Bool) (d a b : BitVec 6) (m l : BitVec 2) (w : BitVec 1)
  | vsub (e : Bool) (d a b : BitVec 6) (m l : BitVec 2) (w : BitVec 1)
  | vmul (e : Bool) (d a b : BitVec 6) (m l : BitVec 2) (w : BitVec 1)
  | vmulh (e : Bool) (d a b : BitVec 6) (m l : BitVec 2) (w : BitVec 1)
  | vmulhu (e : Bool) (d a b : BitVec 6) (m l : BitVec 2) (w : BitVec 1)
  | vmad (e : Bool) (d a b : BitVec 6) (m l : BitVec 2) (w : BitVec 1)
  | vand (e : Bool) (d a b : BitVec 6) (m l : BitVec 2) (w : BitVec 1)
  | vor (e : Bool) (d a b : BitVec 6) (m l : BitVec 2) (w : BitVec 1)
  | vxor (e : Bool) (d a b : BitVec 6) (m l : BitVec 2) (w : BitVec 1)
  | vandn (e : Bool) (d a b : BitVec 6) (m l : BitVec 2) (w : BitVec 1)
  | vshl (e : Bool) (d a b : BitVec 6) (m l : BitVec 2) (w : BitVec 1)
  | vshr (e : Bool) (d a b : BitVec 6) (m l : BitVec 2) (w : BitVec 1)
  | vsra (e : Bool) (d a b : BitVec 6) (m l : BitVec 2) (w : BitVec 1)
  | vrot (e : Bool) (d a b : BitVec 6) (m l : BitVec 2) (w : BitVec 1)
  | vmin (e : Bool) (d a b : BitVec 6) (m l : BitVec 2) (w : BitVec 1)
  | vmax (e : Bool) (d a b : BitVec 6) (m l : BitVec 2) (w : BitVec 1)
  | vminu (e : Bool) (d a b : BitVec 6) (m l : BitVec 2) (w : BitVec 1)
  | vmaxu (e : Bool) (d a b : BitVec 6) (m l : BitVec 2) (w : BitVec 1)
  | vadds (e : Bool) (d a b : BitVec 6) (m l : BitVec 2) (w : BitVec 1)
  | vsubs (e : Bool) (d a b : BitVec 6) (m l : BitVec 2) (w : BitVec 1)
  | vaddsu (e : Bool) (d a b : BitVec 6) (m l : BitVec 2) (w : BitVec 1)
  | vsubsu (e : Bool) (d a b : BitVec 6) (m l : BitVec 2) (w : BitVec 1)
  | vcmp (e : Bool) (p c : BitVec 4) (a b : BitVec 6) (m l : BitVec 2)
  | vsel (e : Bool) (d a b : BitVec 6) (m l : BitVec 2) (w : BitVec 1)
  | vmov (e : Bool) (d a : BitVec 6) (m : BitVec 2) (l w : BitVec 1)
  | vbcast (e : Bool) (d a : BitVec 6) (m : BitVec 2) (w : BitVec 1)
  | vid (e : Bool) (d : BitVec 6) (m : BitVec 2) (w : BitVec 1)
  | vext (e : Bool) (d a b : BitVec 6) (l : BitVec 1)
  | vins (e : Bool) (d a b : BitVec 6) (w : BitVec 1)
  | vcvt (e : Bool) (d a c : BitVec 6) (m : BitVec 2) (l w : BitVec 1)
  | vfadd (e : Bool) (d a b : BitVec 6) (m l : BitVec 2) (w : BitVec 1)
  | vfsub (e : Bool) (d a b : BitVec 6) (m l : BitVec 2) (w : BitVec 1)
  | vfmul (e : Bool) (d a b : BitVec 6) (m l : BitVec 2) (w : BitVec 1)
  | vfdiv (e : Bool) (d a b : BitVec 6) (m l : BitVec 2) (w : BitVec 1)
  | vffma (e : Bool) (d a b : BitVec 6) (m l : BitVec 2) (w : BitVec 1)
  | vffms (e : Bool) (d a b : BitVec 6) (m l : BitVec 2) (w : BitVec 1)
  | vfnma (e : Bool) (d a b : BitVec 6) (m l : BitVec 2) (w : BitVec 1)
  | vfnms (e : Bool) (d a b : BitVec 6) (m l : BitVec 2) (w : BitVec 1)
  | vfmin (e : Bool) (d a b : BitVec 6) (m l : BitVec 2) (w : BitVec 1)
  | vfmax (e : Bool) (d a b : BitVec 6) (m l : BitVec 2) (w : BitVec 1)
  | vfcmp (e : Bool) (p c : BitVec 4) (a b : BitVec 6) (m l : BitVec 2)
  | vfsqrt (e : Bool) (d a : BitVec 6) (m : BitVec 2) (l w : BitVec 1)
  | vfrcp (e : Bool) (d a : BitVec 6) (m : BitVec 2) (l w : BitVec 1)
  | vfrsq (e : Bool) (d a : BitVec 6) (m : BitVec 2) (l w : BitVec 1)
  | vfexp2f (e : Bool) (d a : BitVec 6) (m : BitVec 2) (l w : BitVec 1)
  | vfgetexp (e : Bool) (d a : BitVec 6) (m : BitVec 2) (l w : BitVec 1)
  | vfgetman (e : Bool) (d a : BitVec 6) (m : BitVec 2) (l w : BitVec 1)
  | vfclass (e : Bool) (d a : BitVec 6) (m : BitVec 2) (l w : BitVec 1)
  | vfabs (e : Bool) (d a : BitVec 6) (m : BitVec 2) (l w : BitVec 1)
  | vfneg (e : Bool) (d a : BitVec 6) (m : BitVec 2) (l w : BitVec 1)
  | vfround (e : Bool) (d a : BitVec 6) (m : BitVec 2) (l w : BitVec 1)
  | vfroundRne (e : Bool) (d a : BitVec 6) (m : BitVec 2) (l w : BitVec 1)
  | vfroundRtz (e : Bool) (d a : BitVec 6) (m : BitVec 2) (l w : BitVec 1)
  | vfroundRdn (e : Bool) (d a : BitVec 6) (m : BitVec 2) (l w : BitVec 1)
  | vfroundRup (e : Bool) (d a : BitVec 6) (m : BitVec 2) (l w : BitVec 1)
  | vfscaleb (e : Bool) (d a b : BitVec 6) (m l : BitVec 2) (w : BitVec 1)
  | vfsgnj (e : Bool) (d a b : BitVec 6) (m l : BitVec 2) (w : BitVec 1)
  | vfcvt (e : Bool) (d a : BitVec 6) (x y : BitVec 3) (m : BitVec 2) (l w : BitVec 1)
  | vfcvtBlockToF32 (e : Bool) (x : BlockCvt)
  | vfcvtF32ToBlock (e : Bool) (x : BlockCvt)
  | vectorLongForm (e : Bool) (x : VecLong)
  | pand (e : Bool) (d a b : BitVec 4) (m : BitVec 2)
  | por (e : Bool) (d a b : BitVec 4) (m : BitVec 2)
  | pxor (e : Bool) (d a b : BitVec 4) (m : BitVec 2)
  | pandn (e : Bool) (d a b : BitVec 4) (m : BitVec 2)
  | pnot (e : Bool) (d a : BitVec 4) (m : BitVec 2)
  | pmov (e : Bool) (d a : BitVec 4) (m : BitVec 2)
  | psbf (e : Bool) (d a : BitVec 4) (m : BitVec 2)
  | psif (e : Bool) (d a : BitVec 4) (m : BitVec 2)
  | psof (e : Bool) (d a : BitVec 4) (m : BitVec 2)
  | pfirst (e : Bool) (d : BitVec 6) (a : BitVec 4) (m : BitVec 2)
  | ppopc (e : Bool) (d : BitVec 6) (a : BitVec 4) (m : BitVec 2)
  | piota (e : Bool) (d : BitVec 6) (a : BitVec 4) (m : BitVec 2)
  | vshfl (e : Bool) (d a b : BitVec 6) (m l : BitVec 2)
  | vshflx (e : Bool) (d a b : BitVec 6) (m : BitVec 2) (l : BitVec 1)
  | vlup (e : Bool) (d a b : BitVec 6) (m : BitVec 2) (l : BitVec 1)
  | vldn (e : Bool) (d a b : BitVec 6) (m : BitVec 2) (l : BitVec 1)
  | vcompress (e : Bool) (d a : BitVec 6) (m : BitVec 2) (l w : BitVec 1)
  | vexpand (e : Bool) (d a : BitVec 6) (m : BitVec 2) (l w : BitVec 1)
  | vredSum (e : Bool) (d a : BitVec 6) (m : BitVec 2) (l : BitVec 1)
  | vredMin (e : Bool) (d a : BitVec 6) (m : BitVec 2) (l : BitVec 1)
  | vredMax (e : Bool) (d a : BitVec 6) (m : BitVec 2) (l : BitVec 1)
  | vredAnd (e : Bool) (d a : BitVec 6) (m : BitVec 2) (l : BitVec 1)
  | vredOr (e : Bool) (d a : BitVec 6) (m : BitVec 2) (l : BitVec 1)
  | vredXor (e : Bool) (d a : BitVec 6) (m : BitVec 2) (l : BitVec 1)
  | vredFsumO (e : Bool) (d a : BitVec 6) (m : BitVec 2) (l : BitVec 1)
  | vredFsumU (e : Bool) (d a : BitVec 6) (m : BitVec 2) (l : BitVec 1)
  | vredFmin (e : Bool) (d a : BitVec 6) (m : BitVec 2) (l : BitVec 1)
  | vredFmax (e : Bool) (d a : BitVec 6) (m : BitVec 2) (l : BitVec 1)
  | vscan (e : Bool) (d a : BitVec 6) (x : BitVec 1) (o : BitVec 5) (m : BitVec 2) (l : BitVec 1)
  | vballot (e : Bool) (d : BitVec 6) (a : BitVec 4) (b : BitVec 6)
  | vvoteAny (e : Bool) (d : BitVec 6) (a : BitVec 4) (m : BitVec 2)
  | vvoteAll (e : Bool) (d : BitVec 6) (a : BitVec 4) (m : BitVec 2)
  | vvoteCnt (e : Bool) (d : BitVec 6) (a : BitVec 4) (m : BitVec 2)
  | vmaxexp (e : Bool) (a : BitVec 6) (f k : BitVec 3) (m : BitVec 2) (l : BitVec 1)
  | vquant (e : Bool) (d a : BitVec 6) (f k : BitVec 3) (m : BitVec 2) (l : BitVec 1)
  | vdequant (e : Bool) (d a : BitVec 6) (k : BitVec 3) (m : BitVec 2) (l : BitVec 1)
  | sld (e : Bool) (d a : BitVec 6) (c : BitVec 4) (w : BitVec 2) (o : BitVec 6)
  | sst (e : Bool) (d a : BitVec 6) (c : BitVec 4) (w : BitVec 2) (o : BitVec 6)
  | vld (e : Bool) (d a : BitVec 6) (c : BitVec 4) (m : BitVec 2) (o : BitVec 6)
  | vst (e : Bool) (d a : BitVec 6) (c : BitVec 4) (m : BitVec 2) (o : BitVec 6)
  | vlds (e : Bool) (d a b : BitVec 6) (c : BitVec 4) (m : BitVec 1)
  | vsts (e : Bool) (d a b : BitVec 6) (c : BitVec 4) (m : BitVec 1)
  | vldx (e : Bool) (d a b : BitVec 6) (c : BitVec 4) (m : BitVec 1)
  | vstx (e : Bool) (d a b : BitVec 6) (c : BitVec 4) (m : BitVec 1)
  | vldff (e : Bool) (d a : BitVec 6) (c : BitVec 4) (m : BitVec 2) (o : BitVec 6)
  | vldw (e : Bool) (d a : BitVec 6) (z s : BitVec 1) (c : BitVec 4) (m : BitVec 1)
  | vstw (e : Bool) (d a : BitVec 6) (z : BitVec 1) (c : BitVec 4) (m : BitVec 1)
  | vldbp (e : Bool) (d a : BitVec 6) (c : BitVec 4) (m : BitVec 2) (s r : BitVec 1) (k : BitVec 3)
  | vlseg (e : Bool) (d a : BitVec 6) (k f : BitVec 3) (c : BitVec 4) (m : BitVec 1)
  | vsseg (e : Bool) (d a : BitVec 6) (k f : BitVec 3) (c : BitVec 4) (m : BitVec 1)
  | vldgl (e : Bool) (d a b : BitVec 6) (c : BitVec 4) (m : BitVec 1)
  | vstsc (e : Bool) (d a b : BitVec 6) (c : BitVec 4) (m : BitVec 1)
  | vldglLong (e : Bool) (x : LinkLong)
  | vstscLong (e : Bool) (x : LinkLong)
  | sll (e : Bool) (d a : BitVec 6) (c : BitVec 4) (w : BitVec 1)
  | ssc (e : Bool) (d a b : BitVec 6) (c : BitVec 4) (w : BitVec 1)
  | memLongControlForm (e : Bool) (x : MemCtl)
  | memLongOffsetForm (e : Bool) (d a : BitVec 6) (xop sub : BitVec 4) (off : BitVec 32) (hint : BitVec 4)
  | fence (e : Bool) (s : BitVec 3) (m : BitVec 16)
  | barinit (e : Bool) (a b : BitVec 6)
  | bararr (e : Bool) (d a b : BitVec 6)
  | barwait (e : Bool) (a b : BitVec 6)
  | ipost (e : Bool) (a : BitVec 6)
  | iwait (e : Bool) (a : BitVec 6) (d : BitVec 5)
  | stgpost (e : Bool) (a : BitVec 6) (r s : BitVec 3)
  | stgwait (e : Bool) (a : BitVec 6) (r : BitVec 3) (p : BitVec 1) (s : BitVec 3)
  | claim (e : Bool) (d a : BitVec 6)
  | waitw (e : Bool) (d a b : BitVec 6)
  | waitwExt (e : Bool) (d a b : BitVec 6)
  | tset (e : Bool) (d a : BitVec 6) (r : BitVec 1) (p : BitVec 4) (f : BitVec 5)
  | tget (e : Bool) (d : BitVec 6)
  | tbands (e : Bool) (d : BitVec 6) (b : BitVec 4)
  | obres (e : Bool) (h : BitVec 4) (a b : BitVec 6)
  | obrel (e : Bool) (h : BitVec 4)
  | obfill (e : Bool) (c a b : BitVec 6) (h : BitVec 4)
  | obscale (e : Bool) (c a : BitVec 6) (k : BitVec 3) (h : BitVec 4)
  | mlds (e : Bool) (b a : BitVec 6) (p : BitVec 1) (h : BitVec 4)
  | mswap (e : Bool)
  | mrbnd (e : Bool) (a : BitVec 6)
  | mtag (e : Bool) (a b : BitVec 6)
  | mma (e : Bool) (c : BitVec 2) (h : BitVec 4) (a : BitVec 6) (r p : BitVec 4) (z : BitVec 1)
  | mmaG (e : Bool) (c : BitVec 2) (h : BitVec 4) (a : BitVec 6) (r p : BitVec 4) (z : BitVec 1)
  | gangset (e : Bool) (a : BitVec 6)
  | mguide (e : Bool) (d c u : BitVec 2) (s : BitVec 6) (p : BitVec 4)
  | mzero (e : Bool) (c : BitVec 2)
  | maccLd (e : Bool) (c : BitVec 2) (a : BitVec 6)
  | maccSt (e : Bool) (c : BitVec 2) (a b : BitVec 6)
  | mrd (e : Bool) (v a b : BitVec 6) (c : BitVec 2)
  | mwr (e : Bool) (v a b : BitVec 6) (c : BitVec 2)
  | rcount (e : Bool) (a b : BitVec 6)
  | rcsnap (e : Bool) (d a : BitVec 6)
  | matrixLongForm (e : Bool) (xop : BitVec 4) (body : BitVec 24) (cls : BitVec 4) (scope : BitVec 3) (hint : BitVec 4)
  | cpy (e : Bool) (q : BitVec 3) (p : BitVec 1) (a : BitVec 6) (r s : BitVec 3) (c : BitVec 4)
  | cpyLong (e : Bool) (q : BitVec 3) (p : BitVec 1) (a : BitVec 6) (r s : BitVec 3) (cls : BitVec 4) (scope : BitVec 3) (x : BitVec 6) (hint : BitVec 4)
  | qfence (e : Bool) (m : BitVec 9)
  | qwait (e : Bool) (n : BitVec 4)
  | qwaitClr (e : Bool) (n : BitVec 4)
  | launch (e : Bool) (d a b : BitVec 6)
  | launchW (e : Bool) (d a b : BitVec 6)
  | gsig (e : Bool) (d a : BitVec 6)
  | gcond (e : Bool) (a b : BitVec 6)
  | sysrd (e : Bool) (d : BitVec 6) (i : BitVec 12)
  | syswr (e : Bool) (d : BitVec 6) (i : BitVec 12)
  | syswrVcfg (e : Bool) (d : BitVec 6)
  | fqdone (e : Bool) (d : BitVec 6)
  | trap (e : Bool) (c : BitVec 16)
  | eret (e : Bool)
  | brk (e : Bool) (c : BitVec 16)
  | icinvAll (e : Bool)
  | icinv (e : Bool) (a b : BitVec 6)
  | yield (e : Bool)
  | nop (e : Bool)
  | halt (e : Bool)
  | pwrhint (e : Bool) (a : BitVec 6) (k : BitVec 4)
  deriving DecidableEq, Repr

end Sys2Proof
end

