-- ==== Sys2Proof/Decode.lean ====
section
/-! DEFINITION. From instruction words to `Instr` and back. Words are natural numbers: bit 0 of the first word is the least
significant bit, and the second word of a long form counts on from bit 32 (R3, R215). The decoder looks at the major opcode
(R224), then at the function field that the owning chapter names (R226), then at the must-be-zero bits (R217, R228). Definitions that build one of the last
constructors of `Instr` are marked noncomputable: Lean's code generator has no object tags beyond 244 (the kernel
evaluates them all the same). -/

namespace Sys2Proof

/-- Bits [lo + n - 1 : lo] of a word. -/
def fld (w lo n : Nat) : BitVec n := BitVec.ofNat n (w / 2 ^ lo)

/-- Bit k of a word. -/
def bit (w k : Nat) : Bool := w / 2 ^ k % 2 == 1

/-- What the decoder answers: an instruction, or one of the two rejections of R228 (orders 2 and 3). -/
inductive Dec where
  | ok (i : Instr)
  | illegal      -- reserved major or function value, an encoding PXA 1.0 does not define: cause 0x01
  | mbz          -- a must-be-zero bit is 1: cause 0x02
  deriving DecidableEq, Repr

/-- A word with a must-be-zero bit that is 1: an encoding that is not defined comes first (R228, orders 2 and 3). -/
def badWord (illegal : Bool) : Dec := if illegal then .illegal else .mbz

/-- Major 0x00 (R243). -/
def decMajor00 (w : Nat) : Dec :=
  match w % 2 ^ 6 with
  | 0 => .ok (.sadd (bit w 31) (fld w 18 6) (fld w 12 6) (fld w 6 6))
  | 1 => .ok (.ssub (bit w 31) (fld w 18 6) (fld w 12 6) (fld w 6 6))
  | 2 => .ok (.sand (bit w 31) (fld w 18 6) (fld w 12 6) (fld w 6 6))
  | 3 => .ok (.sandn (bit w 31) (fld w 18 6) (fld w 12 6) (fld w 6 6))
  | 4 => .ok (.sor (bit w 31) (fld w 18 6) (fld w 12 6) (fld w 6 6))
  | 5 => .ok (.sxor (bit w 31) (fld w 18 6) (fld w 12 6) (fld w 6 6))
  | 6 => .ok (.sshl (bit w 31) (fld w 18 6) (fld w 12 6) (fld w 6 6))
  | 7 => .ok (.sshr (bit w 31) (fld w 18 6) (fld w 12 6) (fld w 6 6))
  | 8 => .ok (.ssra (bit w 31) (fld w 18 6) (fld w 12 6) (fld w 6 6))
  | 9 => .ok (.smin (bit w 31) (fld w 18 6) (fld w 12 6) (fld w 6 6))
  | 10 => .ok (.smax (bit w 31) (fld w 18 6) (fld w 12 6) (fld w 6 6))
  | 11 => .ok (.sminu (bit w 31) (fld w 18 6) (fld w 12 6) (fld w 6 6))
  | 12 => .ok (.smaxu (bit w 31) (fld w 18 6) (fld w 12 6) (fld w 6 6))
  | 13 => .ok (.smul (bit w 31) (fld w 18 6) (fld w 12 6) (fld w 6 6))
  | 14 => .ok (.smulh (bit w 31) (fld w 18 6) (fld w 12 6) (fld w 6 6))
  | 15 => .ok (.smulhu (bit w 31) (fld w 18 6) (fld w 12 6) (fld w 6 6))
  | 16 => .ok (.sdiv (bit w 31) (fld w 18 6) (fld w 12 6) (fld w 6 6))
  | 17 => .ok (.sdivu (bit w 31) (fld w 18 6) (fld w 12 6) (fld w 6 6))
  | 18 => .ok (.srem (bit w 31) (fld w 18 6) (fld w 12 6) (fld w 6 6))
  | 19 => .ok (.sremu (bit w 31) (fld w 18 6) (fld w 12 6) (fld w 6 6))
  | 20 => .ok (.sseq (bit w 31) (fld w 18 6) (fld w 12 6) (fld w 6 6))
  | 21 => .ok (.ssne (bit w 31) (fld w 18 6) (fld w 12 6) (fld w 6 6))
  | 22 => .ok (.sslt (bit w 31) (fld w 18 6) (fld w 12 6) (fld w 6 6))
  | 23 => .ok (.ssltu (bit w 31) (fld w 18 6) (fld w 12 6) (fld w 6 6))
  | 24 => .ok (.ssle (bit w 31) (fld w 18 6) (fld w 12 6) (fld w 6 6))
  | 25 => .ok (.ssleu (bit w 31) (fld w 18 6) (fld w 12 6) (fld w 6 6))
  | 26 => if w / 2 ^ 6 % 2 ^ 6 = 0 then .ok (.sclz (bit w 31) (fld w 18 6) (fld w 12 6)) else .mbz
  | 27 => if w / 2 ^ 6 % 2 ^ 6 = 0 then .ok (.sctz (bit w 31) (fld w 18 6) (fld w 12 6)) else .mbz
  | 28 => if w / 2 ^ 6 % 2 ^ 6 = 0 then .ok (.spopc (bit w 31) (fld w 18 6) (fld w 12 6)) else .mbz
  | 29 => if w / 2 ^ 6 % 2 ^ 6 = 0 then .ok (.sbrev (bit w 31) (fld w 18 6) (fld w 12 6)) else .mbz
  | 30 => .ok (.ssext (bit w 31) (fld w 18 6) (fld w 12 6) (fld w 6 6))
  | 31 => .ok (.szext (bit w 31) (fld w 18 6) (fld w 12 6) (fld w 6 6))
  | 32 => if w / 2 ^ 6 % 2 ^ 6 = 0 then .ok (.smov (bit w 31) (fld w 18 6) (fld w 12 6)) else .mbz
  | _ => .illegal

/-- Major 0x01 (R245). -/
def decMajor01 (w : Nat) : Dec :=
  .ok (.saddi (bit w 31) (fld w 18 6) (fld w 12 6) (fld w 0 12))

/-- Major 0x02 (R245). -/
def decMajor02 (w : Nat) : Dec :=
  .ok (.sandi (bit w 31) (fld w 18 6) (fld w 12 6) (fld w 0 12))

/-- Major 0x03 (R245). -/
def decMajor03 (w : Nat) : Dec :=
  .ok (.sori (bit w 31) (fld w 18 6) (fld w 12 6) (fld w 0 12))

/-- Major 0x04 (R245). -/
def decMajor04 (w : Nat) : Dec :=
  .ok (.sxori (bit w 31) (fld w 18 6) (fld w 12 6) (fld w 0 12))

/-- Major 0x05 (R245). -/
def decMajor05 (w : Nat) : Dec :=
  match w / 2 ^ 6 % 2 ^ 2 with
  | 0 => if w / 2 ^ 8 % 2 ^ 4 = 0 then .ok (.sshli (bit w 31) (fld w 18 6) (fld w 12 6) (fld w 0 6)) else .mbz
  | 1 => if w / 2 ^ 8 % 2 ^ 4 = 0 then .ok (.sshri (bit w 31) (fld w 18 6) (fld w 12 6) (fld w 0 6)) else .mbz
  | 2 => if w / 2 ^ 8 % 2 ^ 4 = 0 then .ok (.ssrai (bit w 31) (fld w 18 6) (fld w 12 6) (fld w 0 6)) else .mbz
  | _ => .illegal

/-- Major 0x06 (R245). -/
def decMajor06 (w : Nat) : Dec :=
  match w / 2 ^ 11 % 2 ^ 1 with
  | 0 => .ok (.sslti (bit w 31) (fld w 18 6) (fld w 12 6) (fld w 0 11))
  | 1 => .ok (.ssltui (bit w 31) (fld w 18 6) (fld w 12 6) (fld w 0 11))
  | _ => .illegal

/-- Major 0x07 (R246). -/
def decMajor07 (w : Nat) : Dec :=
  .ok (.sli (bit w 31) (fld w 18 6) (fld w 0 18))

/-- Major 0x08 (R246). -/
def decMajor08 (w : Nat) : Dec :=
  .ok (.slhi (bit w 31) (fld w 18 6) (fld w 0 18))

/-- Major 0x09 (R247). -/
def decMajor09 (w : Nat) : Dec :=
  match w / 2 ^ 3 % 2 ^ 3 with
  | 0 => .ok (.sadr (bit w 31) (fld w 18 6) (fld w 12 6) (fld w 6 6) (fld w 0 3))
  | 1 => if w / 2 ^ 12 % 2 ^ 6 = 0 then .ok (.sadrPc (bit w 31) (fld w 18 6) (fld w 6 6) (fld w 0 3)) else .mbz
  | 2 => .ok (.sadrLoc (bit w 31) (fld w 18 6) (fld w 12 6) (fld w 6 6) (fld w 0 3))
  | 3 => .ok (.sadrCw (bit w 31) (fld w 18 6) (fld w 12 6) (fld w 6 6) (fld w 0 3))
  | 4 => .ok (.sadrWs (bit w 31) (fld w 18 6) (fld w 12 6) (fld w 6 6) (fld w 0 3))
  | _ => .illegal

/-- Major 0x0A (R249). -/
def decMajor0A (w : Nat) : Dec :=
  match w / 2 ^ 1 % 2 ^ 5 with
  | 0 => .ok (.sfadd (bit w 31) (fld w 18 6) (fld w 12 6) (fld w 6 6) (fld w 0 1))
  | 1 => .ok (.sfsub (bit w 31) (fld w 18 6) (fld w 12 6) (fld w 6 6) (fld w 0 1))
  | 2 => .ok (.sfmul (bit w 31) (fld w 18 6) (fld w 12 6) (fld w 6 6) (fld w 0 1))
  | 3 => .ok (.sffma (bit w 31) (fld w 18 6) (fld w 12 6) (fld w 6 6) (fld w 0 1))
  | 4 => .ok (.sfdiv (bit w 31) (fld w 18 6) (fld w 12 6) (fld w 6 6) (fld w 0 1))
  | 5 => if w / 2 ^ 6 % 2 ^ 6 = 0 then .ok (.sfsqrt (bit w 31) (fld w 18 6) (fld w 12 6) (fld w 0 1)) else .mbz
  | 6 => .ok (.sfmin (bit w 31) (fld w 18 6) (fld w 12 6) (fld w 6 6) (fld w 0 1))
  | 7 => .ok (.sfmax (bit w 31) (fld w 18 6) (fld w 12 6) (fld w 6 6) (fld w 0 1))
  | 8 => .ok (.sfcmpEq (bit w 31) (fld w 18 6) (fld w 12 6) (fld w 6 6) (fld w 0 1))
  | 9 => .ok (.sfcmpLt (bit w 31) (fld w 18 6) (fld w 12 6) (fld w 6 6) (fld w 0 1))
  | 10 => .ok (.sfcmpLe (bit w 31) (fld w 18 6) (fld w 12 6) (fld w 6 6) (fld w 0 1))
  | 11 => .ok (.sfcmpUn (bit w 31) (fld w 18 6) (fld w 12 6) (fld w 6 6) (fld w 0 1))
  | 12 => if w % 2 = 1 then .illegal else .ok (.sfcvt (bit w 31) (fld w 18 6) (fld w 12 6) (fld w 9 3) (fld w 6 3))
  | _ => .illegal

/-- Major 0x20 (R252). -/
def decMajor20 (w : Nat) : Dec :=
  .ok (.br (bit w 31) (fld w 0 24))

/-- Major 0x21 (R254). -/
def decMajor21 (w : Nat) : Dec :=
  .ok (.bnz (bit w 31) (fld w 18 6) (fld w 0 18))

/-- Major 0x22 (R254). -/
def decMajor22 (w : Nat) : Dec :=
  .ok (.bz (bit w 31) (fld w 18 6) (fld w 0 18))

/-- Major 0x23 (R252). -/
def decMajor23 (w : Nat) : Dec :=
  .ok (.call (bit w 31) (fld w 0 24))

/-- Major 0x24 (R253). -/
def decMajor24 (w : Nat) : Dec :=
  match w % 2 ^ 6 with
  | 0 => if w / 2 ^ 6 % 2 ^ 6 = 0 ∧ w / 2 ^ 18 % 2 ^ 6 = 0 then .ok (.jr (bit w 31) (fld w 12 6)) else .mbz
  | 1 => if w / 2 ^ 6 % 2 ^ 6 = 0 ∧ w / 2 ^ 18 % 2 ^ 6 = 0 then .ok (.callr (bit w 31) (fld w 12 6)) else .mbz
  | 2 => if w / 2 ^ 6 % 2 ^ 18 = 0 then .ok (.ret (bit w 31)) else .mbz
  | _ => .illegal

/-- Major 0x25 (R255). -/
def decMajor25 (w : Nat) : Dec :=
  .ok (.loop (bit w 31) (fld w 18 6) (fld w 0 18))

/-- Major 0x26 (R257). -/
def decMajor26 (w : Nat) : Dec :=
  if w / 2 ^ 9 % 2 ^ 3 = 0 ∧ w / 2 ^ 16 % 2 ^ 2 = 0 then .ok (.rpt (bit w 31) (fld w 18 6) (fld w 12 4) (fld w 0 9)) else badWord (decide (256 < w % 2 ^ 9))

/-- Major 0x27 (R168). -/
def decMajor27 (w : Nat) : Dec :=
  .ok (.vbr (bit w 31) (fld w 20 4) (fld w 16 4) (fld w 0 16))

/-- Major 0x28 (R170). -/
def decMajor28 (w : Nat) : Dec :=
  if w / 2 ^ 4 % 2 ^ 20 = 0 then .ok (.vjoin (bit w 31) (fld w 0 4)) else .mbz

/-- Major 0x29 (R171). -/
def decMajor29 (w : Nat) : Dec :=
  match w / 2 ^ 23 % 2 ^ 1 with
  | 0 => if w / 2 ^ 18 % 2 ^ 1 = 0 then .ok (.vmeld (bit w 31) (fld w 19 4) (fld w 0 18)) else .mbz
  | 1 => if w % 2 ^ 19 = 0 then .ok (.vunmeld (bit w 31) (fld w 19 4)) else .mbz
  | _ => .illegal

/-- Major 0x2A (R262). -/
def decMajor2A (w : Nat) : Dec :=
  match w / 2 ^ 16 % 2 ^ 2 with
  | 0 => if w / 2 ^ 4 % 2 ^ 12 = 0 ∧ w / 2 ^ 18 % 2 ^ 6 = 0 then .ok (.vexit (bit w 31) (fld w 0 4)) else .mbz
  | 1 => if w / 2 ^ 4 % 2 ^ 12 = 0 ∧ w / 2 ^ 18 % 2 ^ 6 = 0 then .ok (.vbrk (bit w 31) (fld w 0 4)) else .mbz
  | _ => .illegal

/-- Major 0x2B (R263). -/
def decMajor2B (w : Nat) : Dec :=
  match w % 2 ^ 6 with
  | 0 => if w / 2 ^ 10 % 2 ^ 2 = 0 ∧ w / 2 ^ 16 % 2 ^ 2 = 0 then .ok (.vany (bit w 31) (fld w 18 6) (fld w 12 4) (fld w 6 4)) else .mbz
  | 1 => if w / 2 ^ 10 % 2 ^ 2 = 0 ∧ w / 2 ^ 16 % 2 ^ 2 = 0 then .ok (.vall (bit w 31) (fld w 18 6) (fld w 12 4) (fld w 6 4)) else .mbz
  | 2 => if w / 2 ^ 10 % 2 ^ 2 = 0 ∧ w / 2 ^ 16 % 2 ^ 2 = 0 then .ok (.vnone (bit w 31) (fld w 18 6) (fld w 12 4) (fld w 6 4)) else .mbz
  | _ => .illegal

/-- Major 0x2C (R264). -/
def decMajor2C (w : Nat) : Dec :=
  match w / 2 ^ 11 % 2 ^ 1 with
  | 0 => if w / 2 ^ 2 % 2 ^ 9 = 0 ∧ w / 2 ^ 12 % 2 ^ 6 = 0 then .ok (.vcfg (bit w 31) (fld w 18 6) (fld w 0 2)) else .mbz
  | 1 => if w % 2 ^ 11 = 0 then .ok (.vgrant (bit w 31) (fld w 18 6) (fld w 12 6)) else .mbz
  | _ => .illegal

/-- Major 0x30 (R274). -/
def decMajor30 (w : Nat) : Dec :=
  match w % 2 ^ 1 with
  | 0 => .ok (.vadd (bit w 31) (fld w 18 6) (fld w 12 6) (fld w 6 6) (fld w 4 2) (fld w 2 2) (fld w 1 1))
  | 1 => .ok (.vsub (bit w 31) (fld w 18 6) (fld w 12 6) (fld w 6 6) (fld w 4 2) (fld w 2 2) (fld w 1 1))
  | _ => .illegal

/-- Major 0x31 (R274). -/
def decMajor31 (w : Nat) : Dec :=
  match w % 2 ^ 1 with
  | 0 => .ok (.vmul (bit w 31) (fld w 18 6) (fld w 12 6) (fld w 6 6) (fld w 4 2) (fld w 2 2) (fld w 1 1))
  | 1 => .ok (.vmulh (bit w 31) (fld w 18 6) (fld w 12 6) (fld w 6 6) (fld w 4 2) (fld w 2 2) (fld w 1 1))
  | _ => .illegal

/-- Major 0x32 (R274). -/
def decMajor32 (w : Nat) : Dec :=
  match w % 2 ^ 1 with
  | 0 => .ok (.vmulhu (bit w 31) (fld w 18 6) (fld w 12 6) (fld w 6 6) (fld w 4 2) (fld w 2 2) (fld w 1 1))
  | 1 => .ok (.vmad (bit w 31) (fld w 18 6) (fld w 12 6) (fld w 6 6) (fld w 4 2) (fld w 2 2) (fld w 1 1))
  | _ => .illegal

/-- Major 0x33 (R274). -/
def decMajor33 (w : Nat) : Dec :=
  match w % 2 ^ 1 with
  | 0 => .ok (.vand (bit w 31) (fld w 18 6) (fld w 12 6) (fld w 6 6) (fld w 4 2) (fld w 2 2) (fld w 1 1))
  | 1 => .ok (.vor (bit w 31) (fld w 18 6) (fld w 12 6) (fld w 6 6) (fld w 4 2) (fld w 2 2) (fld w 1 1))
  | _ => .illegal

/-- Major 0x34 (R274). -/
def decMajor34 (w : Nat) : Dec :=
  match w % 2 ^ 1 with
  | 0 => .ok (.vxor (bit w 31) (fld w 18 6) (fld w 12 6) (fld w 6 6) (fld w 4 2) (fld w 2 2) (fld w 1 1))
  | 1 => .ok (.vandn (bit w 31) (fld w 18 6) (fld w 12 6) (fld w 6 6) (fld w 4 2) (fld w 2 2) (fld w 1 1))
  | _ => .illegal

/-- Major 0x35 (R274). -/
def decMajor35 (w : Nat) : Dec :=
  match w % 2 ^ 1 with
  | 0 => .ok (.vshl (bit w 31) (fld w 18 6) (fld w 12 6) (fld w 6 6) (fld w 4 2) (fld w 2 2) (fld w 1 1))
  | 1 => .ok (.vshr (bit w 31) (fld w 18 6) (fld w 12 6) (fld w 6 6) (fld w 4 2) (fld w 2 2) (fld w 1 1))
  | _ => .illegal

/-- Major 0x36 (R274). -/
def decMajor36 (w : Nat) : Dec :=
  match w % 2 ^ 1 with
  | 0 => .ok (.vsra (bit w 31) (fld w 18 6) (fld w 12 6) (fld w 6 6) (fld w 4 2) (fld w 2 2) (fld w 1 1))
  | 1 => .ok (.vrot (bit w 31) (fld w 18 6) (fld w 12 6) (fld w 6 6) (fld w 4 2) (fld w 2 2) (fld w 1 1))
  | _ => .illegal

/-- Major 0x37 (R274). -/
def decMajor37 (w : Nat) : Dec :=
  match w % 2 ^ 1 with
  | 0 => .ok (.vmin (bit w 31) (fld w 18 6) (fld w 12 6) (fld w 6 6) (fld w 4 2) (fld w 2 2) (fld w 1 1))
  | 1 => .ok (.vmax (bit w 31) (fld w 18 6) (fld w 12 6) (fld w 6 6) (fld w 4 2) (fld w 2 2) (fld w 1 1))
  | _ => .illegal

/-- Major 0x38 (R274). -/
def decMajor38 (w : Nat) : Dec :=
  match w % 2 ^ 1 with
  | 0 => .ok (.vminu (bit w 31) (fld w 18 6) (fld w 12 6) (fld w 6 6) (fld w 4 2) (fld w 2 2) (fld w 1 1))
  | 1 => .ok (.vmaxu (bit w 31) (fld w 18 6) (fld w 12 6) (fld w 6 6) (fld w 4 2) (fld w 2 2) (fld w 1 1))
  | _ => .illegal

/-- Major 0x39 (R274). -/
def decMajor39 (w : Nat) : Dec :=
  match w % 2 ^ 1 with
  | 0 => .ok (.vadds (bit w 31) (fld w 18 6) (fld w 12 6) (fld w 6 6) (fld w 4 2) (fld w 2 2) (fld w 1 1))
  | 1 => .ok (.vsubs (bit w 31) (fld w 18 6) (fld w 12 6) (fld w 6 6) (fld w 4 2) (fld w 2 2) (fld w 1 1))
  | _ => .illegal

/-- Major 0x3A (R274). -/
def decMajor3A (w : Nat) : Dec :=
  match w % 2 ^ 1 with
  | 0 => .ok (.vaddsu (bit w 31) (fld w 18 6) (fld w 12 6) (fld w 6 6) (fld w 4 2) (fld w 2 2) (fld w 1 1))
  | 1 => .ok (.vsubsu (bit w 31) (fld w 18 6) (fld w 12 6) (fld w 6 6) (fld w 4 2) (fld w 2 2) (fld w 1 1))
  | _ => .illegal

/-- Major 0x3B (R275). -/
def decMajor3B (w : Nat) : Dec :=
  .ok (.vcmp (bit w 31) (fld w 20 4) (fld w 16 4) (fld w 10 6) (fld w 4 6) (fld w 2 2) (fld w 0 2))

/-- Major 0x3C (R276). -/
def decMajor3C (w : Nat) : Dec :=
  match w % 2 ^ 1 with
  | 0 => .ok (.vsel (bit w 31) (fld w 18 6) (fld w 12 6) (fld w 6 6) (fld w 4 2) (fld w 2 2) (fld w 1 1))
  | 1 => if w / 2 ^ 3 % 2 ^ 1 = 0 ∧ w / 2 ^ 6 % 2 ^ 6 = 0 then .ok (.vmov (bit w 31) (fld w 18 6) (fld w 12 6) (fld w 4 2) (fld w 2 1) (fld w 1 1)) else .mbz
  | _ => .illegal

/-- Major 0x3D (R276). -/
def decMajor3D (w : Nat) : Dec :=
  match w % 2 ^ 1 with
  | 0 => if w / 2 ^ 2 % 2 ^ 2 = 0 ∧ w / 2 ^ 6 % 2 ^ 6 = 0 then .ok (.vbcast (bit w 31) (fld w 18 6) (fld w 12 6) (fld w 4 2) (fld w 1 1)) else .mbz
  | 1 => if w / 2 ^ 2 % 2 ^ 2 = 0 ∧ w / 2 ^ 6 % 2 ^ 12 = 0 then .ok (.vid (bit w 31) (fld w 18 6) (fld w 4 2) (fld w 1 1)) else .mbz
  | _ => .illegal

/-- Major 0x3E (R276). -/
def decMajor3E (w : Nat) : Dec :=
  match w % 2 ^ 1 with
  | 0 => if w / 2 ^ 1 % 2 ^ 1 = 0 ∧ w / 2 ^ 3 % 2 ^ 3 = 0 then .ok (.vext (bit w 31) (fld w 18 6) (fld w 12 6) (fld w 6 6) (fld w 2 1)) else .mbz
  | 1 => if w / 2 ^ 2 % 2 ^ 4 = 0 then .ok (.vins (bit w 31) (fld w 18 6) (fld w 12 6) (fld w 6 6) (fld w 1 1)) else .mbz
  | _ => .illegal

/-- Major 0x3F (R277). -/
def decMajor3F (w : Nat) : Dec :=
  if w % 2 ^ 1 = 0 ∧ w / 2 ^ 3 % 2 ^ 1 = 0 then .ok (.vcvt (bit w 31) (fld w 18 6) (fld w 12 6) (fld w 6 6) (fld w 4 2) (fld w 2 1) (fld w 1 1)) else badWord (decide (0x14 < w / 2 ^ 6 % 2 ^ 6))

/-- Major 0x40 (R278). -/
def decMajor40 (w : Nat) : Dec :=
  match w % 2 ^ 1 with
  | 0 => .ok (.vfadd (bit w 31) (fld w 18 6) (fld w 12 6) (fld w 6 6) (fld w 4 2) (fld w 2 2) (fld w 1 1))
  | 1 => .ok (.vfsub (bit w 31) (fld w 18 6) (fld w 12 6) (fld w 6 6) (fld w 4 2) (fld w 2 2) (fld w 1 1))
  | _ => .illegal

/-- Major 0x41 (R278). -/
def decMajor41 (w : Nat) : Dec :=
  match w % 2 ^ 1 with
  | 0 => .ok (.vfmul (bit w 31) (fld w 18 6) (fld w 12 6) (fld w 6 6) (fld w 4 2) (fld w 2 2) (fld w 1 1))
  | 1 => .ok (.vfdiv (bit w 31) (fld w 18 6) (fld w 12 6) (fld w 6 6) (fld w 4 2) (fld w 2 2) (fld w 1 1))
  | _ => .illegal

/-- Major 0x42 (R278). -/
def decMajor42 (w : Nat) : Dec :=
  match w % 2 ^ 1 with
  | 0 => .ok (.vffma (bit w 31) (fld w 18 6) (fld w 12 6) (fld w 6 6) (fld w 4 2) (fld w 2 2) (fld w 1 1))
  | 1 => .ok (.vffms (bit w 31) (fld w 18 6) (fld w 12 6) (fld w 6 6) (fld w 4 2) (fld w 2 2) (fld w 1 1))
  | _ => .illegal

/-- Major 0x43 (R278). -/
def decMajor43 (w : Nat) : Dec :=
  match w % 2 ^ 1 with
  | 0 => .ok (.vfnma (bit w 31) (fld w 18 6) (fld w 12 6) (fld w 6 6) (fld w 4 2) (fld w 2 2) (fld w 1 1))
  | 1 => .ok (.vfnms (bit w 31) (fld w 18 6) (fld w 12 6) (fld w 6 6) (fld w 4 2) (fld w 2 2) (fld w 1 1))
  | _ => .illegal

/-- Major 0x44 (R278). -/
def decMajor44 (w : Nat) : Dec :=
  match w % 2 ^ 1 with
  | 0 => .ok (.vfmin (bit w 31) (fld w 18 6) (fld w 12 6) (fld w 6 6) (fld w 4 2) (fld w 2 2) (fld w 1 1))
  | 1 => .ok (.vfmax (bit w 31) (fld w 18 6) (fld w 12 6) (fld w 6 6) (fld w 4 2) (fld w 2 2) (fld w 1 1))
  | _ => .illegal

/-- Major 0x45 (R280). -/
def decMajor45 (w : Nat) : Dec :=
  .ok (.vfcmp (bit w 31) (fld w 20 4) (fld w 16 4) (fld w 10 6) (fld w 4 6) (fld w 2 2) (fld w 0 2))

/-- Major 0x46 (R281). -/
def decMajor46 (w : Nat) : Dec :=
  match w / 2 ^ 6 % 2 ^ 6 with
  | 0 => if w % 2 ^ 1 = 0 ∧ w / 2 ^ 3 % 2 ^ 1 = 0 then .ok (.vfsqrt (bit w 31) (fld w 18 6) (fld w 12 6) (fld w 4 2) (fld w 2 1) (fld w 1 1)) else .mbz
  | 1 => if w % 2 ^ 1 = 0 ∧ w / 2 ^ 3 % 2 ^ 1 = 0 then .ok (.vfrcp (bit w 31) (fld w 18 6) (fld w 12 6) (fld w 4 2) (fld w 2 1) (fld w 1 1)) else .mbz
  | 2 => if w % 2 ^ 1 = 0 ∧ w / 2 ^ 3 % 2 ^ 1 = 0 then .ok (.vfrsq (bit w 31) (fld w 18 6) (fld w 12 6) (fld w 4 2) (fld w 2 1) (fld w 1 1)) else .mbz
  | 3 => if w % 2 ^ 1 = 0 ∧ w / 2 ^ 3 % 2 ^ 1 = 0 then .ok (.vfexp2f (bit w 31) (fld w 18 6) (fld w 12 6) (fld w 4 2) (fld w 2 1) (fld w 1 1)) else .mbz
  | 4 => if w % 2 ^ 1 = 0 ∧ w / 2 ^ 3 % 2 ^ 1 = 0 then .ok (.vfgetexp (bit w 31) (fld w 18 6) (fld w 12 6) (fld w 4 2) (fld w 2 1) (fld w 1 1)) else .mbz
  | 5 => if w % 2 ^ 1 = 0 ∧ w / 2 ^ 3 % 2 ^ 1 = 0 then .ok (.vfgetman (bit w 31) (fld w 18 6) (fld w 12 6) (fld w 4 2) (fld w 2 1) (fld w 1 1)) else .mbz
  | 6 => if w % 2 ^ 1 = 0 ∧ w / 2 ^ 3 % 2 ^ 1 = 0 then .ok (.vfclass (bit w 31) (fld w 18 6) (fld w 12 6) (fld w 4 2) (fld w 2 1) (fld w 1 1)) else .mbz
  | 7 => if w % 2 ^ 1 = 0 ∧ w / 2 ^ 3 % 2 ^ 1 = 0 then .ok (.vfabs (bit w 31) (fld w 18 6) (fld w 12 6) (fld w 4 2) (fld w 2 1) (fld w 1 1)) else .mbz
  | 8 => if w % 2 ^ 1 = 0 ∧ w / 2 ^ 3 % 2 ^ 1 = 0 then .ok (.vfneg (bit w 31) (fld w 18 6) (fld w 12 6) (fld w 4 2) (fld w 2 1) (fld w 1 1)) else .mbz
  | 9 => if w % 2 ^ 1 = 0 ∧ w / 2 ^ 3 % 2 ^ 1 = 0 then .ok (.vfround (bit w 31) (fld w 18 6) (fld w 12 6) (fld w 4 2) (fld w 2 1) (fld w 1 1)) else .mbz
  | 10 => if w % 2 ^ 1 = 0 ∧ w / 2 ^ 3 % 2 ^ 1 = 0 then .ok (.vfroundRne (bit w 31) (fld w 18 6) (fld w 12 6) (fld w 4 2) (fld w 2 1) (fld w 1 1)) else .mbz
  | 11 => if w % 2 ^ 1 = 0 ∧ w / 2 ^ 3 % 2 ^ 1 = 0 then .ok (.vfroundRtz (bit w 31) (fld w 18 6) (fld w 12 6) (fld w 4 2) (fld w 2 1) (fld w 1 1)) else .mbz
  | 12 => if w % 2 ^ 1 = 0 ∧ w / 2 ^ 3 % 2 ^ 1 = 0 then .ok (.vfroundRdn (bit w 31) (fld w 18 6) (fld w 12 6) (fld w 4 2) (fld w 2 1) (fld w 1 1)) else .mbz
  | 13 => if w % 2 ^ 1 = 0 ∧ w / 2 ^ 3 % 2 ^ 1 = 0 then .ok (.vfroundRup (bit w 31) (fld w 18 6) (fld w 12 6) (fld w 4 2) (fld w 2 1) (fld w 1 1)) else .mbz
  | _ => .illegal

/-- Major 0x47 (R279). -/
def decMajor47 (w : Nat) : Dec :=
  match w % 2 ^ 1 with
  | 0 => .ok (.vfscaleb (bit w 31) (fld w 18 6) (fld w 12 6) (fld w 6 6) (fld w 4 2) (fld w 2 2) (fld w 1 1))
  | 1 => .ok (.vfsgnj (bit w 31) (fld w 18 6) (fld w 12 6) (fld w 6 6) (fld w 4 2) (fld w 2 2) (fld w 1 1))
  | _ => .illegal

/-- Major 0x48 (R283). -/
def decMajor48 (w : Nat) : Dec :=
  if w % 2 ^ 1 = 0 ∧ w / 2 ^ 3 % 2 ^ 1 = 0 then .ok (.vfcvt (bit w 31) (fld w 18 6) (fld w 12 6) (fld w 9 3) (fld w 6 3) (fld w 4 2) (fld w 2 1) (fld w 1 1)) else badWord (decide (5 < w / 2 ^ 9 % 2 ^ 3) || decide (5 < w / 2 ^ 6 % 2 ^ 3) || decide (w / 2 ^ 9 % 2 ^ 3 = w / 2 ^ 6 % 2 ^ 3))

/-- Major 0x49 (R285). -/
def decMajor49 (w : Nat) : Dec :=
  match w % 2 ^ 4 with
  | 0 => if w / 2 ^ 10 % 2 ^ 2 = 0 ∧ w / 2 ^ 16 % 2 ^ 2 = 0 ∧ w / 2 ^ 22 % 2 ^ 2 = 0 then .ok (.pand (bit w 31) (fld w 18 4) (fld w 12 4) (fld w 6 4) (fld w 4 2)) else .mbz
  | 1 => if w / 2 ^ 10 % 2 ^ 2 = 0 ∧ w / 2 ^ 16 % 2 ^ 2 = 0 ∧ w / 2 ^ 22 % 2 ^ 2 = 0 then .ok (.por (bit w 31) (fld w 18 4) (fld w 12 4) (fld w 6 4) (fld w 4 2)) else .mbz
  | 2 => if w / 2 ^ 10 % 2 ^ 2 = 0 ∧ w / 2 ^ 16 % 2 ^ 2 = 0 ∧ w / 2 ^ 22 % 2 ^ 2 = 0 then .ok (.pxor (bit w 31) (fld w 18 4) (fld w 12 4) (fld w 6 4) (fld w 4 2)) else .mbz
  | 3 => if w / 2 ^ 10 % 2 ^ 2 = 0 ∧ w / 2 ^ 16 % 2 ^ 2 = 0 ∧ w / 2 ^ 22 % 2 ^ 2 = 0 then .ok (.pandn (bit w 31) (fld w 18 4) (fld w 12 4) (fld w 6 4) (fld w 4 2)) else .mbz
  | 4 => if w / 2 ^ 6 % 2 ^ 6 = 0 ∧ w / 2 ^ 16 % 2 ^ 2 = 0 ∧ w / 2 ^ 22 % 2 ^ 2 = 0 then .ok (.pnot (bit w 31) (fld w 18 4) (fld w 12 4) (fld w 4 2)) else .mbz
  | 5 => if w / 2 ^ 6 % 2 ^ 6 = 0 ∧ w / 2 ^ 16 % 2 ^ 2 = 0 ∧ w / 2 ^ 22 % 2 ^ 2 = 0 then .ok (.pmov (bit w 31) (fld w 18 4) (fld w 12 4) (fld w 4 2)) else .mbz
  | _ => .illegal

/-- Major 0x4A (R286). -/
def decMajor4A (w : Nat) : Dec :=
  match w % 2 ^ 4 with
  | 0 => if w / 2 ^ 6 % 2 ^ 6 = 0 ∧ w / 2 ^ 16 % 2 ^ 2 = 0 ∧ w / 2 ^ 22 % 2 ^ 2 = 0 then .ok (.psbf (bit w 31) (fld w 18 4) (fld w 12 4) (fld w 4 2)) else .mbz
  | 1 => if w / 2 ^ 6 % 2 ^ 6 = 0 ∧ w / 2 ^ 16 % 2 ^ 2 = 0 ∧ w / 2 ^ 22 % 2 ^ 2 = 0 then .ok (.psif (bit w 31) (fld w 18 4) (fld w 12 4) (fld w 4 2)) else .mbz
  | 2 => if w / 2 ^ 6 % 2 ^ 6 = 0 ∧ w / 2 ^ 16 % 2 ^ 2 = 0 ∧ w / 2 ^ 22 % 2 ^ 2 = 0 then .ok (.psof (bit w 31) (fld w 18 4) (fld w 12 4) (fld w 4 2)) else .mbz
  | 3 => if w / 2 ^ 6 % 2 ^ 6 = 0 ∧ w / 2 ^ 16 % 2 ^ 2 = 0 then .ok (.pfirst (bit w 31) (fld w 18 6) (fld w 12 4) (fld w 4 2)) else .mbz
  | 4 => if w / 2 ^ 6 % 2 ^ 6 = 0 ∧ w / 2 ^ 16 % 2 ^ 2 = 0 then .ok (.ppopc (bit w 31) (fld w 18 6) (fld w 12 4) (fld w 4 2)) else .mbz
  | 5 => if w / 2 ^ 6 % 2 ^ 6 = 0 ∧ w / 2 ^ 16 % 2 ^ 2 = 0 then .ok (.piota (bit w 31) (fld w 18 6) (fld w 12 4) (fld w 4 2)) else .mbz
  | _ => .illegal

/-- Major 0x4B (R287). -/
def decMajor4B (w : Nat) : Dec :=
  match w % 2 ^ 2 with
  | 0 => .ok (.vshfl (bit w 31) (fld w 18 6) (fld w 12 6) (fld w 6 6) (fld w 4 2) (fld w 2 2))
  | 1 => if w / 2 ^ 3 % 2 ^ 1 = 0 then .ok (.vshflx (bit w 31) (fld w 18 6) (fld w 12 6) (fld w 6 6) (fld w 4 2) (fld w 2 1)) else .mbz
  | 2 => if w / 2 ^ 3 % 2 ^ 1 = 0 then .ok (.vlup (bit w 31) (fld w 18 6) (fld w 12 6) (fld w 6 6) (fld w 4 2) (fld w 2 1)) else .mbz
  | 3 => if w / 2 ^ 3 % 2 ^ 1 = 0 then .ok (.vldn (bit w 31) (fld w 18 6) (fld w 12 6) (fld w 6 6) (fld w 4 2) (fld w 2 1)) else .mbz
  | _ => .illegal

/-- Major 0x4C (R288). -/
def decMajor4C (w : Nat) : Dec :=
  match w % 2 ^ 1 with
  | 0 => if w / 2 ^ 3 % 2 ^ 1 = 0 ∧ w / 2 ^ 6 % 2 ^ 6 = 0 then .ok (.vcompress (bit w 31) (fld w 18 6) (fld w 12 6) (fld w 4 2) (fld w 2 1) (fld w 1 1)) else .mbz
  | 1 => if w / 2 ^ 3 % 2 ^ 1 = 0 ∧ w / 2 ^ 6 % 2 ^ 6 = 0 then .ok (.vexpand (bit w 31) (fld w 18 6) (fld w 12 6) (fld w 4 2) (fld w 2 1) (fld w 1 1)) else .mbz
  | _ => .illegal

/-- Major 0x4D (R289). -/
noncomputable def decMajor4D (w : Nat) : Dec :=
  match w / 2 ^ 6 % 2 ^ 6 with
  | 0 => if w % 2 ^ 2 = 0 ∧ w / 2 ^ 3 % 2 ^ 1 = 0 then .ok (.vredSum (bit w 31) (fld w 18 6) (fld w 12 6) (fld w 4 2) (fld w 2 1)) else .mbz
  | 1 => if w % 2 ^ 2 = 0 ∧ w / 2 ^ 3 % 2 ^ 1 = 0 then .ok (.vredMin (bit w 31) (fld w 18 6) (fld w 12 6) (fld w 4 2) (fld w 2 1)) else .mbz
  | 2 => if w % 2 ^ 2 = 0 ∧ w / 2 ^ 3 % 2 ^ 1 = 0 then .ok (.vredMax (bit w 31) (fld w 18 6) (fld w 12 6) (fld w 4 2) (fld w 2 1)) else .mbz
  | 3 => if w % 2 ^ 2 = 0 ∧ w / 2 ^ 3 % 2 ^ 1 = 0 then .ok (.vredAnd (bit w 31) (fld w 18 6) (fld w 12 6) (fld w 4 2) (fld w 2 1)) else .mbz
  | 4 => if w % 2 ^ 2 = 0 ∧ w / 2 ^ 3 % 2 ^ 1 = 0 then .ok (.vredOr (bit w 31) (fld w 18 6) (fld w 12 6) (fld w 4 2) (fld w 2 1)) else .mbz
  | 5 => if w % 2 ^ 2 = 0 ∧ w / 2 ^ 3 % 2 ^ 1 = 0 then .ok (.vredXor (bit w 31) (fld w 18 6) (fld w 12 6) (fld w 4 2) (fld w 2 1)) else .mbz
  | 6 => if w % 2 ^ 2 = 0 ∧ w / 2 ^ 3 % 2 ^ 1 = 0 then .ok (.vredFsumO (bit w 31) (fld w 18 6) (fld w 12 6) (fld w 4 2) (fld w 2 1)) else .mbz
  | 7 => if w % 2 ^ 2 = 0 ∧ w / 2 ^ 3 % 2 ^ 1 = 0 then .ok (.vredFsumU (bit w 31) (fld w 18 6) (fld w 12 6) (fld w 4 2) (fld w 2 1)) else .mbz
  | 8 => if w % 2 ^ 2 = 0 ∧ w / 2 ^ 3 % 2 ^ 1 = 0 then .ok (.vredFmin (bit w 31) (fld w 18 6) (fld w 12 6) (fld w 4 2) (fld w 2 1)) else .mbz
  | 9 => if w % 2 ^ 2 = 0 ∧ w / 2 ^ 3 % 2 ^ 1 = 0 then .ok (.vredFmax (bit w 31) (fld w 18 6) (fld w 12 6) (fld w 4 2) (fld w 2 1)) else .mbz
  | _ => .illegal

/-- Major 0x4E (R290). -/
noncomputable def decMajor4E (w : Nat) : Dec :=
  match w % 2 ^ 2 with
  | 0 => if w / 2 ^ 3 % 2 ^ 1 = 0 then .ok (.vscan (bit w 31) (fld w 18 6) (fld w 12 6) (fld w 11 1) (fld w 6 5) (fld w 4 2) (fld w 2 1)) else badWord (decide (6 < w / 2 ^ 6 % 2 ^ 5))
  | 1 => if w / 2 ^ 2 % 2 ^ 4 = 0 ∧ w / 2 ^ 16 % 2 ^ 2 = 0 then .ok (.vballot (bit w 31) (fld w 18 6) (fld w 12 4) (fld w 6 6)) else .mbz
  | 2 => (match w / 2 ^ 6 % 2 ^ 2 with
    | 0 => if w / 2 ^ 2 % 2 ^ 2 = 0 ∧ w / 2 ^ 8 % 2 ^ 4 = 0 ∧ w / 2 ^ 16 % 2 ^ 2 = 0 then .ok (.vvoteAny (bit w 31) (fld w 18 6) (fld w 12 4) (fld w 4 2)) else .mbz
    | 1 => if w / 2 ^ 2 % 2 ^ 2 = 0 ∧ w / 2 ^ 8 % 2 ^ 4 = 0 ∧ w / 2 ^ 16 % 2 ^ 2 = 0 then .ok (.vvoteAll (bit w 31) (fld w 18 6) (fld w 12 4) (fld w 4 2)) else .mbz
    | 2 => if w / 2 ^ 2 % 2 ^ 2 = 0 ∧ w / 2 ^ 8 % 2 ^ 4 = 0 ∧ w / 2 ^ 16 % 2 ^ 2 = 0 then .ok (.vvoteCnt (bit w 31) (fld w 18 6) (fld w 12 4) (fld w 4 2)) else .mbz
    | _ => .illegal)
  | _ => .illegal

/-- Major 0x4F (R293). -/
noncomputable def decMajor4F (w : Nat) : Dec :=
  match w % 2 ^ 2 with
  | 0 => if w / 2 ^ 3 % 2 ^ 1 = 0 ∧ w / 2 ^ 18 % 2 ^ 6 = 0 then .ok (.vmaxexp (bit w 31) (fld w 12 6) (fld w 9 3) (fld w 6 3) (fld w 4 2) (fld w 2 1)) else badWord (decide (w / 2 ^ 9 % 2 ^ 3 = 7))
  | 1 => if w / 2 ^ 3 % 2 ^ 1 = 0 then .ok (.vquant (bit w 31) (fld w 18 6) (fld w 12 6) (fld w 9 3) (fld w 6 3) (fld w 4 2) (fld w 2 1)) else badWord (decide (w / 2 ^ 9 % 2 ^ 3 = 7))
  | 2 => if w / 2 ^ 3 % 2 ^ 1 = 0 ∧ w / 2 ^ 9 % 2 ^ 3 = 0 then .ok (.vdequant (bit w 31) (fld w 18 6) (fld w 12 6) (fld w 6 3) (fld w 4 2) (fld w 2 1)) else badWord (decide (w / 2 ^ 9 % 2 ^ 3 = 7))
  | _ => .illegal

/-- Major 0x50 (R298). -/
noncomputable def decMajor50 (w : Nat) : Dec :=
  .ok (.sld (bit w 31) (fld w 18 6) (fld w 12 6) (fld w 8 4) (fld w 6 2) (fld w 0 6))

/-- Major 0x51 (R298). -/
noncomputable def decMajor51 (w : Nat) : Dec :=
  .ok (.sst (bit w 31) (fld w 18 6) (fld w 12 6) (fld w 8 4) (fld w 6 2) (fld w 0 6))

/-- Major 0x52 (R299). -/
noncomputable def decMajor52 (w : Nat) : Dec :=
  .ok (.vld (bit w 31) (fld w 18 6) (fld w 12 6) (fld w 8 4) (fld w 6 2) (fld w 0 6))

/-- Major 0x53 (R299). -/
noncomputable def decMajor53 (w : Nat) : Dec :=
  .ok (.vst (bit w 31) (fld w 18 6) (fld w 12 6) (fld w 8 4) (fld w 6 2) (fld w 0 6))

/-- Major 0x54 (R299). -/
noncomputable def decMajor54 (w : Nat) : Dec :=
  match w / 2 ^ 1 % 2 ^ 1 with
  | 0 => .ok (.vlds (bit w 31) (fld w 18 6) (fld w 12 6) (fld w 6 6) (fld w 2 4) (fld w 0 1))
  | 1 => .ok (.vsts (bit w 31) (fld w 18 6) (fld w 12 6) (fld w 6 6) (fld w 2 4) (fld w 0 1))
  | _ => .illegal

/-- Major 0x55 (R299). -/
noncomputable def decMajor55 (w : Nat) : Dec :=
  match w / 2 ^ 1 % 2 ^ 1 with
  | 0 => .ok (.vldx (bit w 31) (fld w 18 6) (fld w 12 6) (fld w 6 6) (fld w 2 4) (fld w 0 1))
  | 1 => .ok (.vstx (bit w 31) (fld w 18 6) (fld w 12 6) (fld w 6 6) (fld w 2 4) (fld w 0 1))
  | _ => .illegal

/-- Major 0x56 (R301). -/
noncomputable def decMajor56 (w : Nat) : Dec :=
  .ok (.vldff (bit w 31) (fld w 18 6) (fld w 12 6) (fld w 8 4) (fld w 6 2) (fld w 0 6))

/-- Major 0x57 (R299). -/
noncomputable def decMajor57 (w : Nat) : Dec :=
  match w / 2 ^ 1 % 2 ^ 1 with
  | 0 => if w / 2 ^ 8 % 2 ^ 4 = 0 then .ok (.vldw (bit w 31) (fld w 18 6) (fld w 12 6) (fld w 7 1) (fld w 6 1) (fld w 2 4) (fld w 0 1)) else .mbz
  | 1 => if w / 2 ^ 6 % 2 ^ 1 = 0 ∧ w / 2 ^ 8 % 2 ^ 4 = 0 then .ok (.vstw (bit w 31) (fld w 18 6) (fld w 12 6) (fld w 7 1) (fld w 2 4) (fld w 0 1)) else .mbz
  | _ => .illegal

/-- Major 0x58 (R302). -/
noncomputable def decMajor58 (w : Nat) : Dec :=
  if w / 2 ^ 5 % 2 ^ 1 = 0 then .ok (.vldbp (bit w 31) (fld w 18 6) (fld w 12 6) (fld w 8 4) (fld w 6 2) (fld w 4 1) (fld w 3 1) (fld w 0 3)) else badWord (decide (w % 2 ^ 3 = 7))

/-- Major 0x59 (R303). -/
noncomputable def decMajor59 (w : Nat) : Dec :=
  match w / 2 ^ 1 % 2 ^ 1 with
  | 0 => .ok (.vlseg (bit w 31) (fld w 18 6) (fld w 12 6) (fld w 9 3) (fld w 6 3) (fld w 2 4) (fld w 0 1))
  | 1 => .ok (.vsseg (bit w 31) (fld w 18 6) (fld w 12 6) (fld w 9 3) (fld w 6 3) (fld w 2 4) (fld w 0 1))
  | _ => .illegal

/-- Major 0x5A (R304). -/
noncomputable def decMajor5A (w : Nat) : Dec :=
  match w / 2 ^ 1 % 2 ^ 1 with
  | 0 => .ok (.vldgl (bit w 31) (fld w 18 6) (fld w 12 6) (fld w 6 6) (fld w 2 4) (fld w 0 1))
  | 1 => .ok (.vstsc (bit w 31) (fld w 18 6) (fld w 12 6) (fld w 6 6) (fld w 2 4) (fld w 0 1))
  | _ => .illegal

/-- Major 0x5B (R305). -/
noncomputable def decMajor5B (w : Nat) : Dec :=
  match w % 2 ^ 1 with
  | 0 => if w / 2 ^ 6 % 2 ^ 6 = 0 then .ok (.sll (bit w 31) (fld w 18 6) (fld w 12 6) (fld w 2 4) (fld w 1 1)) else .mbz
  | 1 => .ok (.ssc (bit w 31) (fld w 18 6) (fld w 12 6) (fld w 6 6) (fld w 2 4) (fld w 1 1))
  | _ => .illegal

/-- Major 0x5C (R141). -/
noncomputable def decMajor5C (w : Nat) : Dec :=
  if w / 2 ^ 16 % 2 ^ 2 = 0 ∧ w / 2 ^ 21 % 2 ^ 3 = 0 then .ok (.fence (bit w 31) (fld w 18 3) (fld w 0 16)) else badWord (decide (6 ≤ w / 2 ^ 18 % 2 ^ 3))

/-- Major 0x5D (R312). -/
noncomputable def decMajor5D (w : Nat) : Dec :=
  match w / 2 ^ 10 % 2 ^ 2 with
  | 0 => if w / 2 ^ 6 % 2 ^ 4 = 0 ∧ w / 2 ^ 18 % 2 ^ 6 = 0 then .ok (.barinit (bit w 31) (fld w 12 6) (fld w 0 6)) else .mbz
  | 1 => if w / 2 ^ 6 % 2 ^ 4 = 0 then .ok (.bararr (bit w 31) (fld w 18 6) (fld w 12 6) (fld w 0 6)) else .mbz
  | 2 => if w / 2 ^ 6 % 2 ^ 4 = 0 ∧ w / 2 ^ 18 % 2 ^ 6 = 0 then .ok (.barwait (bit w 31) (fld w 12 6) (fld w 0 6)) else .mbz
  | _ => .illegal

/-- Major 0x5E (R314). -/
noncomputable def decMajor5E (w : Nat) : Dec :=
  match w / 2 ^ 10 % 2 ^ 2 with
  | 0 => if w % 2 ^ 10 = 0 ∧ w / 2 ^ 18 % 2 ^ 6 = 0 then .ok (.ipost (bit w 31) (fld w 12 6)) else .mbz
  | 1 => if w / 2 ^ 5 % 2 ^ 5 = 0 ∧ w / 2 ^ 18 % 2 ^ 6 = 0 then .ok (.iwait (bit w 31) (fld w 12 6) (fld w 0 5)) else badWord (decide (w % 2 ^ 5 = 0))
  | 2 => if w / 2 ^ 3 % 2 ^ 1 = 0 ∧ w / 2 ^ 7 % 2 ^ 3 = 0 ∧ w / 2 ^ 18 % 2 ^ 6 = 0 then .ok (.stgpost (bit w 31) (fld w 12 6) (fld w 4 3) (fld w 0 3)) else .mbz
  | 3 => if w / 2 ^ 7 % 2 ^ 3 = 0 ∧ w / 2 ^ 18 % 2 ^ 6 = 0 then .ok (.stgwait (bit w 31) (fld w 12 6) (fld w 4 3) (fld w 3 1) (fld w 0 3)) else .mbz
  | _ => .illegal

/-- Major 0x5F (R189). -/
noncomputable def decMajor5F (w : Nat) : Dec :=
  match w % 2 ^ 6 with
  | 0 => if w / 2 ^ 6 % 2 ^ 6 = 0 then .ok (.claim (bit w 31) (fld w 18 6) (fld w 12 6)) else .mbz
  | 1 => .ok (.waitw (bit w 31) (fld w 18 6) (fld w 12 6) (fld w 6 6))
  | 2 => .ok (.waitwExt (bit w 31) (fld w 18 6) (fld w 12 6) (fld w 6 6))
  | _ => .illegal

/-- Major 0x60 (R322). -/
noncomputable def decMajor60 (w : Nat) : Dec :=
  match w / 2 ^ 11 % 2 ^ 1 with
  | 0 => if w / 2 ^ 5 % 2 ^ 1 = 0 then .ok (.tset (bit w 31) (fld w 18 6) (fld w 12 6) (fld w 10 1) (fld w 6 4) (fld w 0 5)) else .mbz
  | 1 => if w % 2 ^ 11 = 0 ∧ w / 2 ^ 12 % 2 ^ 6 = 0 then .ok (.tget (bit w 31) (fld w 18 6)) else .mbz
  | _ => .illegal

/-- Major 0x61 (R323). -/
noncomputable def decMajor61 (w : Nat) : Dec :=
  if w / 2 ^ 4 % 2 ^ 14 = 0 then .ok (.tbands (bit w 31) (fld w 18 6) (fld w 0 4)) else .mbz

/-- Major 0x62 (R327). -/
noncomputable def decMajor62 (w : Nat) : Dec :=
  match w / 2 ^ 23 % 2 ^ 1 with
  | 0 => if w % 2 ^ 6 = 0 ∧ w / 2 ^ 18 % 2 ^ 1 = 0 then .ok (.obres (bit w 31) (fld w 19 4) (fld w 12 6) (fld w 6 6)) else .mbz
  | 1 => if w % 2 ^ 19 = 0 then .ok (.obrel (bit w 31) (fld w 19 4)) else .mbz
  | _ => .illegal

/-- Major 0x63 (R329). -/
noncomputable def decMajor63 (w : Nat) : Dec :=
  match w / 2 ^ 5 % 2 ^ 1 with
  | 0 => if w % 2 ^ 1 = 0 then .ok (.obfill (bit w 31) (fld w 18 6) (fld w 12 6) (fld w 6 6) (fld w 1 4)) else .mbz
  | 1 => if w % 2 ^ 1 = 0 ∧ w / 2 ^ 6 % 2 ^ 3 = 0 then .ok (.obscale (bit w 31) (fld w 18 6) (fld w 12 6) (fld w 9 3) (fld w 1 4)) else .mbz
  | _ => .illegal

/-- Major 0x64 (R331). -/
noncomputable def decMajor64 (w : Nat) : Dec :=
  match w / 2 ^ 11 % 2 ^ 1 with
  | 0 => if w % 2 ^ 6 = 0 then .ok (.mlds (bit w 31) (fld w 18 6) (fld w 12 6) (fld w 10 1) (fld w 6 4)) else .mbz
  | 1 => if w % 2 ^ 11 = 0 ∧ w / 2 ^ 12 % 2 ^ 12 = 0 then .ok (.mswap (bit w 31)) else .mbz
  | _ => .illegal

/-- Major 0x65 (R333). -/
noncomputable def decMajor65 (w : Nat) : Dec :=
  match w / 2 ^ 23 % 2 ^ 1 with
  | 0 => if w % 2 ^ 12 = 0 ∧ w / 2 ^ 18 % 2 ^ 5 = 0 then .ok (.mrbnd (bit w 31) (fld w 12 6)) else .mbz
  | 1 => if w % 2 ^ 6 = 0 ∧ w / 2 ^ 18 % 2 ^ 5 = 0 then .ok (.mtag (bit w 31) (fld w 12 6) (fld w 6 6)) else .mbz
  | _ => .illegal

/-- Major 0x66 (R335). -/
noncomputable def decMajor66 (w : Nat) : Dec :=
  if w % 2 ^ 3 = 0 then .ok (.mma (bit w 31) (fld w 22 2) (fld w 18 4) (fld w 12 6) (fld w 8 4) (fld w 4 4) (fld w 3 1)) else .mbz

/-- Major 0x67 (R339). -/
noncomputable def decMajor67 (w : Nat) : Dec :=
  match w % 2 ^ 1 with
  | 0 => if w / 2 ^ 1 % 2 ^ 2 = 0 then .ok (.mmaG (bit w 31) (fld w 22 2) (fld w 18 4) (fld w 12 6) (fld w 8 4) (fld w 4 4) (fld w 3 1)) else .mbz
  | 1 => if w / 2 ^ 1 % 2 ^ 11 = 0 ∧ w / 2 ^ 18 % 2 ^ 6 = 0 then .ok (.gangset (bit w 31) (fld w 12 6)) else .mbz
  | _ => .illegal

/-- Major 0x68 (R341). -/
noncomputable def decMajor68 (w : Nat) : Dec :=
  if w % 2 ^ 8 = 0 then .ok (.mguide (bit w 31) (fld w 22 2) (fld w 20 2) (fld w 18 2) (fld w 12 6) (fld w 8 4)) else .mbz

/-- Major 0x69 (R343). -/
noncomputable def decMajor69 (w : Nat) : Dec :=
  match w / 2 ^ 22 % 2 ^ 2 with
  | 0 => if w % 2 ^ 20 = 0 then .ok (.mzero (bit w 31) (fld w 20 2)) else .mbz
  | 1 => if w % 2 ^ 12 = 0 ∧ w / 2 ^ 18 % 2 ^ 2 = 0 then .ok (.maccLd (bit w 31) (fld w 20 2) (fld w 12 6)) else .mbz
  | 2 => if w % 2 ^ 6 = 0 ∧ w / 2 ^ 18 % 2 ^ 2 = 0 then .ok (.maccSt (bit w 31) (fld w 20 2) (fld w 12 6) (fld w 6 6)) else .mbz
  | _ => .illegal

/-- Major 0x6A (R347). -/
noncomputable def decMajor6A (w : Nat) : Dec :=
  match w / 2 ^ 3 % 2 ^ 1 with
  | 0 => if w % 2 ^ 3 = 0 then .ok (.mrd (bit w 31) (fld w 18 6) (fld w 12 6) (fld w 6 6) (fld w 4 2)) else .mbz
  | 1 => if w % 2 ^ 3 = 0 then .ok (.mwr (bit w 31) (fld w 18 6) (fld w 12 6) (fld w 6 6) (fld w 4 2)) else .mbz
  | _ => .illegal

/-- Major 0x6B (R349). -/
noncomputable def decMajor6B (w : Nat) : Dec :=
  match w / 2 ^ 5 % 2 ^ 1 with
  | 0 => if w % 2 ^ 5 = 0 ∧ w / 2 ^ 18 % 2 ^ 6 = 0 then .ok (.rcount (bit w 31) (fld w 12 6) (fld w 6 6)) else .mbz
  | 1 => if w % 2 ^ 5 = 0 ∧ w / 2 ^ 6 % 2 ^ 6 = 0 then .ok (.rcsnap (bit w 31) (fld w 18 6) (fld w 12 6)) else .mbz
  | _ => .illegal

/-- Major 0x6C (R355). -/
noncomputable def decMajor6C (w : Nat) : Dec :=
  if w % 2 ^ 2 = 0 ∧ w / 2 ^ 18 % 2 ^ 2 = 0 then .ok (.cpy (bit w 31) (fld w 21 3) (fld w 20 1) (fld w 12 6) (fld w 9 3) (fld w 6 3) (fld w 2 4)) else .mbz

/-- Major 0x6D (R361). -/
noncomputable def decMajor6D (w : Nat) : Dec :=
  match w / 2 ^ 23 % 2 ^ 1 with
  | 0 => if w / 2 ^ 9 % 2 ^ 14 = 0 then .ok (.qfence (bit w 31) (fld w 0 9)) else .mbz
  | 1 => (match w / 2 ^ 22 % 2 ^ 1 with
    | 0 => if w / 2 ^ 4 % 2 ^ 18 = 0 then .ok (.qwait (bit w 31) (fld w 0 4)) else badWord (decide (8 < w % 2 ^ 4))
    | 1 => if w / 2 ^ 4 % 2 ^ 18 = 0 then .ok (.qwaitClr (bit w 31) (fld w 0 4)) else badWord (decide (8 < w % 2 ^ 4))
    | _ => .illegal)
  | _ => .illegal

/-- Major 0x6E (R363). -/
noncomputable def decMajor6E (w : Nat) : Dec :=
  match w % 2 ^ 6 with
  | 0 => .ok (.launch (bit w 31) (fld w 18 6) (fld w 12 6) (fld w 6 6))
  | 1 => .ok (.launchW (bit w 31) (fld w 18 6) (fld w 12 6) (fld w 6 6))
  | _ => .illegal

/-- Major 0x6F (R366). -/
noncomputable def decMajor6F (w : Nat) : Dec :=
  match w % 2 ^ 6 with
  | 0 => if w / 2 ^ 6 % 2 ^ 6 = 0 then .ok (.gsig (bit w 31) (fld w 18 6) (fld w 12 6)) else .mbz
  | 1 => if w / 2 ^ 18 % 2 ^ 6 = 0 then .ok (.gcond (bit w 31) (fld w 12 6) (fld w 6 6)) else .mbz
  | _ => .illegal

/-- Major 0x70 (R367). -/
noncomputable def decMajor70 (w : Nat) : Dec :=
  match w / 2 ^ 12 % 2 ^ 6 with
  | 0 => .ok (.sysrd (bit w 31) (fld w 18 6) (fld w 0 12))
  | 1 => if w % 2 ^ 12 = 0x002 then .ok (.syswrVcfg (bit w 31) (fld w 18 6)) else if w % 2 ^ 12 = 0x051 then .ok (.fqdone (bit w 31) (fld w 18 6)) else .ok (.syswr (bit w 31) (fld w 18 6) (fld w 0 12))
  | _ => .illegal

/-- Major 0x71 (R368). -/
noncomputable def decMajor71 (w : Nat) : Dec :=
  match w / 2 ^ 22 % 2 ^ 2 with
  | 0 => if w / 2 ^ 16 % 2 ^ 6 = 0 then .ok (.trap (bit w 31) (fld w 0 16)) else .mbz
  | 1 => if w % 2 ^ 22 = 0 then .ok (.eret (bit w 31)) else .mbz
  | 2 => if w / 2 ^ 16 % 2 ^ 6 = 0 then .ok (.brk (bit w 31) (fld w 0 16)) else .mbz
  | _ => .illegal

/-- Major 0x72 (R370). -/
noncomputable def decMajor72 (w : Nat) : Dec :=
  match w / 2 ^ 22 % 2 ^ 2 with
  | 0 => (match w / 2 ^ 21 % 2 ^ 1 with
    | 1 => if w % 2 ^ 21 = 0 then .ok (.icinvAll (bit w 31)) else .mbz
    | 0 => if w % 2 ^ 6 = 0 ∧ w / 2 ^ 18 % 2 ^ 3 = 0 then .ok (.icinv (bit w 31) (fld w 12 6) (fld w 6 6)) else .mbz
    | _ => .illegal)
  | 1 => if w % 2 ^ 22 = 0 then .ok (.yield (bit w 31)) else .mbz
  | 2 => if w % 2 ^ 22 = 0 then .ok (.nop (bit w 31)) else .mbz
  | 3 => if w % 2 ^ 22 = 0 then .ok (.halt (bit w 31)) else .mbz
  | _ => .illegal

/-- Major 0x73 (R371). -/
noncomputable def decMajor73 (w : Nat) : Dec :=
  if w % 2 ^ 8 = 0 ∧ w / 2 ^ 18 % 2 ^ 6 = 0 then .ok (.pwrhint (bit w 31) (fld w 12 6) (fld w 8 4)) else badWord (decide (4 ≤ w / 2 ^ 8 % 2 ^ 4))

/-- A word of every major below 0x78, by its major opcode (R224, R225). -/
noncomputable def decodeShort (w : Nat) : Dec :=
  match w / 2 ^ 24 % 2 ^ 7 with
  | 0x00 => decMajor00 w
  | 0x01 => decMajor01 w
  | 0x02 => decMajor02 w
  | 0x03 => decMajor03 w
  | 0x04 => decMajor04 w
  | 0x05 => decMajor05 w
  | 0x06 => decMajor06 w
  | 0x07 => decMajor07 w
  | 0x08 => decMajor08 w
  | 0x09 => decMajor09 w
  | 0x0A => decMajor0A w
  | 0x20 => decMajor20 w
  | 0x21 => decMajor21 w
  | 0x22 => decMajor22 w
  | 0x23 => decMajor23 w
  | 0x24 => decMajor24 w
  | 0x25 => decMajor25 w
  | 0x26 => decMajor26 w
  | 0x27 => decMajor27 w
  | 0x28 => decMajor28 w
  | 0x29 => decMajor29 w
  | 0x2A => decMajor2A w
  | 0x2B => decMajor2B w
  | 0x2C => decMajor2C w
  | 0x30 => decMajor30 w
  | 0x31 => decMajor31 w
  | 0x32 => decMajor32 w
  | 0x33 => decMajor33 w
  | 0x34 => decMajor34 w
  | 0x35 => decMajor35 w
  | 0x36 => decMajor36 w
  | 0x37 => decMajor37 w
  | 0x38 => decMajor38 w
  | 0x39 => decMajor39 w
  | 0x3A => decMajor3A w
  | 0x3B => decMajor3B w
  | 0x3C => decMajor3C w
  | 0x3D => decMajor3D w
  | 0x3E => decMajor3E w
  | 0x3F => decMajor3F w
  | 0x40 => decMajor40 w
  | 0x41 => decMajor41 w
  | 0x42 => decMajor42 w
  | 0x43 => decMajor43 w
  | 0x44 => decMajor44 w
  | 0x45 => decMajor45 w
  | 0x46 => decMajor46 w
  | 0x47 => decMajor47 w
  | 0x48 => decMajor48 w
  | 0x49 => decMajor49 w
  | 0x4A => decMajor4A w
  | 0x4B => decMajor4B w
  | 0x4C => decMajor4C w
  | 0x4D => decMajor4D w
  | 0x4E => decMajor4E w
  | 0x4F => decMajor4F w
  | 0x50 => decMajor50 w
  | 0x51 => decMajor51 w
  | 0x52 => decMajor52 w
  | 0x53 => decMajor53 w
  | 0x54 => decMajor54 w
  | 0x55 => decMajor55 w
  | 0x56 => decMajor56 w
  | 0x57 => decMajor57 w
  | 0x58 => decMajor58 w
  | 0x59 => decMajor59 w
  | 0x5A => decMajor5A w
  | 0x5B => decMajor5B w
  | 0x5C => decMajor5C w
  | 0x5D => decMajor5D w
  | 0x5E => decMajor5E w
  | 0x5F => decMajor5F w
  | 0x60 => decMajor60 w
  | 0x61 => decMajor61 w
  | 0x62 => decMajor62 w
  | 0x63 => decMajor63 w
  | 0x64 => decMajor64 w
  | 0x65 => decMajor65 w
  | 0x66 => decMajor66 w
  | 0x67 => decMajor67 w
  | 0x68 => decMajor68 w
  | 0x69 => decMajor69 w
  | 0x6A => decMajor6A w
  | 0x6B => decMajor6B w
  | 0x6C => decMajor6C w
  | 0x6D => decMajor6D w
  | 0x6E => decMajor6E w
  | 0x6F => decMajor6F w
  | 0x70 => decMajor70 w
  | 0x71 => decMajor71 w
  | 0x72 => decMajor72 w
  | 0x73 => decMajor73 w
  | _ => .illegal

/-- Major 0x78 (R248). -/
def decLongScalar (w : Nat) : Dec :=
  let imm : BitVec 32 := BitVec.ofNat 32 (w % 2 ^ 4 * 2 ^ 28 + w / 2 ^ 32 % 2 ^ 28)
  match w / 2 ^ 4 % 2 ^ 2 with
  | 0 => if w / 2 ^ 6 % 2 ^ 6 ≤ 0x19
         then .ok (.saluLongImm (bit w 31) (fld w 18 6) (fld w 12 6) (fld w 6 6) imm (fld w 60 4)) else .illegal
  | 1 => if w / 2 ^ 7 % 2 ^ 11 = 0 then
           (if bit w 6 then .ok (.slhiW (bit w 31) (fld w 18 6) imm (fld w 60 4))
            else .ok (.sliLong (bit w 31) (fld w 18 6) imm (fld w 60 4)))
         else .mbz
  | 2 => if w / 2 ^ 9 % 2 ^ 3 ≤ 4
         then .ok (.sadrLong (bit w 31) (fld w 18 6) (fld w 12 6) (fld w 6 6) imm (fld w 60 4)) else .illegal
  | _ => .illegal

/-- The fields of the long vector form (R271). -/
def vecLongFields (w : Nat) : VecLong :=
  { d := fld w 18 6, a := fld w 12 6, b := fld w 6 6, xop := fld w 0 6, hint := fld w 60 4, pm4 := fld w 56 4, ls := fld w 54 2,
    nw := fld w 53 1, x := fld w 52 1, dw := fld w 51 1, ord := fld w 50 1, sb := fld w 49 1, fsub := fld w 45 4,
    k := fld w 42 3, ef := fld w 37 5, pln := fld w 33 4, prnd := fld w 32 1 }

/-- The fields of the block forms of vfcvt (R284). -/
def blockCvtFields (w : Nat) : BlockCvt :=
  { d := fld w 18 6, a := fld w 12 6, hint := fld w 60 4, pm4 := fld w 56 4, la := fld w 54 1, nw := fld w 53 1,
    k := fld w 42 3, ef := fld w 37 5, pln := fld w 33 4, prnd := fld w 32 1 }

/-- The fields of the long link forms (R309). -/
def linkLongFields (w : Nat) : LinkLong :=
  { d := fld w 18 6, a := fld w 12 6, b := fld w 6 6, hint := fld w 60 4, pm4 := fld w 56 4, dw := fld w 51 1, ord := fld w 50 1,
    ps := fld w 45 4, scope := fld w 37 3, cls := fld w 33 4 }

/-- Major 0x79 (R271, R284, R309). -/
noncomputable def decLongVector (w : Nat) : Dec :=
  let xop := w % 2 ^ 6
  if xop = 0x2A then
    (if 6 ≤ w / 2 ^ 37 % 2 ^ 3 then .illegal
     else if w / 2 ^ 53 % 2 ^ 3 = 0 ∧ w / 2 ^ 49 % 2 = 0 ∧ w / 2 ^ 40 % 2 ^ 5 = 0 ∧ w / 2 ^ 32 % 2 = 0 then
       (if bit w 52 then .ok (.vstscLong (bit w 31) (linkLongFields w))
        else if w / 2 ^ 45 % 2 ^ 4 = 0 then .ok (.vldglLong (bit w 31) (linkLongFields w)) else .mbz)
     else .mbz)
  else if 0x20 ≤ xop then .illegal
  else if xop = 0x18 ∧ w / 2 ^ 37 % 2 ^ 5 ≠ 0 then
    (if w / 2 ^ 37 % 2 ^ 5 < 0x10 ∨ 0x17 < w / 2 ^ 37 % 2 ^ 5 ∨ bit w 51 then .illegal
     else if w / 2 ^ 7 % 2 ^ 5 = 0 ∧ w / 2 ^ 55 % 2 = 0 ∧ w / 2 ^ 52 % 2 = 0 ∧ w / 2 ^ 49 % 2 ^ 2 = 0 ∧ w / 2 ^ 45 % 2 ^ 4 = 0 then
       (if bit w 6 then .ok (.vfcvtBlockToF32 (bit w 31) (blockCvtFields w))
        else .ok (.vfcvtF32ToBlock (bit w 31) (blockCvtFields w)))
     else badWord (bit w 6 && decide (0x16 ≤ w / 2 ^ 37 % 2 ^ 5) &&
       (decide (w / 2 ^ 33 % 2 ^ 4 < 2) || decide (8 < w / 2 ^ 33 % 2 ^ 4))))
  else .ok (.vectorLongForm (bit w 31) (vecLongFields w))

/-- The fields of the control form of the long memory forms (R307). -/
def memCtlFields (w : Nat) : MemCtl :=
  { d := fld w 18 6, a := fld w 12 6, xop := fld w 8 4, cls := fld w 4 4, scope := fld w 1 3, dw := fld w 0 1, hint := fld w 60 4,
    pm4 := fld w 56 4, ra := fld w 54 2, f := fld w 52 2, s := fld w 51 1, low := fld w 32 19 }

/-- Major 0x7A (R306 to R308). -/
noncomputable def decLongMemory (w : Nat) : Dec :=
  if w / 2 ^ 8 % 2 ^ 4 ≤ 0xA then
    (if 6 ≤ w / 2 ^ 1 % 2 ^ 3 then .illegal else .ok (.memLongControlForm (bit w 31) (memCtlFields w)))
  else
    .ok (.memLongOffsetForm (bit w 31) (fld w 18 6) (fld w 12 6) (fld w 8 4) (fld w 4 4)
      (BitVec.ofNat 32 (w % 2 ^ 4 * 2 ^ 28 + w / 2 ^ 32 % 2 ^ 28)) (fld w 60 4))

/-- Major 0x7B (R351, R372). -/
noncomputable def decLongMatrix (w : Nat) : Dec :=
  let xop := w / 2 ^ 56 % 2 ^ 4
  if 0xD ≤ xop ∨ 6 ≤ w / 2 ^ 49 % 2 ^ 3 then .illegal
  else if xop = 0xC then
    (if w / 2 ^ 18 % 2 ^ 2 = 0 ∧ w % 2 ^ 6 = 0 ∧ w / 2 ^ 32 % 2 ^ 11 = 0
     then .ok (.cpyLong (bit w 31) (fld w 21 3) (fld w 20 1) (fld w 12 6) (fld w 9 3) (fld w 6 3) (fld w 52 4) (fld w 49 3)
       (fld w 43 6) (fld w 60 4))
     else .mbz)
  else match decodeShort ((0x60 + xop) * 2 ^ 24 + w % 2 ^ 24) with
    | .ok _ => if w / 2 ^ 32 % 2 ^ 17 = 0
               then .ok (.matrixLongForm (bit w 31) (fld w 56 4) (fld w 0 24) (fld w 52 4) (fld w 49 3) (fld w 60 4)) else .mbz
    | r => r

/-- Does a first word begin a two-word long form (R215)? -/
def isLong (w : Nat) : Bool := 0x78 ≤ w / 2 ^ 24 % 2 ^ 7 && w / 2 ^ 24 % 2 ^ 7 ≤ 0x7B

/-- The decoder on an instruction's words as one number (second word zero for one-word instructions). -/
noncomputable def decode (w : Nat) : Dec :=
  match w / 2 ^ 24 % 2 ^ 7 with
  | 0x78 => decLongScalar w
  | 0x79 => decLongVector w
  | 0x7A => decLongMemory w
  | 0x7B => decLongMatrix w
  | _ => decodeShort (w % 2 ^ 32)

/-- The decoder on a list of bytes: the instruction and the rest, or the rejection by name; `none` when bytes are missing. -/
noncomputable def decodeBytes : List Byte → Option (Dec × List Byte)
  | b0 :: b1 :: b2 :: b3 :: rest =>
    let w0 := b0.toNat + 2 ^ 8 * b1.toNat + 2 ^ 16 * b2.toNat + 2 ^ 24 * b3.toNat
    if isLong w0 then
      match rest with
      | c0 :: c1 :: c2 :: c3 :: rest' =>
        some (decode (w0 + 2 ^ 32 * c0.toNat + 2 ^ 40 * c1.toNat + 2 ^ 48 * c2.toNat + 2 ^ 56 * c3.toNat), rest')
      | _ => none
    else some (decode w0, rest)
  | _ => none

/-- The bytes of a word, least significant first (R3). -/
def bytesOf : Nat → Nat → List Byte
  | 0, _ => []
  | n + 1, w => BitVec.ofNat 8 w :: bytesOf n (w / 2 ^ 8)

/-- The instruction the decoder reads from the words numbered as the opcode table numbers them: the bits above `nbits` are
zero, and the bytes are laid out least significant first. -/
noncomputable def decodeTableWord (nbits w : Nat) : Option Instr :=
  match decodeBytes (bytesOf 8 (w % 2 ^ nbits)) with
  | some (.ok i, _) => some i
  | _ => none

/-! The encoder, from the same tables. -/

/-- Bit [31] of a word. -/
def eBit (e : Bool) : Nat := if e then 2 ^ 31 else 0

/-- A field at bit `lo` of a word. -/
def put (x : BitVec n) (lo : Nat) : Nat := x.toNat * 2 ^ lo

/-- A word from bit [31], the opcode bits that the row fixes, and its fields. -/
def word (e : Bool) (base : Nat) : List Nat → Nat
  | [] => eBit e + base
  | x :: l => x + word e base l

/-- The words of an instruction as one number; 0 for the device's own steps, which no word encodes. -/
def encode : Instr → Nat
  | .sadd e d a b => word e 0x00000000 [put d 18, put a 12, put b 6]
  | .ssub e d a b => word e 0x00000001 [put d 18, put a 12, put b 6]
  | .sand e d a b => word e 0x00000002 [put d 18, put a 12, put b 6]
  | .sandn e d a b => word e 0x00000003 [put d 18, put a 12, put b 6]
  | .sor e d a b => word e 0x00000004 [put d 18, put a 12, put b 6]
  | .sxor e d a b => word e 0x00000005 [put d 18, put a 12, put b 6]
  | .sshl e d a b => word e 0x00000006 [put d 18, put a 12, put b 6]
  | .sshr e d a b => word e 0x00000007 [put d 18, put a 12, put b 6]
  | .ssra e d a b => word e 0x00000008 [put d 18, put a 12, put b 6]
  | .smin e d a b => word e 0x00000009 [put d 18, put a 12, put b 6]
  | .smax e d a b => word e 0x0000000A [put d 18, put a 12, put b 6]
  | .sminu e d a b => word e 0x0000000B [put d 18, put a 12, put b 6]
  | .smaxu e d a b => word e 0x0000000C [put d 18, put a 12, put b 6]
  | .smul e d a b => word e 0x0000000D [put d 18, put a 12, put b 6]
  | .smulh e d a b => word e 0x0000000E [put d 18, put a 12, put b 6]
  | .smulhu e d a b => word e 0x0000000F [put d 18, put a 12, put b 6]
  | .sdiv e d a b => word e 0x00000010 [put d 18, put a 12, put b 6]
  | .sdivu e d a b => word e 0x00000011 [put d 18, put a 12, put b 6]
  | .srem e d a b => word e 0x00000012 [put d 18, put a 12, put b 6]
  | .sremu e d a b => word e 0x00000013 [put d 18, put a 12, put b 6]
  | .sseq e d a b => word e 0x00000014 [put d 18, put a 12, put b 6]
  | .ssne e d a b => word e 0x00000015 [put d 18, put a 12, put b 6]
  | .sslt e d a b => word e 0x00000016 [put d 18, put a 12, put b 6]
  | .ssltu e d a b => word e 0x00000017 [put d 18, put a 12, put b 6]
  | .ssle e d a b => word e 0x00000018 [put d 18, put a 12, put b 6]
  | .ssleu e d a b => word e 0x00000019 [put d 18, put a 12, put b 6]
  | .sclz e d a => word e 0x0000001A [put d 18, put a 12]
  | .sctz e d a => word e 0x0000001B [put d 18, put a 12]
  | .spopc e d a => word e 0x0000001C [put d 18, put a 12]
  | .sbrev e d a => word e 0x0000001D [put d 18, put a 12]
  | .ssext e d a w => word e 0x0000001E [put d 18, put a 12, put w 6]
  | .szext e d a w => word e 0x0000001F [put d 18, put a 12, put w 6]
  | .smov e d a => word e 0x00000020 [put d 18, put a 12]
  | .saddi e d a i => word e 0x01000000 [put d 18, put a 12, put i 0]
  | .sandi e d a i => word e 0x02000000 [put d 18, put a 12, put i 0]
  | .sori e d a i => word e 0x03000000 [put d 18, put a 12, put i 0]
  | .sxori e d a i => word e 0x04000000 [put d 18, put a 12, put i 0]
  | .sshli e d a n => word e 0x05000000 [put d 18, put a 12, put n 0]
  | .sshri e d a n => word e 0x05000040 [put d 18, put a 12, put n 0]
  | .ssrai e d a n => word e 0x05000080 [put d 18, put a 12, put n 0]
  | .sslti e d a i => word e 0x06000000 [put d 18, put a 12, put i 0]
  | .ssltui e d a i => word e 0x06000800 [put d 18, put a 12, put i 0]
  | .sli e d i => word e 0x07000000 [put d 18, put i 0]
  | .slhi e d i => word e 0x08000000 [put d 18, put i 0]
  | .sadr e d a b s => word e 0x09000000 [put d 18, put a 12, put b 6, put s 0]
  | .sadrPc e d b s => word e 0x09000008 [put d 18, put b 6, put s 0]
  | .sadrLoc e d a b s => word e 0x09000010 [put d 18, put a 12, put b 6, put s 0]
  | .sadrCw e d a b s => word e 0x09000018 [put d 18, put a 12, put b 6, put s 0]
  | .sadrWs e d a b s => word e 0x09000020 [put d 18, put a 12, put b 6, put s 0]
  | .saluLongImm e d a fn imm hint => word e 0x78000000 [put d 18, put a 12, put fn 6, put (imm.extractLsb' 28 4) 0, put (imm.extractLsb' 0 28) 32, put hint 60]
  | .sliLong e d imm hint => word e 0x78000010 [put d 18, put (imm.extractLsb' 28 4) 0, put (imm.extractLsb' 0 28) 32, put hint 60]
  | .slhiW e d imm hint => word e 0x78000050 [put d 18, put (imm.extractLsb' 28 4) 0, put (imm.extractLsb' 0 28) 32, put hint 60]
  | .sadrLong e d a fn imm hint => word e 0x78000020 [put d 18, put a 12, put fn 6, put (imm.extractLsb' 28 4) 0, put (imm.extractLsb' 0 28) 32, put hint 60]
  | .sfadd e d a b t => word e 0x0A000000 [put d 18, put a 12, put b 6, put t 0]
  | .sfsub e d a b t => word e 0x0A000002 [put d 18, put a 12, put b 6, put t 0]
  | .sfmul e d a b t => word e 0x0A000004 [put d 18, put a 12, put b 6, put t 0]
  | .sffma e d a b t => word e 0x0A000006 [put d 18, put a 12, put b 6, put t 0]
  | .sfdiv e d a b t => word e 0x0A000008 [put d 18, put a 12, put b 6, put t 0]
  | .sfsqrt e d a t => word e 0x0A00000A [put d 18, put a 12, put t 0]
  | .sfmin e d a b t => word e 0x0A00000C [put d 18, put a 12, put b 6, put t 0]
  | .sfmax e d a b t => word e 0x0A00000E [put d 18, put a 12, put b 6, put t 0]
  | .sfcmpEq e d a b t => word e 0x0A000010 [put d 18, put a 12, put b 6, put t 0]
  | .sfcmpLt e d a b t => word e 0x0A000012 [put d 18, put a 12, put b 6, put t 0]
  | .sfcmpLe e d a b t => word e 0x0A000014 [put d 18, put a 12, put b 6, put t 0]
  | .sfcmpUn e d a b t => word e 0x0A000016 [put d 18, put a 12, put b 6, put t 0]
  | .sfcvt e d a x y => word e 0x0A000018 [put d 18, put a 12, put x 9, put y 6]
  | .br e o => word e 0x20000000 [put o 0]
  | .bnz e s o => word e 0x21000000 [put s 18, put o 0]
  | .bz e s o => word e 0x22000000 [put s 18, put o 0]
  | .call e o => word e 0x23000000 [put o 0]
  | .jr e a => word e 0x24000000 [put a 12]
  | .callr e a => word e 0x24000001 [put a 12]
  | .ret e => word e 0x24000002 []
  | .loop e s o => word e 0x25000000 [put s 18, put o 0]
  | .rpt e s l n => word e 0x26000000 [put s 18, put l 12, put n 0]
  | .vbr e p t o => word e 0x27000000 [put p 20, put t 16, put o 0]
  | .vjoin e t => word e 0x28000000 [put t 0]
  | .vmeld e t o => word e 0x29000000 [put t 19, put o 0]
  | .vunmeld e t => word e 0x29800000 [put t 19]
  | .vexit e p => word e 0x2A000000 [put p 0]
  | .vbrk e p => word e 0x2A010000 [put p 0]
  | .vany e d p m => word e 0x2B000000 [put d 18, put p 12, put m 6]
  | .vall e d p m => word e 0x2B000001 [put d 18, put p 12, put m 6]
  | .vnone e d p m => word e 0x2B000002 [put d 18, put p 12, put m 6]
  | .vcfg e d n => word e 0x2C000000 [put d 18, put n 0]
  | .vgrant e d a => word e 0x2C000800 [put d 18, put a 12]
  | .vadd e d a b m l w => word e 0x30000000 [put d 18, put a 12, put b 6, put m 4, put l 2, put w 1]
  | .vsub e d a b m l w => word e 0x30000001 [put d 18, put a 12, put b 6, put m 4, put l 2, put w 1]
  | .vmul e d a b m l w => word e 0x31000000 [put d 18, put a 12, put b 6, put m 4, put l 2, put w 1]
  | .vmulh e d a b m l w => word e 0x31000001 [put d 18, put a 12, put b 6, put m 4, put l 2, put w 1]
  | .vmulhu e d a b m l w => word e 0x32000000 [put d 18, put a 12, put b 6, put m 4, put l 2, put w 1]
  | .vmad e d a b m l w => word e 0x32000001 [put d 18, put a 12, put b 6, put m 4, put l 2, put w 1]
  | .vand e d a b m l w => word e 0x33000000 [put d 18, put a 12, put b 6, put m 4, put l 2, put w 1]
  | .vor e d a b m l w => word e 0x33000001 [put d 18, put a 12, put b 6, put m 4, put l 2, put w 1]
  | .vxor e d a b m l w => word e 0x34000000 [put d 18, put a 12, put b 6, put m 4, put l 2, put w 1]
  | .vandn e d a b m l w => word e 0x34000001 [put d 18, put a 12, put b 6, put m 4, put l 2, put w 1]
  | .vshl e d a b m l w => word e 0x35000000 [put d 18, put a 12, put b 6, put m 4, put l 2, put w 1]
  | .vshr e d a b m l w => word e 0x35000001 [put d 18, put a 12, put b 6, put m 4, put l 2, put w 1]
  | .vsra e d a b m l w => word e 0x36000000 [put d 18, put a 12, put b 6, put m 4, put l 2, put w 1]
  | .vrot e d a b m l w => word e 0x36000001 [put d 18, put a 12, put b 6, put m 4, put l 2, put w 1]
  | .vmin e d a b m l w => word e 0x37000000 [put d 18, put a 12, put b 6, put m 4, put l 2, put w 1]
  | .vmax e d a b m l w => word e 0x37000001 [put d 18, put a 12, put b 6, put m 4, put l 2, put w 1]
  | .vminu e d a b m l w => word e 0x38000000 [put d 18, put a 12, put b 6, put m 4, put l 2, put w 1]
  | .vmaxu e d a b m l w => word e 0x38000001 [put d 18, put a 12, put b 6, put m 4, put l 2, put w 1]
  | .vadds e d a b m l w => word e 0x39000000 [put d 18, put a 12, put b 6, put m 4, put l 2, put w 1]
  | .vsubs e d a b m l w => word e 0x39000001 [put d 18, put a 12, put b 6, put m 4, put l 2, put w 1]
  | .vaddsu e d a b m l w => word e 0x3A000000 [put d 18, put a 12, put b 6, put m 4, put l 2, put w 1]
  | .vsubsu e d a b m l w => word e 0x3A000001 [put d 18, put a 12, put b 6, put m 4, put l 2, put w 1]
  | .vcmp e p c a b m l => word e 0x3B000000 [put p 20, put c 16, put a 10, put b 4, put m 2, put l 0]
  | .vsel e d a b m l w => word e 0x3C000000 [put d 18, put a 12, put b 6, put m 4, put l 2, put w 1]
  | .vmov e d a m l w => word e 0x3C000001 [put d 18, put a 12, put m 4, put l 2, put w 1]
  | .vbcast e d a m w => word e 0x3D000000 [put d 18, put a 12, put m 4, put w 1]
  | .vid e d m w => word e 0x3D000001 [put d 18, put m 4, put w 1]
  | .vext e d a b l => word e 0x3E000000 [put d 18, put a 12, put b 6, put l 2]
  | .vins e d a b w => word e 0x3E000001 [put d 18, put a 12, put b 6, put w 1]
  | .vcvt e d a c m l w => word e 0x3F000000 [put d 18, put a 12, put c 6, put m 4, put l 2, put w 1]
  | .vfadd e d a b m l w => word e 0x40000000 [put d 18, put a 12, put b 6, put m 4, put l 2, put w 1]
  | .vfsub e d a b m l w => word e 0x40000001 [put d 18, put a 12, put b 6, put m 4, put l 2, put w 1]
  | .vfmul e d a b m l w => word e 0x41000000 [put d 18, put a 12, put b 6, put m 4, put l 2, put w 1]
  | .vfdiv e d a b m l w => word e 0x41000001 [put d 18, put a 12, put b 6, put m 4, put l 2, put w 1]
  | .vffma e d a b m l w => word e 0x42000000 [put d 18, put a 12, put b 6, put m 4, put l 2, put w 1]
  | .vffms e d a b m l w => word e 0x42000001 [put d 18, put a 12, put b 6, put m 4, put l 2, put w 1]
  | .vfnma e d a b m l w => word e 0x43000000 [put d 18, put a 12, put b 6, put m 4, put l 2, put w 1]
  | .vfnms e d a b m l w => word e 0x43000001 [put d 18, put a 12, put b 6, put m 4, put l 2, put w 1]
  | .vfmin e d a b m l w => word e 0x44000000 [put d 18, put a 12, put b 6, put m 4, put l 2, put w 1]
  | .vfmax e d a b m l w => word e 0x44000001 [put d 18, put a 12, put b 6, put m 4, put l 2, put w 1]
  | .vfcmp e p c a b m l => word e 0x45000000 [put p 20, put c 16, put a 10, put b 4, put m 2, put l 0]
  | .vfsqrt e d a m l w => word e 0x46000000 [put d 18, put a 12, put m 4, put l 2, put w 1]
  | .vfrcp e d a m l w => word e 0x46000040 [put d 18, put a 12, put m 4, put l 2, put w 1]
  | .vfrsq e d a m l w => word e 0x46000080 [put d 18, put a 12, put m 4, put l 2, put w 1]
  | .vfexp2f e d a m l w => word e 0x460000C0 [put d 18, put a 12, put m 4, put l 2, put w 1]
  | .vfgetexp e d a m l w => word e 0x46000100 [put d 18, put a 12, put m 4, put l 2, put w 1]
  | .vfgetman e d a m l w => word e 0x46000140 [put d 18, put a 12, put m 4, put l 2, put w 1]
  | .vfclass e d a m l w => word e 0x46000180 [put d 18, put a 12, put m 4, put l 2, put w 1]
  | .vfabs e d a m l w => word e 0x460001C0 [put d 18, put a 12, put m 4, put l 2, put w 1]
  | .vfneg e d a m l w => word e 0x46000200 [put d 18, put a 12, put m 4, put l 2, put w 1]
  | .vfround e d a m l w => word e 0x46000240 [put d 18, put a 12, put m 4, put l 2, put w 1]
  | .vfroundRne e d a m l w => word e 0x46000280 [put d 18, put a 12, put m 4, put l 2, put w 1]
  | .vfroundRtz e d a m l w => word e 0x460002C0 [put d 18, put a 12, put m 4, put l 2, put w 1]
  | .vfroundRdn e d a m l w => word e 0x46000300 [put d 18, put a 12, put m 4, put l 2, put w 1]
  | .vfroundRup e d a m l w => word e 0x46000340 [put d 18, put a 12, put m 4, put l 2, put w 1]
  | .vfscaleb e d a b m l w => word e 0x47000000 [put d 18, put a 12, put b 6, put m 4, put l 2, put w 1]
  | .vfsgnj e d a b m l w => word e 0x47000001 [put d 18, put a 12, put b 6, put m 4, put l 2, put w 1]
  | .vfcvt e d a x y m l w => word e 0x48000000 [put d 18, put a 12, put x 9, put y 6, put m 4, put l 2, put w 1]
  | .vfcvtBlockToF32 e x => word e 0x79000058 [put x.d 18, put x.a 12, put x.hint 60, put x.pm4 56, put x.la 54, put x.nw 53, put x.k 42, put x.ef 37, put x.pln 33, put x.prnd 32]
  | .vfcvtF32ToBlock e x => word e 0x79000018 [put x.d 18, put x.a 12, put x.hint 60, put x.pm4 56, put x.la 54, put x.nw 53, put x.k 42, put x.ef 37, put x.pln 33, put x.prnd 32]
  | .vectorLongForm e x => word e 0x79000000 [put x.d 18, put x.a 12, put x.b 6, put x.xop 0, put x.hint 60, put x.pm4 56, put x.ls 54, put x.nw 53, put x.x 52, put x.dw 51, put x.ord 50, put x.sb 49, put x.fsub 45, put x.k 42, put x.ef 37, put x.pln 33, put x.prnd 32]
  | .pand e d a b m => word e 0x49000000 [put d 18, put a 12, put b 6, put m 4]
  | .por e d a b m => word e 0x49000001 [put d 18, put a 12, put b 6, put m 4]
  | .pxor e d a b m => word e 0x49000002 [put d 18, put a 12, put b 6, put m 4]
  | .pandn e d a b m => word e 0x49000003 [put d 18, put a 12, put b 6, put m 4]
  | .pnot e d a m => word e 0x49000004 [put d 18, put a 12, put m 4]
  | .pmov e d a m => word e 0x49000005 [put d 18, put a 12, put m 4]
  | .psbf e d a m => word e 0x4A000000 [put d 18, put a 12, put m 4]
  | .psif e d a m => word e 0x4A000001 [put d 18, put a 12, put m 4]
  | .psof e d a m => word e 0x4A000002 [put d 18, put a 12, put m 4]
  | .pfirst e d a m => word e 0x4A000003 [put d 18, put a 12, put m 4]
  | .ppopc e d a m => word e 0x4A000004 [put d 18, put a 12, put m 4]
  | .piota e d a m => word e 0x4A000005 [put d 18, put a 12, put m 4]
  | .vshfl e d a b m l => word e 0x4B000000 [put d 18, put a 12, put b 6, put m 4, put l 2]
  | .vshflx e d a b m l => word e 0x4B000001 [put d 18, put a 12, put b 6, put m 4, put l 2]
  | .vlup e d a b m l => word e 0x4B000002 [put d 18, put a 12, put b 6, put m 4, put l 2]
  | .vldn e d a b m l => word e 0x4B000003 [put d 18, put a 12, put b 6, put m 4, put l 2]
  | .vcompress e d a m l w => word e 0x4C000000 [put d 18, put a 12, put m 4, put l 2, put w 1]
  | .vexpand e d a m l w => word e 0x4C000001 [put d 18, put a 12, put m 4, put l 2, put w 1]
  | .vredSum e d a m l => word e 0x4D000000 [put d 18, put a 12, put m 4, put l 2]
  | .vredMin e d a m l => word e 0x4D000040 [put d 18, put a 12, put m 4, put l 2]
  | .vredMax e d a m l => word e 0x4D000080 [put d 18, put a 12, put m 4, put l 2]
  | .vredAnd e d a m l => word e 0x4D0000C0 [put d 18, put a 12, put m 4, put l 2]
  | .vredOr e d a m l => word e 0x4D000100 [put d 18, put a 12, put m 4, put l 2]
  | .vredXor e d a m l => word e 0x4D000140 [put d 18, put a 12, put m 4, put l 2]
  | .vredFsumO e d a m l => word e 0x4D000180 [put d 18, put a 12, put m 4, put l 2]
  | .vredFsumU e d a m l => word e 0x4D0001C0 [put d 18, put a 12, put m 4, put l 2]
  | .vredFmin e d a m l => word e 0x4D000200 [put d 18, put a 12, put m 4, put l 2]
  | .vredFmax e d a m l => word e 0x4D000240 [put d 18, put a 12, put m 4, put l 2]
  | .vscan e d a x o m l => word e 0x4E000000 [put d 18, put a 12, put x 11, put o 6, put m 4, put l 2]
  | .vballot e d a b => word e 0x4E000001 [put d 18, put a 12, put b 6]
  | .vvoteAny e d a m => word e 0x4E000002 [put d 18, put a 12, put m 4]
  | .vvoteAll e d a m => word e 0x4E000042 [put d 18, put a 12, put m 4]
  | .vvoteCnt e d a m => word e 0x4E000082 [put d 18, put a 12, put m 4]
  | .vmaxexp e a f k m l => word e 0x4F000000 [put a 12, put f 9, put k 6, put m 4, put l 2]
  | .vquant e d a f k m l => word e 0x4F000001 [put d 18, put a 12, put f 9, put k 6, put m 4, put l 2]
  | .vdequant e d a k m l => word e 0x4F000002 [put d 18, put a 12, put k 6, put m 4, put l 2]
  | .sld e d a c w o => word e 0x50000000 [put d 18, put a 12, put c 8, put w 6, put o 0]
  | .sst e d a c w o => word e 0x51000000 [put d 18, put a 12, put c 8, put w 6, put o 0]
  | .vld e d a c m o => word e 0x52000000 [put d 18, put a 12, put c 8, put m 6, put o 0]
  | .vst e d a c m o => word e 0x53000000 [put d 18, put a 12, put c 8, put m 6, put o 0]
  | .vlds e d a b c m => word e 0x54000000 [put d 18, put a 12, put b 6, put c 2, put m 0]
  | .vsts e d a b c m => word e 0x54000002 [put d 18, put a 12, put b 6, put c 2, put m 0]
  | .vldx e d a b c m => word e 0x55000000 [put d 18, put a 12, put b 6, put c 2, put m 0]
  | .vstx e d a b c m => word e 0x55000002 [put d 18, put a 12, put b 6, put c 2, put m 0]
  | .vldff e d a c m o => word e 0x56000000 [put d 18, put a 12, put c 8, put m 6, put o 0]
  | .vldw e d a z s c m => word e 0x57000000 [put d 18, put a 12, put z 7, put s 6, put c 2, put m 0]
  | .vstw e d a z c m => word e 0x57000002 [put d 18, put a 12, put z 7, put c 2, put m 0]
  | .vldbp e d a c m s r k => word e 0x58000000 [put d 18, put a 12, put c 8, put m 6, put s 4, put r 3, put k 0]
  | .vlseg e d a k f c m => word e 0x59000000 [put d 18, put a 12, put k 9, put f 6, put c 2, put m 0]
  | .vsseg e d a k f c m => word e 0x59000002 [put d 18, put a 12, put k 9, put f 6, put c 2, put m 0]
  | .vldgl e d a b c m => word e 0x5A000000 [put d 18, put a 12, put b 6, put c 2, put m 0]
  | .vstsc e d a b c m => word e 0x5A000002 [put d 18, put a 12, put b 6, put c 2, put m 0]
  | .vldglLong e x => word e 0x7900002A [put x.d 18, put x.a 12, put x.b 6, put x.hint 60, put x.pm4 56, put x.dw 51, put x.ord 50, put x.ps 45, put x.scope 37, put x.cls 33]
  | .vstscLong e x => word e 0x1000007900002A [put x.d 18, put x.a 12, put x.b 6, put x.hint 60, put x.pm4 56, put x.dw 51, put x.ord 50, put x.ps 45, put x.scope 37, put x.cls 33]
  | .sll e d a c w => word e 0x5B000000 [put d 18, put a 12, put c 2, put w 1]
  | .ssc e d a b c w => word e 0x5B000001 [put d 18, put a 12, put b 6, put c 2, put w 1]
  | .memLongControlForm e x => word e 0x7A000000 [put x.d 18, put x.a 12, put x.xop 8, put x.cls 4, put x.scope 1, put x.dw 0, put x.hint 60, put x.pm4 56, put x.ra 54, put x.f 52, put x.s 51, put x.low 32]
  | .memLongOffsetForm e d a xop sub off hint => word e 0x7A000000 [put d 18, put a 12, put xop 8, put sub 4, put (off.extractLsb' 28 4) 0, put (off.extractLsb' 0 28) 32, put hint 60]
  | .fence e s m => word e 0x5C000000 [put s 18, put m 0]
  | .barinit e a b => word e 0x5D000000 [put a 12, put b 0]
  | .bararr e d a b => word e 0x5D000400 [put d 18, put a 12, put b 0]
  | .barwait e a b => word e 0x5D000800 [put a 12, put b 0]
  | .ipost e a => word e 0x5E000000 [put a 12]
  | .iwait e a d => word e 0x5E000400 [put a 12, put d 0]
  | .stgpost e a r s => word e 0x5E000800 [put a 12, put r 4, put s 0]
  | .stgwait e a r p s => word e 0x5E000C00 [put a 12, put r 4, put p 3, put s 0]
  | .claim e d a => word e 0x5F000000 [put d 18, put a 12]
  | .waitw e d a b => word e 0x5F000001 [put d 18, put a 12, put b 6]
  | .waitwExt e d a b => word e 0x5F000002 [put d 18, put a 12, put b 6]
  | .tset e d a r p f => word e 0x60000000 [put d 18, put a 12, put r 10, put p 6, put f 0]
  | .tget e d => word e 0x60000800 [put d 18]
  | .tbands e d b => word e 0x61000000 [put d 18, put b 0]
  | .obres e h a b => word e 0x62000000 [put h 19, put a 12, put b 6]
  | .obrel e h => word e 0x62800000 [put h 19]
  | .obfill e c a b h => word e 0x63000000 [put c 18, put a 12, put b 6, put h 1]
  | .obscale e c a k h => word e 0x63000020 [put c 18, put a 12, put k 9, put h 1]
  | .mlds e b a p h => word e 0x64000000 [put b 18, put a 12, put p 10, put h 6]
  | .mswap e => word e 0x64000800 []
  | .mrbnd e a => word e 0x65000000 [put a 12]
  | .mtag e a b => word e 0x65800000 [put a 12, put b 6]
  | .mma e c h a r p z => word e 0x66000000 [put c 22, put h 18, put a 12, put r 8, put p 4, put z 3]
  | .mmaG e c h a r p z => word e 0x67000000 [put c 22, put h 18, put a 12, put r 8, put p 4, put z 3]
  | .gangset e a => word e 0x67000001 [put a 12]
  | .mguide e d c u s p => word e 0x68000000 [put d 22, put c 20, put u 18, put s 12, put p 8]
  | .mzero e c => word e 0x69000000 [put c 20]
  | .maccLd e c a => word e 0x69400000 [put c 20, put a 12]
  | .maccSt e c a b => word e 0x69800000 [put c 20, put a 12, put b 6]
  | .mrd e v a b c => word e 0x6A000000 [put v 18, put a 12, put b 6, put c 4]
  | .mwr e v a b c => word e 0x6A000008 [put v 18, put a 12, put b 6, put c 4]
  | .rcount e a b => word e 0x6B000000 [put a 12, put b 6]
  | .rcsnap e d a => word e 0x6B000020 [put d 18, put a 12]
  | .matrixLongForm e xop body cls scope hint => word e 0x7B000000 [put body 0, put hint 60, put xop 56, put cls 52, put scope 49]
  | .cpy e q p a r s c => word e 0x6C000000 [put q 21, put p 20, put a 12, put r 9, put s 6, put c 2]
  | .cpyLong e q p a r s cls scope x hint => word e 0xC0000007B000000 [put q 21, put p 20, put a 12, put r 9, put s 6, put hint 60, put cls 52, put scope 49, put x 43]
  | .qfence e m => word e 0x6D000000 [put m 0]
  | .qwait e n => word e 0x6D800000 [put n 0]
  | .qwaitClr e n => word e 0x6DC00000 [put n 0]
  | .launch e d a b => word e 0x6E000000 [put d 18, put a 12, put b 6]
  | .launchW e d a b => word e 0x6E000001 [put d 18, put a 12, put b 6]
  | .gsig e d a => word e 0x6F000000 [put d 18, put a 12]
  | .gcond e a b => word e 0x6F000001 [put a 12, put b 6]
  | .sysrd e d i => word e 0x70000000 [put d 18, put i 0]
  | .syswr e d i => word e 0x70001000 [put d 18, put i 0]
  | .syswrVcfg e d => word e 0x70001002 [put d 18]
  | .fqdone e d => word e 0x70001051 [put d 18]
  | .trap e c => word e 0x71000000 [put c 0]
  | .eret e => word e 0x71400000 []
  | .brk e c => word e 0x71800000 [put c 0]
  | .icinvAll e => word e 0x72200000 []
  | .icinv e a b => word e 0x72000000 [put a 12, put b 6]
  | .yield e => word e 0x72400000 []
  | .nop e => word e 0x72800000 []
  | .halt e => word e 0x72C00000 []
  | .pwrhint e a k => word e 0x73000000 [put a 12, put k 8]
  | .tlbinvAll _ => 0
  | .tlbinvAsid _ _ => 0
  | .tlbinvPage _ _ _ => 0
  | .faultSlotWaitRecord _ _ => 0
  | .faultDoorbell _ _ _ => 0
  | .runIssue _ _ => 0
  | .waitSatisfied _ => 0
  | .waitwRecheck _ => 0
  | .waitwPoll _ => 0
  | .gangTimeout _ _ => 0
  | .watchdogFire _ => 0
  | .copyExecute _ => 0
  | .copyComplete _ => 0
  | .matrixQueueComplete _ => 0
  | .launchPacketCheck _ => 0
  | .placementStep _ _ => 0
  | .groupCapture _ _ => 0
  | .blockRetire _ => 0
  | .submitDoorbell _ _ _ => 0
  | .nodeKernel _ _ => 0
  | .nodeCopy _ _ => 0
  | .nodeWsload _ _ => 0
  | .nodeCond _ _ => 0
  | .nodeLoop _ _ => 0
  | .nodeSignal _ _ => 0
  | .nodeWait _ _ => 0
  | .waitNodeRetest _ _ => 0
  | .nodeEnd _ _ => 0
  | .ckptStart _ _ => 0
  | .ckptCut _ _ => 0
  | .ckptDrain _ _ => 0
  | .ckptCommit _ _ => 0
  | .ckptApply _ _ => 0
  | .ckptApplyDone _ _ => 0
  | .ckptRestore _ _ => 0
  | .hostMemoryWrite _ _ _ => 0
  | .hostMemoryRead _ _ _ => 0
  | .heartbeat _ => 0
  | .hostFailed _ => 0
  | .hostLinkDown _ => 0
  | .mailboxWrite _ _ _ => 0
  | .resync _ => 0
  | .mailboxTlbinv _ => 0
  | .setis _ => 0
  | .handover _ => 0
  | .attest _ => 0
  | .setroute _ => 0
  | .setwin _ => 0
  | .peerAccess _ _ _ _ => 0
  | .peerStoreAck _ => 0
  | .flitReplay _ => 0
  | .pause _ => 0
  | .resume _ => 0
  | .linkRewidth _ _ => 0
  | .linkRewidthEnd _ => 0
  | .linkDown _ => 0
  | .linkCalibration _ => 0
  | .dramCalibration _ => 0
  | .patrolScrub _ => 0
  | .telemetry => 0
  | .powerSample _ => 0
  | .boostClassify => 0
  | .thermalSample _ _ => 0
  | .panRotation _ _ => 0
  | .panExchange _ _ => 0
  | .panExchangeAbandon _ _ => 0
  | .panTransferEnd _ _ => 0
  | .bandPowerOff _ _ => 0
  | .restEnter _ => 0
  | .restExit _ => 0
  | .cellarRefreshStart _ _ => 0
  | .cellarRefreshEnd _ _ => 0
  | .deviceReset _ => 0
  | .powerHintExpiry _ => 0
  | .peerResponse _ _ => 0
  | .hostApertureCompletion _ _ => 0

/-- The instructions that words encode. -/
def Instr.hasWord : Instr → Bool
  | .tlbinvAll _ => false
  | .tlbinvAsid _ _ => false
  | .tlbinvPage _ _ _ => false
  | .faultSlotWaitRecord _ _ => false
  | .faultDoorbell _ _ _ => false
  | .runIssue _ _ => false
  | .waitSatisfied _ => false
  | .waitwRecheck _ => false
  | .waitwPoll _ => false
  | .gangTimeout _ _ => false
  | .watchdogFire _ => false
  | .copyExecute _ => false
  | .copyComplete _ => false
  | .matrixQueueComplete _ => false
  | .launchPacketCheck _ => false
  | .placementStep _ _ => false
  | .groupCapture _ _ => false
  | .blockRetire _ => false
  | .submitDoorbell _ _ _ => false
  | .nodeKernel _ _ => false
  | .nodeCopy _ _ => false
  | .nodeWsload _ _ => false
  | .nodeCond _ _ => false
  | .nodeLoop _ _ => false
  | .nodeSignal _ _ => false
  | .nodeWait _ _ => false
  | .waitNodeRetest _ _ => false
  | .nodeEnd _ _ => false
  | .ckptStart _ _ => false
  | .ckptCut _ _ => false
  | .ckptDrain _ _ => false
  | .ckptCommit _ _ => false
  | .ckptApply _ _ => false
  | .ckptApplyDone _ _ => false
  | .ckptRestore _ _ => false
  | .hostMemoryWrite _ _ _ => false
  | .hostMemoryRead _ _ _ => false
  | .heartbeat _ => false
  | .hostFailed _ => false
  | .hostLinkDown _ => false
  | .mailboxWrite _ _ _ => false
  | .resync _ => false
  | .mailboxTlbinv _ => false
  | .setis _ => false
  | .handover _ => false
  | .attest _ => false
  | .setroute _ => false
  | .setwin _ => false
  | .peerAccess _ _ _ _ => false
  | .peerStoreAck _ => false
  | .flitReplay _ => false
  | .pause _ => false
  | .resume _ => false
  | .linkRewidth _ _ => false
  | .linkRewidthEnd _ => false
  | .linkDown _ => false
  | .linkCalibration _ => false
  | .dramCalibration _ => false
  | .patrolScrub _ => false
  | .telemetry => false
  | .powerSample _ => false
  | .boostClassify => false
  | .thermalSample _ _ => false
  | .panRotation _ _ => false
  | .panExchange _ _ => false
  | .panExchangeAbandon _ _ => false
  | .panTransferEnd _ _ => false
  | .bandPowerOff _ _ => false
  | .restEnter _ => false
  | .restExit _ => false
  | .cellarRefreshStart _ _ => false
  | .cellarRefreshEnd _ _ => false
  | .deviceReset _ => false
  | .powerHintExpiry _ => false
  | .peerResponse _ _ => false
  | .hostApertureCompletion _ _ => false
  | _ => true

/-- The instruction's length in bytes (R215); 0 for the device's own steps. -/
def Instr.size : Instr → Nat
  | .saluLongImm _ _ _ _ _ _ => 8
  | .sliLong _ _ _ _ => 8
  | .slhiW _ _ _ _ => 8
  | .sadrLong _ _ _ _ _ _ => 8
  | .vfcvtBlockToF32 _ _ => 8
  | .vfcvtF32ToBlock _ _ => 8
  | .vectorLongForm _ _ => 8
  | .vldglLong _ _ => 8
  | .vstscLong _ _ => 8
  | .memLongControlForm _ _ => 8
  | .memLongOffsetForm _ _ _ _ _ _ _ => 8
  | .matrixLongForm _ _ _ _ _ _ => 8
  | .cpyLong _ _ _ _ _ _ _ _ _ _ => 8
  | i => if i.hasWord then 4 else 0

end Sys2Proof
end

