-- ==== Sys2Proof/Config.lean ====
section
/-! DEFINITION. What one device fixes and the spec leaves open: free values with no body, so that no proof can depend on one of
them. Each is named in a log entry (notes/assumptions). -/

namespace Sys2Proof.Config

/-- Nanoseconds that step number n takes (log 5): the spec gives no instruction a duration. -/
opaque stepNanos : Nat → Nat

/-- A choice of yes or no that the spec leaves to the device, for use number n (log 6). -/
opaque freeBool : Nat → Bool

/-- The rank by which the device orders element i of access number n where the spec promises no order (R150; log 7). -/
opaque elementRank : Nat → Nat → Nat

/-- Lead of a die's cellar calendar over its tick, in nanoseconds, after reset r: argument 4 r + die; used modulo 48,000 (R85; log 8). -/
opaque calendarLead : Nat → Nat

/-- Lead of a die's tick after reset r: argument 4 r + die; used modulo 21 (R212; log 9). -/
opaque tickLead : Nat → Nat

/-- The number of faulty columns of the matrix core at (die, cluster, site), capped at 68 where used (R17; log 10). -/
opaque faultyColumns : Nat → Nat → Nat → Nat

/-- The approximation that the device takes of function f (0 reciprocal, 1 reciprocal square root, 2 power of two; 4 and 5 the
binary64 forms of the first two) of the source bits x,
used when it lies within the bound of R282 (log 11). -/
opaque approx : Nat → Nat → Nat

/-- The L2 slice of the home die that serves a line (R93: a fixed hash; log 12). -/
opaque sliceOf : Nat → Nat

/-- The byte that use number n of a free value reads: apertures, attestation reports (log 13). -/
opaque freeByte : Nat → Byte

/-- Element e, at key register × 1024 + element, of a vector register at or above NR that an instruction with NW = 1 reads as its old
destination in step n (R228; log 25). -/
opaque absentReg : Nat → Nat → Nat

/-- A free number for use number n: a temperature, a count of the environment (log 13). -/
opaque freeNat : Nat → Nat

end Sys2Proof.Config
end

