-- ==== Sys2Proof/Machine/State.lean ====
section
/-! DEFINITION. The state of the device as plain data, and the state after reset. Every piece of state that the spec names has a
field; INVENTORY.md lists each with its rule and its reset value. -/

namespace Sys2Proof.Machine

/-- Sparse data by key, in one canonical form: keys strictly rising, and no entry equal to what an unlisted key reads as. -/
abbrev Sparse (α : Type) := List (Nat × α)

/-- An entry of a path's hardware-loop stack (R255). -/
structure LoopEntry where
  start : Word
  stop : Word
  left : Word
  depth : Nat
  deriving DecidableEq, Repr

/-- The repeat frame in progress of a path (R258, R410). -/
structure RptFrame where
  start : Word
  len : Nat
  stride : Nat
  n : Nat
  pass : Nat
  pos : Nat
  deriving DecidableEq, Repr

/-- The ways a translation fails (R52, R61). -/
inductive FaultType where
  | notPresent | protection | malformed | noMemory
  deriving DecidableEq, Repr

/-- What a path waits for (R192, R193). `w` values are captured when the wait begins. -/
inductive Wait where
  | bar (b : Nat) (gen : Half)                      -- barwait (R312)
  | iter (d : Nat) (v : Word)                       -- iwait (R314)
  | ring (r j : Nat) (want : Bool)                  -- stgwait (R316)
  | latch                                           -- the rendezvous latch (R183)
  | queues (mask : BitVec 9) (ids : List Nat)       -- qfence and qwait: queues and awaited operations (R361)
  | queueFull (q : Nat) (post : Option (Nat × Nat)) (desc : Word) (cls scope : Nat) -- cpy to a full queue (R355)
  | word (ext : Bool) (addr old : Word) (d : Nat)   -- waitw and waitw.ext (R318); d is the register written
  | space (packet : List Byte) (addr : Word) (d b : Nat) -- launch.w (R363)
  | tlb (n : Nat)                                   -- syswr to tlbinv or the doorbell of fqdone, until its step is done
  | fault (die slot : Nat) (ft : FaultType) (ea : Word) (kind : BitVec 4)  -- fault-wait (R60)
  | noSlot (die : Nat) (ft : FaultType) (level : Nat) (ea : Word) (kind : BitVec 4)  -- waits for a fault-queue slot (R66)
  deriving DecidableEq, Repr

/-- The run state of a path (R169, R410). -/
inductive PathRun where
  | ready
  | atJoin (t : Nat)
  | atMeld (t : Nat) (table : Word)  -- with the address of its table (R172)
  | waiting (w : Wait) (len : Nat)   -- `len`: the bytes of the waiting instruction
  deriving DecidableEq, Repr

/-- A path of a group (R166). -/
structure Path where
  idx : Nat
  pc : Word
  regs : Vector Word 64
  threads : BitVec 1024
  rets : List Word            -- return stack, top first; the call depth is its length
  loops : List LoopEntry      -- top first
  tokens : BitVec 16
  maps : Vector Word 16       -- written map of each token (R166)
  rpt : Option RptFrame
  run : PathRun
  deriving DecidableEq, Repr

/-- A melded region (R171 to R175): token, the two sides, the captured table and the sides that completed the instruction
under way. -/
structure Meld where
  tok : Nat
  a : Nat
  b : Nat
  table : BitVec 512
  doneA : Bool
  doneB : Bool
  startB : Option (Word × Half × Half) -- of the vector instruction under way: PC, vstart at which side b starts it, and vstart where side a
                              -- stands (R269)
  waited : Bool := false      -- side a has waited for the instruction under way, and side b's part belongs to no run (R221; log 125)
  deriving DecidableEq, Repr

/-- How far a group stands with a save or a restore of its block (R402 to R406, R414, R415). -/
inductive Part where
  | none      -- no part to do
  | running   -- the group runs the supervisor at cause 0x11 or 0x12
  | ended     -- its eret has executed
  deriving DecidableEq, Repr

/-- A group (R165). -/
structure Group where
  gidx : Nat
  role : Role
  slot : Nat                  -- thread-group slot of the core (R393)
  v : Sparse Half             -- element i of vx at key x * 1024 + i; default 0
  p : Vector (BitVec 1024) 16 -- p0 is stored as all ones
  bp : Sparse Half            -- latches: element i of bp n at key n * 1024 + i; default 0
  ks : Vector (BitVec 512) 8  -- scale registers, entry j in bits [8j + 7 : 8j]
  qs : Vector Word 8          -- validity masks
  vl : Half
  vstart : Half
  nrc : BitVec 2
  fcsr : Half
  dirty : Word
  gang : Word
  sup : Bool                  -- supervisor mode
  svPaths : BitVec 64         -- the paths that run the supervisor while `sup` is true (log 23)
  epc : Word
  ecause : Word
  eaddr : Word
  ssave : Vector Word 4
  nest : Nat                  -- supervisor-mode trap entries in a row (R399)
  exited : BitVec 1024
  paths : List Path           -- live paths, by rising index
  melds : List Meld
  last : Nat                  -- the path that ran last (R169)
  frames : List (Option RptFrame) -- repeat frames of the interrupted code, innermost trap first (R258)
  stackSlot : Option Nat      -- path-stack slot held (R167)
  part : Part
  issued : Nat                -- instructions issued in the current run (R220)
  ffGo : Bool                 -- a stalled vldff has completed its first element (R72)
  qbad : BitVec 8             -- queues on which a copy of the group stopped in error or was discarded (R361)
  qwide : BitVec 9            -- queues to which the group has issued at cluster scope or wider (R361)
  kept : List (Nat × Option (Nat × Nat)) -- units at which a macc.st under way has faulted, with the translation kept since (R70, R345)
  floors : Sparse Nat         -- for each party and class, the stamp before which its accesses may not look (R140, R146; Access.lean)
  again : List (Nat × Word × Nat) -- path, PC, stamp: an instruction that executes again looks no further back (R105, R152)
  retired : Bool
  deriving DecidableEq, Repr

/-- A stationary plane (R330). Element codes at key n * 128 + k, scale bytes at key n * 4 + k / 32 (default 0). -/
structure Plane where
  valid : Bool
  k : Nat
  n : Nat
  fmt : BitVec 5
  pln : BitVec 4
  rnd : Bool
  id : BitVec 16
  w : Sparse (BitVec 16)
  sc : Sparse Byte
  deriving DecidableEq, Repr, Inhabited

/-- A named barrier (R311). -/
structure Barrier where
  expect : BitVec 16
  count : BitVec 16
  gen : BitVec 32
  deriving DecidableEq, Repr, Inhabited

/-- A member that has arrived in the rendezvous latch, with its captured operands (R339, R412). -/
structure LatchMember where
  gidx : Nat
  pidx : Nat
  len : Nat
  tile : Nat
  handle : Nat
  z : Bool
  pd : Nat
  vl : Nat
  vstart : Nat
  j0 : Word
  prbits : BitVec 256
  ben : BitVec 4              -- the bands enabled when it issued (R418)
  deriving DecidableEq, Repr

/-- An entry of the rendezvous latch (R183 to R185, R412). -/
structure LatchEntry where
  seq : BitVec 8
  pair : Bool
  members : BitVec 16
  tmo : Nat                   -- microseconds, of the first arrival; 0 none
  elapsed : Nat               -- nanoseconds
  arrived : List LatchMember
  deriving DecidableEq, Repr

/-- Where a block stands with pre-emption (R401, R406, R414). -/
inductive Residence where
  | resident | saving | held | restoring
  deriving DecidableEq, Repr

/-- A power hint of a block: KIND and the tick at which it expires, `none` for never (R371). -/
structure Hint where
  kind : BitVec 4
  expires : Option Nat
  deriving DecidableEq, Repr

/-- A block (R178). `uid` is the model's handle. -/
structure Block where
  uid : Nat
  launch : Nat                -- launch id (R365)
  blockid : Half
  tenant : Nat
  place : Place
  order : Nat                 -- placement count, for the victim order (R392)
  groups : List Group
  gm : Half
  gn : Half
  gk : Half
  tfmt : Half
  ben : BitVec 4
  rbnd : Half
  tiles : Vector (Sparse Half) 4   -- element (m, n) at key m * 64 + n; default +0.0
  pres : Vector (BitVec 256) 4
  planes : Vector Plane 2
  tags : Sparse (BitVec 16)   -- default 0xFFFF
  tagOn : Bool
  pendTags : Sparse (BitVec 16)
  recs : Vector (BitVec 128) 16    -- word 0 in the low half
  spadSize : Nat
  spad : Sparse Byte
  obSize : Nat
  ob : Sparse Byte
  bars : Vector Barrier 64
  iter : Word
  rings : Vector (BitVec 8) 8
  postScope : Sparse Nat      -- scope of the latest post of slot j of ring r, at key r * 8 + j; default 1 (R316)
  latch : List LatchEntry
  hint : Option Hint
  res : Residence
  frame : Option Nat          -- save frame and spill slot in use (R407)
  nextFrame : Option Nat      -- the frame of a pre-emption that was requested while the block is being restored (R392, R407; log 128)
  preempt : Bool              -- a pre-emption request stands (R401)
  transit : Bool              -- in transit between two sites (R37)
  issuedQ : BitVec 8          -- copy queues to which the block has issued since it stands on its core (R353)
  faulty : Nat                -- NFCOL of the core at which the block was placed (R20, R21, R196)
  deriving DecidableEq, Repr

/-- Why an access is held: its bank group is refreshing (R87), or the allocation is in transit (R37). -/
inductive HoldWhy where
  | window (die group : Nat)
  | transit (uid : Nat)
  deriving DecidableEq, Repr

/-- The resolved descriptor of a copy (R97 to R101). -/
structure CopyDim where
  extent : Nat
  start : Nat
  sstr : Int
  dstr : Int
  box : Nat
  deriving DecidableEq, Repr

structure CopyDesc where
  sfmt : Nat
  dfmt : Nat
  rnd : Nat
  dob : Bool
  rec_ : BitVec 128           -- the reservation record of a destination in the operand buffer, as it stood at issue (R325)
  bnd : Bool
  src : Word
  dst : Word
  dims : List CopyDim
  deriving DecidableEq, Repr

/-- Progress of a copy (R353 to R358). -/
inductive CopyRun where
  | queued
  | fault (die slot : Nat) (ft : FaultType) (ea : Word) (kind : BitVec 4)
  | noSlot (die : Nat) (ft : FaultType) (level : Nat) (ea : Word) (kind : BitVec 4)
  | performed
  deriving DecidableEq, Repr

/-- A copy that has been issued and not completed. `node` is the graph node of a front-end copy. -/
structure Copy where
  id : Nat
  seed : Nat                  -- what the order of its elements depends on (R101)
  q : QKey
  uid : Nat
  gidx : Nat
  ctx : Nat                   -- physical address of the context's RCB
  sup : Bool
  cls : Nat
  scope : Nat
  post : Option (Nat × Nat)
  desc : CopyDesc
  next : Nat                  -- elements, or segments of a block-format destination, moved so far
  run : CopyRun
  node : Option Nat
  wsload : Bool
  held : Bool                 -- stopped with its pre-empted block (R358)
  late : List Nat             -- units put off while their storage is held (R37, R87)
  staged : List (Nat × Byte)  -- bytes read for operand-buffer granules that are not whole yet, by offset (R81)
  hold : Option HoldWhy       -- why the unit that was tried last is held (R193)
  lost : List Nat             -- tenants of its cluster whose blocks a termination has removed under it (R357)
  pages : List (Nat × Nat × Nat) -- translations kept until the units that obtained them have moved (R70): as `ExtReq.kept`
  deriving DecidableEq, Repr

/-- The error record of a copy queue (R353). -/
structure QErr where
  q : QKey
  cause : Nat
  addr : Word
  kind : BitVec 4
  uid : Nat
  deriving DecidableEq, Repr

/-- Writes that stand in a core's matrix queue (R345, R350). -/
structure MatOp where
  id : Nat
  pl : Place
  uid : Nat
  gidx : Nat
  cls : Nat
  scope : Nat
  addr : Word                 -- the address of the first byte that has not been written
  writes : List (Target × List Byte)
  deriving DecidableEq, Repr

/-- A link line (R156): a 128-byte global line or a 64-byte line of a block's scratchpad. -/
inductive LinkLine where
  | glob (line : Nat)
  | spad (uid line : Nat)
  deriving DecidableEq, Repr

/-- Who holds a link (R156). -/
inductive LinkOwner where
  | path (w : Who)
  | thread (uid gidx i : Nat)
  deriving DecidableEq, Repr

/-- An intact link (R157). A link that is no longer intact is not listed. -/
structure Link where
  owner : LinkOwner
  line : LinkLine
  deriving DecidableEq, Repr

/-- A launch that has been accepted and not released (R186 to R190, R387). -/
structure Launch where
  id : Nat                    -- tells launches of the device apart
  shown : Nat                 -- the launch id that software sees (R365, R441)
  die : Nat
  packet : Vector Word 16
  addr : Word                 -- address of the packet (s3)
  ctx : Nat                   -- physical address of the context's RCB
  rcb : Nat                   -- physical address of the launch's RCB
  counter : Word
  placed : Nat                -- blocks placed so far
  prio : Nat
  dies : BitVec 4
  checked : Bool              -- has passed R187
  node : Option Nat           -- the KERNEL node it stems from
  service : Bool              -- queued under R63
  deriving DecidableEq, Repr

/-- An entry of a TLB: level 0 a core's, 1 a cluster's, 2 a die's last level (R55). `page` is the level of the leaf. -/
structure TlbEntry where
  tier : Nat
  at_ : Place
  asid : BitVec 16
  vpn : Nat                   -- virtual address of the page
  page : Nat
  leaf : Word
  deriving DecidableEq, Repr

/-- An entry that the walkers of a die keep, of levels 0 to 2 (R55): the entry at the given index path of an address space. -/
structure WalkEntry where
  die : Nat
  asid : BitVec 16
  level : Nat
  path : Nat                  -- the address above the part that the entry's table maps
  entry : Word
  deriving DecidableEq, Repr

/-- An entry of a core's decoded-operation cache (R240): the words, second word above the first, with the level of the leaf of
each word's page and whether the pages permit user mode. -/
structure DecodedOp where
  core : Place
  ctx : Nat
  va : Nat
  words : Nat
  page : Nat
  page2 : Option Nat          -- of the second word of a long form
  user : Bool
  deriving DecidableEq, Repr

/-- A line that an L1 holds (R88), tagged by context (R14). -/
structure L1Line where
  core : Place
  ctx : Nat
  line : Nat
  deriving DecidableEq, Repr

/-- A byte of an L1 line that memory no longer holds (R88, R143). -/
structure StaleByte where
  core : Place
  ctx : Nat
  pa : Nat
  val : Byte
  deriving DecidableEq, Repr

/-- A byte as it was before a write: what a read that nothing orders after the write may still return (R140, R147). `stamp` is the
write's place in the order of all writes. -/
structure PastByte where
  stamp : Nat
  at_ : Target
  val : Byte
  deriving DecidableEq, Repr

/-- Capacity that a block has left on a core and that is held back for the set which its die reserves for (R390). -/
structure Reserved where
  at_ : Place
  groups : Nat
  spad : Nat
  ob : Nat
  deriving DecidableEq, Repr

/-- The routing counters of a cluster, in use by one context (R348). -/
structure RouteSet where
  die : Nat
  cl : Nat
  ctx : Nat
  counts : Sparse Half
  deriving DecidableEq, Repr

/-- A Wenfel link (R443 to R447). -/
structure LinkState where
  lanes : Nat
  up : Bool
  paused : Bool
  rewidth : Option Nat        -- lanes after the re-width in progress
  replays : Nat
  pauses : Nat
  downs : Nat
  deriving DecidableEq, Repr, Inhabited

/-- Who waits for an answer through an aperture. -/
inductive ExtOwner where
  | path (w : Who)
  | copy (id : Nat)
  | ckpt (ctx va : Nat)
  | node (ctx va : Nat)
  | matq (id : Nat)
  | posted (ctx die : Nat)   -- a store that a front end does not wait for
  | notice (ctx die slot : Nat) -- the packet of a service kernel (R63)
  | mailbox (port : Nat)     -- a command that reads host memory (R454)
  deriving DecidableEq, Repr

/-- An access that stands at an aperture and is not answered yet (R95, R445). `got` holds the answer until the access
re-executes: `some none` for a failure. `link` is the link it uses, 16 for a host port; `va` the address that was translated. -/
structure ExtReq where
  id : Nat
  owner : ExtOwner
  va : Nat
  pa : Nat
  n : Nat
  data : Option (List Byte)
  cls : Nat
  link : Nat
  got : Option (Option (List Byte))
  kept : List (Nat × Nat × Nat) -- translations kept until it has performed (R70): virtual address, physical address, ILV
  deriving DecidableEq, Repr

/-- An inbound window (R448). -/
structure Window where
  base : Nat
  size : Nat
  read : Bool
  write : Bool
  deriving DecidableEq, Repr, Inhabited

/-- A management mailbox and the host behind it (R449, R451). -/
structure HostPort where
  arg0 : Word
  arg1 : Word
  arg2 : Word
  busy : Bool
  result : Byte
  hbper : BitVec 16
  alive : Bool
  failed : Bool
  lastBeat : Nat
  taken : Option Word        -- MBARG0 of a TLBINV that has started (R450)
  deriving DecidableEq, Repr, Inhabited

/-- A thermal domain (R425, R426). Temperatures are in eighths of a degree. -/
structure Thermal where
  throttled : Bool
  emergency : Bool
  since : Nat
  temp : Nat
  deriving DecidableEq, Repr, Inhabited

/-- A completion of a set-barrier phase (R423). `cl` is die * 5 + cluster. -/
structure Arrival where
  ctx : Nat
  bar : Nat
  gen : BitVec 32
  cl : Nat
  tick : Nat
  deriving DecidableEq, Repr

/-- Phases of a checkpoint and of a restore (R436 to R441). -/
inductive CkptPhase where
  | cut | skim | drain | commit | apply | applyDone | restoreApply | restoreAccept
  deriving DecidableEq, Repr

/-- A checkpoint or a restore in progress (R437 to R441). -/
structure Ckpt where
  ctx : Nat
  va : Nat                    -- the CKPT node
  die : Nat
  rcb : Nat
  addr : Nat                  -- the descriptor
  desc : List Nat             -- its 24 words
  id : Nat                    -- its place among the copies of the die's front-end queue
  gen : Nat
  phase : CkptPhase
  bytes : Nat                 -- bytes of the log
  got : List (List Byte)      -- answers to the accesses that the phase has made so far
  record : List Byte          -- the cut record of a restore
  deriving DecidableEq, Repr

/-- Exchanges and moves of pan rotation in progress (R428 to R430). -/
structure Pan where
  die : Nat
  cl : Nat
  hot : Nat
  cool : Nat
  point : Nat                 -- tick of the rotation point
  moving : Bool
  deriving DecidableEq, Repr

/-- A background task of a die (R432): count and last tick. -/
structure Task where
  die : Nat
  kind : Nat                  -- 0 scrub, 1 DRAM calibration, 2 link calibration, 3 wear levelling, 4 telemetry; beyond R432: 5 boost
                              -- classification, 6 power sample, 8 + d thermal sample of domain d
  count : Nat
  last : Nat
  deriving DecidableEq, Repr

/-- What left the device: an interrupt of a die to a port (kind 0 fault, 1 error; `arg` the slot), bytes written to a host, or the answer
to a peer's access that carries no data: a store acknowledged, or an access rejected (R445, R447, R448). -/
inductive Sent where
  | irq (port die kind arg : Nat)
  | bytes (port addr : Nat) (l : List Byte)
  | reply (peer addr : Nat) (ok : Bool)
  deriving DecidableEq, Repr

/-- A run in progress: the path that issues (side a of a melded pair), and whether side b executes at the moment. -/
structure Focus where
  who : Who
  side : Bool
  deriving DecidableEq, Repr

/-- The device. -/
structure State where
  -- work
  running : List Focus               -- the runs in progress, one for each busy issue slot; the head issues next
  blocks : List Block
  launches : List Launch
  accepted : Vector Nat 4            -- launches accepted by each die (R365)
  queue : Vector (List Nat) 4        -- ready launches of each die, in order of acceptance (R388)
  reserve : Vector (Option Nat) 4    -- the set for which a die holds capacity back (R390)
  reserved : List Reserved           -- the capacity that the dies hold back for these sets
  last : List ((Place × Role × Nat) × Nat)  -- last[X][P] of each core (R393); default 0
  parted : List Place                -- the partitioned ECs (R15)
  skews : List (Place × BitVec 4)    -- default 4 (R213)
  bands : List (Place × BitVec 4)    -- powered bands of each core; default none (R418)
  copies : List Copy                 -- of all queues, in order of issue
  qerrs : List QErr
  matq : List MatOp
  routing : List RouteSet
  links : List Link                  -- oldest first
  waits : List (Nat × Nat)           -- nodes that a walker has taken and that wait: context, node address (R382, R41)
  signalled : List (Nat × Nat)       -- SIGNAL nodes that gsig has completed (R366, R381)
  passes : List ((Nat × Nat) × Nat)  -- passes of an active LOOP node, of which ITER shows the low 32 bits (R383)
  completing : List ((Nat × Nat) × (Nat × Nat)) -- nodes whose list is read through an aperture at their completion: address, length
  notices : List (Nat × Nat × Nat)   -- service launches that wait for an entry: context, die, slot (R63, R375)
  ctxs : List Nat                    -- contexts that have submitted work
  ckpts : List Ckpt
  watchdog : List (Nat × Nat)        -- context, nanoseconds counted (R394)
  -- storage
  mem : List Host.Cell
  cellar : Vector (List Host.Cell) 4
  share : Nat                        -- interleave share IS, in units of 16 GiB (R90)
  tlb : List TlbEntry                -- newest first
  walker : List WalkEntry            -- newest first
  l1 : List L1Line                   -- lines present, newest first
  stale : List StaleByte
  decoded : List DecodedOp
  refreshing : Vector (Option Nat) 4 -- the bank group in its window (R85)
  holds : List (Who × HoldWhy)       -- paths whose access is held (R193)
  past : List PastByte               -- newest first
  stamp : Nat                        -- the place of the next write in the order of all writes
  settled : Nat                      -- no later write takes a place before it: a read has looked that far (R146)
  bad : List Target                  -- storage that holds an uncorrectable error
  seq : Vector Half 4                -- fault-queue SEQ of each die (R61)
  -- outside
  ports : Vector HostPort 2
  routes : Vector (BitVec 16) 32
  windows : Vector Window 16
  wires : Vector LinkState 16
  ext : List ExtReq
  discarded : Nat                    -- host writes not performed (R41)
  ignored : Nat                      -- commands and doorbells ignored (R450, R451)
  rejected : Nat                     -- peer accesses rejected (R448)
  sent : List Sent                   -- newest first
  booted : Bool
  -- power
  clocks : Vector Nat 20             -- MHz, of cluster die * 5 + cluster (R421)
  domains : Vector Thermal 24        -- 20 clusters, then 4 stacks (R425)
  arrivals : List Arrival            -- newest first (R423)
  stretch : Nat                      -- nanoseconds of the current stretch above 3,300 W (R422)
  calm : Nat                         -- nanoseconds since the last such stretch ended
  powers : List Nat                  -- power samples of the last second in milliwatts, newest first (R422)
  tripC : Byte
  tripD : Byte
  panper : Byte
  panNow : Vector Byte 4             -- the period of each die's interval under way (R434)
  lattol : Half
  boost : Bool
  depth : Vector Nat 4               -- rest depth (R431)
  pans : List Pan
  activity : Sparse Nat              -- of site (die * 5 + cluster) * 32 + site (R428)
  tasks : List Task
  linkCal : Vector Nat 16            -- tick of each link's last calibration (R432)
  -- the model's own
  pending : List Instr               -- steps of the device, the hosts and the peers that are due
  sched : List Nat                   -- which moves next: a run in progress, then the steps that are due (Step.lean)
  now : Nat                          -- nanoseconds since reset
  resets : Nat                       -- resets so far (R85)
  steps : Nat
  free : Nat                         -- free values used so far
  uids : Nat                         -- handles given out
  deriving DecidableEq, Repr

/-- Why the machine stops with a fault. -/
inductive Fault where
  /-- Raised by an instruction of the table when no group holds the issue slot: a step of a machine never reaches it, since a
  step runs an instruction only for a group that issues. Safe. -/
  | noIssuingGroup
  deriving DecidableEq, Repr

/-- Why the model has no meaning to give. -/
inductive Refusal where
  /-- An instruction of the table without a meaning yet. Safe. -/
  | notModelled (mnemonic : String)
  deriving DecidableEq, Repr

/-- A mailbox at reset: no host has beaten yet, and none has failed (R449; log 14). -/
def HostPort.reset : HostPort :=
  { arg0 := 0, arg1 := 0, arg2 := 0, busy := false, result := 0, hbper := 100, alive := false, failed := false, lastBeat := 0, taken := none }

/-- The device right after reset with a good signature check (R453). -/
def State.reset : State :=
  { running := [], blocks := [], launches := [], accepted := Vector.replicate 4 0, queue := Vector.replicate 4 [],
    reserve := Vector.replicate 4 none, reserved := [], last := [], parted := [], skews := [], bands := [], copies := [], qerrs := [], matq := [],
    routing := [], links := [], waits := [], signalled := [], passes := [], completing := [], notices := [], ctxs := [], ckpts := [],
    watchdog := [], mem := [], cellar := Vector.replicate 4 [], share := 3, tlb := [], walker := [], l1 := [], stale := [], decoded := [],
    refreshing := Vector.replicate 4 none, holds := [], past := [], stamp := 0, settled := 0, bad := [], seq := Vector.replicate 4 0,
    ports := Vector.replicate 2 HostPort.reset, routes := Vector.replicate 32 0,
    windows := Vector.replicate 16 { base := 0, size := 0, read := false, write := false },
    wires := Vector.replicate 16 { lanes := 8, up := true, paused := false, rewidth := none, replays := 0, pauses := 0, downs := 0 },
    ext := [], discarded := 0, ignored := 0, rejected := 0, sent := [], booted := true, clocks := Vector.replicate 20 1750,
    domains := Vector.replicate 24 { throttled := false, emergency := false, since := 0, temp := 0 }, arrivals := [],
    stretch := 0, calm := 100000000, powers := [], tripC := 95, tripD := 90, panper := 4, panNow := Vector.replicate 4 4, lattol := 0,
    boost := true, depth := Vector.replicate 4 0, pans := [], activity := [], tasks := [], linkCal := Vector.replicate 16 0, pending := [],
    sched := [], now := 0, resets := 0, steps := 0, free := 0, uids := 0 }

end Sys2Proof.Machine
end

