-- ==== Sys2Proof/Machine/Data.lean ====
section
/-! DEFINITION. Plain data: bits, bytes, sparse maps and keyed lists. -/

namespace Sys2Proof.Machine

/-- Bits [lo + n - 1 : lo] of a number, as a number. -/
def bits (x lo n : Nat) : Nat := x / 2 ^ lo % 2 ^ n

/-- Bit k of a number. -/
def bitAt (x k : Nat) : Bool := x / 2 ^ k % 2 == 1

/-- A bit vector's bits [lo + n - 1 : lo] as a number. -/
def vbits (x : BitVec w) (lo n : Nat) : Nat := bits x.toNat lo n

/-- Bit vector `x` with bits [lo + n - 1 : lo] replaced by the low n bits of v. -/
def putBits (x : BitVec w) (lo n v : Nat) : BitVec w :=
  BitVec.ofNat w (x.toNat - vbits x lo n * 2 ^ lo + v % 2 ^ n * 2 ^ lo)

/-- Bit vector `x` with bit i made equal to b. -/
def putBit (x : BitVec w) (i : Nat) (b : Bool) : BitVec w :=
  if b then x ||| BitVec.ofNat w (2 ^ i) else x &&& ~~~ BitVec.ofNat w (2 ^ i)

/-- Bits 0 to n - 1. -/
def ones (w n : Nat) : BitVec w := BitVec.ofNat w (2 ^ n - 1)

def b2n (b : Bool) : Nat := if b then 1 else 0

/-- The indexes below n whose bit is set, rising. -/
def members (x : BitVec w) (n : Nat) : List Nat := (List.range n).filter fun i => x.getLsbD i

/-- The number of set bits. -/
def popcount (x : BitVec w) : Nat := (members x w).length

/-- A number from bytes, least significant first (R3). -/
def ofBytes : List Byte → Nat
  | [] => 0
  | b :: l => b.toNat + 256 * ofBytes l

/-- The n low bytes of a number, least significant first (R3). -/
def toBytes : Nat → Nat → List Byte
  | 0, _ => []
  | n + 1, x => BitVec.ofNat 8 x :: toBytes n (x / 256)

/-- The entry at key i of a sparse map; d where none is listed. -/
def sget (d : α) : Sparse α → Nat → α
  | [], _ => d
  | (k, v) :: l, i => if i = k then v else if i < k then d else sget d l i

/-- A sparse map with v at key i, in canonical form. -/
def sset [DecidableEq α] (d : α) (i : Nat) (v : α) : Sparse α → Sparse α
  | [] => if v = d then [] else [(i, v)]
  | (k, w) :: l =>
    if i < k then (if v = d then (k, w) :: l else (i, v) :: (k, w) :: l)
    else if i = k then (if v = d then l else (i, v) :: l)
    else (k, w) :: sset d i v l

/-- The canonical form: keys strictly rising, no entry equal to the default. -/
def swf [DecidableEq α] (d : α) : Sparse α → Bool
  | [] => true
  | [(_, v)] => v != d
  | (k, v) :: (k', v') :: l => v != d && decide (k < k') && swf d ((k', v') :: l)

/-- The n entries from key i. -/
def sgetN (d : α) (m : Sparse α) (i n : Nat) : List α := (List.range n).map fun j => sget d m (i + j)

/-- A sparse map with the entries of a list from key i on. -/
def ssetN [DecidableEq α] (d : α) (i : Nat) : List α → Sparse α → Sparse α
  | [], m => m
  | v :: l, m => ssetN d (i + 1) l (sset d i v m)

/-- The entries with keys that satisfy p. -/
def skeep (p : Nat → Bool) (m : Sparse α) : Sparse α := m.filter fun e => p e.1

/-- The value at a key of a keyed list; d where none is listed. -/
def kget [DecidableEq κ] (d : α) : List (κ × α) → κ → α
  | [], _ => d
  | (k, v) :: l, i => if k = i then v else kget d l i

/-- A keyed list with v at key i. -/
def kset [DecidableEq κ] (i : κ) (v : α) : List (κ × α) → List (κ × α)
  | [] => [(i, v)]
  | (k, w) :: l => if k = i then (i, v) :: l else (k, w) :: kset i v l

/-- Entry i of a vector, an index beyond it taken as entry 0. -/
def vget [Inhabited α] (v : Vector α n) (i : Nat) : α := v.toList.getD i default

/-- A vector with entry i replaced; unchanged when i is beyond it. -/
def vset (v : Vector α n) (i : Nat) (x : α) : Vector α n := v.setIfInBounds i x

/-- The first element that satisfies p is replaced by f of it. -/
def modFirst (p : α → Bool) (f : α → α) : List α → List α
  | [] => []
  | x :: l => if p x then f x :: l else x :: modFirst p f l

/-- A list without the first element that satisfies p. -/
def dropFirst (p : α → Bool) : List α → List α
  | [] => []
  | x :: l => if p x then l else x :: dropFirst p l

/-- Insertion of i by a rank, keeping earlier elements of equal rank first. -/
def insertByRank (r : Nat → Nat) (i : Nat) : List Nat → List Nat
  | [] => [i]
  | j :: l => if r i < r j then i :: j :: l else j :: insertByRank r i l

/-- A list of indexes in the order of a rank. -/
def sortByRank (r : Nat → Nat) : List Nat → List Nat
  | [] => []
  | i :: l => insertByRank r i (sortByRank r l)

/-- A signed reading of a bit vector's low n bits. -/
def sextNat (x n : Nat) : Int :=
  if x % 2 ^ n < 2 ^ (n - 1) then (x % 2 ^ n : Nat) else (x % 2 ^ n : Nat) - (2 ^ n : Nat)

/-- An integer as a bit vector, modulo 2^w. -/
def ofInt (w : Nat) (i : Int) : BitVec w := BitVec.ofInt w i

end Sys2Proof.Machine
end

