-- ==== Sys2Proof/Machine/Phys.lean ====
section
/-! DEFINITION. Physical memory (R90 to R96), the tree of region control blocks in it (R191, R373 to R375), the error log (R376),
and the clocks that software reads (R85, R86, R212). -/

namespace Sys2Proof.Machine

/-- Memory is in its canonical form: addresses strictly rising, and no byte listed that reads 0 unlisted (log 1). -/
def Memory.wf (m : List Host.Cell) : Bool := swf 0 m

/-- What a physical address names (R91). -/
inductive PaKind where
  | dram (die : Nat)
  | peer (p : Nat)
  | host (port : Nat)
  | nothing
  deriving DecidableEq, Repr

/-- The interleave share in bytes (R90). -/
def shareBytes (s : State) : Nat := s.share * 2 ^ 34

/-- The physical address map (R91, R92). -/
def paKind (s : State) (pa : Nat) : PaKind :=
  if pa < 0x10000000000 then
    if pa / 2 ^ 37 < 4 ∧ pa % 2 ^ 37 < 96 * 2 ^ 30 - shareBytes s then .dram (pa / 2 ^ 37) else .nothing
  else if pa < 0x10000000000 + 4 * shareBytes s then .dram (bits (pa - 0x10000000000) 12 2)
  else if pa < 0x400000000000 then .nothing
  else if pa < 0x800000000000 then .peer ((pa - 0x400000000000) / 2 ^ 41)
  else if pa < 0xC00000000000 then .host 0
  else if pa < 0x1000000000000 then .host 1
  else .nothing

def isDram (s : State) (pa : Nat) : Bool :=
  match paKind s pa with
  | .dram _ => true
  | _ => false

def isAperture (s : State) (pa : Nat) : Bool :=
  match paKind s pa with
  | .peer _ => true
  | .host _ => true
  | _ => false

/-- The home die of a DRAM byte (R9, R92). -/
def homeDie (s : State) (pa : Nat) : Nat :=
  match paKind s pa with
  | .dram d => d
  | _ => 0

/-- The bytes of memory from a physical address. A byte that nothing has written reads 0 (log 1). -/
def physBytes (s : State) (pa n : Nat) : List Byte := sgetN 0 s.mem pa n

/-- The word of n bytes at a physical address. -/
def physRead (s : State) (pa n : Nat) : Nat := ofBytes (physBytes s pa n)

/-- The two places lie in one unit of the correcting code (R76, R84, R96). -/
def sameUnit (a b : Target) : Bool :=
  match a, b with
  | .phys x, .phys y => x / 8 == y / 8
  | .cellar d x, .cellar e y => d == e && x / 8 == y / 8
  | .spad u x, .spad v y => u == v && x / 8 == y / 8
  | .obuf u x, .obuf v y => u == v && x / 8 == y / 8
  | .tile u t x, .tile v k y => u == v && t == k && x / 2 == y / 2
  | _, _ => false

/-- Is the unit of a place one that holds an uncorrectable error? -/
def badTarget (s : State) (t : Target) : Bool := s.bad.any fun b => sameUnit b t

/-- The stale bytes after a write of byte b at pa by core `w`: that core's lines take the byte, every other line keeps the byte it
filled (R88, R143). -/
def staleAfter (s : State) (w : Option Place) (pa : Nat) (l : List StaleByte) : List StaleByte :=
  let l' := l.filter fun x => !(x.pa == pa && some x.core == w)
  (s.l1.filter fun c => c.line == pa / 128 && some c.core != w &&
      !(l'.any fun x => x.pa == pa && x.core == c.core && x.ctx == c.ctx)).foldl
    (fun acc c => { core := c.core, ctx := c.ctx, pa := pa, val := sget 0 s.mem pa } :: acc) l'

/-- Links on a global line are broken by a write that performs there (R157). -/
def breakGlob (pa n : Nat) (l : List Link) : List Link :=
  l.filter fun k => match k.line with
    | .glob x => x < pa / 128 || (pa + n - 1) / 128 < x
    | .spad _ _ => true

/-- One byte written to memory by core `w` (none for another party). -/
def physByte (w : Option Place) (pa : Nat) (b : Byte) (s : State) : State :=
  { s with stale := staleAfter s w pa s.stale, mem := sset 0 pa b s.mem }

/-- Bytes written to memory, in increasing address. -/
def physBytesSet (w : Option Place) (pa : Nat) : List Byte → State → State
  | [], s => s
  | b :: l, s => physBytesSet w (pa + 1) l (physByte w pa b s)

/-- Places between two writes, which later ones may take (R140; log 3). -/
def stampGap : Nat := 65536

/-- The bytes that n places hold before a write are recorded, with the write's place in the order of all writes: reads that nothing
orders after it may still return them (R140, R147; log 3). -/
def notePast (at_ : Nat → Target) (val : Nat → Byte) (off n : Nat) (s : State) : State :=
  { s with
    past := (List.range n).map (fun i => { stamp := s.stamp, at_ := at_ (off + i), val := val (off + i) : PastByte }) ++ s.past,
    stamp := s.stamp + stampGap }

/-- A write of bytes to memory: L1 lines and link tags follow (R88, R157). -/
def physWrite (w : Option Place) (pa : Nat) (l : List Byte) (s : State) : State :=
  let s' := physBytesSet w pa l (notePast .phys (sget 0 s.mem) pa l.length s)
  { s' with links := breakGlob pa l.length s'.links }

/-- A number of n bytes written to memory. -/
def physPut (w : Option Place) (pa n x : Nat) (s : State) : State := physWrite w pa (toBytes n x) s

/-! Clocks. -/

/-- tick of a die (R212). -/
def tickOf (s : State) (d : Nat) : Nat := s.now + Config.tickLead (4 * s.resets + d) % 21

/-- The cellar calendar of a die in nanoseconds since it left reset (R85). -/
def calendar (s : State) (d : Nat) : Nat := s.now + Config.calendarLead (4 * s.resets + d) % 48000

/-- wscal of a die (R86). -/
def wscal (s : State) (d : Nat) : Nat :=
  let c := calendar s d
  let phase := c % 48000
  phase / 3000 * 2 ^ 60 + b2n (phase % 3000 < 1200) * 2 ^ 59 + phase * 2 ^ 32 + c / 48000 % 2 ^ 32

/-! Region control blocks (R373, R374). `r` is the physical address of one. -/

def rcbWord (s : State) (r k : Nat) : Nat := physRead s (r + 8 * k) 8

def rcbKind (s : State) (r : Nat) : Nat := bits (rcbWord s r 0) 60 4

/-- The node and its ancestors, from the node up. The tree has no promised depth; 64 levels are followed (log 15). -/
def rcbChainFrom (s : State) : Nat → Nat → List Nat
  | 0, _ => []
  | n + 1, r => r :: (if rcbKind s r = 0 then [] else rcbChainFrom s n (rcbWord s r 1))

def rcbChain (s : State) (r : Nat) : List Nat := rcbChainFrom s 64 r

/-- The context above a node. -/
def rcbCtx (s : State) (r : Nat) : Nat := ((rcbChain s r).find? fun x => rcbKind s x == 1).getD r

/-- The device root above a node. -/
def rcbRoot (s : State) (r : Nat) : Nat := ((rcbChain s r).find? fun x => rcbKind s x == 0).getD 0

/-- The value of word k at the nearest node that sets it (nonzero), with that node. -/
def rcbNearest (s : State) (r k : Nat) : Option (Nat × Nat) :=
  ((rcbChain s r).find? fun x => rcbWord s x k != 0).map fun x => (x, rcbWord s x k)

def effPrio (s : State) (r : Nat) : Nat :=
  match (rcbChain s r).find? fun x => bitAt (rcbWord s x 0) 54 with
  | some x => bits (rcbWord s x 0) 50 4
  | none => 15

def effDies (s : State) (r : Nat) : BitVec 4 :=
  match (rcbChain s r).find? fun x => bitAt (rcbWord s x 0) 49 with
  | some x => BitVec.ofNat 4 (bits (rcbWord s x 0) 45 4)
  | none => 0xF

/-- Watchdog period in milliseconds. -/
def effWdms (s : State) (r : Nat) : Nat :=
  match (rcbChain s r).find? fun x => bits (rcbWord s x 4) 0 16 != 0 with
  | some x => bits (rcbWord s x 4) 0 16
  | none => 1000

def effSpill (s : State) (r : Nat) : Nat := ((rcbNearest s r 7).map (·.2)).getD 0

def effSpillSize (s : State) (r : Nat) : Nat := ((rcbNearest s r 8).map (·.2)).getD 0

/-- The host port that owns a context (R373). -/
def ctxHost (s : State) (ctx : Nat) : Nat := bits (rcbWord s ctx 0) 44 1

def ctxAsid (s : State) (ctx : Nat) : BitVec 16 := BitVec.ofNat 16 (rcbWord s ctx 0)

def ctxRootTable (s : State) (ctx : Nat) : Nat := rcbWord s ctx 2

/-- Is node `r` beneath node `a`, or `a` itself? -/
def beneath (s : State) (r a : Nat) : Bool := (rcbChain s r).contains a

/-- The fault-domain node of a launch's RCB (R191): the nearest node with FD, a context always. -/
def domainNode (s : State) (r : Nat) : Nat :=
  ((rcbChain s r).find? fun x => bitAt (rcbWord s x 0) 55 || rcbKind s x == 1).getD r

/-! The spill area (R398). -/

def svEntry (s : State) (ctx : Nat) : Word := BitVec.ofNat 64 (physRead s (effSpill s ctx) 8)

def saveVa (s : State) (ctx : Nat) : Nat := physRead s (effSpill s ctx + 8) 8

def spillCounts (s : State) (ctx : Nat) : Nat × Nat :=
  let f := physRead s (effSpill s ctx + 16) 4
  let p := physRead s (effSpill s ctx + 24) 4
  if effSpillSize s ctx < 0x10000 + f * 0x180000 + p * 0x2A000 then (0, 0) else (f, p)

/-- NFRAME, 0 when the area is too small. -/
def numFrames (s : State) (ctx : Nat) : Nat := (spillCounts s ctx).1

/-- NPSLOT, 0 when the area is too small. -/
def numStackSlots (s : State) (ctx : Nat) : Nat := (spillCounts s ctx).2

/-- Where spill slot f of a context lies. -/
def spillSlot (s : State) (ctx f : Nat) : Nat := effSpill s ctx + 0x10000 + f * 0x180000

/-- Where save frame f of a context lies (R398). -/
def frameBase (s : State) (ctx f : Nat) : Nat := saveVa s ctx + f * 0x480000

/-! Rest (R431). -/

/-- The links of a die. -/
def dieLink (die i : Nat) : Bool := i / 4 == die

/-- A die leaves its rest depth; the links that rest had shed widen again (R431). -/
def wakeDie (die : Nat) (s : State) : State :=
  let d := vget s.depth die
  if d = 0 then s
  else
    let s := { s with depth := vset s.depth die 0 }
    if d < 3 then s
    else { s with wires := s.wires.mapIdx fun i x => if dieLink die i then { x with paused := true, rewidth := some 8 } else x }

/-! Interrupts and the error log (R376). -/

def send (x : Sent) (s : State) : State := { s with sent := x :: s.sent }

/-- An error-log record of node `r`, written by die d. -/
def logError (d event cause : Nat) (addr obj : Nat) (r : Nat) (s : State) : State :=
  match rcbNearest s r 10 with
  | none => s
  | some (owner, base) =>
    let head := rcbWord s owner 14
    let a := base + 32 * (head % 128)
    let s := physPut none a 8 (event * 2 ^ 56 + cause * 2 ^ 48) s
    let s := physPut none (a + 8) 8 addr s
    let s := physPut none (a + 16) 8 obj s
    let s := physPut none (a + 24) 8 (tickOf s d) s
    let s := physPut none (owner + 112) 8 (head + 1) s
    send (.irq (ctxHost s (rcbCtx s r)) d 1 0) s

end Sys2Proof.Machine
end

