-- ==== Sys2Proof/Machine/Tree.lean ====
section
/-! DEFINITION. Blocks, groups and paths: finding and changing them, the limits that follow from where a block stands (R13 to R17,
R163, R207, R321), and what happens to a core when a block leaves it. -/

namespace Sys2Proof.Machine

/-- A path as R188 and R167 start it, with every thread given. -/
def blankPath (threads : BitVec 1024) (pc : Word) : Path :=
  { idx := 0, pc := pc, regs := Vector.replicate 64 0, threads := threads, rets := [], loops := [], tokens := 0,
    maps := Vector.replicate 16 0, rpt := none, run := .ready }

/-- Every scale entry 0x7F (R129). -/
def unitScales : BitVec 512 := BitVec.ofNat 512 (ofBytes (List.replicate 64 0x7F))

/-- A group at group start (R165), with no path yet. -/
def blankGroup : Group :=
  { gidx := 0, role := .v, slot := 0, v := [], p := Vector.replicate 16 0 |>.set 0 (BitVec.allOnes 1024), bp := [],
    ks := Vector.replicate 8 unitScales, qs := Vector.replicate 8 (BitVec.allOnes 64), vl := 0, vstart := 0, nrc := 0, fcsr := 0,
    dirty := 0, gang := 0, sup := false, svPaths := 0, epc := 0, ecause := 0, eaddr := 0, ssave := Vector.replicate 4 0, nest := 0,
    exited := 0, paths := [], melds := [], last := 0, frames := [], stackSlot := none, part := .none, issued := 0, ffGo := false,
    qbad := 0, qwide := 0, kept := [], floors := [], again := [], retired := false }

/-- A plane at first placement (R330). -/
def blankPlane : Plane :=
  { valid := false, k := 0, n := 0, fmt := 0, pln := 0, rnd := false, id := 0xFFFF, w := [], sc := [] }

/-- A block at first placement, with no group yet. The reservation records are 0, not in use (log 16). -/
def blankBlock : Block :=
  { uid := 0, launch := 0, blockid := 0, tenant := 0, place := { die := 0, cl := 0, site := 0, part := 0 }, order := 0, groups := [],
    gm := 0, gn := 0, gk := 0, tfmt := 0, ben := 0, rbnd := 256, tiles := Vector.replicate 4 [], pres := Vector.replicate 4 0,
    planes := Vector.replicate 2 blankPlane, tags := [], tagOn := false, pendTags := [], recs := Vector.replicate 16 0, spadSize := 0,
    spad := [], obSize := 0, ob := [], bars := Vector.replicate 64 { expect := 0, count := 0, gen := 0 }, iter := 0,
    rings := Vector.replicate 8 0, postScope := [], latch := [], hint := none, res := .resident, frame := none, nextFrame := none, preempt := false, transit := false,
    issuedQ := 0, faulty := 0 }

/-! Finding and changing. -/

def findBlock (s : State) (uid : Nat) : Option Block := s.blocks.find? fun b => b.uid == uid

def getBlock (s : State) (uid : Nat) : Block := (findBlock s uid).getD blankBlock

def modBlock (uid : Nat) (f : Block → Block) (s : State) : State :=
  { s with blocks := modFirst (fun b => b.uid == uid) f s.blocks }

def findGroup (b : Block) (g : Nat) : Option Group := b.groups.find? fun x => x.gidx == g

def getGroup (s : State) (uid g : Nat) : Group := (findGroup (getBlock s uid) g).getD blankGroup

def modGroup (uid g : Nat) (f : Group → Group) (s : State) : State :=
  modBlock uid (fun b => { b with groups := modFirst (fun x => x.gidx == g) f b.groups }) s

def findPath (g : Group) (p : Nat) : Option Path := g.paths.find? fun x => x.idx == p

def getPath (g : Group) (p : Nat) : Path := (findPath g p).getD (blankPath 0 0)

def modPathIn (p : Nat) (f : Path → Path) (g : Group) : Group :=
  { g with paths := modFirst (fun x => x.idx == p) f g.paths }

def pathOf (s : State) (w : Who) : Path := getPath (getGroup s w.uid w.gidx) w.pidx

def modPath (w : Who) (f : Path → Path) (s : State) : State := modGroup w.uid w.gidx (modPathIn w.pidx f) s

/-- A path with its place kept sorted by index. -/
def addPath (p : Path) : List Path → List Path
  | [] => [p]
  | q :: l => if p.idx < q.idx then p :: q :: l else q :: addPath p l

def findLaunch (s : State) (id : Nat) : Option Launch := s.launches.find? fun l => l.id == id

def modLaunch (id : Nat) (f : Launch → Launch) (s : State) : State :=
  { s with launches := modFirst (fun l => l.id == id) f s.launches }

/-! Launch packets (R186, R187). -/

def pkWord (l : Launch) (k : Nat) : Nat := (vget l.packet k).toNat

def shapeField (l : Launch) (lo n : Nat) : Nat := bits (pkWord l 2) lo n

def numV (l : Launch) : Nat := shapeField l 59 5
def numM (l : Launch) : Nat := shapeField l 54 5
def numC (l : Launch) : Nat := shapeField l 49 5
def coresBit (l : Launch) : Bool := bitAt (pkWord l 2) 46
def numBlk (l : Launch) : Nat := shapeField l 4 16
def spuBytes (l : Launch) : Nat := shapeField l 27 9 * 4096
def obuBytes (l : Launch) : Nat := shapeField l 20 7 * 4096

/-- Slots of a stage ring; 0 when the launch declares no rings (R187). -/
def ringSlots (l : Launch) : Nat := if shapeField l 36 3 = 0 then 0 else shapeField l 36 3 + 1

/-- The launch of a block. -/
def launchOf (s : State) (b : Block) : Option Launch := findLaunch s b.launch

/-- The launch id of a block as software sees it: a restored launch keeps the one it was saved with (R441). -/
def launchidOf (s : State) (b : Block) : Nat := ((launchOf s b).map (·.shown)).getD b.launch

/-- A block's context: the physical address of its RCB. -/
def blockCtx (s : State) (b : Block) : Nat := ((launchOf s b).map (·.ctx)).getD 0

def blockRcb (s : State) (b : Block) : Nat := ((launchOf s b).map (·.rcb)).getD 0

def blockPrio (s : State) (b : Block) : Nat := ((launchOf s b).map (·.prio)).getD 0

/-- The blocks that stand on cores (R406: a block held pre-empted does not). -/
def residents (s : State) : List Block := s.blocks.filter fun b => b.res != .held

/-- The core of a place: the place without its half. -/
def corePlace (p : Place) : Place := { p with part := 0 }

def isEc (p : Place) : Bool := p.cl == 4

/-- Core classes: 0 MC, 1 whole EC, 2 EC half (R409). -/
def classOf (p : Place) : Nat := if p.cl = 4 then (if p.part = 0 then 1 else 2) else 0

/-- NR of a vcfg code (R163). -/
def nrOf (nrc : BitVec 2) : Nat := 8 * 2 ^ nrc.toNat

/-- VLMAX for a register count and a place (R163). -/
def vlmaxOf (p : Place) (nrc : BitVec 2) : Nat := (if isEc p then 2048 else 8192) / nrOf nrc

/-- Faulty columns that are mapped out at a place (R17, R20). -/
def faultyOf (p : Place) : Nat := if isEc p then 0 else min 68 (Config.faultyColumns p.die p.cl p.site)

/-- Columns that a block can use, at a place and with the NFCOL of its placement, which pan rotation leaves as it is (R17, R21, R196,
R207; log 101). -/
def ncolOf (p : Place) (f : Nat) : Nat := if p.cl = 4 then (if p.part = 0 then 16 else 8) else min 64 (68 - f)

/-- Bands that the core can give (R207). -/
def availOf (p : Place) : BitVec 4 := if p.part = 1 then 0x3 else if p.part = 2 then 0xC else 0xF

/-- lim8 of M, N and K (R207, R321). -/
def limM (p : Place) : Nat := match classOf p with
  | 0 => 256
  | 1 => 16
  | _ => 8

def limN (p : Place) (f : Nat) : Nat := 8 * (ncolOf p f / 8)

/-- The GK limit of R207. -/
def gkLimit (p : Place) (ben : BitVec 4) : Nat :=
  let n := popcount ben
  match classOf p with
  | 0 => 32 * n
  | 1 => 4 * n
  | _ => min 8 (4 * n)

def limK (p : Place) (ben : BitVec 4) : Nat := 8 * (gkLimit p ben / 8)

/-- Scratchpad and operand-buffer limits of a class (R27, R77), groups per block (R178). -/
def spadLimit (c : Nat) : Nat := match c with
  | 0 => 1048576
  | 1 => 786432
  | _ => 393216

def obLimit (c : Nat) : Nat := match c with
  | 0 => 262144
  | 1 => 32768
  | _ => 16384

def groupLimit (c : Nat) : Nat := match c with
  | 0 => 16
  | 1 => 8
  | _ => 4

/-- Is the launch a co-resident set whose blocks share one cluster (R33)? -/
def isSet (l : Launch) : Bool := coresBit l && decide (1 ≤ numBlk l) && decide (numBlk l ≤ 32)

def numGroups (l : Launch) : Nat := numV l + numM l + numC l

/-- A class is eligible: named in CMASK, and the block fits it (R187). -/
def eligible (l : Launch) (c : Nat) : Bool :=
  bitAt (shapeField l 43 3) c && decide (numGroups l ≤ groupLimit c) && decide (spuBytes l ≤ spadLimit c) && decide (obuBytes l ≤ obLimit c)

/-- No further block of a launch may be placed (R189, R388). -/
def noMoreBlocks (l : Launch) : Bool := pkWord l 1 ≤ l.counter.toNat || (numBlk l != 0 && numBlk l ≤ l.placed)

/-- A launch leaves the ready queues when no further block of it may be placed and none is held pre-empted (R388, R392). -/
def leaveQueues (id : Nat) (s : State) : State :=
  match findLaunch s id with
  | none => s
  | some l =>
    if noMoreBlocks l && !(s.blocks.any fun b => b.launch == id && b.res == .held) then
      { s with queue := s.queue.map fun q => q.filter fun x => x != id }
    else s

/-- The blocks of a launch that exist, by rising blockid. -/
def blocksOf (s : State) (id : Nat) : List Block :=
  (sortByRank (fun i => ((s.blocks[i]?).getD blankBlock).blockid.toNat)
    ((List.range s.blocks.length).filter fun i => ((s.blocks[i]?).getD blankBlock).launch == id)).filterMap fun i => s.blocks[i]?

/-- Lane skew of a core or half (R213). -/
def skewOf (s : State) (p : Place) : BitVec 4 := kget (kget 4 s.skews (corePlace p)) s.skews p

/-! Usage (R375). -/

/-- Usage of a node, from the blocks and launches beneath it: MCs, EC halves, entries, scratchpad and operand-buffer units. -/
def usage (s : State) (r : Nat) : Nat × Nat × Nat × Nat × Nat :=
  let bs := (residents s).filter fun b => beneath s (blockRcb s b) r
  let mcs := (bs.filter fun b => !isEc b.place).map (·.place)
  let ecs := (bs.filter fun b => isEc b.place).map (·.place)
  (mcs.eraseDups.length, (ecs.eraseDups.map fun p => if p.part = 0 then 2 else 1).sum,
    (s.launches.filter fun l => beneath s l.rcb r).length, (bs.map fun b => b.spadSize / 4096).sum, (bs.map fun b => b.obSize / 4096).sum)

/-- Words 12 and 13 of a node rewritten. -/
def writeUsage (r : Nat) (s : State) : State :=
  let (m, e, p, sp, ob) := usage s r
  let s' := physPut none (r + 96) 8 (m * 2 ^ 48 + e * 2 ^ 32 + p * 2 ^ 16) s
  physPut none (r + 104) 8 (sp * 2 ^ 32 + ob) s'

/-- The usage words of a node and its ancestors rewritten; 0 stands for no node. -/
def writeUsages (r : Nat) (s : State) : State := if r = 0 then s else (rcbChain s r).foldl (fun s x => writeUsage x s) s

/-! Links (R157). -/

def ownedBy (uid g : Nat) (o : LinkOwner) : Bool :=
  match o with
  | .path w => w.uid == uid && w.gidx == g
  | .thread u x _ => u == uid && x == g

/-- The links of a group are broken. -/
def breakGroup (uid g : Nat) (s : State) : State := { s with links := s.links.filter fun k => !ownedBy uid g k.owner }

/-- The links that a block holds, and those on its scratchpad, are broken. -/
def breakBlock (uid : Nat) (s : State) : State :=
  { s with links := s.links.filter fun k =>
      !(match k.owner with
        | .path w => w.uid == uid
        | .thread u _ _ => u == uid) && !(match k.line with
        | .spad u _ => u == uid
        | .glob _ => false) }

/-! A block leaves its core. -/

def isHalf (p : Place) : Bool := p.part != 0

/-- The capacity that a block leaves is held back for the set which its die reserves for, when the set may use a core of the class (R390;
log 44). -/
def holdBack (b : Block) (s : State) : State :=
  match (vget s.reserve b.place.die).bind (findLaunch s) with
  | some x =>
    if x.id != b.launch && eligible x (classOf b.place) then
      { s with reserved := { at_ := b.place, groups := b.groups.length, spad := b.spadSize, ob := b.obSize } :: s.reserved }
    else s
  | none => s

/-- The core after block `b` of context `ctx` has left: the partition ends when both halves are empty, with the skew of the half
that emptied last (R213, R458); routing counters are cleared when the context has no block left on the cluster (R348); error
records are emptied when no block that issued to the queue remains (R353). -/
def leaveCore (b : Block) (ctx : Nat) (s0 : State) : State :=
  let s := holdBack b s0
  let core := corePlace b.place
  let here := residents s
  let s := if s.parted.contains core && !(here.any fun x => corePlace x.place == core) then
      let others := s.skews.filter fun e => corePlace e.1 != core
      { s with parted := s.parted.filter (· != core), skews := kset core (skewOf s b.place) others }
    else s
  let s := if here.any fun x => x.place.die == b.place.die && x.place.cl == b.place.cl && blockCtx s x == ctx then s
    else { s with routing := s.routing.filter fun r => !(r.die == b.place.die && r.cl == b.place.cl && r.ctx == ctx) }
  { s with qerrs := s.qerrs.filter fun e => match e.q with
      | .front _ => true
      | .core pl q => here.any fun x => x.place == pl && x.issuedQ.getLsbD q || pl != b.place }

/-- A block is removed: with its runs, copies, links and outstanding accesses. -/
def dropBlock (b : Block) (s : State) : State :=
  let ctx := blockCtx s b
  let s := breakBlock b.uid s
  let s := { s with
    blocks := s.blocks.filter fun x => x.uid != b.uid,
    running := s.running.filter fun f => f.who.uid != b.uid,
    copies := s.copies.filter fun c => !(c.uid == b.uid && c.node.isNone),
    ext := s.ext.filter fun e => match e.owner with
      | .path w => w.uid != b.uid
      | .copy c => s.copies.any fun x => x.id == c && !(x.uid == b.uid && x.node.isNone)
      | _ => true }
  leaveCore b ctx s

end Sys2Proof.Machine
end

