-- ==== Sys2Proof/Machine/Translate.lean ====
section
/-! DEFINITION. Translation of global addresses (R47 to R59): page-table entries, the walk, the accessed and dirty bits, the TLBs
and their invalidation. -/

namespace Sys2Proof.Machine

/-- Access kinds (R52, R54). -/
inductive Kind where
  | read | write | exec | link
  deriving DecidableEq, Repr

/-- The KIND bits of ecause [27:24] and of a fault-queue slot [59:56]: read, write, execute, link (R61, R214). -/
def kindBits : Kind → BitVec 4
  | .read => 8
  | .write => 4
  | .exec => 2
  | .link => 1

/-- Bytes that a leaf of a level maps (R49). -/
def pageBytes : Nat → Nat
  | 1 => 2 ^ 34
  | 2 => 2 ^ 25
  | _ => 2 ^ 16

/-- Index of a virtual address into the table of a level (R48). -/
def tableIndex (va level : Nat) : Nat := bits va (43 - 9 * level) 9

/-- PA field of an entry, as an address (R50). -/
def entryPa (e : Nat) : Nat := bits e 12 36 * 4096

def entryLeaf (e : Nat) : Bool := bitAt e 1

/-- Malformed entries (R51). -/
def malformed (e level : Nat) : Bool :=
  bits e 60 4 != 0 || bits e 48 8 != 0 || bits e 8 4 != 0 ||
  (if entryLeaf e then level == 0 || entryPa e % pageBytes level != 0 || (bitAt e 3 && !bitAt e 2)
   else level == 3 || bits e 56 4 != 0 || bits e 2 6 != 0)

/-- Permissions of a leaf (R52, R54). -/
def permits (e : Nat) (k : Kind) (sup : Bool) : Bool :=
  (sup || bitAt e 5) &&
  match k with
  | .read => bitAt e 2
  | .write => bitAt e 3
  | .exec => bitAt e 4
  | .link => bitAt e 2 && bitAt e 3

/-- A leaf that the walk found: the entry, its own physical address and its level. -/
structure Leaf where
  entry : Nat
  at_ : Nat
  level : Nat
  deriving DecidableEq, Repr

inductive WalkRes where
  | ok (l : Leaf)
  | fault (ft : FaultType) (level : Nat)
  | bad (pa : Nat)              -- the walk read a line with an uncorrectable error (R53)
  deriving DecidableEq, Repr

/-- Does the line of a physical address hold an uncorrectable error (R53, R93)? -/
def badLine (s : State) (a : Nat) : Bool := s.bad.any fun b => match b with
  | .phys x => x / 128 == a / 128
  | _ => false

/-- What an entry that the walk has read says: it ends the walk, or leads to the next table (R52). -/
def entryRes (s : State) (k : Kind) (sup : Bool) (level a e : Nat) : Option WalkRes :=
  if !bitAt e 0 then some (.fault .notPresent level)
  else if malformed e level then some (.fault .malformed level)
  else if entryLeaf e then
    if !permits e k sup then some (.fault .protection level)
    else if paKind s (entryPa e) == .nothing then some (.fault .noMemory level)
    else some (.ok { entry := e, at_ := a, level := level })
  else none

/-- The walk from the table of a level on (R52). A table or a root that lies where no DRAM is reads as bytes that nothing has
written, 0, so that the walk ends there with NOT_PRESENT: DESIGN CHOICE (log 100). -/
def walkAt (s : State) (va : Nat) (k : Kind) (sup : Bool) : Nat → Nat → Nat → WalkRes
  | 0, level, _ => .fault .malformed level
  | fuel + 1, level, table =>
    let a := table + 8 * tableIndex va level
    if badLine s a then .bad a
    else
      let e := physRead s a 8
      match entryRes s k sup level a e with
      | some r => r
      | none => walkAt s va k sup fuel (level + 1) (entryPa e)

/-- The walk of a context (R47, R52). -/
def walk (s : State) (ctx va : Nat) (k : Kind) (sup : Bool) : WalkRes :=
  if ctxRootTable s ctx = 0 then .fault .notPresent 0 else walkAt s va k sup 4 0 (ctxRootTable s ctx)

/-- The physical address of va through a leaf. -/
def leafPa (entry level va : Nat) : Nat := entryPa entry + va % pageBytes level

/-- The leaf with A set, and D when the access writes (R57). -/
def withAD (e : Nat) (k : Kind) : Nat :=
  let e := if bitAt e 6 then e else e + 2 ^ 6
  if (k == .write || k == .link) && !bitAt e 7 then e + 2 ^ 7 else e

/-- A and D set by an atomic OR at the home of the entry (R57). -/
def setAD (l : Leaf) (k : Kind) (s : State) : State :=
  let e := physRead s l.at_ 8
  if withAD e k = e then s else physPut none l.at_ 8 (withAD e k) s

/-- The TLBs that serve a party: a core's three tiers, or a die's last level for its front end (R55). -/
inductive Side where
  | core (pl : Place)
  | front (die : Nat)
  deriving DecidableEq, Repr

def tiersOf : Side → List (Nat × Place)
  | .core pl => [(0, corePlace pl), (1, { die := pl.die, cl := pl.cl, site := 0, part := 0 }),
      (2, { die := pl.die, cl := 0, site := 0, part := 0 })]
  | .front d => [(2, { die := d, cl := 0, site := 0, part := 0 })]

def tlbHit (asid : BitVec 16) (va : Nat) (e : TlbEntry) : Bool :=
  e.asid == asid && e.vpn == va / pageBytes e.page

/-- The entry that would serve an access, if any: first tier first, only entries that permit it, with D set for a write (R56,
R57). -/
def tlbFind (s : State) (side : Side) (asid : BitVec 16) (va : Nat) (k : Kind) (sup : Bool) : Option TlbEntry :=
  (tiersOf side).findSome? fun t => s.tlb.find? fun e =>
    e.tier == t.1 && e.at_ == t.2 && tlbHit asid va e && permits e.leaf.toNat k sup &&
    ((k != .write && k != .link) || bitAt e.leaf.toNat 7)

/-- A free choice of yes or no, and the state in which it is used up. -/
def choose (s : State) : Bool × State := (Config.freeBool s.free, { s with free := s.free + 1 })

/-- An entry put first into a store of `cap` entries, those of `l` that satisfy `p`: a full store loses one, the device's choice of
which (log 4). -/
def putCapped (cap : Nat) (p : α → Bool) (x : α) (l : List α) (s : State) : List α × State :=
  let here := (List.range l.length).filter fun i => (l[i]?).any p
  if here.length < cap then (x :: l, s)
  else (x :: l.eraseIdx (here.getD (Config.freeNat s.free % here.length) 0), { s with free := s.free + 1 })

/-- Entries of a tier of the TLBs (R7, R55). -/
def tlbCap : Nat → Nat
  | 0 => 64
  | 1 => 2048
  | _ => 16384

/-- A leaf put into the TLB of one tier; the entry that it replaces is gone. -/
def tlbPut (t : Nat × Place) (asid : BitVec 16) (va entry level : Nat) (s : State) : State :=
  let mine (e : TlbEntry) : Bool := e.tier == t.1 && e.at_ == t.2
  let x : TlbEntry :=
    { tier := t.1, at_ := t.2, asid := asid, vpn := va / pageBytes level, page := level, leaf := BitVec.ofNat 64 entry }
  let (l, s) := putCapped (tlbCap t.1) mine x (s.tlb.filter fun e => !(mine e && tlbHit asid va e)) s
  { s with tlb := l }

/-- A leaf put into the TLBs of a side below a tier (R55: each is filled from the next). -/
def tlbFill (side : Side) (below : Nat) (asid : BitVec 16) (va entry level : Nat) (s : State) : State :=
  ((tiersOf side).filter fun t => decide (t.1 < below)).foldl (fun s t => tlbPut t asid va entry level s) s

/-- The die whose walkers serve a side (R55). -/
def sideDie : Side → Nat
  | .core pl => pl.die
  | .front d => d

/-- The part of an address that selects the entry of a level (R48). -/
def indexPath (va level : Nat) : Nat := va / 2 ^ (43 - 9 * level)

def walkMatch (die : Nat) (asid : BitVec 16) (va level : Nat) (w : WalkEntry) : Bool :=
  w.die == die && w.asid == asid && w.level == level && w.path == indexPath va level

/-- The entry at `a` of a level, as the walkers of a die see it: one that they keep and that memory no longer gives may still be used,
the device's choice (R55, R56; log 6). `none`: its line holds an uncorrectable error (R53). -/
def walkRead (die : Nat) (asid : BitVec 16) (va level a : Nat) (s : State) : State × Option Nat :=
  let fresh : Option Nat := if badLine s a then none else some (physRead s a 8)
  match s.walker.find? (walkMatch die asid va level) with
  | none => (s, fresh)
  | some w =>
    if fresh = some w.entry.toNat then (s, fresh)
    else match choose s with
      | (true, s) => (s, some w.entry.toNat)
      | (false, s) => (s, fresh)

/-- A valid entry of levels 0 to 2 that leads to a further table is kept by the walkers of a die, 256 of them (R55). A leaf is not: one
whose permissions are widened is to be met at once (R56). -/
def walkKeep (die : Nat) (asid : BitVec 16) (va level e : Nat) (s : State) : State :=
  if level ≤ 2 && bitAt e 0 && !malformed e level && !entryLeaf e then
    let (l, s) := putCapped 256 (fun w => w.die == die)
      { die := die, asid := asid, level := level, path := indexPath va level, entry := BitVec.ofNat 64 e }
      (s.walker.filter fun w => !walkMatch die asid va level w) s
    { s with walker := l }
  else s

/-- The walk from the table of a level on, by the walkers of a die. A read of a table wakes its home die (R431). -/
def walkBy (die : Nat) (asid : BitVec 16) (va : Nat) (k : Kind) (sup : Bool) : Nat → Nat → Nat → State → State × WalkRes
  | 0, level, _, s => (s, .fault .malformed level)
  | fuel + 1, level, table, s =>
    let a := table + 8 * tableIndex va level
    match walkRead die asid va level a (wakeDie (homeDie s a) s) with
    | (s, none) => (s, .bad a)
    | (s, some e) =>
      let s := walkKeep die asid va level e s
      match entryRes s k sup level a e with
      | some r => (s, r)
      | none => walkBy die asid va k sup fuel (level + 1) (entryPa e) s

/-- A translation that an access uses. -/
inductive TrRes where
  | ok (pa : Nat) (ilv : Nat)
  | fault (ft : FaultType) (level : Nat)
  | bad (pa : Nat)

/-- A fresh walk, with the bits it sets and the entries it fills. -/
def walkFill (side : Side) (ctx va : Nat) (k : Kind) (sup : Bool) (s : State) : State × TrRes :=
  if ctxRootTable s ctx = 0 then (s, .fault .notPresent 0)
  else match walkBy (sideDie side) (ctxAsid s ctx) va k sup 4 0 (ctxRootTable s ctx) s with
  | (s, .ok l) =>
    let e := withAD l.entry k
    (tlbFill side 3 (ctxAsid s ctx) va e l.level (setAD l k s), .ok (leafPa e l.level va) (bits e 56 4))
  | (s, .fault ft lv) => (s, .fault ft lv)
  | (s, .bad a) => (s, .bad a)

/-- A hit: the TLBs before the one that holds the entry are filled from it. A or D that software has cleared without an invalidation
stays clear or is set again, the device's choice (R57; log 6). -/
def useHit (side : Side) (ctx va : Nat) (k : Kind) (e : TlbEntry) (now : Option Leaf) (s : State) : State × TrRes :=
  let s := tlbFill side e.tier (ctxAsid s ctx) va e.leaf.toNat e.page s
  let hit : TrRes := .ok (leafPa e.leaf.toNat e.page va) (bits e.leaf.toNat 56 4)
  match now with
  | none => (s, hit)
  | some l =>
    if withAD l.entry k = l.entry then (s, hit)
    else match choose s with
      | (true, s) => (setAD l k s, hit)
      | (false, s) => (s, hit)

/-- The translation of a global address. A TLB entry that the page tables no longer give may still be used: the device's free
choice (R55, R56; log 6). -/
def translate (side : Side) (ctx va : Nat) (k : Kind) (sup : Bool) (s : State) : State × TrRes :=
  match tlbFind s side (ctxAsid s ctx) va k sup with
  | none => walkFill side ctx va k sup s
  | some e =>
    let old := e.leaf.toNat
    let same := match walk s ctx va k sup with
      | .ok l => if l.level == e.page && entryPa l.entry == entryPa old && bits l.entry 56 4 == bits old 56 4 then some l else none
      | _ => none
    match same with
    | some l => useHit side ctx va k e (some l) s
    | none => match choose s with
      | (true, s) => useHit side ctx va k e none s
      | (false, s) => walkFill side ctx va k sup s

/-- The translation of a read that leaves no trace: no A bit, no TLB entry, no choice (R72, and the device's own look-ups). -/
def peek (s : State) (ctx va : Nat) (k : Kind) (sup : Bool) : Option Nat :=
  match walk s ctx va k sup with
  | .ok l => some (leafPa l.entry l.level va)
  | _ => none

/-- The line with an uncorrectable error that the walk of a look-up reads (R53). -/
def peekBad (s : State) (ctx va : Nat) (k : Kind) (sup : Bool) : Option Nat :=
  match walk s ctx va k sup with
  | .bad a => some a
  | _ => none

/-- The entries that a tlbinv operand leaves (R58): KIND 0 none, 1 those of other ASIDs, 2 those that do not hold the page. -/
def tlbKeep (kind : Nat) (asid : BitVec 16) (va : Nat) (e : TlbEntry) : Bool :=
  match kind with
  | 0 => false
  | 1 => e.asid != asid
  | _ => !tlbHit asid va e

/-- The walkers' entries that a tlbinv operand leaves (R58): KIND 2 takes those on the page's path. -/
def walkerKeep (kind : Nat) (asid : BitVec 16) (va : Nat) (w : WalkEntry) : Bool :=
  match kind with
  | 0 => false
  | 1 => w.asid != asid
  | _ => w.asid != asid || w.path != indexPath va w.level

/-- Do two addresses lie in one page of a level? -/
def samePage (level x y : Nat) : Bool := x / pageBytes level == y / pageBytes level

/-- Does a decoded operation come from the page of an address, in one of its words? -/
def decodedFrom (va : Nat) (d : DecodedOp) : Bool :=
  samePage d.page d.va va || d.page2.any fun p => samePage p (d.va + 4) va

/-- The decoded operations that a tlbinv operand leaves (R59, R240). -/
def decodedKeep (s : State) (kind : Nat) (asid : BitVec 16) (va : Nat) (d : DecodedOp) : Bool :=
  match kind with
  | 0 => false
  | 1 => ctxAsid s d.ctx != asid
  | _ => ctxAsid s d.ctx != asid || !decodedFrom va d

/-- An invalidation across the package (R58, R59). -/
def invalidate (kind : Nat) (asid : BitVec 16) (va : Nat) (s : State) : State :=
  { s with
    tlb := s.tlb.filter (tlbKeep kind asid va), walker := s.walker.filter (walkerKeep kind asid va),
    decoded := s.decoded.filter (decodedKeep s kind asid va) }

end Sys2Proof.Machine
end

