-- ==== Sys2Proof/Machine/Access.lean ====
section
/-! DEFINITION. One indivisible access (R136): the address is decoded and checked (R22 to R46), translated when it is global,
and performed at its home: a scratchpad, a weight store, DRAM with the L1 in front (R88, R143), or an aperture (R95, R443). -/

namespace Sys2Proof.Machine

/-- Who of its owner makes an access (R135). -/
inductive Actor where
  | scalar                 -- a path, by a scalar access
  | elems (lo n : Nat)     -- threads lo to lo + n − 1: that of an element, or those of a segment
  | engine                 -- a queue, a front end, a host: it makes its accesses in the order in which they perform
  deriving DecidableEq, Repr

/-- Who accesses, and how. -/
structure Env where
  uid : Nat                 -- the block whose addresses these are
  pl : Place
  ctx : Nat
  sup : Bool
  scope : Nat
  cls : Nat
  noL1 : Bool               -- the access allocates nothing in the L1
  side : Side
  core : Option Place       -- the core whose L1 a write updates
  owner : ExtOwner
  actor : Actor := .engine
  deriving DecidableEq, Repr

/-- Where an address leads. -/
inductive Loc where
  | glob (va : Nat)
  | spad (uid off : Nat)
  | cellar (die off : Nat)
  deriving DecidableEq, Repr

/-- What an access gives. `stall`: it has not performed and the instruction is tried again. `domain`: an uncorrectable error
(R76, R84, R96); in the scratchpad of block `owner` it ends that block's fault domain (R76), else the accessor's. -/
inductive Got (α : Type) where
  | ok (v : α)
  | trap (cause : Nat) (addr : Word) (kind : BitVec 4)
  | fault (ft : FaultType) (level : Nat) (va : Word) (kind : BitVec 4)
  | stall
  | domain (cause : Nat) (addr : Word) (owner : Option Nat)
  deriving DecidableEq, Repr

/-- What follows an access that has succeeded; a failure stays what it is. -/
def andThen (r : State × Got α) (f : α → State → State × Got β) : State × Got β :=
  match r with
  | (s, .ok v) => f v s
  | (s, .trap c a k) => (s, .trap c a k)
  | (s, .fault ft lv a k) => (s, .fault ft lv a k)
  | (s, .stall) => (s, .stall)
  | (s, .domain c a o) => (s, .domain c a o)

/-- Space tag of an address (R22). -/
def tagOf (a : Word) : Nat := vbits a 60 4

/-- Order 1 of R24: a reserved tag or a nonzero must-be-zero bit. -/
def badTag (a : Word) : Bool :=
  match tagOf a with
  | 0x0 => vbits a 52 8 != 0
  | 0xC => vbits a 30 30 != 0
  | 0xD => vbits a 25 35 != 0
  | 0xE => vbits a 20 40 != 0
  | _ => true

/-- The first failing check of an address that has to be aligned to n bytes before anything is read there: its tag, then the alignment
(R24). -/
def alignFault (a : Word) (n : Nat) : Option Nat := if badTag a then some 0x07 else if a.toNat % n != 0 then some 0x04 else none

/-- Is a weight-store unit allocated to a context (R39, R373)? -/
def cellarOwned (s : State) (ctx die off : Nat) : Bool :=
  rcbWord s ctx 11 != 0 &&
  bitAt (physRead s (rcbWord s ctx 11 + (384 * die + off / 2 ^ 21) / 8) 1) ((384 * die + off / 2 ^ 21) % 8)

/-- The block that a tenant number names for an accessor of context `ctx` (R15, R32, R457). -/
def tenantBlock (s : State) (pl : Place) (ctx t : Nat) : Option Block :=
  (residents s).find? fun b => b.place.die == pl.die && b.place.cl == pl.cl && b.tenant == t && blockCtx s b == ctx

/-- The address checks of R24, orders 1 to 4. `w`: the access is one of those that order 2 names. -/
def decodeAddr (s : State) (env : Env) (a : Word) (n align : Nat) (w : Bool) : Except Nat Loc :=
  if badTag a then .error 0x07
  else if w && tagOf a == 0xC then .error 0x08
  else if a.toNat % align != 0 then .error 0x04
  else match tagOf a with
    | 0x0 => if vbits a 0 52 + n > 2 ^ 52 then .error 0x07 else .ok (.glob (vbits a 0 52))
    | 0xC =>
      let off := vbits a 0 30
      if off + n > 0x30000000 || !cellarOwned s env.ctx env.pl.die off || !cellarOwned s env.ctx env.pl.die (off + n - 1)
      then .error 0x06 else .ok (.cellar env.pl.die off)
    | 0xD =>
      match tenantBlock s env.pl env.ctx (vbits a 20 5) with
      | some b => if vbits a 0 20 + n > b.spadSize then .error 0x06 else .ok (.spad b.uid (vbits a 0 20))
      | none => .error 0x06
    | _ =>
      if env.side == .front env.pl.die || vbits a 0 20 + n > (getBlock s env.uid).spadSize then .error 0x06 else .ok (.spad env.uid (vbits a 0 20))

/-! Storage. -/

/-- Links on a block's scratchpad lines are broken by a write there (R157). -/
def breakSpad (uid off n : Nat) (l : List Link) : List Link :=
  l.filter fun k => match k.line with
    | .glob _ => true
    | .spad u x => u != uid || x < off / 64 || (off + n - 1) / 64 < x

def spadWrite (uid off : Nat) (l : List Byte) (s : State) : State :=
  let s' := modBlock uid (fun b => { b with spad := ssetN 0 off l b.spad })
    (notePast (.spad uid) (sget 0 (getBlock s uid).spad) off l.length s)
  { s' with links := breakSpad uid off l.length s'.links }

def cellarWrite (die off : Nat) (l : List Byte) (s : State) : State :=
  { notePast (.cellar die) (sget 0 (vget s.cellar die)) off l.length s with
    cellar := vset s.cellar die (ssetN 0 off l (vget s.cellar die)) }

/-- The bytes of the range hold an uncorrectable error. -/
def badRange (s : State) (t : Nat → Target) (off n : Nat) : Bool := (List.range n).any fun i => badTarget s (t (off + i))

/-- Lines that an L1 holds: 64 KiB (R7, R88). -/
def l1Cap : Nat := 512

/-- The lines of bytes pa to pa + n - 1 (R93). -/
def linesOf (pa n : Nat) : List Nat := (List.range ((pa + n - 1) / 128 - pa / 128 + 1)).map (pa / 128 + ·)

/-- A line put into an L1; the line that a full L1 loses leaves no stale byte (R88). -/
def l1Put (core : Place) (ctx line : Nat) (s : State) : State :=
  let x : L1Line := { core := core, ctx := ctx, line := line }
  if s.l1.contains x then s
  else
    let (l, s) := putCapped l1Cap (fun y => y.core == core) x s.l1 s
    { s with l1 := l, stale := s.stale.filter fun y => l.contains { core := y.core, ctx := y.ctx, line := y.pa / 128 } }

/-- A core has read the bytes at their home: no line of it gives an older byte of those lines afterwards (R146; log 6). -/
def l1Fresh (core : Place) (ctx pa n : Nat) (s : State) : State :=
  { s with stale := s.stale.filter fun x => !(x.core == core && x.ctx == ctx && (linesOf pa n).contains (x.pa / 128)) }

/-- A read of DRAM through the core's L1: the lines are filled (R88). -/
def l1Fill (core : Place) (ctx pa n : Nat) (s : State) : State × List Byte :=
  ((linesOf pa n).foldl (fun s x => l1Put core ctx x s) (l1Fresh core ctx pa n s), physBytes s pa n)

/-- A read that lies in one line which the core's L1 holds with an older byte: that line as it stands, or none when the read is served
afresh, the device's choice (R14, R88, R143; log 6). An access over two lines is indivisible (R136) and is served afresh. -/
def l1Stale (core : Place) (ctx pa n : Nat) (s : State) : State × Option (List Byte) :=
  let old := s.stale.filter fun x => x.core == core && x.ctx == ctx && pa ≤ x.pa && x.pa < pa + n
  if old.isEmpty || linesOf pa n != [pa / 128] || !s.l1.contains { core := core, ctx := ctx, line := pa / 128 } then (s, none)
  else match choose s with
    | (true, s) =>
      (s, some ((List.range n).map fun i => ((old.find? fun x => x.pa == pa + i).map (·.val)).getD (sget 0 s.mem (pa + i))))
    | (false, s) => (s, none)

/-- The L1 of a core holds nothing any more (R89). -/
def l1Clear (core : Place) (s : State) : State :=
  { s with l1 := s.l1.filter (·.core != core), stale := s.stale.filter (·.core != core) }

/-- The link that an ordered stream of a class uses: the lowest of the route (R445; log 17). 16 stands for a host port. -/
def routeLink (s : State) (pa : Nat) : Option Nat :=
  match paKind s pa with
  | .peer p => (List.range 16).find? fun i => (vget s.routes p).getLsbD i
  | _ => some 16

/-- The requests without one. -/
def dropExt (id : Nat) (l : List ExtReq) : List ExtReq := l.filter fun e => e.id != id

/-- The cause of an access through an aperture that fails (R95). -/
def portCause (s : State) (pa : Nat) : Nat :=
  match paKind s pa with
  | .peer _ => 0x13
  | _ => 0x06

/-- No access can be sent to an aperture: its route is empty (R443), or its host has failed (R451). -/
def portDead (s : State) (pa : Nat) : Bool :=
  (routeLink s pa).isNone || match paKind s pa with
    | .host p => (vget s.ports p).failed
    | _ => false

/-- An access through an aperture (R95, R443 to R447): it is sent, and performs when the answer is there. -/
def apertureAccess (env : Env) (a : Word) (pa n : Nat) (data : Option (List Byte)) (k : Kind) (s : State) : State × Got (List Byte) :=
  let fail : Nat := portCause s pa
  match s.ext.find? fun e => e.owner == env.owner && e.pa == pa && e.n == n && e.data == data with
  | some e =>
    match e.got with
    | none => (s, .stall)
    | some (some l) => ({ s with ext := dropExt e.id s.ext }, .ok ((l ++ List.replicate n 0).take n))
    | some none =>
      let s := { s with ext := dropExt e.id s.ext }
      ((if fail = 0x06 then logError env.pl.die 0 0x06 a.toNat 0 env.ctx s else s), .trap fail a (kindBits k))
  | none =>
    match routeLink s pa with
    | none => (s, .trap fail a (kindBits k))
    | some link =>
      let r : ExtReq :=
        { id := s.uids, owner := env.owner, va := vbits a 0 52, pa := pa, n := n, data := data, cls := env.cls, link := link, got := none,
          kept := [] }
      if portDead s pa then (s, .trap fail a (kindBits k))
      else ({ s with uids := s.uids + 1, ext := s.ext ++ [r] }, .stall)

/-- The parts of a global range, one for each 64 KiB page that it touches. -/
def pageParts (va n : Nat) : List (Nat × Nat) :=
  if va % 65536 + n ≤ 65536 then [(va, n)] else [(va, 65536 - va % 65536), (va + (65536 - va % 65536), n - (65536 - va % 65536))]

/-- The translation at va that the owner of an access keeps while it stalls (R70), as physical address and ILV: a copy with its units that
have not moved, any other with its accesses at an aperture. -/
def keptPa (env : Env) (va : Nat) (s : State) : Option (Nat × Nat) :=
  match env.owner with
  | .copy id => s.copies.findSome? fun c => if c.id == id then c.pages.lookup va else none
  | o => s.ext.findSome? fun e => if e.owner == o then e.kept.lookup va else none

/-- Translations added to those that are kept. -/
def addPages (l kept : List (Nat × Nat × Nat)) : List (Nat × Nat × Nat) := kept ++ l.filter fun x => !kept.contains x

/-- Translations kept for the owner of an access that stalls. -/
def keepPages (env : Env) (l : List (Nat × Nat × Nat)) (s : State) : State :=
  match env.owner with
  | .copy id => { s with copies := modFirst (fun c => c.id == id) (fun c => { c with pages := addPages l c.pages }) s.copies }
  | o => { s with ext := s.ext.map fun e => if e.owner == o then { e with kept := addPages l e.kept } else e }

/-- An access that stalls keeps the translations that it has obtained (R70). -/
def keepOnStall (env : Env) (l : List (Nat × Nat × Nat)) (r : State × Got α) : State × Got α :=
  match r with
  | (s, .stall) => (keepPages env l s, .stall)
  | r => r

/-- The pages of the parts of an access at va. -/
def partPages (va : Nat) : List (Nat × Nat × Nat) → List (Nat × Nat × Nat)
  | [] => []
  | (pa, n, ilv) :: l => (va, pa, ilv) :: partPages (va + n) l

/-- Every part of an access translated, in increasing address; the first that fails decides (R68). -/
def translateParts (env : Env) (k : Kind) : List (Nat × Nat) → State → State × Got (List (Nat × Nat × Nat))
  | [], s => (s, .ok [])
  | (va, n) :: l, s =>
    match keptPa env va s with
    | some (pa, ilv) => andThen (translateParts env k l s) fun r s => (s, .ok ((pa, n, ilv) :: r))
    | none =>
      match translate env.side env.ctx va k env.sup s with
      | (s, .fault ft lv) => (s, .fault ft lv (BitVec.ofNat 64 va) (kindBits k))
      | (s, .bad pa) => (s, .domain 0x14 (BitVec.ofNat 64 pa) none)
      | (s, .ok pa ilv) => andThen (translateParts env k l s) fun r s => (s, .ok ((pa, n, ilv) :: r))

/-- May the core's L1 serve a read of a page (R88, R89, R143)? -/
def viaL1 (env : Env) (k : Kind) (ilv : Nat) : Bool := env.scope ≤ 1 && !env.noL1 && !bitAt ilv 3 && k == .read

/-- A read of one translated part. -/
def readPart (env : Env) (a : Word) (k : Kind) (pa n ilv : Nat) (s : State) : State × Got (List Byte) :=
  if isAperture s pa then apertureAccess env a pa n none k s
  else if badRange s .phys pa n then (s, .domain 0x14 a none)
  else match env.core with
    | some c =>
      if viaL1 env k ilv then
        match l1Fill c env.ctx pa n s with
        | (s, x) => (s, .ok x)
      else (l1Fresh c env.ctx pa n s, .ok (physBytes s pa n))
    | none => (s, .ok (physBytes s pa n))

/-- Answers that have been taken from an aperture are there again for the next try (R95). -/
def keepAnswers (before s : State) : State :=
  { s with ext := (before.ext.filter fun e => e.got.isSome && !(s.ext.any fun x => x.id == e.id)) ++ s.ext }

/-- Accesses that start from the first again when one of them stands at an aperture. -/
def restart (f : State → State × Got α) (s : State) : State × Got α :=
  match f s with
  | (t, .stall) => (keepAnswers s t, .stall)
  | r => r

/-- A read of translated parts. -/
def readParts (env : Env) (a : Word) (k : Kind) : List (Nat × Nat × Nat) → State → State × Got (List Byte)
  | [], s => (s, .ok [])
  | (pa, n, ilv) :: l, s =>
    andThen (readPart env a k pa n ilv s) fun x s => andThen (readParts env a k l s) fun y s => (s, .ok (x ++ y))

/-- The parts of a write that pass through an aperture, sent. -/
def sendParts (env : Env) (a : Word) (k : Kind) : List (Nat × Nat × Nat) → List Byte → State → State × Got Unit
  | [], _, s => (s, .ok ())
  | (pa, n, _) :: l, d, s =>
    if isAperture s pa then
      andThen (apertureAccess env a pa n (some (d.take n)) k s) fun _ s => sendParts env a k l (d.drop n) s
    else sendParts env a k l (d.drop n) s

/-- The parts of a write that lie in memory, written. -/
def putParts (env : Env) : List (Nat × Nat × Nat) → List Byte → State → State
  | [], _, s => s
  | (pa, n, _) :: l, d, s => putParts env l (d.drop n) (if isAperture s pa then s else physWrite env.core pa (d.take n) s)

/-- A write of translated parts: nothing is written before every part can be (R68, R136). -/
def writeParts (env : Env) (a : Word) (k : Kind) (ps : List (Nat × Nat × Nat)) (d : List Byte) (s : State) : State × Got Unit :=
  if ps.any fun p => !isAperture s p.1 && badRange s .phys p.1 p.2.1 then (s, .domain 0x14 a none)
  else andThen (sendParts env a k ps d s) fun _ s => (putParts env ps d s, .ok ())

/-- Is the weight-store unit at `off` in a bank group that is refreshing (R84, R87)? -/
def inRefresh (s : State) (die off : Nat) : Bool := vget s.refreshing die == some (bits off 8 4)

/-- Where the bytes of a location lie, once it is translated. -/
inductive Dest where
  | parts (l : List (Nat × Nat × Nat))   -- physical address, bytes, ILV
  | spad (uid off : Nat)
  | cellar (die off : Nat)
  deriving DecidableEq, Repr

/-- Does the reason for which an access is held still stand? -/
def holdStands (s : State) : HoldWhy → Bool
  | .window d g => vget s.refreshing d == some g
  | .transit u => (getBlock s u).transit

/-- An access that is held, an internal wait of its path or copy queue (R37, R87, R193). -/
def holdAccess (env : Env) (why : HoldWhy) (s : State) : State :=
  match env.owner with
  | .path w => { s with holds := (w, why) :: s.holds.filter fun x => x.1 != w && holdStands s x.2 }
  | .copy id => { s with copies := modFirst (fun c => c.id == id) (fun c => { c with hold := some why }) s.copies }
  | _ => s

/-- The home dies of translated parts leave their rest depths (R431). -/
def wakeHomes (ps : List (Nat × Nat × Nat)) (s : State) : State :=
  ps.foldl (fun s p => if isAperture s p.1 then s else wakeDie (homeDie s p.1) s) s

/-- A location resolved: translation (R52), an allocation in transit (R37), a refresh window (R42). R42 and R87 speak of reads of a
refreshing bank group; a WSLOAD node's write to one stalls as well (DESIGN CHOICE, log 116). -/
def resolveLoc (env : Env) (loc : Loc) (n : Nat) (k : Kind) (s : State) : State × Got Dest :=
  match loc with
  | .glob va => andThen (translateParts env k (pageParts va n) s) fun ps s => (wakeHomes ps s, .ok (.parts ps))
  | .spad u off => if (getBlock s u).transit then (holdAccess env (.transit u) s, .stall) else (s, .ok (.spad u off))
  | .cellar d off =>
    match (List.range n).find? fun i => inRefresh s d (off + i) with
    | some i => (holdAccess env (.window d (bits (off + i) 8 4)) s, .stall)
    | none => (s, .ok (.cellar d off))

/-- Does a destination lie in an aperture? -/
def viaAperture (s : State) : Dest → Bool
  | .parts ps => ps.any fun p => isAperture s p.1
  | _ => false

/-! The order of accesses (R35, R135, R140, R147). Writes take their places in one order, by `stamp`. A read sees memory as it stood
at some stamp; neither that nor the place of a write lies before what the party has seen in a class that orders the two (log 3). -/

/-- The bytes of a destination, as places. -/
def destPlaces (n : Nat) : Dest → List Target
  | .parts ps => ps.flatMap fun p => (List.range p.2.1).map fun i => .phys (p.1 + i)
  | .spad u off => (List.range n).map fun i => .spad u (off + i)
  | .cellar d off => (List.range n).map fun i => .cellar d (off + i)

/-- Number of the party that a path is; thread i is party i (R135). -/
def pathParty (pidx : Nat) : Nat := 1024 + pidx

/-- Number of the party that stands for all parties of a group. -/
def everyParty : Nat := 1088

/-- Where `floors` keeps what a party has seen: slot c below 16 by accesses of class c, 16 + c by fences over class c, 32 by fences over
all classes. -/
def floorKey (party slot : Nat) : Nat := party * 64 + slot

/-- Does what stands in a slot order an access of class `cls` (R140)? Class 15 goes with every class. -/
def slotOrders (cls slot : Nat) : Bool := slot == cls || slot == 15 || slot == 16 + cls || slot == 32 || (cls == 15 && decide (slot < 16))

/-- Does an access by an actor of a path follow, in program order, the earlier accesses of a party (R135, R139)? What the supervisor
executes continues the program order of the group. -/
def follows (g : Group) (pidx : Nat) (a : Actor) (party : Nat) : Bool :=
  g.sup || party == everyParty || party == pathParty pidx || match a with
    | .scalar => decide (party < 1024) && (getPath g pidx).threads.getLsbD party
    | .elems lo n => decide (lo ≤ party) && decide (party < lo + n)
    | .engine => false

/-- The stamp at which the instruction that a path executes was begun again, 0 when it was not (R105, R152). -/
def againAt (g : Group) (pidx : Nat) : Nat :=
  ((g.again.find? fun x => x.1 == pidx && x.2.1 == (getPath g pidx).pc).map (·.2.2)).getD 0

/-- The stamp before which an access of a class may not look (R140). -/
def classFloor (g : Group) (pidx : Nat) (a : Actor) (cls : Nat) : Nat :=
  g.floors.foldl (fun m e => if slotOrders cls (e.1 % 64) && follows g pidx a (e.1 / 64) then max m e.2 else m) (againAt g pidx)

/-- Parties of an actor, by number: in supervisor mode the whole group. -/
def partiesOf (g : Group) (pidx : Nat) (a : Actor) : List Nat :=
  if g.sup then [everyParty]
  else match a with
    | .elems lo n => (List.range n).map (lo + ·)
    | _ => [pathParty pidx]

/-- Slots of some parties raised to a stamp. -/
def raiseFloors (parties slots : List Nat) (t : Nat) (m : Sparse Nat) : Sparse Nat :=
  parties.foldl (fun m p => slots.foldl (fun m x => sset 0 (floorKey p x) (max (sget 0 m (floorKey p x)) t) m) m) m

/-- An access of a class has seen memory at stamp `t`. -/
def raiseSeen (pidx : Nat) (a : Actor) (cls t : Nat) (g : Group) : Group :=
  { g with floors := raiseFloors (partiesOf g pidx a) [cls] t g.floors }

/-- Every later access of some parties, in the classes of the slots, sees memory from stamp `t` on: a fence (R141). -/
def raiseFence (parties slots : List Nat) (t : Nat) (g : Group) : Group :=
  { g with floors := raiseFloors (if g.sup then [everyParty] else parties) slots t g.floors }

/-- What a new or merged path continues: the program order of other paths (R139, R168, R170). -/
def joinFloors (dst : Nat) (src : List Nat) (m : Sparse Nat) : Sparse Nat :=
  src.foldl (fun m p => (m.filter fun e => e.1 / 64 == pathParty p).foldl (fun m e => raiseFloors [pathParty dst] [e.1 % 64] e.2 m) m) m

/-- A path begins its instruction again: what it reads is what stands then or later (R105, R152). -/
def beginAgain (pidx : Nat) (pc : Word) (t : Nat) (g : Group) : Group :=
  { g with again := (pidx, pc, t) :: g.again.filter fun x => x.1 != pidx }

/-- Every write that has performed is ordered before the accesses of a class by an actor. -/
def upToDate (s : State) (w : Who) (a : Actor) (cls : Nat) : Bool :=
  s.past.all fun x => decide (x.stamp < classFloor (getGroup s w.uid w.gidx) w.pidx a cls)

/-- A read has looked at memory as it stood at stamp t: no later write takes a place before that (R146). -/
def settle (t : Nat) (s : State) : State := { s with settled := max s.settled t }

/-- The byte at a place as it stood at stamp t, `b` what stands there now. -/
def byteAsOf (s : State) (t : Nat) (x : Target) (b : Byte) : Byte :=
  ((s.past.filter fun y => y.at_ == x && decide (t ≤ y.stamp)).getLast?.map (·.val)).getD b

/-- What a read returns where memory holds `l`: by an engine that. By a path or a thread all bytes as they stood at one stamp, the
device's choice, which nothing that orders the read forbids (R136, R140, R147; log 3). -/
def pastRead (env : Env) (k : Kind) (d : Dest) (l : List Byte) (s : State) : State × List Byte :=
  match env.owner, env.actor with
  | _, .engine => (settle s.stamp s, l)
  | .path w, a =>
    if viaAperture s d then (s, l)
    else if upToDate s w a env.cls then (settle s.stamp s, l)
    else
      let low := classFloor (getGroup s w.uid w.gidx) w.pidx a env.cls
      let cuts := if k == .read then ((s.past.map (·.stamp)).filter fun x => decide (low ≤ x)).eraseDups else []
      let t := (cuts[Config.freeNat s.free % (cuts.length + 1)]?).getD s.stamp
      let clear (s : State) : State := match d, env.core with
        | .parts ps, some c => ps.foldl (fun s p => l1Fresh c env.ctx p.1 p.2.1 s) s
        | _, _ => s
      (clear (settle t (modGroup w.uid w.gidx (raiseSeen w.pidx a env.cls t) { s with free := s.free + 1 })),
        ((destPlaces l.length d).zip l).map fun x => byteAsOf s t x.1 x.2)
  | _, _ => (settle s.stamp s, l)

/-- The place that a write of n bytes takes in the order of all writes: the next; a plain store may come before writes that nothing
orders it after, the device's choice (R140, R147; log 3). -/
def writePlace (env : Env) (k : Kind) (d : Dest) (n : Nat) (s : State) : State × Nat :=
  match env.owner, env.actor with
  | _, .engine => (s, s.stamp)
  | .path w, a =>
    let places := destPlaces n d
    let own := ((s.past.filter fun x => places.contains x.at_).map fun x => x.stamp + 1).foldl max 0
    let low := max (max own s.settled) (classFloor (getGroup s w.uid w.gidx) w.pidx a env.cls)
    if k != .write || viaAperture s d || decide (s.stamp ≤ low) then (s, s.stamp)
    else
      let t := low + Config.freeNat s.free % (s.stamp - low + 1)
      ({ s with free := s.free + 1 }, if s.past.any fun x => x.stamp == t then s.stamp else t)
  | _, _ => (s, s.stamp)

/-- What has been recorded since `s` takes the place t, and the parties of the write have seen it (R140). -/
def placeWrite (env : Env) (s : State) (t : Nat) (u : State) : State :=
  let u := { u with past := u.past.map fun x => if s.stamp ≤ x.stamp then { x with stamp := t } else x }
  match env.owner, env.actor with
  | _, .engine => u
  | .path w, a => modGroup w.uid w.gidx (raiseSeen w.pidx a env.cls (t + 1)) u
  | _, _ => u

/-- Every later access of every party of a group, of any class, sees what has been written (R144, R161, R162). -/
def acquireAll (uid gidx : Nat) (s : State) : State :=
  modGroup uid gidx (fun g => { g with floors := sset 0 (floorKey everyParty 32) s.stamp [] }) s

/-- A read by a path or a thread that its core's L1 serves with an older byte (R88, R143): the whole access from that line (R136). -/
def staleRead (env : Env) (k : Kind) (d : Dest) (s : State) : State × Option (List Byte) :=
  match d, env.core with
  | .parts [(pa, n, ilv)], some c =>
    if isAperture s pa || badRange s .phys pa n || !viaL1 env k ilv then (s, none)
    else match l1Stale c env.ctx pa n s with
      | (s, none) => (s, none)
      | (s, some l) =>
        let s := settle s.stamp s
        match env.owner, env.actor with
        | _, .engine => (s, some l)
        | .path w, a => (modGroup w.uid w.gidx (raiseSeen w.pidx a env.cls s.stamp) s, some l)
        | _, _ => (s, some l)
  | _, _ => (s, none)

/-- The pages of a destination that an access at `a` keeps while it stalls. -/
def destPages (a : Word) : Dest → List (Nat × Nat × Nat)
  | .parts ps => partPages (vbits a 0 52) ps
  | _ => []

/-- The bytes that stand at a destination. -/
def readNow (env : Env) (a : Word) (n : Nat) (k : Kind) (d : Dest) (s : State) : State × Got (List Byte) :=
  match d with
  | .parts ps => restart (readParts env a k ps) s
  | .spad u off => if badRange s (.spad u) off n then (s, .domain 0x14 a (some u)) else (s, .ok (sgetN 0 (getBlock s u).spad off n))
  | .cellar die off =>
    if badRange s (.cellar die) off n then (s, .domain 0x14 a none) else (s, .ok (sgetN 0 (vget s.cellar die) off n))

/-- The bytes that a read of a destination returns. -/
def readDest (env : Env) (a : Word) (n : Nat) (k : Kind) (d : Dest) (s : State) : State × Got (List Byte) :=
  match staleRead env k d s with
  | (s, some l) => (s, .ok l)
  | (s, none) =>
    andThen (keepOnStall env (destPages a d) (readNow env a n k d s)) fun l s =>
      let r := pastRead env k d l s
      (r.1, .ok r.2)

/-- Bytes put at a destination. -/
def putDest (env : Env) (a : Word) (l : List Byte) (k : Kind) (d : Dest) (s : State) : State × Got Unit :=
  match d with
  | .parts ps => restart (writeParts env a k ps l) s
  | .spad u off => if badRange s (.spad u) off l.length then (s, .domain 0x14 a (some u)) else (spadWrite u off l s, .ok ())
  | .cellar die off =>
    if badRange s (.cellar die) off l.length then (s, .domain 0x14 a none) else (cellarWrite die off l s, .ok ())

/-- Bytes written at a destination. -/
def writeDest (env : Env) (a : Word) (l : List Byte) (k : Kind) (d : Dest) (s : State) : State × Got Unit :=
  let (s, t) := writePlace env k d l.length s
  match keepOnStall env (destPages a d) (putDest env a l k d s) with
  | (u, .ok _) => (placeWrite env s t u, .ok ())
  | r => r

/-- A read at a location. -/
def readLoc (env : Env) (a : Word) (loc : Loc) (n : Nat) (k : Kind) (s : State) : State × Got (List Byte) :=
  andThen (resolveLoc env loc n k s) (readDest env a n k)

/-- A write at a location. -/
def writeLoc (env : Env) (a : Word) (loc : Loc) (d : List Byte) (k : Kind) (s : State) : State × Got Unit :=
  andThen (resolveLoc env loc d.length k s) (writeDest env a d k)

/-- One load: address checks, then the read. -/
def loadAt (env : Env) (a : Word) (n align : Nat) (s : State) : State × Got (List Byte) :=
  match decodeAddr s env a n align false with
  | .error c => (s, .trap c a (kindBits .read))
  | .ok loc => readLoc env a loc n .read s

/-- One store: address checks, then the write. -/
def storeAt (env : Env) (a : Word) (align : Nat) (d : List Byte) (s : State) : State × Got Unit :=
  match decodeAddr s env a d.length align true with
  | .error c => (s, .trap c a (kindBits .write))
  | .ok loc => writeLoc env a loc d .write s

/-- The link line of a resolved destination (R156). -/
def lineOf : Dest → LinkLine
  | .parts ps => .glob (((ps.map (·.1)).headD 0) / 128)
  | .spad u off => .spad u (off / 64)
  | .cellar _ off => .glob off

/-- Do two link lines belong to one home (R74, R93, R156)? A bank of a partitioned core is one home for both halves (R73; log 102). -/
def sameHome (s : State) (x y : LinkLine) : Bool :=
  match x, y with
  | .glob a, .glob b => homeDie s (a * 128) == homeDie s (b * 128) && Config.sliceOf a % 32 == Config.sliceOf b % 32
  | .spad u a, .spad v b => corePlace (getBlock s u).place == corePlace (getBlock s v).place && a % 32 == b % 32
  | _, _ => false

/-- Links that a home holds. -/
def homeCap : LinkLine → Nat
  | .glob _ => 1024
  | .spad _ _ => 32

/-- A link set for its owner, whose earlier one is replaced; a full home loses its oldest (R156). -/
def setLink (o : LinkOwner) (line : LinkLine) (s : State) : State :=
  let l := s.links.filter fun k => k.owner != o
  let l := if l.length < homeCap line then l
    else if (l.filter fun k => sameHome s k.line line).length < homeCap line then l
    else dropFirst (fun k => sameHome s k.line line) l
  { s with links := l ++ [{ owner := o, line := line }] }

/-- The intact link of an owner. -/
def linkOf (s : State) (o : LinkOwner) : Option LinkLine := (s.links.find? fun k => k.owner == o).map (·.line)

def clearLink (o : LinkOwner) (s : State) : State := { s with links := s.links.filter fun k => k.owner != o }

end Sys2Proof.Machine
end

