-- ==== Sys2Proof/Machine/PathRec.lean ====
section
/-! DEFINITION. Path records (R410) as bytes, and the path-stack slot that holds those of a group's paths beyond the eight on chip (R167,
R398). -/

namespace Sys2Proof.Machine

/-! Fields of a byte record. -/

/-- n bytes that are zero but for fields (offset, length, value). -/
def mkBytes (n : Nat) (l : List (Nat × Nat × Nat)) : List Byte :=
  sgetN 0 (l.foldl (fun m (f : Nat × Nat × Nat) => ssetN 0 f.1 (toBytes f.2.1 f.2.2) m) []) 0 n

/-- The field of n bytes at an offset. -/
def field (l : List Byte) (o n : Nat) : Nat := ofBytes ((l.drop o).take n)

/-! Path records (R410). -/

/-- STATE of a path record. A parked path is recorded as such; its token stands there only for a vmeld (log 37). -/
def pathState (g : Group) (p : Path) : Nat :=
  match g.melds.find? fun m => m.a == p.idx || m.b == p.idx with
  | some m => 4 + (if m.b = p.idx then 8 else 0) + m.tok % 16 * 16
  | none => match p.run with
    | .atJoin _ => 1
    | .atMeld t _ => 2 + t % 16 * 16
    | _ => 0

/-- The fields of a repeat frame. -/
def rptFields (f : Option RptFrame) : List (Nat × Nat × Nat) :=
  match f with
  | none => []
  | some f => [(16, 8, f.start.toNat), (24, 1, f.len), (25, 1, f.stride), (26, 2, f.n), (28, 2, f.pass), (30, 1, f.pos)]

/-- A path record; loop entries and return addresses stand oldest first (log 38). -/
def pathBytes (g : Group) (p : Path) : List Byte :=
  let m := g.melds.find? fun m => m.a == p.idx || m.b == p.idx
  let done : Nat := match m with
    | some m => b2n m.doneA + 2 * b2n m.doneB
    | none => 0
  let loops := p.loops.reverse
  mkBytes 3072 ([
    (0, 8, p.pc.toNat), (8, 1, p.rets.length), (9, 1, p.loops.length), (10, 1, pathState g p), (12, 2, p.tokens.toNat),
    (14, 2, done), (160, 128, p.threads.toNat), (416, 64, (m.map (·.table.toNat)).getD 0)] ++ rptFields p.rpt ++
    ((List.range loops.length).flatMap fun i =>
      match loops[i]? with
      | some e => [(32 + 32 * i, 8, e.start.toNat), (40 + 32 * i, 8, e.stop.toNat), (48 + 32 * i, 8, e.left.toNat),
          (56 + 32 * i, 8, e.depth)]
      | none => []) ++
    ((List.range 16).map fun t => (288 + 8 * t, 8, (vget p.maps t).toNat)) ++
    ((List.range 64).map fun i => (512 + 8 * i, 8, (vget p.regs i).toNat)) ++
    (List.range p.rets.length).map fun d => (1024 + 8 * d, 8, (p.rets.reverse.getD d 0).toNat))

/-! Path-stack slots (R398). -/

/-- Where path-stack slot k of a context lies. -/
def stackSlotBase (s : State) (ctx k : Nat) : Nat := effSpill s ctx + 0x10000 + numFrames s ctx * 0x180000 + k * 0x2A000

/-- The records of a group's paths beyond the eight of lowest index written into its path-stack slot (log 104). -/
def writeStackSlot (uid gidx : Nat) (s : State) : State :=
  let g := getGroup s uid gidx
  match g.stackSlot with
  | none => s
  | some k =>
    let base := stackSlotBase s (blockCtx s (getBlock s uid)) k
    (g.paths.drop 8).zipIdx.foldl (fun s x => physWrite none (base + 3072 * x.2) (pathBytes g x.1) s) s

end Sys2Proof.Machine
end

