-- ==== Sys2Proof/Machine/Ops.lean ====
section
/-! DEFINITION. The named operations of the machine: the executing path and its registers (R165, R173, R257), the fault queue
(R60 to R66), fault-domain termination (R192), taking a trap and returning from one (R197, R214, R368, R369, R399), and what
follows an instruction: its checks (R228), the next PC (R256 to R258) and the end of the run (R221). -/

namespace Sys2Proof.Machine

/-! The executing path. -/

/-- The run that issues: the head of `running`. -/
def cur (s : State) : Focus := s.running.headD { who := { uid := 0, gidx := 0, pidx := 0 }, side := false }

def curBlock (s : State) : Block := getBlock s (cur s).who.uid

def curGroup (s : State) : Group := getGroup s (cur s).who.uid (cur s).who.gidx

/-- The melded region that the run executes in; the supervisor runs unmelded (R175). A region that two supervisor paths enter is recorded,
has no effect while they run, and lasts into user mode (DESIGN CHOICE, log 120). -/
def curMeld (s : State) : Option Meld :=
  if (curGroup s).sup then none else (curGroup s).melds.find? fun m => m.a == (cur s).who.pidx

/-- Index of the executing path: in a melded region that of the executing side (R173). -/
def exPath (s : State) : Nat :=
  match curMeld s with
  | some m => if (cur s).side then m.b else m.a
  | none => (cur s).who.pidx

def curPath (s : State) : Path := getPath (curGroup s) (exPath s)

def modB (f : Block → Block) (s : State) : State := modBlock (cur s).who.uid f s

def modG (f : Group → Group) (s : State) : State := modGroup (cur s).who.uid (cur s).who.gidx f s

def modP (f : Path → Path) (s : State) : State := modG (modPathIn (exPath s) f) s

/-- Change of the PC state of the executing path, or of both paths of a melded region (R173). -/
def modBoth (f : Path → Path) (s : State) : State :=
  match curMeld s with
  | some m => modG (fun g => modPathIn m.b f (modPathIn m.a f g)) s
  | none => modP f s

def curCtx (s : State) : Nat := blockCtx s (curBlock s)

def curDie (s : State) : Nat := (curBlock s).place.die

def nr (s : State) : Nat := nrOf (curGroup s).nrc

def vlmax (s : State) : Nat := vlmaxOf (curBlock s).place (curGroup s).nrc

/-- Who executes, as a path. -/
def curWho (s : State) : Who := { (cur s).who with pidx := exPath s }

def setSide (b : Bool) (s : State) : State :=
  match s.running with
  | f :: l => { s with running := { f with side := b } :: l }
  | [] => s

/-! Registers. -/

/-- What a repeat frame adds to register fields (R257). -/
def bias (s : State) : Nat :=
  match (curPath s).rpt with
  | some r => r.pass * r.stride
  | none => 0

/-- Byte j of a captured renaming table (R172). -/
def tableByte (m : Meld) (j : Nat) : Nat := vbits m.table (8 * j) 8

/-- The scalar register that a field names: advanced by the frame, then renamed (R173, R257). -/
def sregOf (s : State) (f : BitVec 6) : Nat :=
  let x := (f.toNat + bias s) % 64
  match curMeld s with
  | some m => if x < 16 then tableByte m (16 + x + 32 * b2n (cur s).side) % 64 else x
  | none => x

/-- The vector register that a field names for a side (R173). -/
def vregOf (s : State) (side : Bool) (f : BitVec 6) : Nat :=
  let x := (f.toNat + bias s) % 64
  match curMeld s with
  | some m => if x < 16 ∧ x < nr s then tableByte m (x + 32 * b2n side) else x
  | none => x

/-- The value of a scalar register of a path; s0 reads zero (R165). -/
def sregVal (p : Path) (r : Nat) : Word := if r = 0 then 0 else vget p.regs r

/-- A scalar write: s0 discards it; every written map that the path holds records it (R166). -/
def putSreg (r : Nat) (v : Word) (p : Path) : Path :=
  if r = 0 then p
  else { p with
    regs := vset p.regs r v,
    maps := Vector.ofFn fun t => if p.tokens.getLsbD t.val then putBit p.maps[t] r true else p.maps[t] }

/-- s[f] of the executing path. -/
def rdS (f : BitVec 6) (s : State) : Word := sregVal (curPath s) (sregOf s f)

/-- s[f] := v in the executing path. -/
def wrS (f : BitVec 6) (v : Word) (s : State) : State := modP (putSreg (sregOf s f) v) s

/-- s[r] := v of the executing path, the register given by number. -/
def wrReg (r : Nat) (v : Word) (s : State) : State := modP (putSreg r v) s

/-- Predicate i (R165). -/
def rdP (i : Nat) (s : State) : BitVec 1024 := vget (curGroup s).p i

/-- A predicate write; p0 discards it. -/
def wrP (i : Nat) (v : BitVec 1024) (s : State) : State :=
  if i = 0 then s else modG (fun g => { g with p := vset g.p i v }) s

/-- The scalar registers below 64 of a new path (R188). -/
def scalarFile (l : List Word) : Vector Word 64 := Vector.ofFn fun i => l.getD i.val 0

/-! Run ends. -/

/-- The run of the executing group ends: latches are lost, the slot is free (R221, R222). -/
def endRun (s : State) : State :=
  let p := (cur s).who.pidx
  let s := modG (fun g => { g with bp := [], issued := 0, last := p, ffGo := false }) s
  writeStackSlot (cur s).who.uid (cur s).who.gidx { s with running := s.running.tail }

/-- Runs of a group that are in progress end (capture, removal). -/
def stopRuns (uid g : Nat) (s : State) : State :=
  { s with running := s.running.filter fun f => !(f.who.uid == uid && f.who.gidx == g) }

/-! Launches: acceptance (R363 to R365, R387). -/

/-- An RCB named by a virtual address of a context, which is translated in supervisor mode (R373). -/
def rcbAt (s : State) (ctx va : Nat) : Option Nat := if 2 ^ 52 ≤ va then none else peek s ctx va .read true

/-- The RCB that a packet names (word 3). Whether it lies beneath the context is tested after acceptance (R363). -/
def packetRcb (s : State) (ctx : Nat) (packet : Vector Word 16) : Option Nat :=
  (rcbAt s ctx (vget packet 3).toNat).filter fun r => rcbKind s r ≤ 3

/-- Entries of a die's pending-launch store in use. -/
def storeUsed (s : State) (die : Nat) : Nat := (s.launches.filter fun l => l.die == die).length

/-- Entries in use beneath a node. -/
def entriesBeneath (s : State) (r : Nat) : Nat := (s.launches.filter fun l => beneath s l.rcb r).length

/-- A checkpoint before its skim has ended holds acceptance back beneath its RCB (R437). -/
def held (s : State) (r : Nat) : Bool := s.ckpts.any fun c => (c.phase == .cut || c.phase == .skim) && beneath s r c.rcb

/-- Is a pending-launch entry available to a region (R364, R437)? -/
def entryAvailable (s : State) (die : Nat) (rcb : Option Nat) : Bool :=
  decide (storeUsed s die < 4096) &&
  match rcb with
  | none => true
  | some r => !held s r && (rcbChain s r).all fun x =>
      bits (rcbWord s x 4) 16 16 == 0xFFFF || decide (entriesBeneath s x + 1 ≤ bits (rcbWord s x 4) 16 16)

/-- A launch is accepted by a die (R365, R387): it takes an entry and a number. Its packet is checked in a later step. -/
def acceptLaunch (die : Nat) (packet : Vector Word 16) (addr : Word) (ctx : Nat) (node : Option Nat) (service : Bool) (s : State) :
    State × Nat :=
  let n := vget s.accepted die + 1
  let id := die * 2 ^ 62 + n % 2 ^ 62
  let rcb := (packetRcb s ctx packet).getD 0
  let l : Launch :=
    { id := id, shown := id, die := die, packet := packet, addr := addr, ctx := ctx, rcb := rcb, counter := 0, placed := 0, prio := 0, dies := 0,
      checked := false, node := node, service := service }
  let s := { s with accepted := vset s.accepted die n, launches := s.launches ++ [l] }
  (writeUsages rcb s, id)

/-- Sixteen words from 128 bytes. -/
def packetOf (l : List Byte) : Vector Word 16 := Vector.ofFn fun i => BitVec.ofNat 64 (ofBytes ((l.drop (8 * i.val)).take 8))

/-- How a die's front end reaches the packet of a service kernel: as the packet of a node. -/
def noticeEnv (ctx die slot : Nat) : Env :=
  { uid := 0, pl := { die := die, cl := 99, site := 0, part := 0 }, ctx := ctx, sup := true, scope := 4, cls := 15, noL1 := true,
    side := .front die, core := none, owner := .notice ctx die slot }

/-- The service kernel of a context launched for a slot (R63, R377), when an entry is available to it (R364, R375); it waits for one, and
for a packet that stands in an aperture. A packet that cannot be read launches nothing: DESIGN CHOICE (log 103). -/
def serviceLaunch (ctx die slot : Nat) (s : State) : State × Got Unit :=
  let serv := rcbWord s ctx 9
  match restart (loadAt (noticeEnv ctx die slot) (BitVec.ofNat 64 serv) 128 1) s with
  | (t, .ok l) =>
    let p := packetOf l
    let p := vset (vset p 4 (BitVec.ofNat 64 slot)) 5 (BitVec.ofNat 64 die)
    match peekBad t ctx (vget p 3).toNat .read true with
    | some a => (t, .domain 0x14 (BitVec.ofNat 64 a) none)
    | none =>
      if entryAvailable t die (packetRcb t ctx p) then ((acceptLaunch die p (BitVec.ofNat 64 serv) ctx none true t).1, .ok ())
      else (keepAnswers s t, .stall)
  | (t, .stall) => (t, .stall)
  | (t, .domain c a o) => (t, .domain c a o)
  | (t, _) => (t, .ok ())

/-- A service launch that has to wait stands among `notices`. One that meets an uncorrectable error stands there until the next step ends
its domain (R53; Due.lean). -/
def tryNotice (n : Nat × Nat × Nat) (s : State) : State :=
  match serviceLaunch n.1 n.2.1 n.2.2 s with
  | (s, .ok _) => s
  | (s, _) => { s with notices := s.notices ++ [n] }

/-- Service launches that wait are tried again, oldest first. -/
def retryNotices (s : State) : State := s.notices.foldl (fun s n => tryNotice n s) { s with notices := [] }

/-! The slots of the fault queue (R60 to R66). -/

def faultCode : FaultType → Nat
  | .notPresent => 1
  | .protection => 2
  | .malformed => 3
  | .noMemory => 4

/-- The cause of a waiter when its slot is resolved with FAIL (R65). -/
def failCause : FaultType → Nat
  | .notPresent => 0x05
  | .malformed => 0x05
  | .protection => 0x06
  | .noMemory => 0x06

/-- Base of a die's fault queue (R60, R373). -/
def queueBase (s : State) (ctx die : Nat) : Nat := rcbWord s (rcbRoot s ctx) 2 + die * 0x20000

/-- Occupied slots: TYPE, in the high bits of byte 7, is nonzero. -/
def occupied (s : State) (base : Nat) : List Nat :=
  (s.mem.filter fun c => decide (base ≤ c.1) && decide (c.1 < base + 0x20000) && (c.1 - base) % 32 == 7 && c.2.toNat / 16 != 0).map
    fun c => (c.1 - base) / 32

def slotWord (s : State) (base i k : Nat) : Nat := physRead s (base + 32 * i + 8 * k) 8

/-- The slot with which a fault coalesces (R62). -/
def coalesce (s : State) (base : Nat) (asid : BitVec 16) (va : Nat) : Option Nat :=
  (occupied s base).find? fun i =>
    bits (slotWord s base i 0) 16 36 == va / 65536 && bits (slotWord s base i 1) 48 16 == asid.toNat &&
    bits (slotWord s base i 3) 56 8 == 0

/-- The lowest free slot (log 18). -/
def freeSlot (s : State) (base : Nat) : Option Nat :=
  let o := occupied s base
  (List.range 4096).find? fun i => !o.contains i

/-! Fault domains (R192). -/

/-- A word that a front end writes through a context, in supervisor mode; A and D of its leaf are set (R57). Nothing when it cannot be
reached. -/
def putWord (ctx va v : Nat) (s : State) : State :=
  match walk s ctx va .read true with
  | .ok l => physPut none (leafPa l.entry l.level va) 8 v (setAD l .write s)
  | _ => s

/-- Word k of a graph node (R378); 0 when it cannot be reached. -/
def nodeWord (s : State) (ctx va k : Nat) : Nat :=
  match peek s ctx (va + 8 * k) .read true with
  | some pa => physRead s pa 8
  | none => 0

/-- The RCB of a node's work (R378), its context when it has none that can be reached. -/
def nodeRcb (s : State) (ctx va : Nat) : Nat := (rcbAt s ctx (nodeWord s ctx va 3)).getD ctx

/-- A graph node's state word rewritten through its context (R378); nothing when the node cannot be reached. -/
def setNodeState (ctx va st : Nat) (s : State) : State :=
  let w := nodeWord s ctx va 0
  putWord ctx va (w - bits w 58 2 * 2 ^ 58 + st * 2 ^ 58) s

/-- A node fails: STATE failed and an EVENT 2 record with the cause, in the log of its RCB (R385). -/
def failNode (ctx va die cause : Nat) (addr : Nat) (s : State) : State :=
  let s := setNodeState ctx va 3 s
  { logError die 2 cause addr va (nodeRcb s ctx va) s with
    waits := s.waits.filter (· != (ctx, va)), passes := s.passes.filter fun x => x.1 != (ctx, va),
    completing := s.completing.filter fun x => x.1 != (ctx, va), ext := s.ext.filter fun e => e.owner != .node ctx va }

/-- A store of 8 bytes at system scope that a front end makes and does not wait for; the cause and the address when it fails. -/
def postStore (ctx die va v : Nat) (s : State) : State × Option (Nat × Nat) :=
  if 2 ^ 52 ≤ va then (s, some (0x07, va))
  else match translate (.front die) ctx va .write true s with
  | (s, .fault ft _) => (s, some (failCause ft, va))
  | (s, .bad a) => (s, some (0x14, a))
  | (s, .ok pa _) =>
    if isAperture s pa then
      match routeLink s pa with
      | none => (s, some (0x13, va))
      | some link =>
        if link = 16 ∧ (vget s.ports ((pa - 0x800000000000) / 2 ^ 46)).failed then (s, some (0x06, va))
        else
        let r : ExtReq :=
          { id := s.uids, owner := .posted ctx die, va := va, pa := pa, n := 8, data := some (toBytes 8 v), cls := 15, link := link, got := none,
            kept := [] }
        ({ s with uids := s.uids + 1, ext := s.ext ++ [r] }, none)
    else (physPut none pa 8 v s, none)

/-- The status word of a checkpoint written (R436). -/
def ckptStatus (c : Ckpt) (phase reason : Nat) (s : State) : State × Option (Nat × Nat) :=
  postStore c.ctx c.die (c.desc.getD 6 0) (phase * 2 ^ 60 + reason * 2 ^ 56 + c.gen % 2 ^ 56) s

def sameCkpt (c x : Ckpt) : Bool := x.ctx == c.ctx && x.va == c.va

/-- A checkpoint is no longer in progress; launches that it held back are accepted (R437). -/
def dropCkpt (c : Ckpt) (s : State) : State :=
  retryNotices { s with ckpts := s.ckpts.filter fun x => !sameCkpt c x, ext := s.ext.filter fun e => e.owner != .ckpt c.ctx c.va }

/-- Is a checkpoint past its skim (R439)? -/
def draining (c : Ckpt) : Bool :=
  match c.phase with
  | .drain => true
  | .commit => true
  | .apply => true
  | .applyDone => true
  | _ => false

/-- A checkpoint or a restore fails (R436, R440): its node fails, and a drain that fails leaves GEN 0. -/
def failCkpt (c : Ckpt) (reason cause addr : Nat) (s : State) : State :=
  let s := dropCkpt c s
  let s := if draining c then putWord c.ctx (c.addr + 56) 0 s else s
  failNode c.ctx c.va c.die cause addr (ckptStatus c 5 reason s).1

/-- A waiter leaves its slot without being resolved (R71). -/
def leaveSlot (ctx die slot : Nat) (s : State) : State :=
  let base := queueBase s ctx die
  let w1 := slotWord s base slot 1
  if bits w1 36 12 = 0 then s else physPut none (base + 32 * slot + 8) 8 (w1 - 2 ^ 36) s

/-- A path in fault-wait, or waiting to record its fault (R60, R66). -/
def faultWaiting (r : PathRun) : Bool :=
  match r with
  | .waiting (.fault _ _ _ _ _) _ => true
  | .waiting (.noSlot _ _ _ _ _) _ => true
  | _ => false

/-- A path leaves a wait that a trap ends: its fault-queue slot, its place in the rendezvous latch, the accesses that stand for it. -/
def leaveWait (w : Who) (s : State) : State :=
  let s : State := match (pathOf s w).run with
    | .waiting (.fault d i _ _ _) _ => leaveSlot (blockCtx s (getBlock s w.uid)) d i s
    | .waiting .latch _ => modBlock w.uid (fun b => { b with latch := (b.latch.map fun e =>
        { e with arrived := e.arrived.filter fun m => m.gidx != w.gidx || m.pidx != w.pidx }).filter fun e => !e.arrived.isEmpty }) s
    | _ => s
  modPath w (fun p => { p with run := match p.run with
    | .waiting _ _ => .ready
    | r => r }) { s with holds := s.holds.filter fun x => x.1 != w, ext := s.ext.filter fun e => e.owner != .path w }

/-- The paths of a group leave fault-wait: they issue their instructions again when they run next (log 127). -/
def leaveFaults (uid gidx : Nat) (s : State) : State :=
  ((getGroup s uid gidx).paths.filter fun p => faultWaiting p.run).foldl
    (fun s p => leaveWait { uid := uid, gidx := gidx, pidx := p.idx } s) s

/-- The tenants of a copy's cluster window among removed blocks (R32, R357). -/
def lostTenants (s : State) (gone : List Block) (c : Copy) : List Nat :=
  let pl := (getBlock s c.uid).place
  (gone.filter fun b => b.res != .held && b.place.die == pl.die && b.place.cl == pl.cl && blockCtx s b == c.ctx).map (·.tenant)

/-- Does the base address of a side of a copy lie in the window of a lost tenant? -/
def inLost (lost : List Nat) (a : Word) : Bool := tagOf a == 0xD && lost.contains (vbits a 20 5)

/-- Copies of other domains lose the scratchpads of blocks that a termination removes (R357): they stop in error where they reach for
them, and one in fault-wait leaves its slot. -/
def loseBlocks (gone : List Block) (s : State) : State :=
  let hit (c : Copy) : Bool := c.node.isNone && !(gone.any fun b => b.uid == c.uid)
  let woken (c : Copy) : Bool := hit c && (inLost (lostTenants s gone c) c.desc.src || (!c.desc.dob && inLost (lostTenants s gone c) c.desc.dst))
  let s1 := (s.copies.filter woken).foldl (fun s c => match c.run with
    | .fault die slot _ _ _ => leaveSlot c.ctx die slot s
    | _ => s) s
  { s1 with copies := s.copies.map fun c => if hit c then
      { c with lost := c.lost ++ lostTenants s gone c, run := if woken c && c.run != .performed then .queued else c.run }
    else c }

/-- The node that a step of a walker executes. -/
def stepNode : Instr → Option (Nat × Nat)
  | .nodeKernel c v => some (c, v)
  | .nodeCopy c v => some (c, v)
  | .nodeWsload c v => some (c, v)
  | .nodeCond c v => some (c, v)
  | .nodeLoop c v => some (c, v)
  | .nodeSignal c v => some (c, v)
  | .nodeWait c v => some (c, v)
  | .nodeEnd c v => some (c, v)
  | .ckptStart c v => some (c, v)
  | .ckptRestore c v => some (c, v)
  | _ => none

/-- The fault domain of `node` ends (R192): every block of every launch beneath it is removed and its copies stop; entries are
released, graph nodes beneath it fail (R385), and an EVENT 5 record tells the owner. -/
def endDomain (node die cause : Nat) (addr : Word) (s : State) : State :=
  let dead := s.launches.filter fun l => beneath s l.rcb node
  let ids := dead.map (·.id)
  let gone := s.blocks.filter fun b => ids.contains b.launch
  let s := gone.foldl (fun s b => dropBlock b s) (loseBlocks gone s)
  let mine (s : State) (c : Copy) : Bool := match c.node with
    | some va => beneath s (nodeRcb s c.ctx va) node
    | none => false
  let nodes := s.copies.filter (mine s)
  let s := { s with
    launches := s.launches.filter fun l => !ids.contains l.id,
    notices := s.notices.filter fun n => !beneath s n.1 node,
    queue := s.queue.map fun q => q.filter fun i => !ids.contains i,
    reserve := s.reserve.map fun r => if r.any ids.contains then none else r,
    copies := s.copies.filter fun c => !mine s c }
  let s := dead.foldl (fun s l => match l.node with
    | some va => failNode l.ctx va die cause addr.toNat s
    | none => s) s
  let s := nodes.foldl (fun s c => match c.node with
    | some va => failNode c.ctx va die cause addr.toNat s
    | none => s) s
  let s := (s.waits.filter fun w => beneath s (nodeRcb s w.1 w.2) node).foldl
    (fun s w => failNode w.1 w.2 die cause addr.toNat s) s
  let s := (s.passes.filter fun x => beneath s (nodeRcb s x.1.1 x.1.2) node).foldl
    (fun s x => failNode x.1.1 x.1.2 die cause addr.toNat s) s
  let s := ((s.pending.filterMap stepNode).filter fun x =>
      decide (bits (nodeWord s x.1 x.2 0) 58 2 < 2) && beneath s (nodeRcb s x.1 x.2) node).foldl
    (fun s x => failNode x.1 x.2 die cause addr.toNat s) s
  let s := (s.completing.filter fun x => beneath s (nodeRcb s x.1.1 x.1.2) node).foldl
    (fun s x => failNode x.1.1 x.1.2 die cause addr.toNat s) s
  let s := (s.ckpts.filter fun c => beneath s c.rcb node).foldl (fun s c => failCkpt c 0 cause addr.toNat s) s
  let s := dead.foldl (fun s l => writeUsages l.rcb s) s
  retryNotices (logError die 5 cause addr.toNat node node s)

/-- The fault domain of a block ends. -/
def endBlockDomain (uid cause : Nat) (addr : Word) (s : State) : State :=
  let b := getBlock s uid
  endDomain (domainNode s (blockRcb s b)) b.place.die cause addr s

/-! Recording a fault (R60 to R63). -/

/-- The servicer of a context is told of a filled slot (R63). A service launch that finds no entry waits for one (log 65). -/
def notifyServicer (ctx die slot : Nat) (s : State) : State :=
  let serv := rcbWord s ctx 9
  if serv = 0 then send (.irq (ctxHost s ctx) die 0 slot) s
  else tryNotice (ctx, die, slot) s

/-- A translation failure recorded (R62): in the slot it coalesces with, or in a free one; `none` when neither exists (R66).
`src` is 0 for a group and 1 for a copy queue, `unit_` its number. -/
def recordFault (ctx die : Nat) (ft : FaultType) (level : Nat) (ea : Word) (kind : BitVec 4) (src cluster tenant unit_ : Nat)
    (s : State) : State × Option Nat :=
  let base := queueBase s ctx die
  let va := vbits ea 0 52
  match coalesce s base (ctxAsid s ctx) va with
  | some i =>
    let w0 := slotWord s base i 0
    let w1 := slotWord s base i 1
    let s := physPut none (base + 32 * i) 8 (w0 - bits w0 56 4 * 2 ^ 56 + (bits w0 56 4 ||| kind.toNat) * 2 ^ 56) s
    (physPut none (base + 32 * i + 8) 8 (w1 + 2 ^ 36) s, some i)
  | none =>
    match freeSlot s base with
    | none => (s, none)
    | some i =>
      let n := vget s.seq die + 1
      let a := base + 32 * i
      let s := { s with seq := vset s.seq die n }
      let s := physPut none a 8 (faultCode ft * 2 ^ 60 + kind.toNat * 2 ^ 56 + va) s
      let s := physPut none (a + 8) 8
        ((ctxAsid s ctx).toNat * 2 ^ 48 + 2 ^ 36 + level * 2 ^ 34 + src * 2 ^ 32 + n.toNat) s
      let s := physPut none (a + 16) 8 ctx s
      let s := physPut none (a + 24) 8 (cluster * 2 ^ 11 + tenant * 2 ^ 6 + unit_ % 16) s
      (notifyServicer ctx die i s, some i)

/-- A path enters fault-wait, or waits for a slot (R60, R66). -/
def enterFaultWait (w : Who) (len : Nat) (ft : FaultType) (level : Nat) (ea : Word) (kind : BitVec 4) (s : State) : State :=
  let b := getBlock s w.uid
  let g := getGroup s w.uid w.gidx
  match recordFault (blockCtx s b) b.place.die ft level ea kind 0 b.place.cl b.tenant g.slot s with
  | (s, some i) => modPath w (fun p => { p with run := .waiting (.fault b.place.die i ft ea kind) len }) s
  | (s, none) => modPath w (fun p => { p with run := .waiting (.noSlot b.place.die ft level ea kind) len }) s

/-! Taking a trap. -/

/-- R26 for a target: the cause of its failure, if it fails. -/
def targetFault (t : Word) : Option Nat :=
  if vbits t 52 12 != 0 then some 0x07 else if vbits t 0 2 != 0 then some 0x04 else none

/-- ecause of R214. -/
def ecauseOf (kind : BitVec 4) (pmode meld doneA doneB : Bool) (path cause : Nat) : Word :=
  BitVec.ofNat 64 (kind.toNat * 2 ^ 24 + b2n pmode * 2 ^ 23 + b2n meld * 2 ^ 22 + b2n doneB * 2 ^ 21 + b2n doneA * 2 ^ 20 +
    path % 64 * 2 ^ 8 + cause % 256)

/-- Trap entry of a group (R214, R399) on path `p`: the trap registers are written, the mode is supervisor, latches and links are
lost, and the path continues at SVENTRY. A bad SVENTRY or the ninth supervisor-mode entry in a row ends the fault domain. A group that
traps on another path leaves fault-wait, so that it never waits on two slots (R66; log 127). -/
def enterSupervisor (w : Who) (cause : Nat) (addr : Word) (kind : BitVec 4) (epc : Word) (s : State) : State :=
  let g := getGroup s w.uid w.gidx
  let entry := svEntry s (blockCtx s (getBlock s w.uid))
  let m := if g.sup then none else g.melds.find? fun m => m.a == w.pidx || m.b == w.pidx
  let n := if g.sup then g.nest + 1 else 0
  let ec := ecauseOf kind g.sup m.isSome ((m.map (·.doneA)).getD false) ((m.map (·.doneB)).getD false) w.pidx cause
  let s := leaveFaults w.uid w.gidx (breakGroup w.uid w.gidx (stopRuns w.uid w.gidx s))
  if n ≥ 9 then endBlockDomain w.uid cause addr s
  else match targetFault entry with
  | some c => endBlockDomain w.uid c entry s
  | none =>
    modGroup w.uid w.gidx (fun g =>
      modPathIn w.pidx (fun p => { p with pc := entry, rpt := none, run := .ready })
        { g with
          epc := epc, ecause := ec, eaddr := addr, sup := true,
          svPaths := putBit (if g.sup then g.svPaths else 0) w.pidx true, nest := n, bp := [], issued := 0,
          last := w.pidx, ffGo := false, kept := [], frames := (getPath g w.pidx).rpt :: g.frames }) s

/-- A path traps at its own instruction. -/
def trapPath (w : Who) (cause : Nat) (addr : Word) (kind : BitVec 4) (s : State) : State :=
  enterSupervisor w cause addr kind (pathOf s w).pc s

/-! Checks before an effect (R228). -/

/-- What the checks need to know of an instruction: E, its major (for a long form that of the instruction it extends), its
length, whether a melded region forbids it beyond its major (R174), whether only the supervisor may issue it, and whether only an
M-role group may although its major says nothing of it (R176). -/
structure Head where
  e : Bool
  major : Nat
  len : Nat := 4
  noMeld : Bool := false
  supOnly : Bool := false
  mOnly : Bool := false
  deriving DecidableEq, Repr

/-- Roles of R176, by major. -/
def roleAllows (r : Role) (major : Nat) : Bool :=
  if major ≤ 0x2C then true
  else if major ≤ 0x4F then r == .v
  else if major ≤ 0x51 then true
  else if major ≤ 0x5A then r == .v
  else if major ≤ 0x60 then true
  else if major ≤ 0x6B then r == .m
  else if major = 0x6C then r == .c
  else true

/-- Majors that a melded region forbids (R174). -/
def meldForbids (major : Nat) : Bool :=
  (0x20 ≤ major && major ≤ 0x25) || major == 0x27 || major == 0x28 || major == 0x2A || major == 0x67

/-- Majors that a repeat frame may hold (R258). -/
def frameAllows (major : Nat) : Bool := major ≤ 0x0A || (0x30 ≤ major && major ≤ 0x4F)

/-- The first failing check of orders 2 to 7 (R228). `enc` is the instruction's own encoding check, `vbad` says that a vector register of
it lies at or above NR. R258 gives the check of a repeat frame no rank among them: it comes after decoding and before the role, the
melded region and the privilege: DESIGN CHOICE (log 109). -/
def gate (h : Head) (enc : Option Nat) (vbad : Bool) (s : State) : Option Nat :=
  let g := curGroup s
  if (curPath s).rpt.isSome && !frameAllows h.major then some 0x01
  else match enc with
    | some c => some c
    | none =>
      if !roleAllows g.role h.major || (h.mOnly && g.role != .m) then some 0x1A
      else if (curMeld s).isSome && (meldForbids h.major || h.noMeld) then some 0x17
      else if h.supOnly && !g.sup then some 0x03
      else if vbad then some 0x09
      else none

/-! What follows an instruction. -/

/-- How an execution ends. -/
inductive Act where
  | next                                     -- completed
  | jump (pc : Word)                         -- completed with a transfer of control
  | nextEnd                                  -- completed, and the run ends
  | goOn (pc : Word)                         -- completed; the run goes on at pc, without a transfer (R221, R257)
  | trap (cause : Nat) (addr : Word) (kind : BitVec 4)
  | trapOn (p cause : Nat) (addr : Word) (kind : BitVec 4)  -- path p traps
  | fault (p : Nat) (ft : FaultType) (level : Nat) (ea : Word) (kind : BitVec 4)  -- path p enters fault-wait
  | wait (w : Wait)
  | stall                                    -- not performed; tried again in the same run
  | stopped                                  -- a pre-emption stop inside the instruction
  | domain (cause : Nat) (addr : Word) (owner : Option Nat)  -- the domain of the owning block ends, or the executing one's
  | left                                     -- the body has arranged everything
  deriving DecidableEq, Repr

/-- The loop stack after an instruction with next PC x (R256): the stack, the PC, and whether a back-edge was taken. -/
def loopStep (depth : Nat) (jumped : Bool) (x : Word) : List LoopEntry → List LoopEntry × Word × Bool
  | [] => ([], x, false)
  | t :: l =>
    if t.depth ≠ depth then (t :: l, x, false)
    else if x = t.stop then
      if 1 < t.left.toNat then ({ t with left := t.left - 1 } :: l, t.start, true) else loopStep depth jumped x l
    else if jumped ∧ (x.toNat < t.start.toNat ∨ t.stop.toNat < x.toNat) then loopStep depth jumped x l
    else (t :: l, x, false)

/-- The repeat frame after one of its instructions (R257): the frame, the PC, and whether the PC is a replay's. -/
def frameStep (len : Nat) (pc : Word) (f : RptFrame) : Option RptFrame × Word × Bool :=
  if f.pos + 1 < f.len then (some { f with pos := f.pos + 1 }, pc + BitVec.ofNat 64 len, false)
  else if f.pass + 1 < f.n then (some { f with pass := f.pass + 1, pos := 0 }, f.start, true)
  else (none, pc + BitVec.ofNat 64 len, false)

/-- The path after an instruction of `len` bytes, `target` the transfer it made (`skip`: no transfer, R257), and whether its run
ends there (R221, R254: a taken transfer ends it wherever it leads). A back-edge that a loop takes inside a repeat frame, or to its
start, leaves the frame in progress, where R257 says nothing: DESIGN CHOICE (log 110). -/
def stepPath (len : Nat) (target : Option Word) (skip : Bool) (p : Path) : Path × Bool :=
  let (rpt, x, replay) := match target, p.rpt with
    | some t, _ => (p.rpt, t, skip)
    | none, some f => frameStep len p.pc f
    | none, none => (none, p.pc + BitVec.ofNat 64 len, false)
  let (loops, x, back) := loopStep p.rets.length (target.isSome && !skip) x p.loops
  ({ p with pc := x, loops := loops, rpt := rpt },
    back || (target.isSome && !skip) || (!replay && x != p.pc + BitVec.ofNat 64 len))

/-- Side b after an instruction of a melded region: each side steps its own loop stack, and both keep one PC and one frame, those of
side a (R166, R173, R256; log 19). -/
def samePc (len : Nat) (target : Option Word) (skip : Bool) (a b : Path) : Path :=
  { (stepPath len target skip b).1 with pc := a.pc, rpt := a.rpt }

/-- An instruction is complete: the path goes on, and the run ends where R221 ends it. In a melded region an instruction for which side a
has waited counts in no run: the one in which side b executes starts behind it (R221; log 125). -/
def advance (h : Head) (target : Option Word) (skip ends : Bool) (s : State) : State :=
  let s := setSide false s
  let p := curPath s
  let late := (curMeld s).any (·.waited)
  let (p', moved) := stepPath h.len target skip p
  let s := match curMeld s with
    | some m => modG (fun g => { modPathIn m.b (samePc h.len target skip p') (modPathIn m.a (fun _ => p') g) with
        melds := modFirst (fun x => x.a == m.a) (fun x =>
          { x with doneA := false, doneB := false, startB := none, waited := false }) g.melds }) s
    | none => modP (fun _ => p') s
  let n := (curGroup s).issued + b2n (!late)
  let s := modG (fun g => { g with issued := n }) s
  if (h.e && !late) || ends || moved || n ≥ 24 then endRun s else s

/-- The end of an execution carried out. -/
def finish (h : Head) (ends : Bool) : State × Act → State
  | (s, .next) => advance h none false ends s
  | (s, .jump t) => advance h (some t) false ends s
  | (s, .nextEnd) => advance h none false true s
  | (s, .goOn t) => advance h (some t) true ends s
  | (s, .trap c a k) => trapPath (curWho s) c a k s
  | (s, .trapOn p c a k) => trapPath { (cur s).who with pidx := p } c a k s
  | (s, .fault p ft lv ea k) =>
    let w := { (cur s).who with pidx := p }
    endRun (enterFaultWait w h.len ft lv ea k (setSide false s))
  | (s, .wait w) =>
    let x := exPath s
    endRun (modG (modPathIn x fun p => { p with run := .waiting w h.len }) (setSide false s))
  | (s, .stall) => setSide false s
  | (s, .stopped) => endRun (setSide false s)
  | (s, .domain c a o) => setSide false (endBlockDomain (o.getD (cur s).who.uid) c a s)
  | (s, .left) => s

/-- Both sides of a melded region have done the instruction under way, or one of them (R175). -/
def setDone (a b : Bool) (s : State) : State :=
  match curMeld s with
  | some m => modG (fun g => { g with melds := modFirst (fun x => x.a == m.a) (fun x => { x with doneA := a, doneB := b }) g.melds }) s
  | none => s

/-- Execution of a scalar, matrix or copy instruction: once, or in a melded region once for side a and then once for side b, each
against its own path (R173); a side that has completed is not executed again (R175). The vector instructions of R269 execute `like a
scalar instruction`, and SDONE records their side a too, where R214 names scalar instructions only: DESIGN CHOICE (log 123). -/
def perSide (h : Head) (body : State → State × Act) (s : State) : State :=
  match curMeld s with
  | none => finish h false (body s)
  | some m =>
    let ra : State × Act := if m.doneA then (s, .next) else body (setSide false s)
    match ra with
    | (s, .next) =>
      if m.doneB then finish h false (s, .next)
      else match body (setSide true (setDone true false s)) with
        | (s, .next) => finish h false (s, .next)
        | r => finish h false r
    | (s, .nextEnd) =>
      if m.doneB then finish h true (s, .next)
      else match body (setSide true (setDone true false s)) with
        | (s, .next) => finish h true (s, .next)
        | r => finish h true r
    | r => finish h false r

/-- The outcome of an instruction of the table: a fault without a group that issues; else the trap of the first failing check of
R228 on a path, or what the instruction does. -/
def issueBy (who : State → Who) (h : Head) (enc : Option Nat) (vbad : State → Bool) (body : State → State) (s : State) :
    Host.Outcome State Fault Refusal :=
  match s.running with
  | [] => .fault .noIssuingGroup
  | _ :: _ =>
    match gate h enc (vbad s) s with
    | some c => .next (trapPath (who s) c 0 0 s)
    | none => .next (body s)

/-- `issueBy` where the executing path traps. -/
def issue (h : Head) (enc : Option Nat) (vbad : State → Bool) (body : State → State) (s : State) :
    Host.Outcome State Fault Refusal :=
  issueBy curWho h enc vbad body s

/-- `issue` for an instruction that executes once for each side (R173). -/
def issueSide (h : Head) (enc : Option Nat) (body : State → State × Act) (s : State) : Host.Outcome State Fault Refusal :=
  issue h enc (fun _ => false) (perSide h body) s

/-- `issue` for an instruction that executes once for the run. -/
def issueOnce (h : Head) (enc : Option Nat) (body : State → State × Act) (s : State) : Host.Outcome State Fault Refusal :=
  issue h enc (fun _ => false) (fun s => finish h false (body s)) s

end Sys2Proof.Machine
end

