-- ==== Sys2Proof/Machine/Boot.lean ====
section
/-! DEFINITION. Where the next step fetches, for the host's question `withFetchWord`: when no group issues, a block is put on a
core with its page tables and its code in memory, which stands for a launch made from outside (log 21). -/

namespace Sys2Proof.Machine

/-- The role that may issue a word, by its major (R176). -/
def roleFor (w : Nat) : Role :=
  let op := bits w 24 7
  let m := if op = 0x7B then 0x60 + bits w 56 4 else op
  if roleAllows .c m then .c else if roleAllows .m m then .m else .v

/-- The launch packet of the loaded block: NR 64, one group, an EC. -/
def bootPacket (r : Role) : Vector Word 16 :=
  let one : Nat := match r with
    | .v => 2 ^ 59
    | .m => 2 ^ 54
    | .c => 2 ^ 49
  Vector.ofFn fun i => match i.val with
    | 0 => 0x10000
    | 2 => BitVec.ofNat 64 (one + 3 * 2 ^ 47 + 2 ^ 44 + 2 ^ 4)
    | 3 => 0x1000
    | _ => 0

/-- A context's RCB at 0x1000 with its page tables (one 16 GiB leaf that maps memory to itself), and the device root at 0xF00. -/
def bootMem (s : State) : State :=
  let s := physPut none 0x1000 8 (2 ^ 60 + 2 ^ 56 + 1) s
  let s := physPut none 0x1008 8 0xF00 s
  let s := physPut none 0x1010 8 0x2000 s
  let s := physPut none 0x2000 8 (0x3000 + 1) s
  physPut none 0x3000 8 0xFF s

/-- A block of one group on a whole EC, issuing. -/
def bootBlock (r : Role) (s : State) : State :=
  let pl : Place := { die := 0, cl := 4, site := 0, part := 0 }
  let g : Group := { blankGroup with
    role := r, nrc := 3, vl := BitVec.ofNat 32 (vlmaxOf pl 3), paths := [blankPath (ones 1024 (vlmaxOf pl 3)) 0x10000] }
  let uid := s.uids
  let l : Launch :=
    { id := 1, shown := 1, die := 0, packet := bootPacket r, addr := 0, ctx := 0x1000, rcb := 0x1000, counter := 0, placed := 1, prio := 0,
      dies := 0xF, checked := true, node := none, service := false }
  let b : Block := { blankBlock with uid := uid, launch := 1, place := pl, groups := [g], ben := 0xF }
  let f : Focus := { who := { uid := uid, gidx := 0, pidx := 0 }, side := false }
  { s with uids := uid + 1, launches := l :: s.launches, blocks := b :: s.blocks, running := f :: s.running }

/-- Where the head run fetches, as a physical address. -/
def fetchPa (s : State) : Option Nat :=
  match s.running with
  | [] => none
  | _ :: _ => peek s (curCtx s) (curPath s).pc.toNat .exec (curGroup s).sup

/-- A word stored where the next step fetches. -/
def placeWord (s : State) (w : Nat) : State :=
  let s1 := match fetchPa s with
    | some _ => s
    | none => bootBlock (roleFor w) (bootMem s)
  let pa := (fetchPa s1).getD 0x10000
  let s2 := physWrite none pa (toBytes 8 w) s1
  { s2 with sched := [], pending := [], decoded := s2.decoded.filter fun d => d.va != (curPath s2).pc.toNat }

end Sys2Proof.Machine
end

