-- ==== Sys2Proof/Machine/Fetch.lean ====
section
/-! DEFINITION. Fetching the words of the next instruction (R26, R228, R230, R240). -/

namespace Sys2Proof.Machine

/-- How the executing group reaches memory, with a class and a scope (R137). -/
def curEnv (cls scope : Nat) (s : State) : Env :=
  let b := curBlock s
  { uid := b.uid, pl := b.place, ctx := blockCtx s b, sup := (curGroup s).sup, scope := scope, cls := cls, noL1 := false,
    side := .core b.place, core := some (corePlace b.place), owner := .path (curWho s), actor := .scalar }

/-- The word that memory holds at a virtual address, read without a trace. -/
def peekWord (s : State) (ctx va : Nat) (sup : Bool) : Option Nat :=
  (peek s ctx va .exec sup).map fun pa => physRead s pa 4

/-- One word read with execute permission (R26, R44), and the page that it lies in. -/
def fetchPart (env : Env) (va : Word) (s : State) : State × Got (List (Nat × Nat × Nat) × Nat) :=
  if badTag va || tagOf va != 0 then (s, .trap 0x07 va (kindBits .exec))
  else andThen (translateParts env .exec [(vbits va 0 52, 4)] s) fun ps s =>
    let pages := partPages (vbits va 0 52) ps
    let pa := (ps.map (·.1)).headD 0
    if isAperture s pa then
      andThen (keepOnStall env pages (apertureAccess env va pa 4 none .exec s)) fun l s => (s, .ok (pages, ofBytes l))
    else if badRange s .phys pa 4 then (s, .domain 0x14 va none)
    else (s, .ok (pages, physRead s pa 4))

def fetchWord (env : Env) (va : Word) (s : State) : State × Got Nat := andThen (fetchPart env va s) fun x s => (s, .ok x.2)

/-- The words of the instruction at the PC, from memory. -/
def fetchFresh (env : Env) (pc : Word) : State → State × Got Nat := restart fun s =>
  andThen (fetchPart env pc s) fun x s =>
    if isLong x.2 then andThen (keepOnStall env x.1 (fetchWord env (pc + 4) s)) fun v s => (s, .ok (x.2 + 2 ^ 32 * v))
    else (s, .ok x.2)

/-- The words that memory holds for the instruction at the PC, without a trace. -/
def peekInstr (s : State) (ctx va : Nat) (sup : Bool) : Option Nat :=
  match peekWord s ctx va sup with
  | none => none
  | some w => if isLong w then (peekWord s ctx (va + 4) sup).map fun v => w + 2 ^ 32 * v else some w

/-- An access of the executing group stands at an aperture or is held: its instruction is under way (R37, R70, R87). -/
def underWay (s : State) : Bool :=
  let mine (w : Who) : Bool := w.uid == (cur s).who.uid && w.gidx == (cur s).who.gidx
  (s.ext.any fun e => match e.owner with
    | .path w => mine w
    | _ => false) || s.holds.any fun x => mine x.1

/-- The words of the next instruction: from the decoded-operation cache when it holds them, which may be what memory held before
(R240: the device's choice, log 6), and those of an instruction that is under way, which is not fetched again (R70); else from memory. What supervisor pages hold is not executed in user mode (R52, R228). -/
def fetchInstr (s : State) : State × Got Nat :=
  let env := curEnv 0 1 s
  let pc := (curPath s).pc
  let core := corePlace env.pl
  let fresh (s : State) : State × Got Nat :=
    match fetchFresh env pc s with
    | (s, .ok w) =>
      let leaf (va : Nat) : Option TlbEntry := tlbFind s env.side (ctxAsid s env.ctx) va .exec env.sup
      let page (va : Nat) : Nat := ((leaf va).map (·.page)).getD 3
      let user (va : Nat) : Bool := (leaf va).any fun e => bitAt e.leaf.toNat 5
      let long := isLong w
      let d : DecodedOp :=
        { core := core, ctx := env.ctx, va := pc.toNat, words := w, page := page pc.toNat,
          page2 := if long then some (page (pc.toNat + 4)) else none, user := user pc.toNat && (!long || user (pc.toNat + 4)) }
      ({ s with decoded := d :: s.decoded.filter fun x => !(x.core == core && x.ctx == env.ctx && x.va == pc.toNat) }, .ok w)
    | r => r
  match s.decoded.find? fun x => x.core == core && x.ctx == env.ctx && x.va == pc.toNat && (env.sup || x.user) with
  | none => fresh s
  | some d =>
    if underWay s || peekInstr s env.ctx pc.toNat env.sup == some d.words then (s, .ok d.words)
    else match choose s with
      | (true, s) => (s, .ok d.words)
      | (false, s) => fresh s

end Sys2Proof.Machine
end

