-- ==== Sys2Proof/Machine/Paths.lean ====
section
/-! DEFINITION. Paths that part, park, merge, meld and end (R167 to R173), groups that retire (R190), and the rendezvous latch
when a member is gone (R184). -/

namespace Sys2Proof.Machine

def parked (p : Path) : Bool :=
  match p.run with
  | .atJoin _ => true
  | .atMeld _ _ => true
  | _ => false

def atJoinOf (t : Nat) (p : Path) : Bool :=
  match p.run with
  | .atJoin u => u == t
  | _ => false

def atMeldOf (t : Nat) (p : Path) : Bool :=
  match p.run with
  | .atMeld u _ => u == t
  | _ => false

/-- The live members of a token. -/
def tokenMembers (g : Group) (t : Nat) : List Path := g.paths.filter fun p => p.tokens.getLsbD t

/-- Does token t resolve now (R170)? -/
def canResolve (g : Group) (t : Nat) : Bool :=
  let m := tokenMembers g t
  m.all parked && m.any (atJoinOf t) && !m.any (atMeldOf t)

/-- Is token t decided now (R171)? -/
def canDecide (g : Group) (t : Nat) : Bool :=
  let m := tokenMembers g t
  m.all parked && m.any (atMeldOf t)

/-- Scalar register x of the kept path of class c (R170): that of the lowest member whose map has bit x, else unchanged. -/
def mergeReg (t : Nat) (c : List Path) (keep : Path) (x : Nat) : Word :=
  match c.find? fun p => (vget p.maps t).getLsbD x with
  | some p => vget p.regs x
  | none => vget keep.regs x

def orMaps (u : Nat) (c : List Path) : Word := c.foldl (fun w p => if p.tokens.getLsbD u then w ||| vget p.maps u else w) 0

/-- The kept path of a class of members parked at one vjoin t (R170); `c` rises by index and `keep` is its first. -/
def mergeClass (t : Nat) (c : List Path) (keep : Path) : Path :=
  let toks := c.foldl (fun w p => w ||| p.tokens) 0
  let k : Path := { keep with
    regs := Vector.ofFn fun x => mergeReg t c keep x.val,
    threads := c.foldl (fun w p => w ||| p.threads) 0,
    tokens := toks,
    maps := Vector.ofFn fun u => if u.val = t then keep.maps[u] else orMaps u.val c,
    run := .ready }
  (stepPath 4 none false k).1

/-- Do two members parked at one vjoin t belong to one class (R170)? -/
def sameClass (p k : Path) : Bool := p.pc == k.pc && p.rets.length == k.rets.length

/-- Classes of the members parked at a vjoin t merged, one kept path for each pair of PC and call depth (R170). -/
def mergeAll (t : Nat) : Nat → List Path → List Path
  | 0, l => l
  | fuel + 1, l =>
    match l.find? (atJoinOf t) with
    | none => l
    | some k =>
      let same (p : Path) : Bool := atJoinOf t p && p.tokens.getLsbD t && sameClass p k
      let c := l.filter same
      mergeAll t fuel (addPath (mergeClass t (k :: c.tail) k) (l.filter fun p => !same p && p.idx != k.idx))

/-- A single member left leaves the token (R170). -/
def dropLone (t : Nat) (l : List Path) : List Path :=
  if (l.filter fun p => p.tokens.getLsbD t).length = 1 then
    l.map fun p => if p.tokens.getLsbD t then { p with tokens := putBit p.tokens t false, maps := vset p.maps t 0 } else p
  else l

/-- What the parties have seen once the classes of token t have merged: the kept path of each class continues all of its members. -/
def mergeFloors (t : Nat) (g : Group) : Sparse Nat :=
  let m := g.paths.filter fun p => atJoinOf t p && p.tokens.getLsbD t
  m.foldl (fun f k => joinFloors k.idx ((m.filter (sameClass k)).map (·.idx)) f) g.floors

/-- Token t resolved (R170). -/
def resolveToken (t : Nat) (g : Group) : Group := { g with paths := dropLone t (mergeAll t 64 g.paths), floors := mergeFloors t g }

/-- Is a captured table legal for a register count (R172)? -/
def tableOk (n : Nat) (tab : BitVec 512) : Bool :=
  (List.range 16).all fun j =>
    (decide (n ≤ j) || (decide (vbits tab (8 * j) 8 < n) && decide (vbits tab (8 * (j + 32)) 8 < n))) &&
    decide (vbits tab (8 * (j + 16)) 8 < 64) && decide (vbits tab (8 * (j + 48)) 8 < 64) &&
    (j != 0 || (vbits tab 128 8 == 0 && vbits tab (8 * 48) 8 == 0))

/-- The 64 bytes of a renaming table, read with execute permission (R172). -/
def readTable (env : Env) (a : Word) (s : State) : State × Got (List Byte) :=
  if badTag a || tagOf a != 0 then (s, .trap 0x07 a (kindBits .exec))
  else if a.toNat % 64 != 0 then (s, .trap 0x04 a (kindBits .exec))
  else readLoc env a (.glob (vbits a 0 52)) 64 .exec s

/-- Token t decided (R171, R172): a melded region is entered, or the lowest member parked at a vmeld t traps or waits for the
table. -/
def decideToken (w : Who) (t : Nat) (s : State) : State :=
  let g := getGroup s w.uid w.gidx
  let m := tokenMembers g t
  match m.filter (atMeldOf t) with
  | [] => s
  | a :: rest =>
    let aw : Who := { w with pidx := a.idx }
    let table : Word := match a.run with
      | .atMeld _ x => x
      | _ => 0
    let ok := match rest with
      | [b] => m.length == 2 && a.pc == b.pc && a.rets.length == b.rets.length
      | _ => false
    if !ok then trapPath aw 0x17 0 0 s
    else
      let b := getBlock s w.uid
      let env : Env :=
        { uid := w.uid, pl := b.place, ctx := blockCtx s b, sup := g.sup, scope := 4, cls := 0, noL1 := true,
          side := .core b.place, core := some (corePlace b.place), owner := .path aw }
      match readTable env table s with
      | (s, .trap c x k) => trapPath aw c x k s
      | (s, .fault ft lv x k) => enterFaultWait aw 4 ft lv x k s
      | (s, .stall) => modPath aw (fun p => { p with run := .ready }) s
      | (s, .domain c x _) => endBlockDomain w.uid c x s
      | (s, .ok l) =>
        let tab : BitVec 512 := BitVec.ofNat 512 (ofBytes l)
        if !tableOk (nrOf g.nrc) tab then trapPath aw 0x17 0 0 s
        else
          let pa := (stepPath 4 none false { a with run := .ready }).1
          let enter (p : Path) : Path :=
            if p.idx = a.idx then pa
            else if atMeldOf t p && p.tokens.getLsbD t then samePc 4 none false pa { p with run := .ready } else p
          let bi := (rest.map (·.idx)).headD 0
          let r : Meld := { tok := t, a := a.idx, b := bi, table := tab, doneA := false, doneB := false, startB := none }
          modGroup w.uid w.gidx (fun g => { g with paths := g.paths.map enter, melds := g.melds ++ [r] }) s

/-- Links of paths that a group no longer has are gone (R156, R170). -/
def dropPathLinks (uid gidx : Nat) (s : State) : State :=
  { s with links := s.links.filter fun k => match k.owner with
      | .path w => w.uid != uid || w.gidx != gidx || ((getGroup s uid gidx).paths.any fun p => p.idx == w.pidx)
      | .thread _ _ _ => true }

/-- Tokens resolved and decided until none is left that can be, the lowest first (R170, R171; log 22). Each failing decision takes its own
trap, the second of one event nested in the first (DESIGN CHOICE, log 119). -/
def settleTokens (w : Who) : Nat → State → State
  | 0, s => s
  | fuel + 1, s =>
    let g := getGroup s w.uid w.gidx
    match (List.range 16).find? fun t => canResolve g t || canDecide g t with
      | none => s
      | some t =>
        if canResolve g t then settleTokens w fuel (dropPathLinks w.uid w.gidx (modGroup w.uid w.gidx (resolveToken t) s))
        else settleTokens w fuel (decideToken w t s)

/-! The rendezvous latch (R183, R184). -/

def sameGang (e : LatchEntry) (seq : BitVec 8) (mem : BitVec 16) (pair : Bool) : Bool :=
  e.seq == seq && e.members == mem && e.pair == pair

/-- Every member that has arrived traps; the entry is cleared (R184, R339). -/
def failLatch (uid : Nat) (e : LatchEntry) (cause : Nat) (addr : Word) (s : State) : State :=
  let s := modBlock uid (fun b => { b with latch := b.latch.filter fun x => !sameGang x e.seq e.members e.pair }) s
  e.arrived.foldl (fun s m => trapPath { uid := uid, gidx := m.gidx, pidx := m.pidx } cause addr 0 s) s

/-- Entries that list a group which retires before it has arrived fail (R184). While a pre-emption stands or a restore goes on the
members stay stopped in the latch (R401): the time of such an entry is then up, and it fails once the block is on a core again. -/
def latchGone (uid gidx : Nat) (s : State) : State :=
  let missed (e : LatchEntry) : Bool := e.members.getLsbD gidx && !(e.arrived.any fun m => m.gidx == gidx)
  if (getBlock s uid).preempt || (getBlock s uid).res != .resident then
    modBlock uid (fun b => { b with latch := b.latch.map fun e => if missed e then { e with tmo := max 1 e.tmo, elapsed := max e.elapsed 65535000 } else e }) s
  else ((getBlock s uid).latch.filter missed).foldl (fun s e => failLatch uid e 0x0C 0 s) s

/-- A group retires (R190). -/
def retireGroup (uid gidx : Nat) (s : State) : State :=
  let s := breakGroup uid gidx (stopRuns uid gidx s)
  let s := modGroup uid gidx (fun g =>
    { g with paths := [], melds := [], retired := true, stackSlot := none, bp := [], issued := 0, sup := false }) s
  latchGone uid gidx s

/-- The executing group's path that has lost its last thread ends (R170); the group retires with its last one. Where the path ran the
supervisor and others are left, the group stays in supervisor mode with no path that can run (DESIGN CHOICE, log 121). -/
def endPath (w : Who) (s : State) : State :=
  let s := dropPathLinks w.uid w.gidx
    (modGroup w.uid w.gidx (fun g => { g with paths := g.paths.filter fun p => p.idx != w.pidx, last := w.pidx }) s)
  if (getGroup s w.uid w.gidx).paths.isEmpty then retireGroup w.uid w.gidx s
  else settleTokens w 64 (modGroup w.uid w.gidx (fun g => { g with bp := [], issued := 0 }) (stopRuns w.uid w.gidx s))

/-! A ninth path (R167). -/

/-- Do two contexts have one spill area (R398)? -/
def sameSpill (s : State) (x y : Nat) : Bool := x == y || effSpill s x == effSpill s y

/-- A free path-stack slot of a context's spill area. -/
def freeStackSlot (s : State) (ctx : Nat) : Option Nat :=
  let used := (s.blocks.filter fun b => sameSpill s (blockCtx s b) ctx).flatMap fun b => b.groups.filterMap (·.stackSlot)
  (List.range (numStackSlots s ctx)).find? fun i => !used.contains i

/-- Smallest free index above i (R168). -/
def freeIndex (g : Group) (i : Nat) : Option Nat :=
  (List.range 64).find? fun j => decide (i < j) && !(g.paths.any fun p => p.idx == j)

end Sys2Proof.Machine
end

