-- ==== Sys2Proof/Machine/Flags.lean ====
section
/-! DEFINITION. The status register fcsr (R114 to R117) and exact arithmetic with one rounding: values, formats (R110 to R113,
R121), rounding in each mode with the flags it raises, and the operations and conversions built on them. -/

namespace Sys2Proof.Machine

/-- Exception flags, as bits [4:0] of fcsr: NV 16, DZ 8, OF 4, UF 2, NX 1 (R114). -/
abbrev Flags := BitVec 5

def flNV : Flags := 16
def flDZ : Flags := 8
def flOF : Flags := 4
def flUF : Flags := 2
def flNX : Flags := 1

/-- Rounding modes (R115). -/
inductive Rm where
  | rne | rtz | rdn | rup
  deriving DecidableEq, Repr

def rmOf (n : Nat) : Rm := match n % 4 with
  | 0 => .rne
  | 1 => .rtz
  | 2 => .rdn
  | _ => .rup

/-- fcsr.RM of a group. -/
def fcsrRm (g : Group) : Rm := rmOf (vbits g.fcsr 5 2)

/-- fcsr.FTZ of a group. -/
def fcsrFtz (g : Group) : Bool := g.fcsr.getLsbD 8

/-- Flags ORed into fcsr (R116). -/
def raiseFlags (f : Flags) (s : State) : State := modG (fun g => { g with fcsr := g.fcsr ||| f.zeroExtend 32 }) s

/-! Values. -/

/-- A value: a NaN (quiet or signalling), an infinity, or (−1)^neg × m × 2^e. -/
inductive Fv where
  | nan (signalling : Bool)
  | inf (neg : Bool)
  | fin (neg : Bool) (m : Nat) (e : Int)
  deriving DecidableEq, Repr

/-- A format: exponent width, mantissa width, bias, and whether every pattern is finite (R110 to R112, R122). -/
structure Fmt where
  eb : Nat
  mb : Nat
  bias : Nat
  finite : Bool
  deriving DecidableEq, Repr

def fB64 : Fmt := { eb := 11, mb := 52, bias := 1023, finite := false }
def fB32 : Fmt := { eb := 8, mb := 23, bias := 127, finite := false }
def fB16 : Fmt := { eb := 5, mb := 10, bias := 15, finite := false }
def fBf16 : Fmt := { eb := 8, mb := 7, bias := 127, finite := false }
def fE4m3 : Fmt := { eb := 4, mb := 3, bias := 7, finite := true }
def fE5m2 : Fmt := { eb := 5, mb := 2, bias := 15, finite := true }
def fE3m2 : Fmt := { eb := 3, mb := 2, bias := 3, finite := true }
def fE2m3 : Fmt := { eb := 2, mb := 3, bias := 1, finite := true }
def fE2m1 : Fmt := { eb := 2, mb := 1, bias := 1, finite := true }

/-- Total width of a format. -/
def Fmt_width (f : Fmt) : Nat := 1 + f.eb + f.mb

/-- The value of a pattern (R111, R112). -/
def fdecode (f : Fmt) (x : Nat) : Fv :=
  let ex := bits x f.mb f.eb
  let m := bits x 0 f.mb
  let neg := bitAt x (f.mb + f.eb)
  if ex = 2 ^ f.eb - 1 ∧ !f.finite then
    (if m = 0 then .inf neg else .nan (!bitAt m (f.mb - 1)))
  else if ex = 0 then .fin neg m (1 - (f.bias : Int) - f.mb)
  else .fin neg (2 ^ f.mb + m) ((ex : Int) - f.bias - f.mb)

/-- The canonical NaN of a format (R113); +0 in a finite-only format (R119). -/
def canonNan (f : Fmt) : Nat := if f.finite then 0 else (2 ^ f.eb - 1) * 2 ^ f.mb + 2 ^ (f.mb - 1)

def signBit (f : Fmt) (neg : Bool) : Nat := b2n neg * 2 ^ (f.mb + f.eb)

/-- ±infinity of a format. -/
def fInf (f : Fmt) (neg : Bool) : Nat := signBit f neg + (2 ^ f.eb - 1) * 2 ^ f.mb

/-- ±largest finite value. -/
def fMax (f : Fmt) (neg : Bool) : Nat :=
  signBit f neg + (if f.finite then 2 ^ (f.eb + f.mb) - 1 else (2 ^ f.eb - 1) * 2 ^ f.mb - 1)

/-- Exponent of the largest finite value. -/
def fEmax (f : Fmt) : Int := (2 ^ f.eb : Nat) - (if f.finite then 1 else 2) - f.bias

/-- Does a quotient n with remainder r of 2^sh (sticky: a further part below) round up in magnitude? -/
def roundsUp (rm : Rm) (neg : Bool) (n r sh : Nat) (sticky : Bool) : Bool :=
  let exact := r == 0 && !sticky
  match rm with
  | .rtz => false
  | .rdn => neg && !exact
  | .rup => !neg && !exact
  | .rne =>
    if sh = 0 then false
    else
      let h := 2 ^ (sh - 1)
      decide (h < r) || (r == h && (sticky || n % 2 == 1))

/-- m × 2^e rounded to a multiple of 2^q: the multiple, and whether it is inexact. For q ≤ e a sticky part counts as less than
half of a unit. -/
def roundAt (rm : Rm) (neg : Bool) (m : Nat) (e q : Int) (sticky : Bool) : Nat × Bool :=
  if q ≤ e then
    let n := m * 2 ^ (e - q).toNat
    (n + b2n (sticky && (match rm with
      | .rdn => neg
      | .rup => !neg
      | _ => false)), sticky)
  else
    let sh := (q - e).toNat
    let n := m / 2 ^ sh
    let r := m % 2 ^ sh
    (n + b2n (roundsUp rm neg n r sh sticky), r != 0 || sticky)

/-- Does m × 2^e, with a further part below when sticky, lie beyond the largest value of a finite-only format (R119; log 20)? -/
def beyondMax (f : Fmt) (m : Nat) (e : Int) (sticky : Bool) : Bool :=
  let q : Int := fEmax f - f.mb
  let x := m * 2 ^ (e - q).toNat
  let y := (2 ^ (f.mb + 1) - 1) * 2 ^ (q - e).toNat
  decide (y < x) || (x == y && sticky)

/-- An exact value rounded once into a format (R115, R116, R119): the pattern and its flags. `sticky` stands for a nonzero part
below m × 2^e that is smaller than a quarter of a unit of the result. -/
def fround (f : Fmt) (rm : Rm) (neg : Bool) (m : Nat) (e : Int) (sticky : Bool) : Nat × Flags :=
  if m = 0 then (signBit f neg, if sticky then flNX ||| flUF else 0)
  else
    let top : Int := (Nat.log2 m : Int) + e
    let emin : Int := 1 - (f.bias : Int)
    let q : Int := max top emin - f.mb
    let (n, nx) := roundAt rm neg m e q sticky
    let topR : Int := (Nat.log2 n : Int) + q
    let big := if f.finite then beyondMax f m e sticky else decide (n ≠ 0) && decide (topR > fEmax f)
    if big then
      if f.finite then (fMax f neg, flOF ||| flNX)
      else
        let toMax := match rm with
          | .rne => false
          | .rtz => true
          | .rdn => !neg
          | .rup => neg
        (if toMax then fMax f neg else fInf f neg, flOF ||| flNX)
    else
      let pat := if n < 2 ^ f.mb then n
        else if n = 2 ^ (f.mb + 1) then ((q + f.mb + 1 + f.bias).toNat) * 2 ^ f.mb
        else ((q + f.mb + f.bias).toNat) * 2 ^ f.mb + (n - 2 ^ f.mb)
      let tiny := decide (top < emin) &&
        (let (n2, _) := roundAt rm neg m e (top - f.mb) sticky
         decide ((Nat.log2 n2 : Int) + (top - f.mb) < emin))
      (signBit f neg + pat, (if nx then flNX else 0) ||| (if nx && tiny then flUF else 0))

/-- FTZ on a source (R117). -/
def ftzIn (on : Bool) (f : Fmt) (x : Nat) : Nat :=
  if on && !f.finite && bits x f.mb f.eb == 0 then signBit f (bitAt x (f.mb + f.eb)) else x

/-- FTZ on a result (R117). -/
def ftzOut (on : Bool) (f : Fmt) (r : Nat × Flags) : Nat × Flags :=
  if on && !f.finite && bits r.1 f.mb f.eb == 0 && bits r.1 0 f.mb != 0 then
    (signBit f (bitAt r.1 (f.mb + f.eb)), r.2 ||| flUF ||| flNX)
  else r

/-- The sum of two finite values, exactly: sign, magnitude, exponent; a zero sum of opposite signs has the sign of the mode
(R115). -/
def addExact (rm : Rm) (n1 : Bool) (m1 : Nat) (e1 : Int) (n2 : Bool) (m2 : Nat) (e2 : Int) : Bool × Nat × Int :=
  let e := min e1 e2
  let a : Int := (if n1 then -1 else 1) * ((m1 * 2 ^ (e1 - e).toNat : Nat) : Int)
  let b : Int := (if n2 then -1 else 1) * ((m2 * 2 ^ (e2 - e).toNat : Nat) : Int)
  let c := a + b
  if c = 0 then ((if n1 == n2 then n1 else rm == .rdn), 0, e) else (decide (c < 0), c.natAbs, e)

def isSnan : Fv → Bool
  | .nan s => s
  | _ => false

def isNan : Fv → Bool
  | .nan _ => true
  | _ => false

/-- The result of an operation with a NaN operand: the canonical NaN, NV for a signalling operand (R113, R116). -/
def nanResult (f : Fmt) (l : List Fv) : Nat × Flags := (canonNan f, if l.any isSnan then flNV else 0)

def invalid (f : Fmt) : Nat × Flags := (canonNan f, flNV)

/-- a + b, rounded. -/
def fAdd (f : Fmt) (rm : Rm) (a b : Fv) : Nat × Flags :=
  match a, b with
  | .fin n1 m1 e1, .fin n2 m2 e2 =>
    let (n, m, e) := addExact rm n1 m1 e1 n2 m2 e2
    fround f rm n m e false
  | .inf n1, .inf n2 => if n1 == n2 then (fInf f n1, 0) else invalid f
  | .inf n, .fin _ _ _ => (fInf f n, 0)
  | .fin _ _ _, .inf n => (fInf f n, 0)
  | x, y => nanResult f [x, y]

def fNeg : Fv → Fv
  | .nan s => .nan s
  | .inf n => .inf (!n)
  | .fin n m e => .fin (!n) m e

/-- a × b, rounded. -/
def fMul (f : Fmt) (rm : Rm) (a b : Fv) : Nat × Flags :=
  match a, b with
  | .fin n1 m1 e1, .fin n2 m2 e2 => fround f rm (n1 != n2) (m1 * m2) (e1 + e2) false
  | .inf n1, .inf n2 => (fInf f (n1 != n2), 0)
  | .inf n1, .fin n2 m _ => if m = 0 then invalid f else (fInf f (n1 != n2), 0)
  | .fin n1 m _, .inf n2 => if m = 0 then invalid f else (fInf f (n1 != n2), 0)
  | x, y => nanResult f [x, y]

/-- The product as a value, for a fused operation; `none` for 0 × ∞. -/
def mulVal (a b : Fv) : Option Fv :=
  match a, b with
  | .fin n1 m1 e1, .fin n2 m2 e2 => some (.fin (n1 != n2) (m1 * m2) (e1 + e2))
  | .inf n1, .inf n2 => some (.inf (n1 != n2))
  | .inf n1, .fin n2 m _ => if m = 0 then none else some (.inf (n1 != n2))
  | .fin n1 m _, .inf n2 => if m = 0 then none else some (.inf (n1 != n2))
  | _, _ => some (.nan false)

/-- a × b + c with one rounding; 0 × ∞ raises NV whatever c is (R249). -/
def fFma (f : Fmt) (rm : Rm) (a b c : Fv) : Nat × Flags :=
  match mulVal a b with
  | none => invalid f
  | some p =>
    if isNan a || isNan b || isNan c then nanResult f [a, b, c] else fAdd f rm p c

/-- a ÷ b, rounded. -/
def fDiv (f : Fmt) (rm : Rm) (a b : Fv) : Nat × Flags :=
  match a, b with
  | .fin n1 m1 e1, .fin n2 m2 e2 =>
    if m2 = 0 then (if m1 = 0 then invalid f else (fInf f (n1 != n2), flDZ))
    else
      let k := f.mb + 4 + Nat.log2 m2
      let x := m1 * 2 ^ k
      fround f rm (n1 != n2) (x / m2) (e1 - e2 - k) (x % m2 != 0)
  | .inf _, .inf _ => invalid f
  | .inf n1, .fin n2 _ _ => (fInf f (n1 != n2), 0)
  | .fin n1 _ _, .inf n2 => (signBit f (n1 != n2), 0)
  | x, y => nanResult f [x, y]

/-- The integer square root of n below 2^k, bit by bit. -/
def isqrt (n : Nat) : Nat → Nat → Nat
  | 0, r => r
  | k + 1, r => isqrt n k (if (r + 2 ^ k) * (r + 2 ^ k) ≤ n then r + 2 ^ k else r)

/-- √a, rounded; √−0 = −0. -/
def fSqrt (f : Fmt) (rm : Rm) (a : Fv) : Nat × Flags :=
  match a with
  | .fin n m e =>
    if m = 0 then (signBit f n, 0)
    else if n then invalid f
    else
      let odd := e % 2 != 0
      let m' := if odd then m * 2 else m
      let e' := if odd then e - 1 else e
      let k := f.mb + 4
      let x := m' * 2 ^ (2 * k)
      let r := isqrt x (Nat.log2 x / 2 + 1) 0
      fround f rm false r (e' / 2 - k) (r * r != x)
  | .inf n => if n then invalid f else (fInf f false, 0)
  | x => nanResult f [x]

/-- Exact comparison of two values that are no NaNs; −0 and +0 are equal. -/
def fvLt (a b : Fv) : Bool :=
  match a, b with
  | .inf n1, .inf n2 => n1 && !n2
  | .inf n, _ => n
  | _, .inf n => !n
  | .fin n1 m1 e1, .fin n2 m2 e2 =>
    let e := min e1 e2
    let x : Int := (if n1 then -1 else 1) * ((m1 * 2 ^ (e1 - e).toNat : Nat) : Int)
    let y : Int := (if n2 then -1 else 1) * ((m2 * 2 ^ (e2 - e).toNat : Nat) : Int)
    decide (x < y)
  | _, _ => false

def fvEq (a b : Fv) : Bool := !isNan a && !isNan b && !fvLt a b && !fvLt b a

def fvNeg : Fv → Bool
  | .inf n => n
  | .fin n _ _ => n
  | .nan _ => false

/-- Minimum (or maximum) of two patterns (R250): −0 below +0, a single NaN gives the other operand, two give the canonical
NaN. -/
def fMinMax (f : Fmt) (isMax : Bool) (x y : Nat) : Nat × Flags :=
  let a := fdecode f x
  let b := fdecode f y
  let fl := if isSnan a || isSnan b then flNV else 0
  if isNan a && isNan b then (canonNan f, fl)
  else if isNan a then (y, fl)
  else if isNan b then (x, fl)
  else
    let less := fvLt a b || (fvEq a b && fvNeg a && !fvNeg b)
    (if less != isMax then x else y, fl)

/-- Comparisons: 0 equal, 1 less, 2 less or equal, 3 unordered; NV as R250 gives. -/
def fCmp (k : Nat) (a b : Fv) : Bool × Flags :=
  let anyNan := isNan a || isNan b
  let sig := if isSnan a || isSnan b then flNV else 0
  match k with
  | 0 => (fvEq a b, sig)
  | 1 => (!anyNan && fvLt a b, if anyNan then flNV else 0)
  | 2 => (!anyNan && !fvLt b a, if anyNan then flNV else 0)
  | _ => (anyNan, sig)

/-! Conversions (R119, R120). -/

/-- A value converted to a floating format. -/
def toFmt (f : Fmt) (rm : Rm) (a : Fv) : Nat × Flags :=
  match a with
  | .fin n m e => fround f rm n m e false
  | .inf n => if f.finite then (fMax f n, flNV) else (fInf f n, 0)
  | .nan s => if f.finite then (0, flNV) else (canonNan f, if s then flNV else 0)

/-- A finite value rounded to an integer. -/
def toInt (rm : Rm) (n : Bool) (m : Nat) (e : Int) : Int × Bool :=
  let (x, nx) := roundAt rm n m e 0 false
  ((if n then -1 else 1) * (x : Int), nx)

/-- A value converted to an integer of w bits (R120): out of range saturates with NV. -/
def toIntSat (w : Nat) (signed : Bool) (rm : Rm) (a : Fv) : Int × Flags :=
  let lo : Int := if signed then -((2 ^ (w - 1) : Nat) : Int) else 0
  let hi : Int := if signed then ((2 ^ (w - 1) : Nat) : Int) - 1 else ((2 ^ w : Nat) : Int) - 1
  match a with
  | .nan _ => (0, flNV)
  | .inf n => (if n then lo else hi, flNV)
  | .fin n m e =>
    let (x, nx) := toInt rm n m e
    if x < lo then (lo, flNV) else if hi < x then (hi, flNV) else (x, if nx then flNX else 0)

/-- An integer as a value. -/
def ofIntFv (x : Int) : Fv := .fin (decide (x < 0)) x.natAbs 0

end Sys2Proof.Machine
end

