-- ==== Sys2Proof/Machine/Scalar.lean ====
section
/-! DEFINITION. Scalar instructions (majors 0x00 to 0x0A and 0x78): integer arithmetic (R242 to R246), address forming (R247), the
long immediate forms (R248) and scalar floating point (R249 to R251). -/

namespace Sys2Proof.Machine

open Sys2Proof

/-- Leading zeros of the low w bits. -/
def clzNat (w x : Nat) : Nat := if x = 0 then w else w - 1 - Nat.log2 x

/-- Trailing zeros of a w-bit number. -/
def ctzNat (w x : Nat) : Nat := ((List.range w).find? fun i => bitAt x i).getD w

/-- A number with its w bits in reverse order. -/
def brevNat (w x : Nat) : Nat := ((List.range w).map fun j => b2n (bitAt x (w - 1 - j)) * 2 ^ j).sum

/-- Truth as a register value. -/
def truth (b : Bool) : Word := if b then 1 else 0

/-- The two-operand functions of SALU (R243, R244), by FN. -/
def saluFn (fn : Nat) (a b : Word) : Word :=
  match fn with
  | 0x00 => a + b
  | 0x01 => a - b
  | 0x02 => a &&& b
  | 0x03 => a &&& ~~~b
  | 0x04 => a ||| b
  | 0x05 => a ^^^ b
  | 0x06 => a <<< (b.toNat % 64)
  | 0x07 => a >>> (b.toNat % 64)
  | 0x08 => a.sshiftRight (b.toNat % 64)
  | 0x09 => if a.slt b then a else b
  | 0x0A => if a.slt b then b else a
  | 0x0B => if a.ult b then a else b
  | 0x0C => if a.ult b then b else a
  | 0x0D => a * b
  | 0x0E => BitVec.ofInt 64 (a.toInt * b.toInt / 2 ^ 64)
  | 0x0F => BitVec.ofNat 64 (a.toNat * b.toNat / 2 ^ 64)
  | 0x10 => if b = 0 then BitVec.allOnes 64 else BitVec.ofInt 64 (a.toInt.tdiv b.toInt)
  | 0x11 => if b = 0 then BitVec.allOnes 64 else BitVec.ofNat 64 (a.toNat / b.toNat)
  | 0x12 => if b = 0 then a else BitVec.ofInt 64 (a.toInt.tmod b.toInt)
  | 0x13 => if b = 0 then a else BitVec.ofNat 64 (a.toNat % b.toNat)
  | 0x14 => truth (a == b)
  | 0x15 => truth (a != b)
  | 0x16 => truth (a.slt b)
  | 0x17 => truth (a.ult b)
  | 0x18 => truth (!b.slt a)
  | _ => truth (!b.ult a)

/-- s[D] := f(s[A], s[B]). -/
def scalar2 (f : Word → Word → Word) (d a b : BitVec 6) (s : State) : State × Act :=
  (wrS d (f (rdS a s) (rdS b s)) s, .next)

/-- s[D] := f(s[A]). -/
def scalar1 (f : Word → Word) (d a : BitVec 6) (s : State) : State × Act := (wrS d (f (rdS a s)) s, .next)

/-- Width in bits of the code of ssext and szext. -/
def widthOf (w : BitVec 6) : Nat := 8 * 2 ^ w.toNat

/-- A width code above 2 is an illegal encoding (R243). -/
def widthEnc (w : BitVec 6) : Option Nat := if 2 < w.toNat then some 0x01 else none

/-- A sum of sadr with its tag (R247). -/
def tagged (tag : Nat) (x : Word) : Word := BitVec.ofNat 64 (tag * 2 ^ 60 + vbits x 0 60)

/-- The address that sadr forms (R247). `b` is s[B] or the immediate in its place. -/
def sadrValue (mode sc : Nat) (a b pc : Word) : Word :=
  let x := b <<< sc
  match mode with
  | 0 => tagged (tagOf a) (a + x)
  | 1 => tagged 0x0 (pc + x)
  | 2 => tagged 0xE (a + x)
  | 3 => tagged 0xD (BitVec.ofNat 64 (vbits a 0 5 * 2 ^ 20) + x)
  | _ => tagged 0xC (a + x)

def sadrBody (mode : Nat) (d a b : BitVec 6) (sc : BitVec 3) (s : State) : State × Act :=
  (wrS d (sadrValue mode sc.toNat (rdS a s) (rdS b s) (curPath s).pc) s, .next)


/-- sadd (R243). -/
def execSadd (e : Bool) (d a b : BitVec 6) (s : State) : Host.Outcome State Fault Refusal :=
  issueSide { e := e, major := 0x00 } none (scalar2 (saluFn 0) d a b) s

/-- ssub (R243). -/
def execSsub (e : Bool) (d a b : BitVec 6) (s : State) : Host.Outcome State Fault Refusal :=
  issueSide { e := e, major := 0x00 } none (scalar2 (saluFn 1) d a b) s

/-- sand (R243). -/
def execSand (e : Bool) (d a b : BitVec 6) (s : State) : Host.Outcome State Fault Refusal :=
  issueSide { e := e, major := 0x00 } none (scalar2 (saluFn 2) d a b) s

/-- sandn (R243). -/
def execSandn (e : Bool) (d a b : BitVec 6) (s : State) : Host.Outcome State Fault Refusal :=
  issueSide { e := e, major := 0x00 } none (scalar2 (saluFn 3) d a b) s

/-- sor (R243). -/
def execSor (e : Bool) (d a b : BitVec 6) (s : State) : Host.Outcome State Fault Refusal :=
  issueSide { e := e, major := 0x00 } none (scalar2 (saluFn 4) d a b) s

/-- sxor (R243). -/
def execSxor (e : Bool) (d a b : BitVec 6) (s : State) : Host.Outcome State Fault Refusal :=
  issueSide { e := e, major := 0x00 } none (scalar2 (saluFn 5) d a b) s

/-- sshl (R243). -/
def execSshl (e : Bool) (d a b : BitVec 6) (s : State) : Host.Outcome State Fault Refusal :=
  issueSide { e := e, major := 0x00 } none (scalar2 (saluFn 6) d a b) s

/-- sshr (R243). -/
def execSshr (e : Bool) (d a b : BitVec 6) (s : State) : Host.Outcome State Fault Refusal :=
  issueSide { e := e, major := 0x00 } none (scalar2 (saluFn 7) d a b) s

/-- ssra (R243). -/
def execSsra (e : Bool) (d a b : BitVec 6) (s : State) : Host.Outcome State Fault Refusal :=
  issueSide { e := e, major := 0x00 } none (scalar2 (saluFn 8) d a b) s

/-- smin (R243). -/
def execSmin (e : Bool) (d a b : BitVec 6) (s : State) : Host.Outcome State Fault Refusal :=
  issueSide { e := e, major := 0x00 } none (scalar2 (saluFn 9) d a b) s

/-- smax (R243). -/
def execSmax (e : Bool) (d a b : BitVec 6) (s : State) : Host.Outcome State Fault Refusal :=
  issueSide { e := e, major := 0x00 } none (scalar2 (saluFn 10) d a b) s

/-- sminu (R243). -/
def execSminu (e : Bool) (d a b : BitVec 6) (s : State) : Host.Outcome State Fault Refusal :=
  issueSide { e := e, major := 0x00 } none (scalar2 (saluFn 11) d a b) s

/-- smaxu (R243). -/
def execSmaxu (e : Bool) (d a b : BitVec 6) (s : State) : Host.Outcome State Fault Refusal :=
  issueSide { e := e, major := 0x00 } none (scalar2 (saluFn 12) d a b) s

/-- smul (R243). -/
def execSmul (e : Bool) (d a b : BitVec 6) (s : State) : Host.Outcome State Fault Refusal :=
  issueSide { e := e, major := 0x00 } none (scalar2 (saluFn 13) d a b) s

/-- smulh (R243). -/
def execSmulh (e : Bool) (d a b : BitVec 6) (s : State) : Host.Outcome State Fault Refusal :=
  issueSide { e := e, major := 0x00 } none (scalar2 (saluFn 14) d a b) s

/-- smulhu (R243). -/
def execSmulhu (e : Bool) (d a b : BitVec 6) (s : State) : Host.Outcome State Fault Refusal :=
  issueSide { e := e, major := 0x00 } none (scalar2 (saluFn 15) d a b) s

/-- sdiv (R243, R244). -/
def execSdiv (e : Bool) (d a b : BitVec 6) (s : State) : Host.Outcome State Fault Refusal :=
  issueSide { e := e, major := 0x00 } none (scalar2 (saluFn 16) d a b) s

/-- sdivu (R243, R244). -/
def execSdivu (e : Bool) (d a b : BitVec 6) (s : State) : Host.Outcome State Fault Refusal :=
  issueSide { e := e, major := 0x00 } none (scalar2 (saluFn 17) d a b) s

/-- srem (R243, R244). -/
def execSrem (e : Bool) (d a b : BitVec 6) (s : State) : Host.Outcome State Fault Refusal :=
  issueSide { e := e, major := 0x00 } none (scalar2 (saluFn 18) d a b) s

/-- sremu (R243, R244). -/
def execSremu (e : Bool) (d a b : BitVec 6) (s : State) : Host.Outcome State Fault Refusal :=
  issueSide { e := e, major := 0x00 } none (scalar2 (saluFn 19) d a b) s

/-- sseq (R243). -/
def execSseq (e : Bool) (d a b : BitVec 6) (s : State) : Host.Outcome State Fault Refusal :=
  issueSide { e := e, major := 0x00 } none (scalar2 (saluFn 20) d a b) s

/-- ssne (R243). -/
def execSsne (e : Bool) (d a b : BitVec 6) (s : State) : Host.Outcome State Fault Refusal :=
  issueSide { e := e, major := 0x00 } none (scalar2 (saluFn 21) d a b) s

/-- sslt (R243). -/
def execSslt (e : Bool) (d a b : BitVec 6) (s : State) : Host.Outcome State Fault Refusal :=
  issueSide { e := e, major := 0x00 } none (scalar2 (saluFn 22) d a b) s

/-- ssltu (R243). -/
def execSsltu (e : Bool) (d a b : BitVec 6) (s : State) : Host.Outcome State Fault Refusal :=
  issueSide { e := e, major := 0x00 } none (scalar2 (saluFn 23) d a b) s

/-- ssle (R243). -/
def execSsle (e : Bool) (d a b : BitVec 6) (s : State) : Host.Outcome State Fault Refusal :=
  issueSide { e := e, major := 0x00 } none (scalar2 (saluFn 24) d a b) s

/-- ssleu (R243). -/
def execSsleu (e : Bool) (d a b : BitVec 6) (s : State) : Host.Outcome State Fault Refusal :=
  issueSide { e := e, major := 0x00 } none (scalar2 (saluFn 25) d a b) s

/-- sclz (R243). -/
def execSclz (e : Bool) (d a : BitVec 6) (s : State) : Host.Outcome State Fault Refusal :=
  issueSide { e := e, major := 0x00 } none (scalar1 (fun x => BitVec.ofNat 64 (clzNat 64 x.toNat)) d a) s

/-- sctz (R243). -/
def execSctz (e : Bool) (d a : BitVec 6) (s : State) : Host.Outcome State Fault Refusal :=
  issueSide { e := e, major := 0x00 } none (scalar1 (fun x => BitVec.ofNat 64 (ctzNat 64 x.toNat)) d a) s

/-- spopc (R243). -/
def execSpopc (e : Bool) (d a : BitVec 6) (s : State) : Host.Outcome State Fault Refusal :=
  issueSide { e := e, major := 0x00 } none (scalar1 (fun x => BitVec.ofNat 64 (popcount x)) d a) s

/-- sbrev (R243). -/
def execSbrev (e : Bool) (d a : BitVec 6) (s : State) : Host.Outcome State Fault Refusal :=
  issueSide { e := e, major := 0x00 } none (scalar1 (fun x => BitVec.ofNat 64 (brevNat 64 x.toNat)) d a) s

/-- smov (R243). -/
def execSmov (e : Bool) (d a : BitVec 6) (s : State) : Host.Outcome State Fault Refusal :=
  issueSide { e := e, major := 0x00 } none (scalar1 (fun x => x) d a) s

/-- ssext: bits [w − 1:0], sign-extended (R243). -/
def execSsext (e : Bool) (d a w : BitVec 6) (s : State) : Host.Outcome State Fault Refusal :=
  issueSide { e := e, major := 0x00 } (widthEnc w) (scalar1 (fun x => BitVec.ofInt 64 (sextNat x.toNat (widthOf w))) d a) s

/-- szext: bits [w − 1:0], zero-extended (R243). -/
def execSzext (e : Bool) (d a w : BitVec 6) (s : State) : Host.Outcome State Fault Refusal :=
  issueSide { e := e, major := 0x00 } (widthEnc w) (scalar1 (fun x => BitVec.ofNat 64 (x.toNat % 2 ^ widthOf w)) d a) s

/-- saddi (R245). -/
def execSaddi (e : Bool) (d a : BitVec 6) (i : BitVec 12) (s : State) : Host.Outcome State Fault Refusal :=
  issueSide { e := e, major := 0x01 } none (scalar1 (fun x => saluFn 0 x (i.signExtend 64)) d a) s

/-- sandi (R245). -/
def execSandi (e : Bool) (d a : BitVec 6) (i : BitVec 12) (s : State) : Host.Outcome State Fault Refusal :=
  issueSide { e := e, major := 0x02 } none (scalar1 (fun x => saluFn 2 x (i.signExtend 64)) d a) s

/-- sori (R245). -/
def execSori (e : Bool) (d a : BitVec 6) (i : BitVec 12) (s : State) : Host.Outcome State Fault Refusal :=
  issueSide { e := e, major := 0x03 } none (scalar1 (fun x => saluFn 4 x (i.signExtend 64)) d a) s

/-- sxori (R245). -/
def execSxori (e : Bool) (d a : BitVec 6) (i : BitVec 12) (s : State) : Host.Outcome State Fault Refusal :=
  issueSide { e := e, major := 0x04 } none (scalar1 (fun x => saluFn 5 x (i.signExtend 64)) d a) s

/-- sshli (R245). -/
def execSshli (e : Bool) (d a n : BitVec 6) (s : State) : Host.Outcome State Fault Refusal :=
  issueSide { e := e, major := 0x05 } none (scalar1 (fun x => saluFn 6 x (n.zeroExtend 64)) d a) s

/-- sshri (R245). -/
def execSshri (e : Bool) (d a n : BitVec 6) (s : State) : Host.Outcome State Fault Refusal :=
  issueSide { e := e, major := 0x05 } none (scalar1 (fun x => saluFn 7 x (n.zeroExtend 64)) d a) s

/-- ssrai (R245). -/
def execSsrai (e : Bool) (d a n : BitVec 6) (s : State) : Host.Outcome State Fault Refusal :=
  issueSide { e := e, major := 0x05 } none (scalar1 (fun x => saluFn 8 x (n.zeroExtend 64)) d a) s

/-- sslti (R245). -/
def execSslti (e : Bool) (d a : BitVec 6) (i : BitVec 11) (s : State) : Host.Outcome State Fault Refusal :=
  issueSide { e := e, major := 0x06 } none (scalar1 (fun x => saluFn 22 x (i.signExtend 64)) d a) s

/-- ssltui (R245). -/
def execSsltui (e : Bool) (d a : BitVec 6) (i : BitVec 11) (s : State) : Host.Outcome State Fault Refusal :=
  issueSide { e := e, major := 0x06 } none (scalar1 (fun x => saluFn 23 x (i.signExtend 64)) d a) s

/-- sli (R246). -/
def execSli (e : Bool) (d : BitVec 6) (i : BitVec 18) (s : State) : Host.Outcome State Fault Refusal :=
  issueSide { e := e, major := 0x07 } none (fun s => (wrS d (i.signExtend 64) s, .next)) s

/-- slhi: the immediate above bits [17:0] of s[D] (R246). -/
def execSlhi (e : Bool) (d : BitVec 6) (i : BitVec 18) (s : State) : Host.Outcome State Fault Refusal :=
  issueSide { e := e, major := 0x08 } none
    (fun s => (wrS d ((i.signExtend 64 <<< 18) + BitVec.ofNat 64 (vbits (rdS d s) 0 18)) s, .next)) s

/-- sadr (R247). -/
def execSadr (e : Bool) (d a b : BitVec 6) (c : BitVec 3) (s : State) : Host.Outcome State Fault Refusal :=
  issueSide { e := e, major := 0x09 } none (sadrBody 0 d a b c) s

/-- sadrLoc (R247). -/
def execSadrLoc (e : Bool) (d a b : BitVec 6) (c : BitVec 3) (s : State) : Host.Outcome State Fault Refusal :=
  issueSide { e := e, major := 0x09 } none (sadrBody 2 d a b c) s

/-- sadrCw (R247). -/
def execSadrCw (e : Bool) (d a b : BitVec 6) (c : BitVec 3) (s : State) : Host.Outcome State Fault Refusal :=
  issueSide { e := e, major := 0x09 } none (sadrBody 3 d a b c) s

/-- sadrWs (R247). -/
def execSadrWs (e : Bool) (d a b : BitVec 6) (c : BitVec 3) (s : State) : Host.Outcome State Fault Refusal :=
  issueSide { e := e, major := 0x09 } none (sadrBody 4 d a b c) s

/-- sadr.pc (R247). -/
def execSadrPc (e : Bool) (d b : BitVec 6) (c : BitVec 3) (s : State) : Host.Outcome State Fault Refusal :=
  issueSide { e := e, major := 0x09 } none (sadrBody 1 d 0 b c) s

/-- The long ALU form with an immediate (R248). -/
def execSaluLongImm (e : Bool) (d a fn : BitVec 6) (imm : BitVec 32) (_hint : BitVec 4) (s : State) :
    Host.Outcome State Fault Refusal :=
  issueSide { e := e, major := 0x00, len := 8 } none (scalar1 (fun x => saluFn fn.toNat x (imm.signExtend 64)) d a) s

/-- The long sli (R248). -/
def execSliLong (e : Bool) (d : BitVec 6) (imm : BitVec 32) (_hint : BitVec 4) (s : State) : Host.Outcome State Fault Refusal :=
  issueSide { e := e, major := 0x07, len := 8 } none (fun s => (wrS d (imm.signExtend 64) s, .next)) s

/-- slhi.w (R248). -/
def execSlhiW (e : Bool) (d : BitVec 6) (imm : BitVec 32) (_hint : BitVec 4) (s : State) : Host.Outcome State Fault Refusal :=
  issueSide { e := e, major := 0x08, len := 8 } none
    (fun s => (wrS d (BitVec.ofNat 64 (imm.toNat * 2 ^ 32 + vbits (rdS d s) 0 32)) s, .next)) s

/-- The long sadr (R248); in mode 1 the A field must be zero as in the short form. -/
def execSadrLong (e : Bool) (d a fn : BitVec 6) (imm : BitVec 32) (_hint : BitVec 4) (s : State) :
    Host.Outcome State Fault Refusal :=
  issueSide { e := e, major := 0x09, len := 8 } (if vbits fn 3 3 = 1 ∧ a ≠ 0 then some 0x02 else none)
    (fun s => (wrS d (sadrValue (vbits fn 3 3) (vbits fn 0 3) (rdS a s) (imm.signExtend 64) (curPath s).pc) s, .next)) s

/-! Scalar floating point. -/

/-- The format that FN[0] selects (R249). -/
def sfmt (t : BitVec 1) : Fmt := if t = 0 then fB32 else fB64

/-- A source operand: its low bits, flushed under FTZ (R117, R249). -/
def sfIn (f : Fmt) (ftz : Bool) (x : Word) : Nat := ftzIn ftz f (vbits x 0 (Fmt_width f))

/-- A floating result written with its flags. -/
def sfWrite (f : Fmt) (ftz : Bool) (d : BitVec 6) (r : Nat × Flags) (s : State) : State × Act :=
  let r := ftzOut ftz f r
  (raiseFlags r.2 (wrS d (BitVec.ofNat 64 r.1) s), .next)

/-- s[D] := op(s[A], s[B], s[D]) in a format (R249). -/
def sfOp (t : BitVec 1) (op : Fmt → Rm → Fv → Fv → Fv → Nat × Flags) (d a b : BitVec 6) (s : State) : State × Act :=
  let f := sfmt t
  let g := curGroup s
  let x (r : BitVec 6) := fdecode f (sfIn f (fcsrFtz g) (rdS r s))
  sfWrite f (fcsrFtz g) d (op f (fcsrRm g) (x a) (x b) (x d)) s

/-- sfmin and sfmax (R250). -/
def sfMinMax (t : BitVec 1) (isMax : Bool) (d a b : BitVec 6) (s : State) : State × Act :=
  let f := sfmt t
  let ftz := fcsrFtz (curGroup s)
  sfWrite f ftz d (fMinMax f isMax (sfIn f ftz (rdS a s)) (sfIn f ftz (rdS b s))) s

/-- sfcmp (R250). -/
def sfCmp (t : BitVec 1) (k : Nat) (d a b : BitVec 6) (s : State) : State × Act :=
  let f := sfmt t
  let ftz := fcsrFtz (curGroup s)
  let r := fCmp k (fdecode f (sfIn f ftz (rdS a s))) (fdecode f (sfIn f ftz (rdS b s)))
  (raiseFlags r.2 (wrS d (truth r.1) s), .next)

/-- Type codes of sfcvt (R251): the floating formats. -/
def cvtFmt (c : Nat) : Option Fmt :=
  match c with
  | 0 => some fB32
  | 1 => some fB64
  | 2 => some fB16
  | 3 => some fBf16
  | _ => none

/-- Width and signedness of the integer type codes (R251). -/
def cvtInt (c : Nat) : Nat × Bool := (if c ≤ 5 then 64 else 32, c % 2 == 0)

/-- sfcvt: dt `x`, st `y` (R251). -/
def sfCvt (x y : BitVec 3) (d a : BitVec 6) (s : State) : State × Act :=
  let g := curGroup s
  let rm := fcsrRm g
  let ftz := fcsrFtz g
  let v : Fv := match cvtFmt y.toNat with
    | some f => fdecode f (sfIn f ftz (rdS a s))
    | none =>
      let (w, sg) := cvtInt y.toNat
      ofIntFv (if sg then sextNat (rdS a s).toNat w else ((vbits (rdS a s) 0 w : Nat) : Int))
  match cvtFmt x.toNat with
  | some f => sfWrite f ftz d (toFmt f rm v) s
  | none =>
    let (w, sg) := cvtInt x.toNat
    let r := toIntSat w sg rm v
    (raiseFlags r.2 (wrS d (BitVec.ofInt 64 r.1) s), .next)

/-- sfadd (R249). -/
def execSfadd (e : Bool) (d a b : BitVec 6) (t : BitVec 1) (s : State) : Host.Outcome State Fault Refusal :=
  issueSide { e := e, major := 0x0A } none (sfOp t (fun f rm a b _ => fAdd f rm a b) d a b) s

/-- sfsub (R249). -/
def execSfsub (e : Bool) (d a b : BitVec 6) (t : BitVec 1) (s : State) : Host.Outcome State Fault Refusal :=
  issueSide { e := e, major := 0x0A } none (sfOp t (fun f rm a b _ => fAdd f rm a (fNeg b)) d a b) s

/-- sfmul (R249). -/
def execSfmul (e : Bool) (d a b : BitVec 6) (t : BitVec 1) (s : State) : Host.Outcome State Fault Refusal :=
  issueSide { e := e, major := 0x0A } none (sfOp t (fun f rm a b _ => fMul f rm a b) d a b) s

/-- sffma (R249). -/
def execSffma (e : Bool) (d a b : BitVec 6) (t : BitVec 1) (s : State) : Host.Outcome State Fault Refusal :=
  issueSide { e := e, major := 0x0A } none (sfOp t (fFma) d a b) s

/-- sfdiv (R249). -/
def execSfdiv (e : Bool) (d a b : BitVec 6) (t : BitVec 1) (s : State) : Host.Outcome State Fault Refusal :=
  issueSide { e := e, major := 0x0A } none (sfOp t (fun f rm a b _ => fDiv f rm a b) d a b) s

/-- sfsqrt (R249). -/
def execSfsqrt (e : Bool) (d a : BitVec 6) (t : BitVec 1) (s : State) : Host.Outcome State Fault Refusal :=
  issueSide { e := e, major := 0x0A } none (sfOp t (fun f rm a _ _ => fSqrt f rm a) d a 0) s

/-- sfmin (R250). -/
def execSfmin (e : Bool) (d a b : BitVec 6) (t : BitVec 1) (s : State) : Host.Outcome State Fault Refusal :=
  issueSide { e := e, major := 0x0A } none (sfMinMax t false d a b) s

/-- sfmax (R250). -/
def execSfmax (e : Bool) (d a b : BitVec 6) (t : BitVec 1) (s : State) : Host.Outcome State Fault Refusal :=
  issueSide { e := e, major := 0x0A } none (sfMinMax t true d a b) s

/-- sfcmpEq (R250). -/
def execSfcmpEq (e : Bool) (d a b : BitVec 6) (t : BitVec 1) (s : State) : Host.Outcome State Fault Refusal :=
  issueSide { e := e, major := 0x0A } none (sfCmp t 0 d a b) s

/-- sfcmpLt (R250). -/
def execSfcmpLt (e : Bool) (d a b : BitVec 6) (t : BitVec 1) (s : State) : Host.Outcome State Fault Refusal :=
  issueSide { e := e, major := 0x0A } none (sfCmp t 1 d a b) s

/-- sfcmpLe (R250). -/
def execSfcmpLe (e : Bool) (d a b : BitVec 6) (t : BitVec 1) (s : State) : Host.Outcome State Fault Refusal :=
  issueSide { e := e, major := 0x0A } none (sfCmp t 2 d a b) s

/-- sfcmpUn (R250). -/
def execSfcmpUn (e : Bool) (d a b : BitVec 6) (t : BitVec 1) (s : State) : Host.Outcome State Fault Refusal :=
  issueSide { e := e, major := 0x0A } none (sfCmp t 3 d a b) s

/-- sfcvt (R251): equal types and two integer types are illegal encodings. -/
def execSfcvt (e : Bool) (d a : BitVec 6) (x y : BitVec 3) (s : State) : Host.Outcome State Fault Refusal :=
  issueSide { e := e, major := 0x0A } (if x = y ∨ (4 ≤ x.toNat ∧ 4 ≤ y.toNat) then some 0x01 else none) (sfCvt x y d a) s

end Sys2Proof.Machine
end

