-- ==== Sys2Proof/Machine/Control.lean ====
section
/-! DEFINITION. Control flow, hardware loops, repeat frames, divergence, melding, votes and vector configuration (majors 0x20 to
0x2C; R252 to R265). -/

namespace Sys2Proof.Machine

open Sys2Proof

/-- The target of a relative transfer (R217). The PC has no tag bits to change: the sum stays below 2^52 (R26). -/
def relTarget (o : BitVec w) (s : State) : Word := ((curPath s).pc + (o.signExtend 64 <<< 2)) &&& 0xFFFFFFFFFFFFF

/-- The address after the instruction at the PC. -/
def nextPc (s : State) : Word := (curPath s).pc + 4

def jumpBody (o : BitVec w) (s : State) : State × Act := (s, .jump (relTarget o s))

/-- bnz and bz (R254). -/
def condBody (f : Word → Bool) (r : BitVec 6) (o : BitVec 18) (s : State) : State × Act :=
  if f (rdS r s) then (s, .jump (relTarget o s)) else (s, .next)

/-- A call to a target (R252): a return address is pushed, unless the depth is 255. -/
def callTo (t : Word) (s : State) : State × Act :=
  if 255 ≤ (curPath s).rets.length then (s, .trap 0x18 0 0)
  else (modP (fun p => { p with rets := nextPc s :: p.rets }) s, .jump t)

/-- The check of a register target (R26, R253), and what follows it. -/
def checkedTarget (t : Word) (f : State → State × Act) (s : State) : State × Act :=
  match targetFault t with
  | some c => (s, .trap c t (kindBits .exec))
  | none => f s

/-- ret (R26, R253, R256): the loop entries of the depth it leaves are gone. -/
def retBody (s : State) : State × Act :=
  let p := curPath s
  match p.rets with
  | [] => (s, .trap 0x18 0 0)
  | t :: l => checkedTarget t (fun s =>
      (modP (fun p => { p with rets := l, loops := p.loops.dropWhile fun x => x.depth == l.length + 1 }) s, .jump t)) s

/-- loop (R255). -/
def loopBody (r : BitVec 6) (o : BitVec 18) (s : State) : State × Act :=
  let c := rdS r s
  let p := curPath s
  if c = 0 then (s, .jump (relTarget o s))
  else if 4 ≤ p.loops.length then (s, .trap 0x18 0 0)
  else
    let t : LoopEntry := { start := nextPc s, stop := relTarget o s, left := c, depth := p.rets.length }
    (modP (fun p => { p with loops := t :: p.loops }) s, .next)

/-- The address after n instructions, which a skipped repeat frame needs (R257). -/
def skipInstrs (env : Env) : Nat → Word → State → State × Got Word
  | 0, pc, s => (s, .ok pc)
  | n + 1, pc, s =>
    andThen (fetchWord env pc s) fun w s => skipInstrs env n (if isLong w then pc + 8 else pc + 4) s

/-- What a failed access of path p does to its instruction. -/
def gotAct (p : Nat) (g : Got α) : Act :=
  match g with
  | .ok _ => .next
  | .trap c a k => .trapOn p c a k
  | .fault ft lv a k => .fault p ft lv a k
  | .stall => .stall
  | .domain c a o => .domain c a o

/-- rpt (R257). -/
def rptBody (stride : BitVec 6) (l : BitVec 4) (n : BitVec 9) (s : State) : State × Act :=
  if n = 0 then
    match restart (skipInstrs (curEnv 0 1 s) (l.toNat + 1) (nextPc s)) s with
    | (s, .ok pc) => (s, .goOn pc)
    | (s, g) => (s, gotAct (exPath s) g)
  else
    let f : RptFrame := { start := nextPc s, len := l.toNat + 1, stride := stride.toNat, n := n.toNat, pass := 0, pos := 0 }
    (modBoth (fun p => { p with rpt := some f }) s, .goOn (nextPc s))

/-! Divergence. -/

/-- Thread positions below vl. -/
def belowVl (s : State) : BitVec 1024 := ones 1024 (curGroup s).vl.toNat

/-- The live threads below vl of the executing path whose bit of predicate i is set. -/
def takenSet (i : Nat) (s : State) : BitVec 1024 := (curPath s).threads &&& belowVl s &&& rdP i s

/-- Membership of a token, with a clear written map for a path that was no member (R168). -/
def joinToken (t : Nat) (p : Path) : Path :=
  if p.tokens.getLsbD t then p else { p with tokens := putBit p.tokens t true, maps := vset p.maps t 0 }

/-- A path may be added (R167): the slot of the path stack that the group holds afterwards. -/
def roomForPath (s : State) : Option (Option Nat) :=
  let g := curGroup s
  if g.paths.length < 8 || g.stackSlot.isSome then some g.stackSlot
  else (freeStackSlot s (curCtx s)).map some

/-- A split of the executing path (R168): the taken set continues at `label` in a new path. -/
def splitPath (t i : Nat) (slot : Option Nat) (taken : BitVec 1024) (label : Word) (s : State) : State × Act :=
  let p := joinToken t (curPath s)
  let (loops, pc, _) := loopStep p.rets.length true label p.loops
  let q : Path := { p with idx := i, pc := pc, loops := loops, threads := taken, run := .ready }
  let s := clearLink (.path { (cur s).who with pidx := i }) (modG (fun g =>
    let g := modPathIn p.idx (fun _ => { p with threads := p.threads &&& ~~~taken }) g
    { g with
      paths := addPath q g.paths,
      stackSlot := slot,
      floors := joinFloors i [p.idx] (g.floors.filter fun e => e.1 / 64 != pathParty i),
      svPaths := if g.sup then putBit g.svPaths i true else g.svPaths }) s)
  (s, .nextEnd)

/-- vbr (R168, R259). -/
def vbrBody (i t : BitVec 4) (o : BitVec 16) (s : State) : State × Act :=
  let taken := takenSet i.toNat s
  if taken = 0 then (s, .next)
  else if (curPath s).threads &&& ~~~taken = 0 then (s, .jump (relTarget o s))
  else match freeIndex (curGroup s) (curPath s).idx, roomForPath s with
    | some j, some slot => splitPath t.toNat j slot taken (relTarget o s) s
    | _, _ => (s, .trap 0x16 0 0)

/-- The executing path parks (R170, R171), and tokens that can be are resolved or decided. -/
def parkBody (r : PathRun) (s : State) : State × Act :=
  let w := curWho s
  (settleTokens w 64 (endRun (modP (fun p => { p with run := r }) s)), .left)

def isMember (t : BitVec 4) (s : State) : Bool := (curPath s).tokens.getLsbD t.toNat

def vjoinBody (t : BitVec 4) (s : State) : State × Act := if isMember t s then parkBody (.atJoin t.toNat) s else (s, .next)

def vmeldBody (t : BitVec 4) (o : BitVec 18) (s : State) : State × Act :=
  if isMember t s then parkBody (.atMeld t.toNat (relTarget o s)) s else (s, .trap 0x17 0 0)

/-- vunmeld (R173, R261): side b goes on behind it by its own loop stack. -/
def vunmeldBody (t : BitVec 4) (s : State) : State × Act :=
  match curMeld s with
  | some m =>
    if m.tok = t.toNat then
      (modG (fun g => { modPathIn m.b (fun p => (stepPath 4 none false p).1) g with melds := g.melds.filter fun x => x.a != m.a }) s, .next)
    else (s, .trap 0x17 0 0)
  | none => (s, .trap 0x17 0 0)

/-- vexit (R262): threads leave; a path without threads ends. -/
def vexitBody (i : BitVec 4) (s : State) : State × Act :=
  let p := curPath s
  let gone := if i = 0 then p.threads else takenSet i.toNat s
  let s := modG (fun g => { modPathIn p.idx (fun p => { p with threads := p.threads &&& ~~~gone }) g with exited := g.exited ||| gone }) s
  if p.threads &&& ~~~gone = 0 then (endPath (curWho s) s, .left) else (s, .next)

def vbrkBody (i : BitVec 4) (s : State) : State × Act :=
  if takenSet i.toNat s = 0 then (s, .next) else (s, .trap 0x0E 0 0)

/-- vany, vall and vnone (R263): a test of the members of T that have the predicate set against T. -/
def voteBody (f : BitVec 1024 → BitVec 1024 → Bool) (d : BitVec 6) (i m : BitVec 4) (s : State) : State × Act :=
  let t := takenSet m.toNat s
  (wrS d (truth (f t (t &&& rdP i.toNat s))) s, .next)

/-! Vector configuration. -/

/-- vcfg (R264). -/
def vcfgBody (d : BitVec 6) (n : BitVec 2) (s : State) : State × Act :=
  let g := curGroup s
  if g.paths.length ≠ 1 ∨ g.exited ≠ 0 then (s, .trap 0x09 0 0)
  else
    let vm := vlmaxOf (curBlock s).place n
    let s := modG (fun g => { g with
      nrc := n, v := [], p := Vector.replicate 16 0 |>.set 0 (BitVec.allOnes 1024), vl := BitVec.ofNat 32 vm, vstart := 0, dirty := 0,
      paths := g.paths.map fun p => { p with threads := ones 1024 vm } }) s
    (wrS d (BitVec.ofNat 64 vm) s, .nextEnd)

/-- vgrant (R265). -/
def vgrantBody (d a : BitVec 6) (s : State) : State × Act :=
  let n := min (rdS a s).toNat (vlmax s)
  (wrS d (BitVec.ofNat 64 n) (modG (fun g => { g with vl := BitVec.ofNat 32 n }) s), .next)

/-- br (R252). -/
def execBr (e : Bool) (o : BitVec 24) (s : State) : Host.Outcome State Fault Refusal :=
  issueOnce { e := e, major := 0x20 } none (jumpBody o) s

/-- bnz (R254). -/
def execBnz (e : Bool) (r : BitVec 6) (o : BitVec 18) (s : State) : Host.Outcome State Fault Refusal :=
  issueOnce { e := e, major := 0x21 } none (condBody (· != 0) r o) s

/-- bz (R254). -/
def execBz (e : Bool) (r : BitVec 6) (o : BitVec 18) (s : State) : Host.Outcome State Fault Refusal :=
  issueOnce { e := e, major := 0x22 } none (condBody (· == 0) r o) s

/-- call (R252). -/
def execCall (e : Bool) (o : BitVec 24) (s : State) : Host.Outcome State Fault Refusal :=
  issueOnce { e := e, major := 0x23 } none (fun s => callTo (relTarget o s) s) s

/-- jr (R253). -/
def execJr (e : Bool) (a : BitVec 6) (s : State) : Host.Outcome State Fault Refusal :=
  issueOnce { e := e, major := 0x24 } none (fun s => checkedTarget (rdS a s) (fun s => (s, .jump (rdS a s))) s) s

/-- callr (R253). -/
def execCallr (e : Bool) (a : BitVec 6) (s : State) : Host.Outcome State Fault Refusal :=
  issueOnce { e := e, major := 0x24 } none (fun s => checkedTarget (rdS a s) (callTo (rdS a s)) s) s

/-- ret (R253). -/
def execRet (e : Bool) (s : State) : Host.Outcome State Fault Refusal := issueOnce { e := e, major := 0x24 } none retBody s

/-- loop (R255): an offset below 2 is an illegal encoding. -/
def execLoop (e : Bool) (r : BitVec 6) (o : BitVec 18) (s : State) : Host.Outcome State Fault Refusal :=
  issueOnce { e := e, major := 0x25 } (if o.slt 2 then some 0x01 else none) (loopBody r o) s

/-- rpt (R257, R258). -/
def execRpt (e : Bool) (r : BitVec 6) (l : BitVec 4) (n : BitVec 9) (s : State) : Host.Outcome State Fault Refusal :=
  issueOnce { e := e, major := 0x26 } (if 256 < n.toNat then some 0x01 else none) (rptBody r l n) s

/-- vbr (R259). -/
def execVbr (e : Bool) (i t : BitVec 4) (o : BitVec 16) (s : State) : Host.Outcome State Fault Refusal :=
  issueOnce { e := e, major := 0x27 } none (vbrBody i t o) s

/-- vjoin (R260). -/
def execVjoin (e : Bool) (t : BitVec 4) (s : State) : Host.Outcome State Fault Refusal :=
  issueOnce { e := e, major := 0x28 } none (vjoinBody t) s

/-- vmeld (R261). -/
def execVmeld (e : Bool) (t : BitVec 4) (o : BitVec 18) (s : State) : Host.Outcome State Fault Refusal :=
  issueOnce { e := e, major := 0x29, noMeld := true } none (vmeldBody t o) s

/-- vunmeld (R261). -/
def execVunmeld (e : Bool) (t : BitVec 4) (s : State) : Host.Outcome State Fault Refusal :=
  issueOnce { e := e, major := 0x29 } none (vunmeldBody t) s

/-- vexit (R262). -/
def execVexit (e : Bool) (i : BitVec 4) (s : State) : Host.Outcome State Fault Refusal :=
  issueOnce { e := e, major := 0x2A } none (vexitBody i) s

/-- vbrk (R262). -/
def execVbrk (e : Bool) (i : BitVec 4) (s : State) : Host.Outcome State Fault Refusal :=
  issueOnce { e := e, major := 0x2A } none (vbrkBody i) s

/-- vany (R263). -/
def execVany (e : Bool) (d : BitVec 6) (i m : BitVec 4) (s : State) : Host.Outcome State Fault Refusal :=
  issueSide { e := e, major := 0x2B } none (voteBody (fun _ x => x != 0) d i m) s

/-- vall (R263). -/
def execVall (e : Bool) (d : BitVec 6) (i m : BitVec 4) (s : State) : Host.Outcome State Fault Refusal :=
  issueSide { e := e, major := 0x2B } none (voteBody (fun t x => x == t) d i m) s

/-- vnone (R263). -/
def execVnone (e : Bool) (d : BitVec 6) (i m : BitVec 4) (s : State) : Host.Outcome State Fault Refusal :=
  issueSide { e := e, major := 0x2B } none (voteBody (fun _ x => x == 0) d i m) s

/-- vcfg (R264). -/
def execVcfg (e : Bool) (d : BitVec 6) (n : BitVec 2) (s : State) : Host.Outcome State Fault Refusal :=
  issueOnce { e := e, major := 0x2C, noMeld := true } none (vcfgBody d n) s

/-- vgrant (R265). -/
def execVgrant (e : Bool) (d a : BitVec 6) (s : State) : Host.Outcome State Fault Refusal :=
  issueSide { e := e, major := 0x2C } none (vgrantBody d a) s

end Sys2Proof.Machine
end

