-- ==== Sys2Proof/Machine/Operands.lean ====
section
/-! DEFINITION. Operands of the vector instructions: short and long forms (R218, R271 to R273), masks and active elements (R6), sources
with their renaming, latches and scalar sources (R173, R218), and results with latches, dirty bits and predicates (R201, R202,
R219, R266). -/

namespace Sys2Proof.Machine

open Sys2Proof

/-- A vector instruction as its short or long form gives it. `once`: it issues once in a melded region, each thread under the
names of its own side; otherwise it executes once for each side (R269). -/
structure VArgs where
  e : Bool
  major : Nat
  len : Nat := 4
  d : BitVec 6 := 0
  a : BitVec 6 := 0
  b : BitVec 6 := 0
  pm : Nat := 0
  la : Bool := false
  lb : Bool := false
  nw : Bool := false
  wide : Bool := false
  sb : Bool := false
  once : Bool := true
  deriving DecidableEq, Repr

/-- A short form (R218). -/
def shortV (e : Bool) (major : Nat) (d a b : BitVec 6) (m l : BitVec 2) (w : BitVec 1) : VArgs :=
  { e := e, major := major, d := d, a := a, b := b, pm := m.toNat, la := l.getLsbD 0, lb := l.getLsbD 1, nw := w == 1 }

/-- A short form without a B operand. -/
def shortU (e : Bool) (major : Nat) (d a : BitVec 6) (m : BitVec 2) (l w : BitVec 1) : VArgs :=
  { e := e, major := major, d := d, a := a, pm := m.toNat, la := l == 1, nw := w == 1 }

/-- A long form (R271). -/
def longV (e : Bool) (x : VecLong) : VArgs :=
  { e := e, major := 0x30 + x.xop.toNat, len := 8, d := x.d, a := x.a, b := x.b, pm := x.pm4.toNat, la := x.ls.getLsbD 0,
    lb := x.ls.getLsbD 1, nw := x.nw == 1, wide := x.dw == 1, sb := x.sb == 1 }

/-! Encoding checks and register numbers. -/

/-- A field that names a vector register, or a latch, of 32 or 64 bits. -/
inductive VUse where
  | reg (f : BitVec 6) (wide : Bool)
  | latch (f : BitVec 6) (wide : Bool)
  deriving DecidableEq, Repr

/-- A register field after the advance of a repeat frame (R257). -/
def advField (s : State) (f : BitVec 6) : Nat := (f.toNat + bias s) % 64

/-- Order 3 of R228 for a field: bits [5:2] of a latch, an odd register or latch of a pair (R218, R273). -/
def useEnc (s : State) : VUse → Option Nat
  | .reg f wide => if wide && advField s f % 2 == 1 then some 0x02 else none
  | .latch f wide => if vbits f 2 4 != 0 || (wide && f.getLsbD 0) then some 0x02 else none

/-- The sides under whose names a run executes. -/
def sidesOf (s : State) : List Bool := if (curMeld s).isSome then [false, true] else [false]

/-- Order 7 of R228 for a field: the register that it names for some side lies at or above NR. -/
def useBad (s : State) : VUse → Bool
  | .reg f wide => (sidesOf s).any fun b => decide (nr s ≤ vregOf s b f + b2n wide)
  | .latch _ _ => false

/-- The source that an A or B field names. -/
def srcUse (latch : Bool) (f : BitVec 6) (wide : Bool) : VUse := if latch then .latch f wide else .reg f wide

/-- The first cause of a list of checks. -/
def firstOf (l : List (Option Nat)) : Option Nat := l.findSome? id

/-- A check that fails with a cause. -/
def failIf (b : Bool) (c : Nat) : Option Nat := if b then some c else none

/-! Elements. -/

/-- The side of the melded region that thread i belongs to; side a outside both (R219). -/
def sideOf (s : State) (i : Nat) : Bool :=
  match curMeld s with
  | some m => (getPath (curGroup s) m.b).threads.getLsbD i
  | none => false

/-- Element i of register r. -/
def vel (g : Group) (r i : Nat) : Nat := (sget 0 g.v (r * 1024 + i)).toNat

/-- Element i of register r, with r + 1 above it when wide. -/
def velW (g : Group) (wide : Bool) (r i : Nat) : Nat := vel g r i + (if wide then 2 ^ 32 * vel g (r + 1) i else 0)

/-- Element i of latch n (R218). -/
def bel (g : Group) (wide : Bool) (n i : Nat) : Nat :=
  (sget 0 g.bp (n * 1024 + i)).toNat + (if wide then 2 ^ 32 * (sget 0 g.bp ((n + 1) % 4 * 1024 + i)).toNat else 0)

/-- Under whose names element i is handled. -/
def nameSide (v : VArgs) (s : State) (i : Nat) : Bool := if v.once then sideOf s i else (cur s).side

/-- Element j of a source under the names that the reader i has. -/
def srcEl (v : VArgs) (s : State) (latch wide : Bool) (f : BitVec 6) (i j : Nat) : Nat :=
  if latch then bel (curGroup s) wide (f.toNat % 4) j else velW (curGroup s) wide (vregOf s (nameSide v s i) f) j

/-- A scalar register as thread i reads it (R269, R271). -/
def scalarFor (v : VArgs) (s : State) (i : Nat) (f : BitVec 6) : Word := rdS f (setSide (nameSide v s i) s)

/-- Sources A, B and D of element i. -/
def srcA (v : VArgs) (s : State) (i : Nat) : Nat := srcEl v s v.la v.wide v.a i i

def srcB (v : VArgs) (s : State) (i : Nat) : Nat :=
  if v.sb then vbits (scalarFor v s i v.b) 0 (if v.wide then 64 else 32) else srcEl v s v.lb v.wide v.b i i

/-- The old destination as a third source. With NW = 1 its number is not checked (R228), and what a register at or above NR holds is a
free value (log 25). -/
def srcD (v : VArgs) (s : State) (i : Nat) : Nat :=
  let r := vregOf s (nameSide v s i) v.d
  if v.nw && decide (nr s ≤ r + b2n v.wide) then Config.absentReg s.steps (r * 1024 + i) % (if v.wide then 2 ^ 64 else 2 ^ 32)
  else srcEl v s false v.wide v.d i i

/-- The threads that an execution covers. -/
def execThreads (v : VArgs) (s : State) : BitVec 1024 :=
  match curMeld s with
  | some m =>
    if v.once then (getPath (curGroup s) m.a).threads ||| (getPath (curGroup s) m.b).threads else (curPath s).threads
  | none => (curPath s).threads

/-- active(i) of R6 under predicate pm, as a set. -/
def activeSet (v : VArgs) (pm : Nat) (s : State) : BitVec 1024 :=
  execThreads v s &&& ones 1024 (curGroup s).vl.toNat &&& ~~~ ones 1024 (curGroup s).vstart.toNat &&& rdP pm s

/-- The active elements, rising. -/
def actives (v : VArgs) (s : State) : List Nat := members (activeSet v v.pm s) 1024

/-- Threads that src reads (R267): live, below vl and VLMAX. -/
def srcSet (s : State) : BitVec 1024 := ~~~ (curGroup s).exited &&& ones 1024 (min (curGroup s).vl.toNat (vlmax s))

/-- src of R267: element j of source A for reader i. -/
def srcLane (v : VArgs) (s : State) (i j : Nat) : Nat :=
  if j < 1024 ∧ (srcSet s).getLsbD j then srcEl v s v.la v.wide v.a i j else 0

/-! Results. -/

/-- Results by element, rising. -/
abbrev Vals := List (Nat × Nat)

/-- vstart ≥ vl: the instruction has no element (R201). -/
def noElement (s : State) : Bool := decide ((curGroup s).vl.toNat ≤ (curGroup s).vstart.toNat)

/-- Elements written to the registers that their threads name by field f. -/
def writeEls (reg : Nat → Nat) (wide : Bool) : Vals → Sparse Half → Sparse Half
  | [], m => m
  | (i, x) :: l, m =>
    let m := sset 0 (reg i * 1024 + i) (BitVec.ofNat 32 x) m
    writeEls reg wide l (if wide then sset 0 ((reg i + 1) * 1024 + i) (BitVec.ofNat 32 (x / 2 ^ 32)) m else m)

/-- The dirty map with the registers of a list. -/
def dirtyWith (wide : Bool) (l : List Nat) (w : Word) : Word :=
  l.foldl (fun w r => if wide then putBit (putBit w r true) (r + 1) true else putBit w r true) w

/-- The registers written by results. -/
def writtenRegs (reg : Nat → Nat) (l : Vals) : List Nat := (l.map fun e => reg e.1).eraseDups

/-- The elements of a latch after a result (R219): `half` 0 or 1 of the result. A second execution for side b leaves side a's
latch elements of an NW form (log 26). -/
def latchEls (v : VArgs) (s : State) (g : Group) (half : Nat) (l : Vals) : List Half :=
  (List.range (vlmax s)).map fun i =>
    match l.lookup i with
    | some x => BitVec.ofNat 32 (x / 2 ^ (32 * half))
    | none =>
      if v.nw then
        (if !v.once && (cur s).side && !sideOf s i then sget 0 g.bp ((advField s v.d + half) % 4 * 1024 + i) else 0)
      else BitVec.ofNat 32 (vel g (vregOf s (sideOf s i) v.d + half) i)

/-- The latches after a result. -/
def latchWrite (v : VArgs) (wide : Bool) (s : State) (l : Vals) (g : Group) : Group :=
  let n := advField s v.d
  let g1 := { g with bp := ssetN 0 (n % 4 * 1024) (latchEls v s g 0 l) g.bp }
  if wide then { g1 with bp := ssetN 0 ((n + 1) % 4 * 1024) (latchEls v s g 1 l) g1.bp } else g1

/-- A vector result: registers, dirty bits and latches (R202, R219). -/
def putVec (v : VArgs) (wide : Bool) (l : Vals) (s : State) : State :=
  let reg (i : Nat) : Nat := vregOf s (nameSide v s i) v.d
  modG (fun g =>
    let g := if v.nw then g
      else { g with v := writeEls reg wide l g.v, dirty := dirtyWith wide (writtenRegs reg l) g.dirty }
    latchWrite v wide s l g) s

/-- A completed vector instruction leaves vstart at 0 (R201). -/
def zeroStart (s : State) : State := modG (fun g => { g with vstart := 0 }) s

/-- Predicate bits written where `act` is set (R275, R285). -/
def putPred (d : Nat) (act val : BitVec 1024) (s : State) : State :=
  wrP d (((rdP d s) &&& ~~~act) ||| (val &&& act)) s

/-- A set from the elements of a list that satisfy f. -/
def setOf (f : Nat → Bool) (l : List Nat) : BitVec 1024 := l.foldl (fun w i => if f i then putBit w i true else w) 0

/-- The union of the flags of results. -/
def flagsOf (l : List (Nat × Nat × Flags)) : Flags := l.foldl (fun w e => w ||| e.2.2) 0

/-- v[D][i] := f(i) for every active element, with flags; `wd` says that the result is 64 bits wide (R266, R268). -/
def vecMap (v : VArgs) (wd : Bool) (f : State → Nat → Nat × Flags) (s : State) : State × Act :=
  if noElement s then (zeroStart s, .next)
  else
    let r := (actives v s).map fun i => (i, f s i)
    (zeroStart (raiseFlags (flagsOf r) (putVec v wd (r.map fun e => (e.1, e.2.1)) s)), .next)

/-- pd[i] := f(i) for every active element, with flags. -/
def predMap (v : VArgs) (pd : Nat) (f : State → Nat → Bool × Flags) (s : State) : State × Act :=
  if noElement s then (zeroStart s, .next)
  else
    let l := actives v s
    let fl := l.foldl (fun w i => w ||| (f s i).2) (0 : Flags)
    (zeroStart (raiseFlags fl (putPred pd (activeSet v v.pm s) (setOf (fun i => (f s i).1) l) s)), .next)

/-- A scalar result of a vector instruction. -/
def scalarResult (d : BitVec 6) (x : State → Option Word) (s : State) : State × Act :=
  match x s with
  | some w => (zeroStart (wrS d w s), .next)
  | none => (zeroStart s, .next)

/-- The path that holds the thread of the element at vstart, which a vector instruction's trap names (R214); side a when neither side
holds it. -/
def startPath (s : State) : Who :=
  match curMeld s with
  | some m => { (cur s).who with pidx := if sideOf s (curGroup s).vstart.toNat then m.b else m.a }
  | none => curWho s

/-- Does a word, with its second above it, hold a vector instruction (majors 0x30 to 0x4F and 0x52 to 0x5A)? -/
def vectorWord (w : Nat) : Bool :=
  let op := bits w 24 7
  let m := if op = 0x7A then 0x50 + bits w 8 4 else op
  (0x30 ≤ m && m ≤ 0x4F) || (0x52 ≤ m && m ≤ 0x5A) || m == 0x79

/-- The path that traps at a word that does not decode (R214, R228). -/
def wordPath (w : Nat) (s : State) : Who := if vectorWord w then startPath s else curWho s

def setStartB (m : Meld) (x : Option (Word × Half × Half)) (s : State) : State :=
  modG (fun g => { g with melds := modFirst (fun y => y.a == m.a) (fun y => { y with startB := x }) g.melds }) s

/-- vstart of the vector instruction under way, kept for side b or brought back for it (R201, R269; log 67): when side a goes on where
it stands, side b has the start that was kept; after a write to vstart both start there. -/
def keepStart (s : State) : State :=
  match curMeld s with
  | some m =>
    let pc := (getPath (curGroup s) m.a).pc
    let x := (curGroup s).vstart
    let start := match m.startB with
      | some (q, b, a) => if q == pc && a == x then b else x
      | none => x
    if m.doneA then s else setStartB m (some (pc, start, x)) s
  | none => s

/-- Side a of a vector instruction has not completed: where it stands is kept. -/
def noteStart (s : State) : State :=
  match curMeld s with
  | some m => match m.startB with
    | some (pc, b, _) => setStartB m (some (pc, b, (curGroup s).vstart)) s
    | none => s
  | none => s

/-- The body of an instruction that executes once for each side, side b from the element at which the instruction was issued. -/
def fromStart (body : State → State × Act) (s : State) : State × Act :=
  match curMeld s with
  | some m =>
    if !(cur s).side then
      match body s with
      | (s, .next) => (s, .next)
      | (s, r) => (noteStart s, r)
    else match m.startB with
      | some e => body (modG (fun g => { g with vstart := e.2.1 }) (setStartB m none s))
      | none => body s
  | none => body s

/-- A vector instruction of the table: `enc` its own encoding check, `uses` the registers and latches it reads, `dst` the width of a
vector result (R228). -/
def issueV (v : VArgs) (enc : Option Nat) (uses : List VUse) (dst : Option Bool) (body : State → State × Act) (s : State) :
    Host.Outcome State Fault Refusal :=
  let h : Head := { e := v.e, major := v.major, len := v.len }
  let out : List VUse := match dst with
    | some w => [.reg v.d w]
    | none => []
  issueBy startPath h (firstOf (enc :: (out ++ uses).map (useEnc s))) (fun s => ((if v.nw then [] else out) ++ uses).any (useBad s))
    (if v.once then fun s => finish h false (body s) else fun s => perSide h (fromStart body) (keepStart s)) s

/-- Sources A and B as uses. -/
def useA (v : VArgs) : VUse := srcUse v.la v.a v.wide

def useB (v : VArgs) : List VUse := if v.sb then [] else [srcUse v.lb v.b v.wide]

end Sys2Proof.Machine
end

