-- ==== Sys2Proof/Machine/VecInt.lean ====
section
/-! DEFINITION. Integer vector instructions, comparison, selection, moves, element access and conversion (majors 0x30 to 0x3F; R274 to
R277). Each meaning takes its operands as a short or a long form gives them. -/

namespace Sys2Proof.Machine

open Sys2Proof

/-- A clamp. -/
def clamp (lo hi x : Int) : Int := if x < lo then lo else if hi < x then hi else x

/-- A signed result saturated to w bits. -/
def satS (w : Nat) (x : Int) : BitVec w := BitVec.ofInt w (clamp (-((2 ^ (w - 1) : Nat) : Int)) (((2 ^ (w - 1) : Nat) : Int) - 1) x)

/-- An unsigned result saturated to w bits. -/
def satU (w : Nat) (x : Int) : BitVec w := BitVec.ofInt w (clamp 0 (((2 ^ w : Nat) : Int) - 1) x)

/-- Integer results by major and X (R274); d is the old destination. -/
def intFn (w major x : Nat) (a b d : BitVec w) : BitVec w :=
  let n := b.toNat % w
  match major, x with
  | 0x30, 0 => a + b
  | 0x30, _ => a - b
  | 0x31, 0 => a * b
  | 0x31, _ => BitVec.ofInt w (a.toInt * b.toInt / ((2 ^ w : Nat) : Int))
  | 0x32, 0 => BitVec.ofNat w (a.toNat * b.toNat / 2 ^ w)
  | 0x32, _ => a * b + d
  | 0x33, 0 => a &&& b
  | 0x33, _ => a ||| b
  | 0x34, 0 => a ^^^ b
  | 0x34, _ => a &&& ~~~b
  | 0x35, 0 => a <<< n
  | 0x35, _ => a >>> n
  | 0x36, 0 => a.sshiftRight n
  | 0x36, _ => a.rotateLeft n
  | 0x37, 0 => if a.slt b then a else b
  | 0x37, _ => if a.slt b then b else a
  | 0x38, 0 => if a.ult b then a else b
  | 0x38, _ => if a.ult b then b else a
  | 0x39, 0 => satS w (a.toInt + b.toInt)
  | 0x39, _ => satS w (a.toInt - b.toInt)
  | _, 0 => satU w ((a.toNat : Int) + b.toNat)
  | _, _ => satU w ((a.toNat : Int) - b.toNat)

/-- An integer result of 32 or 64 bits on numbers. -/
def intEl (wide : Bool) (major x a b d : Nat) : Nat :=
  if wide then (intFn 64 major x (BitVec.ofNat 64 a) (BitVec.ofNat 64 b) (BitVec.ofNat 64 d)).toNat
  else (intFn 32 major x (BitVec.ofNat 32 a) (BitVec.ofNat 32 b) (BitVec.ofNat 32 d)).toNat

/-- Does the instruction read the old destination? -/
def readsD (major x : Nat) : Bool := (major == 0x32 && x == 1) || major == 0x42 || major == 0x43

/-- The destination as a third source; with NW = 1 its register is not checked (R228). -/
def useD (v : VArgs) (x : Nat) : List VUse := if readsD v.major x && !v.nw then [.reg v.d v.wide] else []

/-- Majors 0x30 to 0x3A (R274). -/
def vInt (x : Nat) (enc : Option Nat) (v : VArgs) (s : State) : Host.Outcome State Fault Refusal :=
  issueV v enc (useA v :: useB v ++ useD v x) (some v.wide)
    (vecMap v v.wide fun s i => (intEl v.wide v.major x (srcA v s i) (srcB v s i) (srcD v s i), 0)) s

/-- The conditions of vcmp (R275). -/
def cmpCond (w cond : Nat) (a b : BitVec w) : Bool :=
  match cond with
  | 0 => a == b
  | 1 => a != b
  | 2 => a.slt b
  | 3 => a.sle b
  | 4 => b.slt a
  | 5 => b.sle a
  | 6 => a.ult b
  | 7 => a.ule b
  | 8 => b.ult a
  | _ => b.ule a

/-- vcmp (R275). -/
def vCmp (pd cond : Nat) (enc : Option Nat) (v : VArgs) (s : State) : Host.Outcome State Fault Refusal :=
  issueV v (firstOf [failIf (9 < cond) 0x01, enc]) (useA v :: useB v) none
    (predMap v pd fun s i =>
      (if v.wide then cmpCond 64 cond (BitVec.ofNat 64 (srcA v s i)) (BitVec.ofNat 64 (srcB v s i))
       else cmpCond 32 cond (BitVec.ofNat 32 (srcA v s i)) (BitVec.ofNat 32 (srcB v s i)), 0)) s

/-- vsel (R276): `v.pm` names the selecting predicate and no thread is masked. -/
def vSel (enc : Option Nat) (v : VArgs) (s : State) : Host.Outcome State Fault Refusal :=
  issueV v enc (useA v :: useB v) (some v.wide)
    (vecMap { v with pm := 0 } v.wide fun s i => (if (rdP v.pm s).getLsbD i then srcA v s i else srcB v s i, 0)) s

/-- vmov (R276). -/
def vMov (enc : Option Nat) (v : VArgs) (s : State) : Host.Outcome State Fault Refusal :=
  issueV v enc [useA v] (some v.wide) (vecMap v v.wide fun s i => (srcA v s i, 0)) s

/-- vbcast (R276). -/
def vBcast (enc : Option Nat) (v : VArgs) (s : State) : Host.Outcome State Fault Refusal :=
  issueV v enc [] (some v.wide) (vecMap v v.wide fun s i => (vbits (scalarFor v s i v.a) 0 (if v.wide then 64 else 32), 0)) s

/-- vid (R276). -/
def vId (enc : Option Nat) (v : VArgs) (s : State) : Host.Outcome State Fault Refusal :=
  issueV v enc [] (some false) (vecMap v false fun _ i => (i, 0)) s

/-- vext (R276). -/
def vExt (enc : Option Nat) (v0 : VArgs) (s : State) : Host.Outcome State Fault Refusal :=
  let v := { v0 with once := false }
  issueV v enc [useA v] none (scalarResult v.d fun s => some (BitVec.ofNat 64 (srcLane v s 0 (rdS v.b s).toNat))) s

/-- vins (R276): only element s[B] can be written. -/
def vIns (enc : Option Nat) (v0 : VArgs) (s : State) : Host.Outcome State Fault Refusal :=
  let v := { v0 with once := false }
  issueV v enc [] (some v.wide) (fun s =>
    if noElement s then (zeroStart s, .next)
    else
      let j := (rdS v.b s).toNat
      let l : Vals := if j < 1024 ∧ (activeSet v 0 s).getLsbD j then [(j, vbits (rdS v.a s) 0 (if v.wide then 64 else 32))] else []
      (zeroStart (putVec v v.wide l s), .next)) s

/-! Conversions. -/

/-- What a conversion reads or writes. -/
inductive CvtTy where
  | int (w : Nat) (signed : Bool)
  | flt (f : Fmt)
  deriving DecidableEq, Repr

/-- Destination and source of the codes of vcvt (R277). -/
def vcvtTypes (c : Nat) : CvtTy × CvtTy :=
  match c with
  | 0x00 => (.int 32 true, .int 8 true)
  | 0x01 => (.int 32 true, .int 8 false)
  | 0x02 => (.int 32 true, .int 16 true)
  | 0x03 => (.int 32 true, .int 16 false)
  | 0x04 => (.int 8 true, .int 32 true)
  | 0x05 => (.int 8 false, .int 32 true)
  | 0x06 => (.int 16 true, .int 32 true)
  | 0x07 => (.int 16 false, .int 32 true)
  | 0x08 => (.int 8 false, .int 32 false)
  | 0x09 => (.int 16 false, .int 32 false)
  | 0x0A => (.flt fB32, .int 32 true)
  | 0x0B => (.flt fB32, .int 32 false)
  | 0x0C => (.int 32 true, .flt fB32)
  | 0x0D => (.int 32 false, .flt fB32)
  | 0x0E => (.int 64 true, .int 32 true)
  | 0x0F => (.int 64 true, .int 32 false)
  | 0x10 => (.int 32 true, .int 64 true)
  | 0x11 => (.flt fB64, .int 64 true)
  | 0x12 => (.int 64 true, .flt fB64)
  | 0x13 => (.flt fB64, .int 32 true)
  | _ => (.int 32 true, .flt fB64)

def CvtTy_wide : CvtTy → Bool
  | .int w _ => w == 64
  | .flt f => Fmt_width f == 64

/-- A source number as a value, flushed under FTZ when it is floating (R117). -/
def cvtValue (ftz : Bool) (t : CvtTy) (x : Nat) : Fv :=
  match t with
  | .int w sg => ofIntFv (if sg then sextNat x w else ((x % 2 ^ w : Nat) : Int))
  | .flt f => fdecode f (ftzIn ftz f (x % 2 ^ Fmt_width f))

/-- One conversion (R119, R120, R277): integer to integer saturates without a flag. -/
def cvtEl (rm : Rm) (ftz : Bool) (dst src : CvtTy) (x : Nat) : Nat × Flags :=
  match dst, src with
  | .flt f, t => ftzOut ftz f (toFmt f rm (cvtValue ftz t x))
  | .int w sg, t =>
    let r := toIntSat w sg rm (cvtValue ftz t x)
    let fl := match t with
      | .int _ _ => 0
      | .flt _ => r.2
    ((BitVec.ofInt (if w = 64 then 64 else 32) r.1).toNat, fl)

/-- vcvt (R277). -/
def vCvt (enc : Option Nat) (v0 : VArgs) (s : State) : Host.Outcome State Fault Refusal :=
  let (dt, st) := vcvtTypes v0.b.toNat
  let v := { v0 with wide := CvtTy_wide st }
  issueV v (firstOf [failIf (0x14 < v0.b.toNat) 0x01, enc]) [useA v] (some (CvtTy_wide dt))
    (vecMap v (CvtTy_wide dt) fun s i => cvtEl (fcsrRm (curGroup s)) (fcsrFtz (curGroup s)) dt st (srcA v s i)) s

/-- vadd (R274). -/
def execVadd (e : Bool) (d a b : BitVec 6) (m l : BitVec 2) (w : BitVec 1) (s : State) : Host.Outcome State Fault Refusal :=
  vInt 0 none (shortV e 0x30 d a b m l w) s

/-- vsub (R274). -/
def execVsub (e : Bool) (d a b : BitVec 6) (m l : BitVec 2) (w : BitVec 1) (s : State) : Host.Outcome State Fault Refusal :=
  vInt 1 none (shortV e 0x30 d a b m l w) s

/-- vmul (R274). -/
def execVmul (e : Bool) (d a b : BitVec 6) (m l : BitVec 2) (w : BitVec 1) (s : State) : Host.Outcome State Fault Refusal :=
  vInt 0 none (shortV e 0x31 d a b m l w) s

/-- vmulh (R274). -/
def execVmulh (e : Bool) (d a b : BitVec 6) (m l : BitVec 2) (w : BitVec 1) (s : State) : Host.Outcome State Fault Refusal :=
  vInt 1 none (shortV e 0x31 d a b m l w) s

/-- vmulhu (R274). -/
def execVmulhu (e : Bool) (d a b : BitVec 6) (m l : BitVec 2) (w : BitVec 1) (s : State) : Host.Outcome State Fault Refusal :=
  vInt 0 none (shortV e 0x32 d a b m l w) s

/-- vmad (R274). -/
def execVmad (e : Bool) (d a b : BitVec 6) (m l : BitVec 2) (w : BitVec 1) (s : State) : Host.Outcome State Fault Refusal :=
  vInt 1 none (shortV e 0x32 d a b m l w) s

/-- vand (R274). -/
def execVand (e : Bool) (d a b : BitVec 6) (m l : BitVec 2) (w : BitVec 1) (s : State) : Host.Outcome State Fault Refusal :=
  vInt 0 none (shortV e 0x33 d a b m l w) s

/-- vor (R274). -/
def execVor (e : Bool) (d a b : BitVec 6) (m l : BitVec 2) (w : BitVec 1) (s : State) : Host.Outcome State Fault Refusal :=
  vInt 1 none (shortV e 0x33 d a b m l w) s

/-- vxor (R274). -/
def execVxor (e : Bool) (d a b : BitVec 6) (m l : BitVec 2) (w : BitVec 1) (s : State) : Host.Outcome State Fault Refusal :=
  vInt 0 none (shortV e 0x34 d a b m l w) s

/-- vandn (R274). -/
def execVandn (e : Bool) (d a b : BitVec 6) (m l : BitVec 2) (w : BitVec 1) (s : State) : Host.Outcome State Fault Refusal :=
  vInt 1 none (shortV e 0x34 d a b m l w) s

/-- vshl (R274). -/
def execVshl (e : Bool) (d a b : BitVec 6) (m l : BitVec 2) (w : BitVec 1) (s : State) : Host.Outcome State Fault Refusal :=
  vInt 0 none (shortV e 0x35 d a b m l w) s

/-- vshr (R274). -/
def execVshr (e : Bool) (d a b : BitVec 6) (m l : BitVec 2) (w : BitVec 1) (s : State) : Host.Outcome State Fault Refusal :=
  vInt 1 none (shortV e 0x35 d a b m l w) s

/-- vsra (R274). -/
def execVsra (e : Bool) (d a b : BitVec 6) (m l : BitVec 2) (w : BitVec 1) (s : State) : Host.Outcome State Fault Refusal :=
  vInt 0 none (shortV e 0x36 d a b m l w) s

/-- vrot (R274). -/
def execVrot (e : Bool) (d a b : BitVec 6) (m l : BitVec 2) (w : BitVec 1) (s : State) : Host.Outcome State Fault Refusal :=
  vInt 1 none (shortV e 0x36 d a b m l w) s

/-- vmin (R274). -/
def execVmin (e : Bool) (d a b : BitVec 6) (m l : BitVec 2) (w : BitVec 1) (s : State) : Host.Outcome State Fault Refusal :=
  vInt 0 none (shortV e 0x37 d a b m l w) s

/-- vmax (R274). -/
def execVmax (e : Bool) (d a b : BitVec 6) (m l : BitVec 2) (w : BitVec 1) (s : State) : Host.Outcome State Fault Refusal :=
  vInt 1 none (shortV e 0x37 d a b m l w) s

/-- vminu (R274). -/
def execVminu (e : Bool) (d a b : BitVec 6) (m l : BitVec 2) (w : BitVec 1) (s : State) : Host.Outcome State Fault Refusal :=
  vInt 0 none (shortV e 0x38 d a b m l w) s

/-- vmaxu (R274). -/
def execVmaxu (e : Bool) (d a b : BitVec 6) (m l : BitVec 2) (w : BitVec 1) (s : State) : Host.Outcome State Fault Refusal :=
  vInt 1 none (shortV e 0x38 d a b m l w) s

/-- vadds (R274). -/
def execVadds (e : Bool) (d a b : BitVec 6) (m l : BitVec 2) (w : BitVec 1) (s : State) : Host.Outcome State Fault Refusal :=
  vInt 0 none (shortV e 0x39 d a b m l w) s

/-- vsubs (R274). -/
def execVsubs (e : Bool) (d a b : BitVec 6) (m l : BitVec 2) (w : BitVec 1) (s : State) : Host.Outcome State Fault Refusal :=
  vInt 1 none (shortV e 0x39 d a b m l w) s

/-- vaddsu (R274). -/
def execVaddsu (e : Bool) (d a b : BitVec 6) (m l : BitVec 2) (w : BitVec 1) (s : State) : Host.Outcome State Fault Refusal :=
  vInt 0 none (shortV e 0x3A d a b m l w) s

/-- vsubsu (R274). -/
def execVsubsu (e : Bool) (d a b : BitVec 6) (m l : BitVec 2) (w : BitVec 1) (s : State) : Host.Outcome State Fault Refusal :=
  vInt 1 none (shortV e 0x3A d a b m l w) s

/-- vcmp (R275). -/
def execVcmp (e : Bool) (pd c : BitVec 4) (a b : BitVec 6) (m l : BitVec 2) (s : State) : Host.Outcome State Fault Refusal :=
  vCmp pd.toNat c.toNat none (shortV e 0x3B 0 a b m l 0) s

/-- vsel (R276). -/
def execVsel (e : Bool) (d a b : BitVec 6) (m l : BitVec 2) (w : BitVec 1) (s : State) : Host.Outcome State Fault Refusal :=
  vSel none (shortV e 0x3C d a b m l w) s

/-- vmov (R276). -/
def execVmov (e : Bool) (d a : BitVec 6) (m : BitVec 2) (l w : BitVec 1) (s : State) : Host.Outcome State Fault Refusal :=
  vMov none (shortU e 0x3C d a m l w) s

/-- vbcast (R276). -/
def execVbcast (e : Bool) (d a : BitVec 6) (m : BitVec 2) (w : BitVec 1) (s : State) : Host.Outcome State Fault Refusal :=
  vBcast none (shortU e 0x3D d a m 0 w) s

/-- vid (R276). -/
def execVid (e : Bool) (d : BitVec 6) (m : BitVec 2) (w : BitVec 1) (s : State) : Host.Outcome State Fault Refusal :=
  vId none (shortU e 0x3D d 0 m 0 w) s

/-- vext (R276). -/
def execVext (e : Bool) (d a b : BitVec 6) (l : BitVec 1) (s : State) : Host.Outcome State Fault Refusal :=
  vExt none { shortU e 0x3E d a 0 l 0 with b := b } s

/-- vins (R276). -/
def execVins (e : Bool) (d a b : BitVec 6) (w : BitVec 1) (s : State) : Host.Outcome State Fault Refusal :=
  vIns none { shortU e 0x3E d a 0 0 w with b := b } s

/-- vcvt (R277). -/
def execVcvt (e : Bool) (d a c : BitVec 6) (m : BitVec 2) (l w : BitVec 1) (s : State) : Host.Outcome State Fault Refusal :=
  vCvt none { shortU e 0x3F d a m l w with b := c } s

end Sys2Proof.Machine
end

