-- ==== Sys2Proof/Machine/VecFloat.lean ====
section
/-! DEFINITION. Floating-point vector instructions and conversions (majors 0x40 to 0x48; R268, R278 to R283). -/

namespace Sys2Proof.Machine

open Sys2Proof

/-- The format of a floating form. -/
def vfmt (wide : Bool) : Fmt := if wide then fB64 else fB32

/-- A floating source pattern, flushed under FTZ (R117, R268). -/
def vfIn (f : Fmt) (ftz : Bool) (x : Nat) : Nat := ftzIn ftz f (x % 2 ^ Fmt_width f)

/-- a × 2^n (R279); beyond ±20,000 the exponent makes no difference. -/
def fScaleb (f : Fmt) (rm : Rm) (a : Fv) (n : Int) : Nat × Flags :=
  match a with
  | .fin neg m e => fround f rm neg m (e + clamp (-20000) 20000 n) false
  | .inf neg => (fInf f neg, 0)
  | x => nanResult f [x]

/-- The bits of a with the sign of b (R279). -/
def fSgnj (f : Fmt) (a b : Nat) : Nat := a % 2 ^ (f.eb + f.mb) + signBit f (bitAt b (f.eb + f.mb))

/-- Floating results by major and X (R278, R279); d is the old destination. -/
def fpEl (f : Fmt) (rm : Rm) (ftz : Bool) (major x a b d : Nat) : Nat × Flags :=
  let fa := fdecode f (vfIn f ftz a)
  let fb := fdecode f (vfIn f ftz b)
  let fd := fdecode f (vfIn f ftz d)
  match major, x with
  | 0x40, 0 => ftzOut ftz f (fAdd f rm fa fb)
  | 0x40, _ => ftzOut ftz f (fAdd f rm fa (fNeg fb))
  | 0x41, 0 => ftzOut ftz f (fMul f rm fa fb)
  | 0x41, _ => ftzOut ftz f (fDiv f rm fa fb)
  | 0x42, 0 => ftzOut ftz f (fFma f rm fa fb fd)
  | 0x42, _ => ftzOut ftz f (fFma f rm fa fb (fNeg fd))
  | 0x43, 0 => ftzOut ftz f (fFma f rm (fNeg fa) fb fd)
  | 0x43, _ => ftzOut ftz f (fFma f rm (fNeg fa) fb (fNeg fd))
  | 0x44, 0 => ftzOut ftz f (fMinMax f false (vfIn f ftz a) (vfIn f ftz b))
  | 0x44, _ => ftzOut ftz f (fMinMax f true (vfIn f ftz a) (vfIn f ftz b))
  | _, 0 => ftzOut ftz f (fScaleb f rm fa (sextNat b (Fmt_width f)))
  | _, _ => (fSgnj f a b, 0)

/-- Majors 0x40 to 0x44 and 0x47 (R278, R279). -/
def vFp (x : Nat) (enc : Option Nat) (v : VArgs) (s : State) : Host.Outcome State Fault Refusal :=
  issueV v enc (useA v :: useB v ++ useD v x) (some v.wide)
    (vecMap v v.wide fun s i =>
      fpEl (vfmt v.wide) (fcsrRm (curGroup s)) (fcsrFtz (curGroup s)) v.major x (srcA v s i) (srcB v s i) (srcD v s i)) s

/-- The conditions of vfcmp with their flags (R280). -/
def fpCond (cond : Nat) (a b : Fv) : Bool × Flags :=
  match cond with
  | 0 => fCmp 0 a b
  | 1 => (!(fCmp 0 a b).1, (fCmp 0 a b).2)
  | 2 => fCmp 1 a b
  | 3 => fCmp 2 a b
  | 4 => fCmp 1 b a
  | 5 => fCmp 2 b a
  | 6 => fCmp 3 a b
  | _ => (!(fCmp 3 a b).1, (fCmp 3 a b).2)

/-- vfcmp (R280). -/
def vFcmp (pd cond : Nat) (enc : Option Nat) (v : VArgs) (s : State) : Host.Outcome State Fault Refusal :=
  let f := vfmt v.wide
  issueV v (firstOf [failIf (7 < cond) 0x01, enc]) (useA v :: useB v) none
    (predMap v pd fun s i =>
      let ftz := fcsrFtz (curGroup s)
      fpCond cond (fdecode f (vfIn f ftz (srcA v s i))) (fdecode f (vfIn f ftz (srcB v s i)))) s

/-! Functions of one source (R281, R282). -/

/-- vfgetexp. -/
def fGetexp (f : Fmt) (rm : Rm) (a : Fv) : Nat × Flags :=
  match a with
  | .fin _ m e => if m = 0 then (fInf f true, flDZ) else toFmt f rm (ofIntFv ((Nat.log2 m : Int) + e))
  | .inf _ => (fInf f false, 0)
  | x => nanResult f [x]

/-- vfgetman. -/
def fGetman (f : Fmt) (rm : Rm) (a : Fv) : Nat × Flags :=
  match a with
  | .fin neg m _ => if m = 0 then (signBit f neg, 0) else fround f rm neg m (-(Nat.log2 m : Int)) false
  | .inf _ => invalid f
  | x => nanResult f [x]

/-- vfclass: one bit of the mask. -/
def fClass (f : Fmt) (x : Nat) : Nat :=
  let sub := bits x f.mb f.eb == 0
  match fdecode f x with
  | .inf neg => if neg then 2 ^ 0 else 2 ^ 7
  | .nan sg => if sg then 2 ^ 8 else 2 ^ 9
  | .fin neg m _ =>
    if m = 0 then (if neg then 2 ^ 3 else 2 ^ 4)
    else if sub then (if neg then 2 ^ 2 else 2 ^ 5)
    else (if neg then 2 ^ 1 else 2 ^ 6)

/-- vfround in a mode: the sign is kept and NX is never raised. -/
def fRoundInt (f : Fmt) (rm : Rm) (a : Fv) : Nat × Flags :=
  match a with
  | .fin neg m e => ((fround f .rne neg (roundAt rm neg m e 0 false).1 0 false).1, 0)
  | .inf neg => (fInf f neg, 0)
  | x => nanResult f [x]

/-- x × 2^e ≤ y × 2^k. -/
def dyLe (x : Int) (e : Int) (y : Int) (k : Int) : Bool :=
  let q := min e k
  decide (x * ((2 ^ (e - q).toNat : Nat) : Int) ≤ y * ((2 ^ (k - q).toNat : Nat) : Int))

/-- The exponent of the ulp at a value in [2^e, 2^(e+1)) (R118). -/
def ulpExp (f : Fmt) (e : Int) : Int := max e (1 - (f.bias : Int)) - f.mb

/-- Does a finite value y lie within 2^u of 1 ÷ a, for a = m × 2^ea > 0? -/
def nearRecip (m : Nat) (ea u : Int) (y : Nat) (ey : Int) : Bool :=
  let q := min ey u
  let yi : Int := (y * 2 ^ (ey - q).toNat : Nat)
  let ui : Int := (2 ^ (u - q).toNat : Nat)
  dyLe ((yi - ui) * m) (q + ea) 1 0 && dyLe 1 0 ((yi + ui) * m) (q + ea)

/-- Does y lie within 2^u of 1 ÷ √a? -/
def nearRsqrt (m : Nat) (ea u : Int) (y : Nat) (ey : Int) : Bool :=
  let q := min ey u
  let yi : Int := (y * 2 ^ (ey - q).toNat : Nat)
  let ui : Int := (2 ^ (u - q).toNat : Nat)
  let lo := yi - ui
  let hi := yi + ui
  (decide (lo ≤ 0) || dyLe (lo * lo * m) (2 * q + ea) 1 0) && dyLe 1 0 (hi * hi * m) (2 * q + ea)

/-- The device's approximation when it is a finite value of the right sign that a test accepts, else the correctly rounded value
(R282; log 11). -/
def approxOr (f : Fmt) (k x : Nat) (neg : Bool) (ok : Nat → Int → Bool) (r : Nat) : Nat :=
  let c := Config.approx k x % 2 ^ Fmt_width f
  match fdecode f c with
  | .fin n m e => if n == neg && ok m e then c else r
  | _ => r

/-- The flags of an approximation that is not exact. -/
def inexactFlags (f : Fmt) (r : Nat) : Flags := if bits r f.mb f.eb = 0 then flUF ||| flNX else flNX

def isPow2 (m : Nat) : Bool := m != 0 && m == 2 ^ Nat.log2 m

/-- vfrcp (R282). -/
def fRcp (f : Fmt) (k x : Nat) : Nat × Flags :=
  match fdecode f x with
  | .fin neg m e =>
    if m = 0 then (fInf f neg, flDZ)
    else
      let r := fDiv f .rne (.fin neg 1 0) (.fin false m e)
      match fdecode f r.1 with
      | .fin _ _ _ =>
        if isPow2 m && r.2 == 0 then (r.1, 0)
        else
          let top : Int := -(Nat.log2 m : Int) - e - (if isPow2 m then 0 else 1)
          let c := approxOr f k x neg (nearRecip m e (ulpExp f top)) r.1
          (c, inexactFlags f c)
      | _ => (fInf f neg, flOF ||| flNX)
  | .inf neg => (signBit f neg, 0)
  | v => nanResult f [v]

/-- 1 ÷ √(m × 2^e), correctly rounded, for a value that is no even power of two. -/
def rsqrtNearest (f : Fmt) (m : Nat) (e : Int) : Nat :=
  let m' := if e % 2 = 0 then m else 2 * m
  let e' := if e % 2 = 0 then e else e - 1
  let k := Nat.log2 m' / 2 + f.mb + 8
  let n := 2 ^ (2 * (k + Nat.log2 m')) / m'
  let r := isqrt n (Nat.log2 n / 2 + 1) 0
  (fround f .rne false r (-(k + Nat.log2 m' : Nat) - e' / 2) true).1

/-- vfrsq (R282). -/
def fRsq (f : Fmt) (k x : Nat) : Nat × Flags :=
  match fdecode f x with
  | .fin neg m e =>
    if m = 0 then (fInf f neg, flDZ)
    else if neg then invalid f
    else
      let t : Int := (Nat.log2 m : Int) + e
      if isPow2 m && t % 2 == 0 then ((fround f .rne false 1 (-t / 2) false).1, 0)
      else
        let top : Int := if !isPow2 m && t % 2 == 0 then -t / 2 - 1 else -t / 2
        let c := approxOr f k x false (nearRsqrt m e (ulpExp f top)) (rsqrtNearest f m e)
        (c, inexactFlags f c)
  | .inf neg => if neg then invalid f else (signBit f false, 0)
  | v => nanResult f [v]

/-- 2^(2^-k) × 2^160, rounded down, from k = 0 on. -/
def exp2Root : Nat → Nat
  | 0 => 2 ^ 161
  | k + 1 => isqrt (exp2Root k * 2 ^ 160) 162 0

/-- 2^(n × 2^-149) × 2^160 for n < 2^150, a little below it: the product over the bits of n. -/
def exp2Prod (n : Nat) : Nat :=
  ((List.range 150).filter fun j => bitAt n (149 - j)).foldl (fun p j => p * exp2Root j / 2 ^ 160) (2 ^ 160)

/-- 2^x × 2^160 for x = ±n × 2^-149, n ≤ 2^149, just below or just above it. -/
def exp2Fix (neg : Bool) (n : Nat) : Nat := if neg then 2 ^ 320 / exp2Prod n else exp2Prod n

/-- Does y × 2^ey lie within 2^u of a number given times 2^160? -/
def nearFix (v : Nat) (u : Int) (y : Nat) (ey : Int) : Bool :=
  let q := min ey u
  let yi : Int := (y * 2 ^ (ey - q).toNat : Nat)
  let ui : Int := (2 ^ (u - q).toNat : Nat)
  dyLe (yi - ui) q v (-160) && dyLe v (-160) (yi + ui) q

/-- vfexp2f (R282), on binary32. -/
def fExp2 (x : Nat) : Nat × Flags :=
  match fdecode fB32 x with
  | .fin neg m e =>
    if m = 0 then (0x3F800000, 0)
    else
      let n := m * 2 ^ (e + 149).toNat
      if 2 ^ 149 < n then invalid fB32
      else if n = 2 ^ 149 then (if neg then 0x3F000000 else 0x40000000, 0)
      else
        let v := exp2Fix neg n
        let r := (fround fB32 .rne false v (-160) true).1
        (approxOr fB32 2 x false (nearFix v (ulpExp fB32 (if neg then -1 else 0))) r, flNX)
  | .inf _ => invalid fB32
  | v => nanResult fB32 [v]

/-- vfun1 by function code (R281). -/
def fun1El (wide : Bool) (rm : Rm) (ftz : Bool) (code a : Nat) : Nat × Flags :=
  let f := vfmt wide
  let x := vfIn f ftz a
  let v := fdecode f x
  match code with
  | 0 => ftzOut ftz f (fSqrt f rm v)
  | 1 => ftzOut ftz f (fRcp f (if wide then 4 else 0) x)
  | 2 => ftzOut ftz f (fRsq f (if wide then 5 else 1) x)
  | 3 => ftzOut ftz f (fExp2 x)
  | 4 => fGetexp f rm v
  | 5 => fGetman f rm v
  | 6 => (fClass f a, 0)
  | 7 => (a % 2 ^ (f.eb + f.mb), 0)
  | 8 => (fSgnj f a (2 ^ (f.eb + f.mb) - a % 2 ^ (f.eb + f.mb + 1) / 2 ^ (f.eb + f.mb) * 2 ^ (f.eb + f.mb)), 0)
  | 9 => fRoundInt f rm v
  | 10 => fRoundInt f .rne v
  | 11 => fRoundInt f .rtz v
  | 12 => fRoundInt f .rdn v
  | _ => fRoundInt f .rup v

/-- Major 0x46 (R281). -/
def vFun1 (code : Nat) (enc : Option Nat) (v : VArgs) (s : State) : Host.Outcome State Fault Refusal :=
  issueV v (firstOf [failIf (decide (13 < code) || (code == 3 && v.wide)) 0x01, enc]) [useA v] (some v.wide)
    (vecMap v v.wide fun s i => fun1El v.wide (fcsrRm (curGroup s)) (fcsrFtz (curGroup s)) code (srcA v s i)) s

/-- The formats of vfcvt (R283). -/
def vfcvtFmt (c : Nat) : Fmt :=
  match c with
  | 0 => fB32
  | 1 => fB64
  | 2 => fB16
  | 3 => fBf16
  | 4 => fE4m3
  | _ => fE5m2

/-- vfcvt between floating formats (R283): dt `x`, st `y`. -/
def vFcvt (x y : Nat) (enc : Option Nat) (v0 : VArgs) (s : State) : Host.Outcome State Fault Refusal :=
  let v := { v0 with wide := y == 1 }
  issueV v (firstOf [failIf (decide (5 < x) || decide (5 < y) || x == y) 0x01, enc]) [useA v] (some (x == 1))
    (vecMap v (x == 1) fun s i =>
      cvtEl (fcsrRm (curGroup s)) (fcsrFtz (curGroup s)) (.flt (vfcvtFmt x)) (.flt (vfcvtFmt y)) (srcA v s i)) s

/-- vfadd (R278). -/
def execVfadd (e : Bool) (d a b : BitVec 6) (m l : BitVec 2) (w : BitVec 1) (s : State) : Host.Outcome State Fault Refusal :=
  vFp 0 none (shortV e 0x40 d a b m l w) s

/-- vfsub (R278). -/
def execVfsub (e : Bool) (d a b : BitVec 6) (m l : BitVec 2) (w : BitVec 1) (s : State) : Host.Outcome State Fault Refusal :=
  vFp 1 none (shortV e 0x40 d a b m l w) s

/-- vfmul (R278). -/
def execVfmul (e : Bool) (d a b : BitVec 6) (m l : BitVec 2) (w : BitVec 1) (s : State) : Host.Outcome State Fault Refusal :=
  vFp 0 none (shortV e 0x41 d a b m l w) s

/-- vfdiv (R278). -/
def execVfdiv (e : Bool) (d a b : BitVec 6) (m l : BitVec 2) (w : BitVec 1) (s : State) : Host.Outcome State Fault Refusal :=
  vFp 1 none (shortV e 0x41 d a b m l w) s

/-- vffma (R278). -/
def execVffma (e : Bool) (d a b : BitVec 6) (m l : BitVec 2) (w : BitVec 1) (s : State) : Host.Outcome State Fault Refusal :=
  vFp 0 none (shortV e 0x42 d a b m l w) s

/-- vffms (R278). -/
def execVffms (e : Bool) (d a b : BitVec 6) (m l : BitVec 2) (w : BitVec 1) (s : State) : Host.Outcome State Fault Refusal :=
  vFp 1 none (shortV e 0x42 d a b m l w) s

/-- vfnma (R278). -/
def execVfnma (e : Bool) (d a b : BitVec 6) (m l : BitVec 2) (w : BitVec 1) (s : State) : Host.Outcome State Fault Refusal :=
  vFp 0 none (shortV e 0x43 d a b m l w) s

/-- vfnms (R278). -/
def execVfnms (e : Bool) (d a b : BitVec 6) (m l : BitVec 2) (w : BitVec 1) (s : State) : Host.Outcome State Fault Refusal :=
  vFp 1 none (shortV e 0x43 d a b m l w) s

/-- vfmin (R278). -/
def execVfmin (e : Bool) (d a b : BitVec 6) (m l : BitVec 2) (w : BitVec 1) (s : State) : Host.Outcome State Fault Refusal :=
  vFp 0 none (shortV e 0x44 d a b m l w) s

/-- vfmax (R278). -/
def execVfmax (e : Bool) (d a b : BitVec 6) (m l : BitVec 2) (w : BitVec 1) (s : State) : Host.Outcome State Fault Refusal :=
  vFp 1 none (shortV e 0x44 d a b m l w) s

/-- vfscaleb (R279). -/
def execVfscaleb (e : Bool) (d a b : BitVec 6) (m l : BitVec 2) (w : BitVec 1) (s : State) : Host.Outcome State Fault Refusal :=
  vFp 0 none (shortV e 0x47 d a b m l w) s

/-- vfsgnj (R279). -/
def execVfsgnj (e : Bool) (d a b : BitVec 6) (m l : BitVec 2) (w : BitVec 1) (s : State) : Host.Outcome State Fault Refusal :=
  vFp 1 none (shortV e 0x47 d a b m l w) s

/-- vfcmp (R280). -/
def execVfcmp (e : Bool) (pd c : BitVec 4) (a b : BitVec 6) (m l : BitVec 2) (s : State) : Host.Outcome State Fault Refusal :=
  vFcmp pd.toNat c.toNat none (shortV e 0x45 0 a b m l 0) s

/-- vfsqrt (R281). -/
def execVfsqrt (e : Bool) (d a : BitVec 6) (m : BitVec 2) (l w : BitVec 1) (s : State) : Host.Outcome State Fault Refusal :=
  vFun1 0 none (shortU e 0x46 d a m l w) s

/-- vfrcp (R282). -/
def execVfrcp (e : Bool) (d a : BitVec 6) (m : BitVec 2) (l w : BitVec 1) (s : State) : Host.Outcome State Fault Refusal :=
  vFun1 1 none (shortU e 0x46 d a m l w) s

/-- vfrsq (R282). -/
def execVfrsq (e : Bool) (d a : BitVec 6) (m : BitVec 2) (l w : BitVec 1) (s : State) : Host.Outcome State Fault Refusal :=
  vFun1 2 none (shortU e 0x46 d a m l w) s

/-- vfexp2f (R282). -/
def execVfexp2f (e : Bool) (d a : BitVec 6) (m : BitVec 2) (l w : BitVec 1) (s : State) : Host.Outcome State Fault Refusal :=
  vFun1 3 none (shortU e 0x46 d a m l w) s

/-- vfgetexp (R281). -/
def execVfgetexp (e : Bool) (d a : BitVec 6) (m : BitVec 2) (l w : BitVec 1) (s : State) : Host.Outcome State Fault Refusal :=
  vFun1 4 none (shortU e 0x46 d a m l w) s

/-- vfgetman (R281). -/
def execVfgetman (e : Bool) (d a : BitVec 6) (m : BitVec 2) (l w : BitVec 1) (s : State) : Host.Outcome State Fault Refusal :=
  vFun1 5 none (shortU e 0x46 d a m l w) s

/-- vfclass (R281). -/
def execVfclass (e : Bool) (d a : BitVec 6) (m : BitVec 2) (l w : BitVec 1) (s : State) : Host.Outcome State Fault Refusal :=
  vFun1 6 none (shortU e 0x46 d a m l w) s

/-- vfabs (R281). -/
def execVfabs (e : Bool) (d a : BitVec 6) (m : BitVec 2) (l w : BitVec 1) (s : State) : Host.Outcome State Fault Refusal :=
  vFun1 7 none (shortU e 0x46 d a m l w) s

/-- vfneg (R281). -/
def execVfneg (e : Bool) (d a : BitVec 6) (m : BitVec 2) (l w : BitVec 1) (s : State) : Host.Outcome State Fault Refusal :=
  vFun1 8 none (shortU e 0x46 d a m l w) s

/-- vfround (R281). -/
def execVfround (e : Bool) (d a : BitVec 6) (m : BitVec 2) (l w : BitVec 1) (s : State) : Host.Outcome State Fault Refusal :=
  vFun1 9 none (shortU e 0x46 d a m l w) s

/-- vfroundRne (R281). -/
def execVfroundRne (e : Bool) (d a : BitVec 6) (m : BitVec 2) (l w : BitVec 1) (s : State) : Host.Outcome State Fault Refusal :=
  vFun1 10 none (shortU e 0x46 d a m l w) s

/-- vfroundRtz (R281). -/
def execVfroundRtz (e : Bool) (d a : BitVec 6) (m : BitVec 2) (l w : BitVec 1) (s : State) : Host.Outcome State Fault Refusal :=
  vFun1 11 none (shortU e 0x46 d a m l w) s

/-- vfroundRdn (R281). -/
def execVfroundRdn (e : Bool) (d a : BitVec 6) (m : BitVec 2) (l w : BitVec 1) (s : State) : Host.Outcome State Fault Refusal :=
  vFun1 12 none (shortU e 0x46 d a m l w) s

/-- vfroundRup (R281). -/
def execVfroundRup (e : Bool) (d a : BitVec 6) (m : BitVec 2) (l w : BitVec 1) (s : State) : Host.Outcome State Fault Refusal :=
  vFun1 13 none (shortU e 0x46 d a m l w) s

/-- vfcvt (R283). -/
def execVfcvt (e : Bool) (d a : BitVec 6) (x y : BitVec 3) (m : BitVec 2) (l w : BitVec 1) (s : State) : Host.Outcome State Fault Refusal :=
  vFcvt x.toNat y.toNat none (shortU e 0x48 d a m l w) s

end Sys2Proof.Machine
end

