-- ==== Sys2Proof/Machine/Blocks.lean ====
section
/-! DEFINITION. Element formats (R79), block scales and bit-plane integers (R121 to R128), segments in memory and their split layout
(R80, R123, R126), and the conversion between any two of them (R102, R119, R120). -/

namespace Sys2Proof.Machine

/-- What an element code holds (R79, R121). `mx` carries emax. -/
inductive ElTy where
  | flt (f : Fmt)
  | int (w : Nat) (signed : Bool)
  | mx (f : Fmt) (emax : Nat)
  | mxi
  | bpi
  deriving DecidableEq, Repr

def elTy (code : Nat) : Option ElTy :=
  match code with
  | 0x01 => some (.flt fB32)
  | 0x02 => some (.flt fBf16)
  | 0x03 => some (.flt fB16)
  | 0x04 => some (.flt fE4m3)
  | 0x05 => some (.flt fE5m2)
  | 0x06 => some (.int 8 true)
  | 0x07 => some (.int 8 false)
  | 0x08 => some (.int 16 true)
  | 0x09 => some (.int 32 true)
  | 0x0A => some (.flt fB64)
  | 0x0B => some (.int 64 true)
  | 0x10 => some (.mx fE4m3 8)
  | 0x11 => some (.mx fE5m2 16)
  | 0x12 => some (.mx fE3m2 4)
  | 0x13 => some (.mx fE2m3 2)
  | 0x14 => some (.mx fE2m1 2)
  | 0x15 => some .mxi
  | 0x16 => some .bpi
  | 0x17 => some .bpi
  | _ => none

def isFmt (code : Nat) : Bool := (elTy code).isSome

def isBlockFmt (code : Nat) : Bool := 0x10 ≤ code && code ≤ 0x17

def isBpi (code : Nat) : Bool := code == 0x16 || code == 0x17

/-- Bits of an element. -/
def elBits (code : Nat) : Nat :=
  match elTy code with
  | some (.flt f) => Fmt_width f
  | some (.int w _) => w
  | some (.mx f _) => Fmt_width f
  | _ => 8

/-- Bytes of an element of a plain format. -/
def elBytes (code : Nat) : Nat := elBits code / 8

/-- Block element bytes BB (R79). -/
def blockBytes (code : Nat) : Nat := 4 * elBits code

/-- Segment bytes SB (R79). -/
def segBytes (code : Nat) : Nat := if code = 0x16 then 32 else blockBytes code + 4

/-- emax of the scale step (R121, R293). -/
def scaleEmax (code : Nat) : Int :=
  match elTy code with
  | some (.mx _ e) => e
  | some .bpi => 6
  | _ => 0

/-! Values and codes. -/

/-- A bit-plane integer read with k planes (R127): v. -/
def bpiCode (x k : Nat) (rnd : Bool) : Int :=
  sextNat x 8 / ((2 ^ (8 - k) : Nat) : Int) + (if rnd && decide (k < 8) && bitAt x (7 - k) then 1 else 0)

/-- Its value, v × 2^(8 − k). -/
def bpiValue (x k : Nat) (rnd : Bool) : Int := bpiCode x k rnd * ((2 ^ (8 - k) : Nat) : Int)

/-- The exact value of an element of a block under scale byte x8 (R121, R125, R128); BPI is read with k planes. -/
def blockValue (code x8 k : Nat) (rnd : Bool) (x : Nat) : Fv :=
  if code ≠ 0x16 ∧ x8 = 0xFF then .nan false
  else
    let sh : Int := if code = 0x16 then 0 else (x8 : Int) - 127
    match elTy code with
    | some (.mx f _) =>
      match fdecode f x with
      | .fin n m e => .fin n m (e + sh)
      | v => v
    | some .mxi => let i := sextNat x 8; .fin (decide (i < 0)) i.natAbs (sh - 6)
    | _ => let i := bpiValue x k rnd; .fin (decide (i < 0)) i.natAbs sh

/-- The value of an element of a plain format. -/
def plainValue (code x : Nat) : Fv :=
  match elTy code with
  | some (.flt f) => fdecode f x
  | some (.int w sg) => ofIntFv (if sg then sextNat x w else ((x % 2 ^ w : Nat) : Int))
  | _ => .nan false

/-- A value written as a code of a plain format (R119, R120). A value of one integer format written in another saturates to the
destination's range (DESIGN CHOICE, log 118). -/
def plainCode (code : Nat) (rm : Rm) (v : Fv) : Nat :=
  match elTy code with
  | some (.flt f) => (toFmt f rm v).1
  | some (.int w sg) => (BitVec.ofInt w (toIntSat w sg rm v).1).toNat
  | _ => 0

/-- floor(log2) of a finite nonzero value. -/
def fvLog2 : Fv → Option Int
  | .fin _ m e => if m = 0 then none else some ((Nat.log2 m : Int) + e)
  | _ => none

def fvFinite : Fv → Bool
  | .fin _ _ _ => true
  | _ => false

/-- The scale step (R124): the byte X8 for the values of a block. -/
def scaleStep (code : Nat) (l : List Fv) : Nat :=
  if l.any fun v => !fvFinite v then 0xFF
  else
    let x : Int := match (l.filterMap fvLog2).max? with
      | none => -127
      | some t => t - scaleEmax code
    (clamp (-127) 127 x + 127).toNat

/-- An integer code of 8 bits (R124, R284): clamped with OF and NX; a NaN gives 0 and an infinity its end, with NV (R120). -/
def intCode (rm : Rm) (sh : Int) (v : Fv) : Nat × Flags :=
  match v with
  | .fin n m e =>
    let (x, nx) := toInt rm n m (e + sh)
    if x < -128 then (0x80, flOF ||| flNX) else if 127 < x then (0x7F, flOF ||| flNX)
    else ((BitVec.ofInt 8 x).toNat, if nx then flNX else 0)
  | .inf n => (if n then 0x80 else 0x7F, flNV)
  | .nan _ => (0, flNV)

/-- The element step (R124) under scale byte x8; code 0 in an invalid block. -/
def elemStep (code x8 : Nat) (rm : Rm) (v : Fv) : Nat × Flags :=
  if code ≠ 0x16 ∧ x8 = 0xFF then (0, 0)
  else
    let x : Int := if code = 0x16 then 0 else (x8 : Int) - 127
    match elTy code with
    | some (.mx f _) =>
      match v with
      | .fin n m e => fround f rm n m (e - x) false
      | w => toFmt f rm w
    | some .mxi => intCode rm (6 - x) v
    | _ => intCode rm (-x) v

/-! Segments. -/

/-- Element codes packed into the BB element bytes of a block: fields side by side, or planes (R123, R126). -/
def packEls (code : Nat) (l : List Nat) : List Byte :=
  if isBpi code then
    (List.range 8).flatMap fun p => toBytes 4 ((List.range 32).map fun j => b2n (bitAt (l.getD j 0) (7 - p)) * 2 ^ j).sum
  else toBytes (blockBytes code) ((List.range 32).map fun j => l.getD j 0 % 2 ^ elBits code * 2 ^ (elBits code * j)).sum

/-- Element codes from the element bytes. -/
def unpackEls (code : Nat) (l : List Byte) : List Nat :=
  let n := ofBytes l
  if isBpi code then
    (List.range 32).map fun j => ((List.range 8).map fun p => b2n (bitAt n (32 * p + j)) * 2 ^ (7 - p)).sum
  else (List.range 32).map fun j => bits n (elBits code * j) (elBits code)

/-- A segment from its scale byte and element codes (R123, R126, R131). -/
def packSeg (code x8 : Nat) (l : List Nat) : List Byte :=
  let els := packEls code (if code ≠ 0x16 ∧ x8 = 0xFF then [] else l)
  if code = 0x16 then els else BitVec.ofNat 8 x8 :: 0 :: 0 :: 0 :: els

/-- Scale byte of a segment; 0x7F for an unscaled one. -/
def segScale (code : Nat) (l : List Byte) : Nat := if code = 0x16 then 0x7F else (l.headD 0).toNat

/-- Element codes of a segment. -/
def segEls (code : Nat) (l : List Byte) : List Nat := unpackEls code (if code = 0x16 then l else l.drop 4)

/-- Thirty-two values written as a block (R102, R124, R128): its scale byte and element codes. `plain`: the values come from INT8 or
unscaled BPI. -/
def blockFrom (code : Nat) (rm : Rm) (plain : Bool) (l : List Fv) : Nat × List Nat :=
  let x8 := if code = 0x16 ∨ (code = 0x17 ∧ plain) then 0x7F else scaleStep code l
  (x8, l.map fun v => (elemStep code x8 rm v).1)

end Sys2Proof.Machine
end

