-- ==== Sys2Proof/Machine/VecLane.lean ====
section
/-! DEFINITION. Predicate instructions, shuffles, lane shifts, compress and expand, reductions, scans, ballots and votes (majors 0x49 to
0x4E; R285 to R292). -/

namespace Sys2Proof.Machine

open Sys2Proof

/-- pd[i] := f(pa, pb) for every active thread (R285). -/
def vPred (f : Bool → Bool → Bool) (pd pa pb : Nat) (enc : Option Nat) (v : VArgs) (s : State) : Host.Outcome State Fault Refusal :=
  issueV v enc [] none (predMap v pd fun s i => (f ((rdP pa s).getLsbD i) ((rdP pb s).getLsbD i), 0)) s

/-- The lowest active thread with pa set (R286). -/
def firstSet (v : VArgs) (pa : Nat) (s : State) : Option Nat := (actives v s).find? fun i => (rdP pa s).getLsbD i

/-- psbf, psif and psof (R286): a test of i against f. -/
def vPrefix (t : Nat → Option Nat → Bool) (pd pa : Nat) (enc : Option Nat) (v0 : VArgs) (s : State) :
    Host.Outcome State Fault Refusal :=
  let v := { v0 with once := false }
  issueV v enc [] none (predMap v pd fun s i => (t i (firstSet v pa s), 0)) s

/-- pfirst (R201, R286). -/
def vPfirst (pa : Nat) (enc : Option Nat) (v0 : VArgs) (s : State) : Host.Outcome State Fault Refusal :=
  let v := { v0 with once := false }
  issueV v enc [] none (scalarResult v.d fun s => some (match firstSet v pa s with
    | some i => BitVec.ofNat 64 i
    | none => BitVec.allOnes 64)) s

/-- ppopc (R201, R286). -/
def vPpopc (pa : Nat) (enc : Option Nat) (v0 : VArgs) (s : State) : Host.Outcome State Fault Refusal :=
  let v := { v0 with once := false }
  issueV v enc [] none
    (scalarResult v.d fun s => some (BitVec.ofNat 64 (popcount (activeSet v v.pm s &&& rdP pa s)))) s

/-- piota (R286). -/
def vPiota (pa : Nat) (enc : Option Nat) (v0 : VArgs) (s : State) : Host.Outcome State Fault Refusal :=
  let v := { v0 with once := false }
  issueV v enc [] (some false)
    (vecMap v false fun s i => (popcount (activeSet v v.pm s &&& rdP pa s &&& ones 1024 i), 0)) s

/-! Shuffles and lane shifts. -/

/-- vshfl (R287). With SB = 1 the index is the low 32 bits of s[B], of 64-bit elements too: R273 keeps the index of vshfl.d at 32 bits
(DESIGN CHOICE, log 105). -/
def vShfl (enc : Option Nat) (v0 : VArgs) (s : State) : Host.Outcome State Fault Refusal :=
  let v := { v0 with once := false }
  issueV v enc (useA v :: (if v.sb then [] else [srcUse v.lb v.b (v.wide && !v.lb)])) (some v.wide)
    (vecMap v v.wide fun s i =>
      (srcLane v s i (if v.sb then vbits (scalarFor v s i v.b) 0 32 else srcEl v s v.lb false v.b i i), 0)) s

/-- vshflx, vlup and vldn (R287): the source lane, when the thread is written. -/
def vShift (lane : Nat → Nat → Option Nat) (enc : Option Nat) (v0 : VArgs) (s : State) : Host.Outcome State Fault Refusal :=
  let v := { v0 with once := false }
  issueV v enc [useA v] (some v.wide) (fun s =>
    if noElement s then (zeroStart s, .next)
    else
      let n := (rdS v.b s).toNat
      let l : Vals := (actives v s).filterMap fun i => (lane i n).map fun j => (i, srcLane v s i j)
      (zeroStart (putVec v v.wide l s), .next)) s

def laneXor (i n : Nat) : Option Nat := some (i ^^^ n)

def laneUp (i n : Nat) : Option Nat := if n ≤ i then some (i - n) else none

def laneDown (i n : Nat) : Option Nat := some (i + n)

/-- vcompress and vexpand (R288). -/
def vPack (isExpand : Bool) (enc : Option Nat) (v0 : VArgs) (s : State) : Host.Outcome State Fault Refusal :=
  let v := { v0 with once := false }
  issueV v enc [useA v] (some v.wide) (fun s =>
    if (curGroup s).vstart ≠ 0 then (s, .trapOn (startPath s).pidx 0x09 0 0)
    else if noElement s then (zeroStart s, .next)
    else
      let act := actives v s
      let l : Vals := (List.range act.length).map fun c =>
        let i := act.getD c 0
        if isExpand then (i, srcEl v s v.la v.wide v.a i c) else (c, srcEl v s v.la v.wide v.a i i)
      (zeroStart (putVec v v.wide l s), .next)) s

/-! Reductions and scans. -/

/-- A floating sum, minimum or maximum of two patterns under the modes of fcsr. -/
def fpPair (k : Nat) (wide : Bool) (s : State) (a b : Nat) : Nat × Flags :=
  let f := vfmt wide
  let ftz := fcsrFtz (curGroup s)
  let x := vfIn f ftz a
  let y := vfIn f ftz b
  ftzOut ftz f (match k with
    | 0 => fAdd f (fcsrRm (curGroup s)) (fdecode f x) (fdecode f y)
    | 1 => fMinMax f false x y
    | _ => fMinMax f true x y)

/-- An integer reduction step on 64 bits (R289). -/
def intPair (k : Nat) (a b : Word) : Word :=
  match k with
  | 0 => a + b
  | 1 => if a.slt b then a else b
  | 2 => if a.slt b then b else a
  | 3 => a &&& b
  | 4 => a ||| b
  | _ => a ^^^ b

/-- One level of the tree of fsum.u (R289): `none` is ABSENT. -/
def treeLevel (add : Nat → Nat → Nat × Flags) : List (Option Nat) → List (Option Nat) × Flags
  | x :: y :: l =>
    let (r, fl) := treeLevel add l
    match x, y with
    | some a, some b => (some (add a b).1 :: r, fl ||| (add a b).2)
    | some a, none => (some a :: r, fl)
    | none, z => (z :: r, fl)
  | l => (l, 0)

/-- The tree of fsum.u: levels until one node is left. -/
def treeSum (add : Nat → Nat → Nat × Flags) : Nat → List (Option Nat) → Option Nat × Flags
  | 0, l => (l.headD none, 0)
  | n + 1, l =>
    let (l, fl) := treeLevel add l
    let (r, fl') := treeSum add n l
    (r, fl ||| fl')

/-- The smallest k with n ≤ 2^k. -/
def log2Up (n : Nat) : Nat := if n ≤ 1 then 0 else Nat.log2 (n - 1) + 1

/-- The elements as 64-bit words: sign-extended for sum, min and max, else zero-extended (R289). -/
def extEl (k : Nat) (wide : Bool) (x : Nat) : Word :=
  if k ≤ 2 then BitVec.ofInt 64 (sextNat x (if wide then 64 else 32)) else BitVec.ofNat 64 x

/-- The result of vred over the active elements (R289). -/
def redValue (op : Nat) (v : VArgs) (s : State) : Nat × Flags :=
  let w := if v.wide then 64 else 32
  let act := actives v s
  let start := (rdS v.d s).toNat
  if op ≤ 5 then ((act.foldl (fun a i => intPair op a (extEl op v.wide (srcA v s i))) (rdS v.d s)).toNat, 0)
  else if op = 7 then
    let k := log2Up (curGroup s).vl.toNat
    let nodes := (List.range (2 ^ k)).map fun i => if act.contains i then some (srcA v s i) else none
    let (r, fl) := treeSum (fpPair 0 v.wide s) k nodes
    match r with
    | none => (start, 0)
    | some x =>
      let (y, fl') := fpPair 0 v.wide s (start % 2 ^ w) x
      (y, fl ||| fl')
  else
    act.foldl (fun (a : Nat × Flags) i =>
      let r := fpPair (if op = 6 then 0 else op - 7) v.wide s a.1 (srcA v s i)
      (r.1, a.2 ||| r.2)) (start % 2 ^ w, 0)

/-- vred (R289): without an active element s[D] keeps its value. -/
def vRed (op : Nat) (enc : Option Nat) (v0 : VArgs) (s : State) : Host.Outcome State Fault Refusal :=
  let v := { v0 with once := false }
  issueV v (firstOf [failIf (9 < op) 0x01, enc]) [useA v] none (fun s =>
    if (actives v s).isEmpty then (zeroStart s, .next)
    else
      let r := redValue op v s
      (zeroStart (raiseFlags r.2 (wrS v.d (BitVec.ofNat 64 r.1) s)), .next)) s

/-- The identity of a scan (R290). -/
def scanIdentity (op w : Nat) : Nat :=
  match op with
  | 1 => 2 ^ (w - 1) - 1
  | 2 => 2 ^ (w - 1)
  | 3 => 2 ^ w - 1
  | _ => 0

/-- One step of a scan on w-bit numbers. -/
def scanPair (op : Nat) (v : VArgs) (s : State) (a b : Nat) : Nat × Flags :=
  if op = 6 then fpPair 0 v.wide s a b
  else ((intPair op (extEl op v.wide a) (extEl op v.wide b)).toNat % (if v.wide then 2 ^ 64 else 2 ^ 32), 0)

/-- The value over one element: for fsum a source of a floating instruction, whose NaN is delivered canonical (R113, R116, R117). -/
def scanFirst (op : Nat) (v : VArgs) (s : State) (x : Nat) : Nat × Flags :=
  if op = 6 then
    let f := vfmt v.wide
    let y := vfIn f (fcsrFtz (curGroup s)) x
    if isNan (fdecode f y) then nanResult f [fdecode f y] else (y, 0)
  else (x, 0)

/-- The scan: `acc` is the value over the elements before, `none` when there is none (R290). -/
def scanVals (op : Nat) (excl : Bool) (v : VArgs) (s : State) : Option Nat → List Nat → List (Nat × Nat × Flags)
  | _, [] => []
  | acc, i :: l =>
    let x := srcA v s i
    let r : Nat × Flags := match acc with
      | none => scanFirst op v s x
      | some a => scanPair op v s a x
    let shown : Nat × Flags := if excl then (acc.getD (scanIdentity op (if v.wide then 64 else 32)), 0) else (r.1, 0)
    (i, shown.1, if excl && l.isEmpty then 0 else r.2) :: scanVals op excl v s (some r.1) l

/-- vscan (R290). -/
def vScan (op : Nat) (excl : Bool) (enc : Option Nat) (v0 : VArgs) (s : State) : Host.Outcome State Fault Refusal :=
  let v := { v0 with once := false }
  issueV v (firstOf [failIf (6 < op) 0x01, enc]) [useA v] (some v.wide) (fun s =>
    if (curGroup s).vstart ≠ 0 then (s, .trapOn (startPath s).pidx 0x09 0 0)
    else if noElement s then (zeroStart s, .next)
    else
      let r := scanVals op excl v s none (actives v s)
      (zeroStart (raiseFlags (flagsOf r) (putVec v v.wide (r.map fun e => (e.1, e.2.1)) s)), .next)) s

/-! Ballots and votes. -/

/-- vballot (R291). -/
def vBallot (pa : Nat) (enc : Option Nat) (v0 : VArgs) (s : State) : Host.Outcome State Fault Refusal :=
  let v := { v0 with once := false }
  issueV v enc [] none (scalarResult v.d fun s =>
    let w := (rdS v.b s).toNat
    some (if w < 16 then BitVec.ofNat 64 ((srcSet s &&& rdP pa s).toNat / 2 ^ (64 * w)) else 0)) s

/-- vvote (R292): kind 0 any, 1 all, 2 cnt. -/
def vVote (kind pa : Nat) (enc : Option Nat) (v0 : VArgs) (s : State) : Host.Outcome State Fault Refusal :=
  let v := { v0 with once := false }
  issueV v enc [] none (scalarResult v.d fun s =>
    let live := srcSet s &&& rdP pa s
    some (match kind with
      | 0 => truth (live != 0)
      | 1 => truth (activeSet v v.pm s &&& ~~~ rdP pa s == 0)
      | _ => BitVec.ofNat 64 (popcount live))) s

/-- pand (R285). -/
def execPand (e : Bool) (d a b : BitVec 4) (m : BitVec 2) (s : State) : Host.Outcome State Fault Refusal :=
  vPred (fun x y => x && y) d.toNat a.toNat b.toNat none (shortU e 0x49 0 0 m 0 0) s

/-- por (R285). -/
def execPor (e : Bool) (d a b : BitVec 4) (m : BitVec 2) (s : State) : Host.Outcome State Fault Refusal :=
  vPred (fun x y => x || y) d.toNat a.toNat b.toNat none (shortU e 0x49 0 0 m 0 0) s

/-- pxor (R285). -/
def execPxor (e : Bool) (d a b : BitVec 4) (m : BitVec 2) (s : State) : Host.Outcome State Fault Refusal :=
  vPred (fun x y => x != y) d.toNat a.toNat b.toNat none (shortU e 0x49 0 0 m 0 0) s

/-- pandn (R285). -/
def execPandn (e : Bool) (d a b : BitVec 4) (m : BitVec 2) (s : State) : Host.Outcome State Fault Refusal :=
  vPred (fun x y => x && !y) d.toNat a.toNat b.toNat none (shortU e 0x49 0 0 m 0 0) s

/-- pnot (R285). -/
def execPnot (e : Bool) (d a : BitVec 4) (m : BitVec 2) (s : State) : Host.Outcome State Fault Refusal :=
  vPred (fun x _ => !x) d.toNat a.toNat 0 none (shortU e 0x49 0 0 m 0 0) s

/-- pmov (R285). -/
def execPmov (e : Bool) (d a : BitVec 4) (m : BitVec 2) (s : State) : Host.Outcome State Fault Refusal :=
  vPred (fun x _ => x) d.toNat a.toNat 0 none (shortU e 0x49 0 0 m 0 0) s

/-- i < f. -/
def beforeFirst (i : Nat) (f : Option Nat) : Bool := f.all fun x => decide (i < x)

/-- i ≤ f. -/
def untilFirst (i : Nat) (f : Option Nat) : Bool := f.all fun x => decide (i ≤ x)

/-- i = f. -/
def atFirst (i : Nat) (f : Option Nat) : Bool := f == some i

/-- psbf (R286). -/
def execPsbf (e : Bool) (d a : BitVec 4) (m : BitVec 2) (s : State) : Host.Outcome State Fault Refusal :=
  vPrefix beforeFirst d.toNat a.toNat none (shortU e 0x4A 0 0 m 0 0) s

/-- psif (R286). -/
def execPsif (e : Bool) (d a : BitVec 4) (m : BitVec 2) (s : State) : Host.Outcome State Fault Refusal :=
  vPrefix untilFirst d.toNat a.toNat none (shortU e 0x4A 0 0 m 0 0) s

/-- psof (R286). -/
def execPsof (e : Bool) (d a : BitVec 4) (m : BitVec 2) (s : State) : Host.Outcome State Fault Refusal :=
  vPrefix atFirst d.toNat a.toNat none (shortU e 0x4A 0 0 m 0 0) s

/-- pfirst (R286). -/
def execPfirst (e : Bool) (d : BitVec 6) (a : BitVec 4) (m : BitVec 2) (s : State) : Host.Outcome State Fault Refusal :=
  vPfirst a.toNat none (shortU e 0x4A d 0 m 0 0) s

/-- ppopc (R286). -/
def execPpopc (e : Bool) (d : BitVec 6) (a : BitVec 4) (m : BitVec 2) (s : State) : Host.Outcome State Fault Refusal :=
  vPpopc a.toNat none (shortU e 0x4A d 0 m 0 0) s

/-- piota (R286). -/
def execPiota (e : Bool) (d : BitVec 6) (a : BitVec 4) (m : BitVec 2) (s : State) : Host.Outcome State Fault Refusal :=
  vPiota a.toNat none (shortU e 0x4A d 0 m 0 0) s

/-- vshfl (R287). -/
def execVshfl (e : Bool) (d a b : BitVec 6) (m l : BitVec 2) (s : State) : Host.Outcome State Fault Refusal :=
  vShfl none (shortV e 0x4B d a b m l 0) s

/-- vshflx (R287). -/
def execVshflx (e : Bool) (d a b : BitVec 6) (m : BitVec 2) (l : BitVec 1) (s : State) : Host.Outcome State Fault Refusal :=
  vShift laneXor none { shortU e 0x4B d a m l 0 with b := b } s

/-- vlup (R287). -/
def execVlup (e : Bool) (d a b : BitVec 6) (m : BitVec 2) (l : BitVec 1) (s : State) : Host.Outcome State Fault Refusal :=
  vShift laneUp none { shortU e 0x4B d a m l 0 with b := b } s

/-- vldn (R287). -/
def execVldn (e : Bool) (d a b : BitVec 6) (m : BitVec 2) (l : BitVec 1) (s : State) : Host.Outcome State Fault Refusal :=
  vShift laneDown none { shortU e 0x4B d a m l 0 with b := b } s

/-- vcompress (R288). -/
def execVcompress (e : Bool) (d a : BitVec 6) (m : BitVec 2) (l w : BitVec 1) (s : State) : Host.Outcome State Fault Refusal :=
  vPack false none (shortU e 0x4C d a m l w) s

/-- vexpand (R288). -/
def execVexpand (e : Bool) (d a : BitVec 6) (m : BitVec 2) (l w : BitVec 1) (s : State) : Host.Outcome State Fault Refusal :=
  vPack true none (shortU e 0x4C d a m l w) s

/-- vredSum (R289). -/
def execVredSum (e : Bool) (d a : BitVec 6) (m : BitVec 2) (l : BitVec 1) (s : State) : Host.Outcome State Fault Refusal :=
  vRed 0 none (shortU e 0x4D d a m l 0) s

/-- vredMin (R289). -/
def execVredMin (e : Bool) (d a : BitVec 6) (m : BitVec 2) (l : BitVec 1) (s : State) : Host.Outcome State Fault Refusal :=
  vRed 1 none (shortU e 0x4D d a m l 0) s

/-- vredMax (R289). -/
def execVredMax (e : Bool) (d a : BitVec 6) (m : BitVec 2) (l : BitVec 1) (s : State) : Host.Outcome State Fault Refusal :=
  vRed 2 none (shortU e 0x4D d a m l 0) s

/-- vredAnd (R289). -/
def execVredAnd (e : Bool) (d a : BitVec 6) (m : BitVec 2) (l : BitVec 1) (s : State) : Host.Outcome State Fault Refusal :=
  vRed 3 none (shortU e 0x4D d a m l 0) s

/-- vredOr (R289). -/
def execVredOr (e : Bool) (d a : BitVec 6) (m : BitVec 2) (l : BitVec 1) (s : State) : Host.Outcome State Fault Refusal :=
  vRed 4 none (shortU e 0x4D d a m l 0) s

/-- vredXor (R289). -/
def execVredXor (e : Bool) (d a : BitVec 6) (m : BitVec 2) (l : BitVec 1) (s : State) : Host.Outcome State Fault Refusal :=
  vRed 5 none (shortU e 0x4D d a m l 0) s

/-- vredFsumO (R289). -/
def execVredFsumO (e : Bool) (d a : BitVec 6) (m : BitVec 2) (l : BitVec 1) (s : State) : Host.Outcome State Fault Refusal :=
  vRed 6 none (shortU e 0x4D d a m l 0) s

/-- vredFsumU (R289). -/
def execVredFsumU (e : Bool) (d a : BitVec 6) (m : BitVec 2) (l : BitVec 1) (s : State) : Host.Outcome State Fault Refusal :=
  vRed 7 none (shortU e 0x4D d a m l 0) s

/-- vredFmin (R289). -/
def execVredFmin (e : Bool) (d a : BitVec 6) (m : BitVec 2) (l : BitVec 1) (s : State) : Host.Outcome State Fault Refusal :=
  vRed 8 none (shortU e 0x4D d a m l 0) s

/-- vredFmax (R289). -/
def execVredFmax (e : Bool) (d a : BitVec 6) (m : BitVec 2) (l : BitVec 1) (s : State) : Host.Outcome State Fault Refusal :=
  vRed 9 none (shortU e 0x4D d a m l 0) s

/-- vscan (R290). -/
def execVscan (e : Bool) (d a : BitVec 6) (x : BitVec 1) (o : BitVec 5) (m : BitVec 2) (l : BitVec 1) (s : State) : Host.Outcome State Fault Refusal :=
  vScan o.toNat (x == 1) none (shortU e 0x4E d a m l 0) s

/-- vballot (R291). -/
def execVballot (e : Bool) (d : BitVec 6) (a : BitVec 4) (b : BitVec 6) (s : State) : Host.Outcome State Fault Refusal :=
  vBallot a.toNat none { shortU e 0x4E d 0 0 0 0 with b := b } s

/-- vvoteAny (R292). -/
def execVvoteAny (e : Bool) (d : BitVec 6) (a : BitVec 4) (m : BitVec 2) (s : State) : Host.Outcome State Fault Refusal :=
  vVote 0 a.toNat none (shortU e 0x4E d 0 m 0 0) s

/-- vvoteAll (R292). -/
def execVvoteAll (e : Bool) (d : BitVec 6) (a : BitVec 4) (m : BitVec 2) (s : State) : Host.Outcome State Fault Refusal :=
  vVote 1 a.toNat none (shortU e 0x4E d 0 m 0 0) s

/-- vvoteCnt (R292). -/
def execVvoteCnt (e : Bool) (d : BitVec 6) (a : BitVec 4) (m : BitVec 2) (s : State) : Host.Outcome State Fault Refusal :=
  vVote 2 a.toNat none (shortU e 0x4E d 0 m 0 0) s

end Sys2Proof.Machine
end

