-- ==== Sys2Proof/Machine/VecScale.lean ====
section
/-! DEFINITION. Block-scale instructions (major 0x4F, R293) and the block forms of vfcvt (R284). -/

namespace Sys2Proof.Machine

open Sys2Proof

/-- The format code that EF3 names (R293). -/
def ef3Code (f : Nat) : Nat := if f = 6 then 0x17 else 0x10 + f

/-- Entry b of scale register n. -/
def scaleEntry (g : Group) (n b : Nat) : Nat := vbits (vget g.ks n) (8 * b) 8

/-- Entry b of kn written, with its validity bit (R130). -/
def putScale (n b x8 : Nat) (g : Group) : Group :=
  { g with
    ks := vset g.ks n (putBits (vget g.ks n) (8 * b) 8 x8),
    qs := vset g.qs n (putBit (vget g.qs n) b (x8 != 0xFF)) }

/-- A binary32 source as a value, flushed under FTZ. -/
def f32Value (s : State) (x : Nat) : Fv := fdecode fB32 (vfIn fB32 (fcsrFtz (curGroup s)) x)

/-- The blocks that hold active elements, with their new scale bytes (R124, R293). -/
def newScales (code : Nat) (v : VArgs) (s : State) : List (Nat × Nat) :=
  let act := actives v s
  (act.map (· / 32)).eraseDups.map fun b =>
    (b, scaleStep code ((act.filter fun i => i / 32 == b).map fun i => f32Value s (srcA v s i)))

def putScales (n : Nat) (l : List (Nat × Nat)) (s : State) : State :=
  modG (fun g => l.foldl (fun g e => putScale n e.1 e.2 g) g) s

/-- vmaxexp (R293). -/
def vMaxexp (ef n : Nat) (enc : Option Nat) (v0 : VArgs) (s : State) : Host.Outcome State Fault Refusal :=
  let v := { v0 with once := false }
  issueV v (firstOf [failIf (6 < ef) 0x01, enc]) [useA v] none
    (fun s => (zeroStart (if noElement s then s else putScales n (newScales (ef3Code ef) v s) s), .next)) s

/-- vquant (R293). -/
def vQuant (ef n : Nat) (enc : Option Nat) (v0 : VArgs) (s : State) : Host.Outcome State Fault Refusal :=
  let v := { v0 with once := false }
  let code := ef3Code ef
  issueV v (firstOf [failIf (6 < ef) 0x01, enc]) [useA v] (some false) (fun s =>
    if noElement s then (zeroStart s, .next)
    else
      let sc := newScales code v s
      let r := (actives v s).map fun i =>
        (i, elemStep code ((sc.lookup (i / 32)).getD 0xFF) (fcsrRm (curGroup s)) (f32Value s (srcA v s i)))
      (zeroStart (raiseFlags (flagsOf r) (putVec v false (r.map fun e => (e.1, e.2.1)) (putScales n sc s))), .next)) s

/-- vdequant (R293). -/
def vDequant (n : Nat) (enc : Option Nat) (v : VArgs) (s : State) : Host.Outcome State Fault Refusal :=
  issueV v enc [useA v] (some false)
    (vecMap v false fun s i =>
      let x8 := scaleEntry (curGroup s) n (i / 32)
      let ftz := fcsrFtz (curGroup s)
      if x8 = 0xFF then (canonNan fB32, 0)
      else ftzOut ftz fB32 (fScaleb fB32 (fcsrRm (curGroup s)) (f32Value s (srcA v s i)) ((x8 : Int) - 127))) s

/-- The encoding checks of the block forms of vfcvt beyond the decoder's (R284): PLN, PRND and K by format and direction. -/
def blockCvtEnc (toF32 : Bool) (x : BlockCvt) : Option Nat :=
  let bpi := isBpi x.ef.toNat
  firstOf [
    failIf (toF32 && bpi && (decide (x.pln.toNat < 2) || decide (8 < x.pln.toNat))) 0x01,
    failIf (!(toF32 && bpi) && (x.pln != 0 || x.prnd != 0)) 0x02,
    failIf (x.ef == 0x16 && x.k != 0) 0x02]

def blockCvtArgs (e : Bool) (x : BlockCvt) : VArgs :=
  { e := e, major := 0x48, len := 8, d := x.d, a := x.a, pm := x.pm4.toNat, la := x.la == 1, nw := x.nw == 1 }

/-- vfcvt.f32.ef (R284). -/
def execVfcvtBlockToF32 (e : Bool) (x : BlockCvt) (s : State) : Host.Outcome State Fault Refusal :=
  let v := blockCvtArgs e x
  let code := x.ef.toNat
  issueV v (blockCvtEnc true x) [useA v] (some false)
    (vecMap v false fun s i =>
      let x8 := scaleEntry (curGroup s) x.k.toNat (i / 32)
      match blockValue code x8 (if isBpi code then x.pln.toNat else 8) (x.prnd == 1) (srcA v s i % 2 ^ elBits code) with
      | .nan _ => (canonNan fB32, 0)
      | w => ftzOut (fcsrFtz (curGroup s)) fB32 (toFmt fB32 (fcsrRm (curGroup s)) w)) s

/-- vfcvt.ef.f32 (R284). -/
def execVfcvtF32ToBlock (e : Bool) (x : BlockCvt) (s : State) : Host.Outcome State Fault Refusal :=
  let v := blockCvtArgs e x
  issueV v (blockCvtEnc false x) [useA v] (some false)
    (vecMap v false fun s i =>
      elemStep x.ef.toNat (scaleEntry (curGroup s) x.k.toNat (i / 32)) (fcsrRm (curGroup s)) (f32Value s (srcA v s i))) s

/-- vmaxexp (R293). -/
def execVmaxexp (e : Bool) (a : BitVec 6) (f k : BitVec 3) (m : BitVec 2) (l : BitVec 1) (s : State) :
    Host.Outcome State Fault Refusal :=
  vMaxexp f.toNat k.toNat none (shortU e 0x4F 0 a m l 0) s

/-- vquant (R293). -/
def execVquant (e : Bool) (d a : BitVec 6) (f k : BitVec 3) (m : BitVec 2) (l : BitVec 1) (s : State) :
    Host.Outcome State Fault Refusal :=
  vQuant f.toNat k.toNat none (shortU e 0x4F d a m l 0) s

/-- vdequant (R293). -/
def execVdequant (e : Bool) (d a : BitVec 6) (k : BitVec 3) (m : BitVec 2) (l : BitVec 1) (s : State) :
    Host.Outcome State Fault Refusal :=
  vDequant k.toNat none (shortU e 0x4F d a m l 0) s

end Sys2Proof.Machine
end

