-- ==== Sys2Proof/Machine/MemOps.lean ====
section
/-! DEFINITION. The operations that memory instructions share (R294 to R304): element addresses, loads and stores of elements and of
segments with precise faults (R68, R150, R152), fault-only-first (R72), pre-emption inside a long access (R104), link-tag elements
(R156 to R158), and the fences of `.rel` and `.acq` (R142). -/

namespace Sys2Proof.Machine

open Sys2Proof

/-- An address as an instruction forms it: the exact sum, and whether it lies in the address field of its space (R46, R299; log
27). -/
structure Ea where
  ok : Bool
  addr : Word
  deriving DecidableEq, Repr

/-- base + off. Elements of an indexed form may lie in any space (R46). -/
def exactAddr (indexed : Bool) (base : Word) (off : Int) : Ea :=
  let x : Int := (base.toNat : Int) + off
  { ok := decide (0 ≤ x) && decide (x < 2 ^ 64) && (indexed || x / 2 ^ 60 == (tagOf base : Int)), addr := BitVec.ofInt 64 x }

/-- What an instruction says of its accesses: class, scope, and the release or acquire mark (R137, R142). -/
structure MemArgs where
  cls : Nat
  scope : Nat
  rel : Bool
  acq : Bool
  deriving DecidableEq, Repr

/-- A short form: core scope, no mark (R295). -/
def shortMem (c : BitVec 4) : MemArgs := { cls := c.toNat, scope := 1, rel := false, acq := false }

/-- A fence at a scope over the classes of some slots, for some parties of the executing group (R141): at cluster scope or wider it
invalidates the L1 of its core (R89). -/
def fenceSlots (parties slots : List Nat) (scope : Nat) (s : State) : State :=
  let s := modG (raiseFence parties slots s.stamp) s
  if 2 ≤ scope then l1Clear (corePlace (curBlock s).place) s else s

/-- A fence over all classes at a scope, by the executing path (R141, R142, R144). -/
def fenceAt (scope : Nat) (s : State) : State := fenceSlots [pathParty (exPath s)] [32] scope s

def fenceIf (b : Bool) (scope : Nat) (s : State) : State := if b then fenceAt scope s else s

/-- The fence of a marked vector access: for each of its active threads (R142). -/
def fenceEls (b : Bool) (els : List Nat) (scope : Nat) (s : State) : State := if b then fenceSlots els [32] scope s else s

/-! Elements. -/

/-- The path that holds thread i. -/
def pathAt (v : VArgs) (s : State) (i : Nat) : Nat :=
  match curMeld s with
  | some m => if nameSide v s i then m.b else m.a
  | none => exPath s

/-- How threads i to i + n − 1 reach memory together: one for an element, 32 for a segment. -/
def envAt (v : VArgs) (m : MemArgs) (s : State) (i n : Nat) : Env :=
  { curEnv m.cls m.scope s with owner := .path { (cur s).who with pidx := pathAt v s i }, actor := .elems i n }

/-- An access at a formed address; one outside its space traps with cause 0x07 (R46). -/
def atEa (a : Ea) (k : Kind) (f : State → State × Got α) (s : State) : State × Got α :=
  if a.ok then f s else (s, .trap 0x07 a.addr (kindBits k))

/-- One access after another, up to the first that does not succeed. -/
def accessAll (f : Nat → State → State × Got α) : List Nat → State → State × List (Nat × α) × Option (Nat × Got α)
  | [], s => (s, [], none)
  | i :: l, s =>
    match f i s with
    | (s, .ok x) =>
      let (s, r, e) := accessAll f l s
      (s, (i, x) :: r, e)
    | (s, g) => (s, [], some (i, g))

/-- Several reads as one. -/
def readAll (f : Nat → State → State × Got α) (l : List Nat) : State → State × Got (List α) := restart fun s =>
  match accessAll f l s with
  | (s, r, none) => (s, .ok (r.map (·.2)))
  | (s, _, some (_, g)) => andThen (s, g) fun _ s => (s, .stall)

/-- Lanes of a core (R104). -/
def lanes (s : State) : Nat := if isEc (curBlock s).place then 16 else 64

/-- The element boundary at which a long access stops for a pre-emption that stands: the device's choice (R104). -/
def stopPoint (s : State) : State × Option Nat :=
  if (curBlock s).preempt && !(curGroup s).sup && decide (lanes s < (curGroup s).vl.toNat) then
    ({ s with free := s.free + 1 }, some ((curGroup s).vstart.toNat + Config.freeNat s.free))
  else (s, none)

def setStart (e : Nat) (s : State) : State := modG (fun g => { g with vstart := BitVec.ofNat 32 e }) s

/-- The end of an access over a list of elements: at a failing element, at a pre-emption stop, or complete (R68, R104). -/
def endAccess (v : VArgs) (all : List Nat) (cut : Option Nat) (stop : Option (Nat × Got α)) (s : State) : State × Act :=
  match stop, cut with
  | some (e, g), _ => (setStart e s, gotAct (pathAt v s e) g)
  | none, some e => if all.any fun i => decide (e ≤ i) then (setStart e s, .stopped) else (zeroStart s, .next)
  | none, none => (zeroStart s, .next)

/-- The elements of a list below a stop. -/
def belowStop (cut : Option Nat) (l : List Nat) : List Nat :=
  match cut with
  | some e => l.filter fun i => decide (i < e)
  | none => l

/-- Loaded elements written to the registers that their threads name; latches are untouched (R202, R294). -/
def putRegs (v : VArgs) (wide : Bool) (l : Vals) (s : State) : State :=
  let reg (i : Nat) : Nat := vregOf s (nameSide v s i) v.d
  modG (fun g => { g with v := writeEls reg wide l g.v, dirty := dirtyWith wide (writtenRegs reg l) g.dirty }) s

/-- One load of n bytes as a number. -/
def loadNum (env : Env) (a : Ea) (n align : Nat) (s : State) : State × Got Nat :=
  atEa a .read (fun s => andThen (loadAt env a.addr n align s) fun l s => (s, .ok (ofBytes l))) s

/-- Vector loads (R294): elements below a failing one are written, vstart names it (R68). -/
def loadVec (v : VArgs) (m : MemArgs) (w : Nat) (ext : Nat → Nat) (ea : State → Nat → Ea) (s : State) : State × Act :=
  let all := actives v s
  let (s, cut) := stopPoint s
  let (s, r, stop) := accessAll (fun i s => loadNum (envAt v m s i 1) (ea s i) w w s) (belowStop cut all) s
  let s := putRegs v (w == 8) (r.map fun e => (e.1, ext e.2)) s
  let (s, act) := endAccess v all cut stop s
  (fenceEls (m.acq && act == .next) all m.scope s, act)

/-- vldff (R72): an element after the first that would fault ends the vector there. So does one whose access fails at an aperture (0x13,
or 0x06 of R95), which R72 does not name: DESIGN CHOICE (log 117). -/
def loadFirst (v : VArgs) (m : MemArgs) (w : Nat) (ea : State → Nat → Ea) (s : State) : State × Act :=
  let all := actives v s
  let (s, cut) := stopPoint s
  let (s, r, stop) := accessAll (fun i s => loadNum (envAt v m s i 1) (ea s i) w w s) (belowStop cut all) s
  let s := putRegs v (w == 8) r s
  let later := (curGroup s).ffGo || !r.isEmpty
  let short (e : Nat) : State × Act :=
    (zeroStart (modG (fun g => { g with vl := BitVec.ofNat 32 e, ffGo := false }) s), .next)
  match stop with
  | some (e, g) =>
    match g with
    | .trap _ _ _ => if later then short e else endAccess v all cut (some (e, g)) s
    | .fault _ _ _ _ => if later then short e else endAccess v all cut (some (e, g)) s
    | .stall => endAccess v all cut (some (e, g)) (modG (fun g => { g with ffGo := later }) s)
    | _ => endAccess v all cut (some (e, g)) s
  | none => endAccess v all cut (none : Option (Nat × Got Nat)) (modG (fun g => { g with ffGo := false }) s)

/-- A store resolved: checks, translation, transit, and storage without an error. -/
def resolveStore (env : Env) (a : Ea) (n align : Nat) (s : State) : State × Got Dest :=
  atEa a .write (fun s =>
    match decodeAddr s env a.addr n align true with
    | .error c => (s, .trap c a.addr (kindBits .write))
    | .ok loc => andThen (resolveLoc env loc n .write s) fun d s =>
      let bad := match d with
        | .parts ps => ps.any fun p => !isAperture s p.1 && badRange s .phys p.1 p.2.1
        | .spad u off => badRange s (.spad u) off n
        | .cellar x off => badRange s (.cellar x) off n
      let owner := match d with
        | .spad u _ => some u
        | _ => none
      if bad then (s, .domain 0x14 a.addr owner) else (s, .ok d)) s

/-- The stores of resolved elements, in a given order. -/
def performAll (env : Nat → Env) (addr : Nat → Word) (data : Nat → List Byte) (ds : List (Nat × Dest)) : List Nat → State → State
  | [], s => s
  | i :: l, s =>
    let s := match ds.lookup i with
      | some d => (writeDest (env i) (addr i) (data i) .write d s).1
      | none => s
    performAll env addr data ds l s

/-- The range of storage of n bytes of a destination: which storage, where, how many. -/
def destRange (n : Nat) (d : Dest) : Nat × Nat × Nat :=
  match d with
  | .parts ((pa, _, _) :: _) => (0, pa, n)
  | .parts [] => (0, 0, 0)
  | .spad u off => (u + 5, off, n)
  | .cellar x off => (x + 1, off, n)

/-- Each range of a list lies above the one before it, in one storage. -/
def rising : List (Nat × Nat × Nat) → Bool
  | x :: y :: l => x.1 == y.1 && decide (x.2.1 + x.2.2 ≤ y.2.1) && rising (y :: l)
  | _ => true

/-- The order in which stores of n bytes perform: any (R150; log 7). Stores that rise through one storage meet nowhere, so that
their order leaves the same bytes, and they perform as they stand. -/
def storeOrder (seed n : Nat) (ds : List (Nat × Dest)) : List Nat :=
  let l := ds.map (·.1)
  if ds.all (fun e => match e.2 with
      | .parts ps => ps.length == 1
      | _ => true) && rising (ds.map fun e => destRange n e.2) then l
  else sortByRank (Config.elementRank seed) l

/-- Stores of a list of elements (R68, R150, R294): every element below a failing one is stored, in an order that the device does not
promise (log 7); elements that pass through an aperture are stored in order. `per` threads make each access. -/
def storeAll (v : VArgs) (m : MemArgs) (n align per : Nat) (ea : Nat → Ea) (data : Nat → List Byte) (all : List Nat) (s : State) :
    State × Act :=
  let s := fenceEls m.rel all m.scope s
  let (s, cut) := stopPoint s
  let env (i : Nat) : Env := envAt v m s (per * i) per
  let (t, ds, stop) := accessAll (fun i s => resolveStore (env i) (ea i) n align s) (belowStop cut all) s
  if ds.any fun e => viaAperture t e.2 then
    let (s, _, stop) := accessAll (fun i s =>
      andThen (resolveStore (env i) (ea i) n align s) fun d s => writeDest (env i) (ea i).addr (data i) .write d s)
      (belowStop cut all) s
    endAccess v all cut stop s
  else
    endAccess v all cut stop
      (performAll env (fun i => (ea i).addr) data ds (storeOrder s.steps n ds) t)

/-- Vector stores of the low w bytes of v[D]. -/
def storeVec (v : VArgs) (m : MemArgs) (w : Nat) (ea : State → Nat → Ea) (s : State) : State × Act :=
  storeAll v m w w 1 (ea s) (fun i => toBytes w (srcEl v s false (w == 8) v.d i i)) (actives v s) s

/-! Addresses (R299, R304). -/

/-- s[A] + off + w × i. -/
def unitEa (v : VArgs) (off : Int) (w : Nat) (s : State) (i : Nat) : Ea := exactAddr false (scalarFor v s i v.a) (off + w * i)

/-- s[A] + i × s[B]. -/
def strideEa (v : VArgs) (s : State) (i : Nat) : Ea := exactAddr false (scalarFor v s i v.a) (i * (scalarFor v s i v.b).toInt)

/-- s[A] + v[B][i]. -/
def indexEa (v : VArgs) (pair : Bool) (s : State) (i : Nat) : Ea :=
  exactAddr true (scalarFor v s i v.a) (srcEl v s false pair v.b i i : Nat)

/-! Scalar accesses (R297, R298). -/

/-- A scalar access ends: a failure is one at element 0 (R68; log 29). -/
def endScalar (g : Got α) (s : State) : State × Act :=
  match g with
  | .trap _ _ _ => (setStart 0 s, gotAct (exPath s) g)
  | .fault _ _ _ _ => (setStart 0 s, gotAct (exPath s) g)
  | _ => (s, gotAct (exPath s) g)

def loadScalar (m : MemArgs) (w : Nat) (signed : Bool) (d a : BitVec 6) (off : Int) (s : State) : State × Act :=
  match loadNum (curEnv m.cls m.scope s) (exactAddr false (rdS a s) off) w w s with
  | (s, .ok x) =>
    (fenceIf m.acq m.scope (wrS d (if signed then BitVec.ofInt 64 (sextNat x (8 * w)) else BitVec.ofNat 64 x) s), .next)
  | (s, g) => endScalar g s

def storeScalar (m : MemArgs) (w : Nat) (d a : BitVec 6) (off : Int) (s : State) : State × Act :=
  let s := fenceIf m.rel m.scope s
  let ea := exactAddr false (rdS a s) off
  let (s, g) := atEa ea .write (storeAt (curEnv m.cls m.scope s) ea.addr w (toBytes w (rdS d s).toNat)) s
  endScalar g s

/-! Segments (R302, R303). They execute once for each side; vstart counts segments. -/

/-- Active threads with vstart ignored. -/
def segThreads (v : VArgs) (s : State) : BitVec 1024 := execThreads v s &&& ones 1024 (curGroup s).vl.toNat &&& rdP v.pm s

/-- The segments taken. -/
def segTaken (v : VArgs) (s : State) : List Nat :=
  (((members (segThreads v s) 1024).map (· / 32)).eraseDups).filter fun b => decide ((curGroup s).vstart.toNat ≤ b)

/-- The active threads of a segment. -/
def segMembers (act : BitVec 1024) (b : Nat) : List Nat := (List.range 32).filterMap fun j =>
  if act.getLsbD (32 * b + j) then some (32 * b + j) else none

def segEa (v : VArgs) (code : Nat) (s : State) (b : Nat) : Ea := exactAddr false (rdS v.a s) (b * segBytes code)

/-- The first n bytes of a segment of `size` bytes, which lies inside the allocation as a whole (R28, R32). -/
def loadSeg (env : Env) (a : Word) (size n : Nat) (s : State) : State × Got (List Byte) :=
  match decodeAddr s env a size 4 false with
  | .error c => (s, .trap c a (kindBits .read))
  | .ok loc => readLoc env a loc n .read s

/-- Loads of n bytes of each taken segment; `value` reads an element code, `sc` names the scale register to write. -/
def loadSegs (v : VArgs) (m : MemArgs) (code n : Nat) (value : Nat → Nat) (sc : Option Nat) (s : State) : State × Act :=
  let all := segTaken v s
  let act := segThreads v s
  let (s, cut) := stopPoint s
  let (s, r, stop) := accessAll (fun b s =>
    let a := segEa v code s b
    atEa a .read (loadSeg (envAt v m s (32 * b) 32) a.addr (segBytes code) n) s) (belowStop cut all) s
  let vals : Vals := r.flatMap fun e =>
    let els := segEls code e.2
    (segMembers act e.1).map fun i => (i, value (els.getD (i % 32) 0))
  let s := putRegs v false vals s
  let s := match sc with
    | some k => putScales k (r.map fun e => (e.1, segScale code e.2)) s
    | none => s
  endAccess v all cut stop s

/-- The bytes of segment b as vsseg writes it. -/
def segData (v : VArgs) (code k : Nat) (s : State) (b : Nat) : List Byte :=
  let act := segThreads v s
  let g := curGroup s
  let ok := code = 0x16 || (vget g.qs k).getLsbD b
  let els := (List.range 32).map fun j =>
    if ok && act.getLsbD (32 * b + j) then srcEl v s false false v.d (32 * b + j) (32 * b + j) % 2 ^ elBits code else 0
  packSeg code (if ok then scaleEntry g k b else 0xFF) els

def storeSegs (v : VArgs) (m : MemArgs) (code k : Nat) (s : State) : State × Act :=
  storeAll v m (segBytes code) 4 32 (segEa v code s) (segData v code k s) (segTaken v s) s

/-! Link-tag elements (R304). -/

/-- The location of a linked access resolved, as kind link (R54, R156). -/
def resolveLink (env : Env) (a : Ea) (n : Nat) (s : State) : State × Got Dest :=
  atEa a .link (fun s =>
    match decodeAddr s env a.addr n n true with
    | .error c => (s, .trap c a.addr (kindBits .link))
    | .ok loc => resolveLoc env loc n .link s) s

/-- A linked read sets its owner's link. -/
def linkLoad (env : Env) (o : LinkOwner) (a : Ea) (n : Nat) (s : State) : State × Got Nat :=
  andThen (resolveLink env a n s) fun d s =>
    andThen (readDest env a.addr n .link d s) fun l s => (setLink o (lineOf d) s, .ok (ofBytes l))

/-- A global line may have left its home slice, which breaks its links (R93, R157): the device's choice (log 30). -/
def maybeEvicted (line : LinkLine) (s : State) : State :=
  match line with
  | .glob _ =>
    match choose s with
    | (true, s) => { s with links := s.links.filter fun k => k.line != line }
    | (false, s) => s
  | .spad _ _ => s

/-- A conditional write (R158): whether it wrote; its owner's link is cleared. `blocked` says that a lower element holds the line. -/
def linkStore (env : Env) (o : LinkOwner) (a : Ea) (l : List Byte) (blocked : LinkLine → Bool) (s : State) : State × Got Bool :=
  andThen (resolveLink env a l.length s) fun d s =>
    let s := maybeEvicted (lineOf d) s
    if linkOf s o == some (lineOf d) && !blocked (lineOf d) then
      andThen (writeDest env a.addr l .link d s) fun _ s => (clearLink o s, .ok true)
    else (clearLink o s, .ok false)

def threadOwner (s : State) (i : Nat) : LinkOwner := .thread (cur s).who.uid (cur s).who.gidx i

/-- vldgl (R304). -/
def loadLinked (v : VArgs) (m : MemArgs) (w : Nat) (s : State) : State × Act :=
  let all := actives v s
  let (s, cut) := stopPoint s
  let (s, r, stop) := accessAll (fun i s => linkLoad (envAt v m s i 1) (threadOwner s i) (indexEa v false s i) w s) (belowStop cut all) s
  endAccess v all cut stop (putRegs v (w == 8) r s)

/-- vstsc (R304): success bits of the elements that have attempted. -/
def storeCond (v : VArgs) (m : MemArgs) (w ps : Nat) (s0 : State) : State × Act :=
  let all := actives v s0
  let (s, cut) := stopPoint s0
  let held (i : Nat) : Option LinkLine := linkOf s0 (threadOwner s0 i)
  let (s, r, stop) := accessAll (fun i s =>
    linkStore (envAt v m s i 1) (threadOwner s i) (indexEa v false s i) (toBytes w (srcEl v s false (w == 8) v.d i i))
      (fun line => all.any fun j => decide (j < i) && held j == some line) s) (belowStop cut all) s
  let s := putPred ps (setOf (fun _ => true) (r.map (·.1))) (setOf (fun i => (r.lookup i) == some true) (r.map (·.1))) s
  endAccess v all cut stop s

def pathOwner (s : State) : LinkOwner := .path (curWho s)

/-- sll (R305). -/
def loadLinkedScalar (m : MemArgs) (w : Nat) (d a : BitVec 6) (s : State) : State × Act :=
  match linkLoad (curEnv m.cls m.scope s) (pathOwner s) { ok := true, addr := rdS a s } w s with
  | (s, .ok x) => (wrS d (BitVec.ofNat 64 x) s, .next)
  | (s, g) => endScalar g s

/-- ssc (R305). -/
def storeCondScalar (m : MemArgs) (w : Nat) (d a b : BitVec 6) (s : State) : State × Act :=
  match linkStore (curEnv m.cls m.scope s) (pathOwner s) { ok := true, addr := rdS a s } (toBytes w (rdS b s).toNat)
    (fun _ => false) s with
  | (s, .ok x) => (wrS d (truth x) s, .next)
  | (s, g) => endScalar g s

end Sys2Proof.Machine
end

