-- ==== Sys2Proof/Machine/Memory.lean ====
section
/-! DEFINITION. Scalar and vector loads and stores, bit-plane loads and segments (majors 0x50 to 0x59; R298 to R303). -/

namespace Sys2Proof.Machine

open Sys2Proof

/-- A load of v[D]: 8-byte elements are the form's `wide`. -/
def issueLoad (v : VArgs) (enc : Option Nat) (uses : List VUse) (body : State → State × Act) (s : State) :
    Host.Outcome State Fault Refusal :=
  issueV v enc uses (some v.wide) body s

/-- A store of v[D]. -/
def issueStore (v : VArgs) (enc : Option Nat) (uses : List VUse) (body : State → State × Act) (s : State) :
    Host.Outcome State Fault Refusal :=
  issueV v enc (.reg v.d v.wide :: uses) none body s

/-- Bytes of an element: 4, or 8 with `.d` (R294). -/
def elSize (v : VArgs) : Nat := if v.wide then 8 else 4

/-- vld. -/
def mVld (v : VArgs) (enc : Option Nat) (m : MemArgs) (off : Int) (s : State) : Host.Outcome State Fault Refusal :=
  issueLoad v enc [] (loadVec v m (elSize v) id (unitEa v off (elSize v))) s

/-- vst. -/
def mVst (v : VArgs) (enc : Option Nat) (m : MemArgs) (off : Int) (s : State) : Host.Outcome State Fault Refusal :=
  issueStore v enc [] (storeVec v m (elSize v) (unitEa v off (elSize v))) s

/-- vldff. -/
def mVldff (v : VArgs) (enc : Option Nat) (m : MemArgs) (off : Int) (s : State) : Host.Outcome State Fault Refusal :=
  issueLoad v enc [] (loadFirst v m (elSize v) (unitEa v off (elSize v))) s

/-- vlds. -/
def mVlds (v : VArgs) (enc : Option Nat) (m : MemArgs) (s : State) : Host.Outcome State Fault Refusal :=
  issueLoad v enc [] (loadVec v m (elSize v) id (strideEa v)) s

/-- vsts. -/
def mVsts (v : VArgs) (enc : Option Nat) (m : MemArgs) (s : State) : Host.Outcome State Fault Refusal :=
  issueStore v enc [] (storeVec v m (elSize v) (strideEa v)) s

/-- vldx; `pair` is IX. -/
def mVldx (v : VArgs) (pair : Bool) (enc : Option Nat) (m : MemArgs) (s : State) : Host.Outcome State Fault Refusal :=
  issueLoad v enc [.reg v.b pair] (loadVec v m (elSize v) id (indexEa v pair)) s

/-- vstx. -/
def mVstx (v : VArgs) (pair : Bool) (enc : Option Nat) (m : MemArgs) (s : State) : Host.Outcome State Fault Refusal :=
  issueStore v enc [.reg v.b pair] (storeVec v m (elSize v) (indexEa v pair)) s

/-- Bytes of an element of vldw and vstw. -/
def narrowSize (two : Bool) : Nat := if two then 2 else 1

/-- A narrow element extended to 32 bits. -/
def narrowExt (two signed : Bool) (x : Nat) : Nat :=
  if signed then (BitVec.ofInt 32 (sextNat x (8 * narrowSize two))).toNat else x

/-- vldw. -/
def mVldw (v : VArgs) (two signed : Bool) (enc : Option Nat) (m : MemArgs) (s : State) : Host.Outcome State Fault Refusal :=
  issueLoad v enc [] (loadVec v m (narrowSize two) (narrowExt two signed) (unitEa v 0 (narrowSize two))) s

/-- vstw. -/
def mVstw (v : VArgs) (two : Bool) (enc : Option Nat) (m : MemArgs) (s : State) : Host.Outcome State Fault Refusal :=
  issueStore v enc [] (storeVec v m (narrowSize two) (unitEa v 0 (narrowSize two))) s

/-- Bytes that vldbp reads of a segment (R302): the head, k planes, and the plane that rounds. -/
def planeBytes (sc rnd : Bool) (k : Nat) : Nat := (if sc then 4 else 0) + 4 * (k + b2n (rnd && decide (k < 8)))

/-- vldbp with k planes into scale register kr (R302). -/
def mVldbp (v0 : VArgs) (sc rnd : Bool) (k kr : Nat) (enc : Option Nat) (m : MemArgs) (s : State) :
    Host.Outcome State Fault Refusal :=
  let v := { v0 with once := false }
  issueLoad v (firstOf [failIf (8 < k) 0x01, enc]) []
    (loadSegs v m (if sc then 0x17 else 0x16) (planeBytes sc rnd k) (fun x => (BitVec.ofInt 32 (bpiCode x k rnd)).toNat)
      (if sc then some kr else none)) s

/-- The format of EF3 in vlseg and vsseg: code 7 is unscaled BPI (R303). -/
def segCode (f : Nat) : Nat := if f = 7 then 0x16 else ef3Code f

/-- vlseg (R303). -/
def mVlseg (v0 : VArgs) (f k : Nat) (enc : Option Nat) (m : MemArgs) (s : State) : Host.Outcome State Fault Refusal :=
  let v := { v0 with once := false }
  issueLoad v enc [] (loadSegs v m (segCode f) (segBytes (segCode f)) id (if f = 7 then none else some k)) s

/-- vsseg (R303). -/
def mVsseg (v0 : VArgs) (f k : Nat) (enc : Option Nat) (m : MemArgs) (s : State) : Host.Outcome State Fault Refusal :=
  let v := { v0 with once := false }
  issueStore v enc [] (storeSegs v m (segCode f) k) s

/-- A short form of a memory instruction. -/
def memV (e : Bool) (major : Nat) (d a b : BitVec 6) (pm : BitVec w) : VArgs :=
  { e := e, major := major, d := d, a := a, b := b, pm := pm.toNat }

/-- Code 7 with a scale register (R303). -/
def segEnc (k f : BitVec 3) : Option Nat := failIf (f == 7 && k != 0) 0x02

/-- sld (R298). -/
def execSld (e : Bool) (d a : BitVec 6) (c : BitVec 4) (w : BitVec 2) (o : BitVec 6) (s : State) :
    Host.Outcome State Fault Refusal :=
  issueSide { e := e, major := 0x50 } none (loadScalar (shortMem c) (2 ^ w.toNat) false d a (o.toInt * 2 ^ w.toNat)) s

/-- sst (R298). -/
def execSst (e : Bool) (d a : BitVec 6) (c : BitVec 4) (w : BitVec 2) (o : BitVec 6) (s : State) :
    Host.Outcome State Fault Refusal :=
  issueSide { e := e, major := 0x51 } none (storeScalar (shortMem c) (2 ^ w.toNat) d a (o.toInt * 2 ^ w.toNat)) s

/-- vld (R299). -/
def execVld (e : Bool) (d a : BitVec 6) (c : BitVec 4) (m : BitVec 2) (o : BitVec 6) (s : State) :
    Host.Outcome State Fault Refusal :=
  mVld (memV e 0x52 d a 0 m) none (shortMem c) (4 * o.toInt) s

/-- vst (R299). -/
def execVst (e : Bool) (d a : BitVec 6) (c : BitVec 4) (m : BitVec 2) (o : BitVec 6) (s : State) :
    Host.Outcome State Fault Refusal :=
  mVst (memV e 0x53 d a 0 m) none (shortMem c) (4 * o.toInt) s

/-- vlds (R299). -/
def execVlds (e : Bool) (d a b : BitVec 6) (c : BitVec 4) (m : BitVec 1) (s : State) : Host.Outcome State Fault Refusal :=
  mVlds (memV e 0x54 d a b m) none (shortMem c) s

/-- vsts (R299). -/
def execVsts (e : Bool) (d a b : BitVec 6) (c : BitVec 4) (m : BitVec 1) (s : State) : Host.Outcome State Fault Refusal :=
  mVsts (memV e 0x54 d a b m) none (shortMem c) s

/-- vldx (R299). -/
def execVldx (e : Bool) (d a b : BitVec 6) (c : BitVec 4) (m : BitVec 1) (s : State) : Host.Outcome State Fault Refusal :=
  mVldx (memV e 0x55 d a b m) false none (shortMem c) s

/-- vstx (R299). -/
def execVstx (e : Bool) (d a b : BitVec 6) (c : BitVec 4) (m : BitVec 1) (s : State) : Host.Outcome State Fault Refusal :=
  mVstx (memV e 0x55 d a b m) false none (shortMem c) s

/-- vldff (R301). -/
def execVldff (e : Bool) (d a : BitVec 6) (c : BitVec 4) (m : BitVec 2) (o : BitVec 6) (s : State) :
    Host.Outcome State Fault Refusal :=
  mVldff (memV e 0x56 d a 0 m) none (shortMem c) (4 * o.toInt) s

/-- vldw (R299). -/
def execVldw (e : Bool) (d a : BitVec 6) (z g : BitVec 1) (c : BitVec 4) (m : BitVec 1) (s : State) :
    Host.Outcome State Fault Refusal :=
  mVldw (memV e 0x57 d a 0 m) (z == 1) (g == 1) none (shortMem c) s

/-- vstw (R299). -/
def execVstw (e : Bool) (d a : BitVec 6) (z : BitVec 1) (c : BitVec 4) (m : BitVec 1) (s : State) :
    Host.Outcome State Fault Refusal :=
  mVstw (memV e 0x57 d a 0 m) (z == 1) none (shortMem c) s

/-- vldbp (R302). -/
def execVldbp (e : Bool) (d a : BitVec 6) (c : BitVec 4) (m : BitVec 2) (sc r : BitVec 1) (k : BitVec 3) (s : State) :
    Host.Outcome State Fault Refusal :=
  mVldbp (memV e 0x58 d a 0 m) (sc == 1) (r == 1) (k.toNat + 2) 0 none (shortMem c) s

/-- vlseg (R303). -/
def execVlseg (e : Bool) (d a : BitVec 6) (k f : BitVec 3) (c : BitVec 4) (m : BitVec 1) (s : State) :
    Host.Outcome State Fault Refusal :=
  mVlseg (memV e 0x59 d a 0 m) f.toNat k.toNat (segEnc k f) (shortMem c) s

/-- vsseg (R303). -/
def execVsseg (e : Bool) (d a : BitVec 6) (k f : BitVec 3) (c : BitVec 4) (m : BitVec 1) (s : State) :
    Host.Outcome State Fault Refusal :=
  mVsseg (memV e 0x59 d a 0 m) f.toNat k.toNat (segEnc k f) (shortMem c) s

end Sys2Proof.Machine
end

