-- ==== Sys2Proof/Machine/Links.lean ====
section
/-! DEFINITION. Link-tag atomics (majors 0x5A and 0x5B and their ordered long form; R304, R305, R309). -/

namespace Sys2Proof.Machine

open Sys2Proof

/-- vldgl (R304). -/
def mVldgl (v : VArgs) (m : MemArgs) (s : State) : Host.Outcome State Fault Refusal :=
  issueLoad v none [.reg v.b false] (loadLinked v m (elSize v)) s

/-- vstsc (R304). -/
def mVstsc (v : VArgs) (ps : Nat) (m : MemArgs) (s : State) : Host.Outcome State Fault Refusal :=
  issueStore v none [.reg v.b false] (storeCond v m (elSize v) ps) s

/-- vldgl (R304). -/
def execVldgl (e : Bool) (d a b : BitVec 6) (c : BitVec 4) (m : BitVec 1) (s : State) : Host.Outcome State Fault Refusal :=
  mVldgl (memV e 0x5A d a b m) (shortMem c) s

/-- vstsc (R304): the success predicate is p2. -/
def execVstsc (e : Bool) (d a b : BitVec 6) (c : BitVec 4) (m : BitVec 1) (s : State) : Host.Outcome State Fault Refusal :=
  mVstsc (memV e 0x5A d a b m) 2 (shortMem c) s

/-- The operands of the long forms (R309). Elements perform in rising index with and without `.o`. -/
def linkV (e : Bool) (x : LinkLong) : VArgs :=
  { e := e, major := 0x5A, len := 8, d := x.d, a := x.a, b := x.b, pm := x.pm4.toNat, wide := x.dw == 1 }

def linkMem (x : LinkLong) : MemArgs := { cls := x.cls.toNat, scope := x.scope.toNat, rel := false, acq := false }

/-- The long vldgl (R309). -/
def execVldglLong (e : Bool) (x : LinkLong) (s : State) : Host.Outcome State Fault Refusal := mVldgl (linkV e x) (linkMem x) s

/-- The long vstsc (R309). -/
def execVstscLong (e : Bool) (x : LinkLong) (s : State) : Host.Outcome State Fault Refusal :=
  mVstsc (linkV e x) x.ps.toNat (linkMem x) s

/-- Bytes of sll and ssc (R305). -/
def linkSize (four : Bool) : Nat := if four then 4 else 8

/-- sll (R305). -/
def execSll (e : Bool) (d a : BitVec 6) (c : BitVec 4) (w : BitVec 1) (s : State) : Host.Outcome State Fault Refusal :=
  issueSide { e := e, major := 0x5B } none (loadLinkedScalar (shortMem c) (linkSize (w == 1)) d a) s

/-- ssc (R305). -/
def execSsc (e : Bool) (d a b : BitVec 6) (c : BitVec 4) (w : BitVec 1) (s : State) : Host.Outcome State Fault Refusal :=
  issueSide { e := e, major := 0x5B } none (storeCondScalar (shortMem c) (linkSize (w == 1)) d a b) s

end Sys2Proof.Machine
end

