-- ==== Sys2Proof/Machine/MemLong.lean ====
section
/-! DEFINITION. The long memory forms of major 0x7A (R306 to R308). -/

namespace Sys2Proof.Machine

open Sys2Proof

def ctlV (e : Bool) (x : MemCtl) : VArgs :=
  { e := e, major := 0x50 + x.xop.toNat, len := 8, d := x.d, a := x.a, b := BitVec.ofNat 6 (vbits x.low 13 6), pm := x.pm4.toNat,
    wide := x.dw == 1 }

def ctlMem (x : MemCtl) : MemArgs :=
  { cls := x.cls.toNat, scope := x.scope.toNat, rel := x.ra == 1, acq := x.ra == 2 }

/-- Where a release or acquire mark is legal (R307). -/
def markLegal (xop ra : Nat) : Bool :=
  ra == 0 || (ra == 1 && (xop == 1 || xop == 3)) || (ra == 2 && (xop == 0 || xop == 2))

/-- DW has a meaning for vld, vst, vlds, vsts, vldx, vstx and vldff (R307). -/
def ctlWide (xop : Nat) : Bool := 2 ≤ xop && xop ≤ 6

/-- The bits of `low` that the table gives no meaning for an XOP (R307): those below OFF19, B, KR or IX. -/
def lowUnused (xop low : Nat) : Bool :=
  match xop with
  | 0x0 => false
  | 0x1 => false
  | 0x2 => false
  | 0x3 => false
  | 0x6 => false
  | 0x4 => low % 2 ^ 13 != 0
  | 0x5 => low % 2 ^ 9 != 0 || bits low 10 3 != 0
  | 0x8 => low % 2 ^ 10 != 0 || bitAt low 18
  | 0x9 => low % 2 ^ 10 != 0 || bits low 16 3 != 0
  | 0x7 => low % 2 ^ 13 != 0 || bits low 15 4 != 0
  | _ => low % 2 ^ 13 != 0

/-- F: a width for scalar accesses, a function for paired majors, both for the linked pair (R307). -/
def fUnused (xop f : Nat) : Bool :=
  match xop with
  | 0x0 => false
  | 0x1 => false
  | 0xA => false
  | 0x2 => f != 0
  | 0x3 => f != 0
  | 0x6 => f != 0
  | 0x8 => f != 0
  | _ => 2 ≤ f

/-- The encoding checks of the control form (R307). -/
def ctlEnc (x : MemCtl) : Option Nat :=
  let xop := x.xop.toNat
  firstOf [
    failIf (!markLegal xop x.ra.toNat) 0x01,
    failIf (xop == 8 && vbits x.low 13 3 == 7) 0x01,
    failIf (x.dw == 1 && !ctlWide xop) 0x02,
    failIf (fUnused xop x.f.toNat) 0x02,
    failIf (x.s == 1 && xop != 0) 0x02,
    failIf (lowUnused xop x.low.toNat) 0x02,
    failIf ((xop ≤ 1 || xop == 0xA) && x.pm4 != 0) 0x02,
    failIf (xop == 7 && x.f == 1 && vbits x.low 13 1 == 1) 0x02,
    failIf (xop == 0xA && x.f.toNat % 2 == 0 && vbits x.low 13 6 != 0) 0x02]

/-- The control form (R307): the short instruction that XOP names, with class, scope, mark, mask and offset. -/
def execMemLongControlForm (e : Bool) (x : MemCtl) (s : State) : Host.Outcome State Fault Refusal :=
  let xop := x.xop.toNat
  let v := ctlV e x
  let m := ctlMem x
  let enc := ctlEnc x
  let off := x.low.toInt
  let h : Head := { e := e, major := if xop = 0xA then 0x5B else 0x50 + xop, len := 8 }
  let second := x.f.toNat % 2 = 1
  let kr := vbits x.low 10 3
  match xop with
  | 0x0 => issueSide h enc (loadScalar m (2 ^ x.f.toNat) (x.s == 1) x.d x.a off) s
  | 0x1 => issueSide h enc (storeScalar m (2 ^ x.f.toNat) x.d x.a off) s
  | 0x2 => mVld v enc m off s
  | 0x3 => mVst v enc m off s
  | 0x4 => if second then mVsts v enc m s else mVlds v enc m s
  | 0x5 => if second then mVstx v (x.low.getLsbD 9) enc m s else mVldx v (x.low.getLsbD 9) enc m s
  | 0x6 => mVldff v enc m off s
  | 0x7 =>
    if second then mVstw v (x.low.getLsbD 14) enc m s else mVldw v (x.low.getLsbD 14) (x.low.getLsbD 13) enc m s
  | 0x8 => mVldbp v (x.low.getLsbD 17) (x.low.getLsbD 16) (vbits x.low 13 3 + 2) kr enc m s
  | 0x9 => if second then mVsseg v (vbits x.low 13 3) kr enc m s else mVlseg v (vbits x.low 13 3) kr enc m s
  | _ =>
    let w := linkSize (2 ≤ x.f.toNat)
    if second then issueSide h enc (storeCondScalar m w x.d x.a v.b) s else issueSide h enc (loadLinkedScalar m w x.d x.a) s

/-- The offset form (R308). -/
def execMemLongOffsetForm (e : Bool) (d a : BitVec 6) (xop sub : BitVec 4) (off : BitVec 32) (_hint : BitVec 4) (s : State) :
    Host.Outcome State Fault Refusal :=
  let major := 0x50 + (xop.toNat - 0xB) + (if xop = 0xF then 2 else 0)
  let h : Head := { e := e, major := major, len := 8 }
  let v : VArgs := { e := e, major := major, len := 8, d := d, a := a }
  let w := 2 ^ vbits sub 2 2
  match xop.toNat with
  | 0xB => issueSide h (failIf (sub.getLsbD 0) 0x02) (loadScalar (shortMem 0) w (sub.getLsbD 1) d a off.toInt) s
  | 0xC => issueSide h (failIf (vbits sub 0 2 != 0) 0x02) (storeScalar (shortMem 0) w d a off.toInt) s
  | 0xD => mVld v none (shortMem sub) off.toInt s
  | 0xE => mVst v none (shortMem sub) off.toInt s
  | _ => mVldff v none (shortMem sub) off.toInt s

end Sys2Proof.Machine
end

