-- ==== Sys2Proof/Machine/Sync.lean ====
section
/-! DEFINITION. Fences, named barriers, iteration posts, stage rings, claim and watched words (majors 0x5C to 0x5F; R310 to R319). -/

namespace Sys2Proof.Machine

open Sys2Proof

/-- The slots of the classes of a fence's mask (R141). -/
def maskSlots (mask : BitVec 16) : List Nat := ((List.range 16).filter fun i => mask.getLsbD i).map (16 + ·)

/-- fence (R141, R310): one with an empty mask orders nothing. -/
def fenceBody (scope : BitVec 3) (mask : BitVec 16) (s : State) : State × Act :=
  if mask = 0 then (s, .next) else (fenceSlots [pathParty (exPath s)] (maskSlots mask) scope.toNat s, .next)

/-! Named barriers (R311 to R313). -/

/-- The co-resident set of a block, when its blocks share one cluster. -/
def setOfBlock (s : State) (b : Block) : Option Launch := (launchOf s b).filter isSet

/-- The block that holds barrier k for block `uid`: for a set barrier the remaining block of the set with the lowest blockid (R311,
R315); `none` outside such a set. -/
def barrierHolder (s : State) (uid k : Nat) : Option Nat :=
  if k < 48 then some uid
  else (setOfBlock s (getBlock s uid)).bind fun l => (blocksOf s l.id).head?.map (·.uid)

def getBar (s : State) (uid k : Nat) : Barrier := vget (getBlock s uid).bars k

/-- Phases completed (R312): the barrier, and the phases that its arrivals have completed. -/
def completePhases (x : Barrier) : Barrier × List (BitVec 32) :=
  if x.expect = 0 then (x, [])
  else
    let n := x.count.toNat / x.expect.toNat
    ({ x with count := BitVec.ofNat 16 (x.count.toNat % x.expect.toNat), gen := x.gen + BitVec.ofNat 32 n },
      (List.range n).map fun i => x.gen + BitVec.ofNat 32 i)

/-- Completions of a set barrier enter the arrival history (R313, R423). -/
def recordArrivals (uid k : Nat) (gens : List (BitVec 32)) (s : State) : State :=
  if k < 48 then s
  else
    let b := getBlock s uid
    let t := tickOf s b.place.die
    { s with arrivals := (gens.map fun g =>
        { ctx := blockCtx s b, bar := k, gen := g, cl := b.place.die * 5 + b.place.cl, tick := t : Arrival }).reverse ++ s.arrivals }

/-- A barrier changed, and its phases completed. -/
def setBar (uid k : Nat) (x : Barrier) (s : State) : State :=
  let (y, gens) := completePhases x
  recordArrivals uid k gens (modBlock uid (fun b => { b with bars := vset b.bars k y }) s)

/-- A barrier of a block held pre-empted stands in its save frame, and is changed there (R315, R319, R411); the cause and the address when
the frame cannot be written (R407). -/
def noteBar (uid k : Nat) (s : State) : State × Option (Nat × Word) :=
  let b := getBlock s uid
  if b.res != .held then (s, none)
  else
    let ctx := blockCtx s b
    let va := frameBase s ctx (b.frame.getD 0) + 0x400100 + 8 * k
    let x := vget b.bars k
    match walk s ctx va .write true with
    | .ok _ => (putWord ctx va (x.expect.toNat + x.count.toNat * 2 ^ 16 + x.gen.toNat * 2 ^ 32) s, none)
    | .fault ft _ => (s, some (failCause ft, BitVec.ofNat 64 va))
    | .bad a => (s, some (0x14, BitVec.ofNat 64 a))

/-- A barrier changed by an instruction. -/
def barSet (uid k : Nat) (x : Barrier) (s : State) : State × Act :=
  match noteBar uid k (setBar uid k x s) with
  | (s, none) => (s, .next)
  | (s, some (c, a)) => (s, .domain c a none)

/-- A barrier operation: outside a set that shares a cluster a set barrier traps (R312). -/
def withBar (k : BitVec 6) (f : Nat → Barrier → State → State × Act) (s : State) : State × Act :=
  match barrierHolder s (cur s).who.uid k.toNat with
  | none => (s, .trap 0x01 0 0)
  | some u => f u (getBar s u k.toNat) s

/-- barinit. -/
def barinitBody (k a : BitVec 6) : State → State × Act := withBar k fun u x s =>
  let v := rdS a s
  if 65535 < v.toNat then (s, .trap 0x01 0 0)
  else barSet u k.toNat { x with expect := BitVec.ofNat 16 v.toNat } s

/-- bararr: the weight is 1 when the A field is zero. -/
def bararrBody (d k a : BitVec 6) : State → State × Act := withBar k fun u x s =>
  let n := if a = 0 then 1 else (rdS a s).toNat
  if 65535 < n ∨ 65535 < x.count.toNat + n then (s, .trap 0x01 0 0)
  else barSet u k.toNat { x with count := x.count + BitVec.ofNat 16 n } (wrS d (BitVec.ofNat 64 x.gen.toNat) s)

/-- A barwait that returns is acquiring at its barrier's scope (R313). -/
def barAcquire (k : Nat) (s : State) : State := fenceAt (if k < 48 then 1 else 2) s

/-- barwait for phase g. -/
def barwaitOn (k : BitVec 6) (g : Half) : State → State × Act := withBar k fun _ x s =>
  if x.gen = g then (s, .wait (.bar k.toNat g)) else (barAcquire k.toNat s, .next)

def barwaitBody (k a : BitVec 6) (s : State) : State × Act := barwaitOn k (BitVec.ofNat 32 (rdS a s).toNat) s

/-! Iteration posts (R314, R315). -/

/-- ipost. -/
def ipostBody (a : BitVec 6) (s : State) : State × Act :=
  let v := rdS a s
  (modB (fun b => { b with iter := if b.iter.ult v then v else b.iter }) s, .next)

/-- ITER of the block at distance d; 2^64 − 1 when it has retired; `none` outside a set. -/
def iterAt (s : State) (uid d : Nat) : Option Word :=
  let b := getBlock s uid
  (setOfBlock s b).map fun l =>
    let n := numBlk l
    let k := (b.blockid.toNat + n * 32 - d) % n
    match s.blocks.find? fun x => x.launch == l.id && x.blockid.toNat == k with
    | some x => x.iter
    | none => BitVec.allOnes 64

/-- iwait for a value. -/
def iwaitOn (d : Nat) (v : Word) (s : State) : State × Act :=
  match iterAt s (cur s).who.uid d with
  | none => (s, .trap 0x01 0 0)
  | some x => if x.ult v then (s, .wait (.iter d v)) else (fenceAt 2 s, .next)

def iwaitBody (a : BitVec 6) (d : BitVec 5) (s : State) : State × Act := iwaitOn d.toNat (rdS a s) s

/-! Stage rings (R316, R181). -/

/-- Slots of the rings of the issuing block's launch; 0 when it declared none. -/
def curSlots (s : State) : Nat := ((launchOf s (curBlock s)).map ringSlots).getD 0

/-- Slot j of ring r toggled by a post of a scope. -/
def postSlot (r j scope : Nat) (b : Block) : Block :=
  let x := vget b.rings r
  { b with rings := vset b.rings r (putBit x j (!x.getLsbD j)), postScope := sset 1 (r * 8 + j) scope b.postScope }

/-- The item that a ring instruction names: SLOT + s[A]. -/
def ringItem (slot : BitVec 3) (a : BitVec 6) (s : State) : Nat := slot.toNat + (rdS a s).toNat

def stgpostBody (r slot : BitVec 3) (a : BitVec 6) (s : State) : State × Act :=
  if curSlots s = 0 then (s, .trap 0x01 0 0)
  else (modB (postSlot r.toNat (ringItem slot a s % curSlots s) 1) s, .next)

/-- stgwait for a phase of a slot; on return it acquires at the scope of the post. -/
def stgwaitOn (r j : Nat) (want : Bool) (s : State) : State × Act :=
  let b := curBlock s
  if (vget b.rings r).getLsbD j = want then (fenceAt (sget 1 b.postScope (r * 8 + j)) s, .next)
  else (s, .wait (.ring r j want))

def stgwaitBody (r slot : BitVec 3) (ph : BitVec 1) (a : BitVec 6) (s : State) : State × Act :=
  let n := curSlots s
  if n = 0 then (s, .trap 0x01 0 0)
  else
    let j := ringItem slot a s
    stgwaitOn r.toNat (j % n) ((ph == 1) != (j / n % 2 == 1)) s

/-! Claim and watched words (R317, R318, R189). -/

def claimBody (d a : BitVec 6) (s : State) : State × Act :=
  match launchOf s (curBlock s) with
  | none => (s, .next)
  | some l =>
    let g := min (min (rdS a s).toNat (vlmax s)) (pkWord l 1 - l.counter.toNat)
    let s := modLaunch l.id (fun x => { x with counter := x.counter + BitVec.ofNat 64 g }) s
    (leaveQueues l.id (wrS d l.counter (modG (fun x => { x with vl := BitVec.ofNat 32 g }) s)), .next)

/-- waitw on a word that held `old` (R318); the read register is given by number. The word is read as it stands at its home. -/
def waitwOn (ext : Bool) (a old : Word) (d : Nat) (s : State) : State × Act :=
  match loadNum { curEnv 15 5 s with actor := .engine } { ok := true, addr := a } 8 8 s with
  | (s, .ok x) =>
    if BitVec.ofNat 64 x = old then (s, .wait (.word ext a old d)) else (fenceAt 5 (wrReg d (BitVec.ofNat 64 x) s), .next)
  | (s, g) => endScalar g s

def waitwBody (ext : Bool) (d a b : BitVec 6) (s : State) : State × Act := waitwOn ext (rdS a s) (rdS b s) (sregOf s d) s

/-- fence (R310). -/
def execFence (e : Bool) (c : BitVec 3) (m : BitVec 16) (s : State) : Host.Outcome State Fault Refusal :=
  issueSide { e := e, major := 0x5C } (failIf (6 ≤ c.toNat) 0x01) (fenceBody c m) s

/-- barinit (R312). -/
def execBarinit (e : Bool) (a b : BitVec 6) (s : State) : Host.Outcome State Fault Refusal :=
  issueSide { e := e, major := 0x5D } none (barinitBody b a) s

/-- bararr (R312). -/
def execBararr (e : Bool) (d a b : BitVec 6) (s : State) : Host.Outcome State Fault Refusal :=
  issueSide { e := e, major := 0x5D } none (bararrBody d b a) s

/-- barwait (R312, R313). -/
def execBarwait (e : Bool) (a b : BitVec 6) (s : State) : Host.Outcome State Fault Refusal :=
  issueSide { e := e, major := 0x5D } none (barwaitBody b a) s

/-- ipost (R314). -/
def execIpost (e : Bool) (a : BitVec 6) (s : State) : Host.Outcome State Fault Refusal :=
  issueSide { e := e, major := 0x5E } none (ipostBody a) s

/-- iwait (R314). -/
def execIwait (e : Bool) (a : BitVec 6) (d : BitVec 5) (s : State) : Host.Outcome State Fault Refusal :=
  issueSide { e := e, major := 0x5E } (failIf (d == 0) 0x01) (iwaitBody a d) s

/-- stgpost (R316). -/
def execStgpost (e : Bool) (a : BitVec 6) (r c : BitVec 3) (s : State) : Host.Outcome State Fault Refusal :=
  issueSide { e := e, major := 0x5E } none (stgpostBody r c a) s

/-- stgwait (R316). -/
def execStgwait (e : Bool) (a : BitVec 6) (r : BitVec 3) (p : BitVec 1) (c : BitVec 3) (s : State) :
    Host.Outcome State Fault Refusal :=
  issueSide { e := e, major := 0x5E } none (stgwaitBody r c p a) s

/-- claim (R317). -/
def execClaim (e : Bool) (d a : BitVec 6) (s : State) : Host.Outcome State Fault Refusal :=
  issueSide { e := e, major := 0x5F } none (claimBody d a) s

/-- waitw (R318). -/
def execWaitw (e : Bool) (d a b : BitVec 6) (s : State) : Host.Outcome State Fault Refusal :=
  issueSide { e := e, major := 0x5F } none (waitwBody false d a b) s

/-- waitw.ext (R318). -/
def execWaitwExt (e : Bool) (d a b : BitVec 6) (s : State) : Host.Outcome State Fault Refusal :=
  issueSide { e := e, major := 0x5F } none (waitwBody true d a b) s

end Sys2Proof.Machine
end

