-- ==== Sys2Proof/Machine/Records.lean ====
section
/-! DEFINITION. Reservation records, rows of the operand buffer in split layout (R78 to R81, R327, R328), and the values of matrix
operands and their sums (R128, R131 to R133). -/

namespace Sys2Proof.Machine

open Sys2Proof

/-! Records (R78). -/

def recInUse (r : BitVec 128) : Bool := r.getLsbD 63
def recFmt (r : BitVec 128) : Nat := vbits r 56 5
def recPln (r : BitVec 128) : Nat := vbits r 52 4
def recBlen (r : BitVec 128) : Nat := vbits r 44 8
def recBase (r : BitVec 128) : Nat := vbits r 16 12
def recLen (r : BitVec 128) : Nat := vbits r 0 13
def recSoff (r : BitVec 128) : Nat := vbits r 96 12
def recPitch (r : BitVec 128) : Nat := vbits r 64 12

/-- Reserved fields of a record are zero. -/
def recReservedZero (r : BitVec 128) : Bool :=
  vbits r 61 2 == 0 && vbits r 28 16 == 0 && vbits r 13 3 == 0 && vbits r 108 20 == 0 && vbits r 76 20 == 0

/-- Scale bytes of a record's range: one for each block that a byte of its element area belongs to (R80). -/
def scaleBytes (r : BitVec 128) : Nat :=
  if recBlen r = 32 then (64 * recSoff r + blockBytes (recFmt r) - 1) / blockBytes (recFmt r) else 0

/-- What obres asks of a record (R80, R327). -/
def recLegal (obSize : Nat) (r : BitVec 128) : Bool :=
  let f := recFmt r
  let blen := if isBlockFmt f && f != 0x16 then 32 else 0
  recReservedZero r && isFmt f && recBlen r == blen &&
  (if isBpi f then 2 ≤ recPln r && recPln r ≤ 8 else recPln r == 0) &&
  ((recSoff r == 0) == (recBlen r == 0)) &&
  decide (1 ≤ recLen r) && decide (recLen r ≤ 4096) && decide (1 ≤ recPitch r) &&
  (!isBlockFmt f || 64 * recPitch r % blockBytes f == 0) &&
  decide (64 * recSoff r + scaleBytes r ≤ 64 * recLen r) && decide (64 * (recBase r + recLen r) ≤ obSize)

/-- Bytes of e elements of a row in the operand buffer (R328). -/
def rowBytes (f e : Nat) : Nat := if isBlockFmt f then (e + 31) / 32 * blockBytes f else e * elBytes f

/-- Bytes of e elements in memory layout. -/
def memRowBytes (f e : Nat) : Nat := if isBlockFmt f then e / 32 * segBytes f else e * elBytes f

def recArea (r : BitVec 128) : Nat := if recBlen r = 32 then 64 * recSoff r else 64 * recLen r

/-- Row j is present with e elements (R328). -/
def rowPresent (r : BitVec 128) (e j : Nat) : Bool := decide (64 * j * recPitch r + rowBytes (recFmt r) e ≤ recArea r)

/-- The record check of R328 for the format of a tfmt value. -/
def recordCheck (r : BitVec 128) (tfmt : Half) (rows : List Nat) (e : Nat) : Bool :=
  recInUse r && recFmt r == vbits tfmt 0 5 && (!isBpi (recFmt r) || recPln r == vbits tfmt 8 4) && rows.all (rowPresent r e)

/-! Rows of the operand buffer. -/

/-- Bytes of the record's range from offset o on. -/
def obBytes (b : Block) (r : BitVec 128) (o n : Nat) : List Byte := sgetN 0 b.ob (64 * recBase r + o) n

/-- Element codes of row j, e of them. -/
def rowCodes (b : Block) (r : BitVec 128) (j e : Nat) : List Nat :=
  let f := recFmt r
  if isBlockFmt f then
    ((List.range ((e + 31) / 32)).flatMap fun k =>
      unpackEls f (obBytes b r (64 * j * recPitch r + k * blockBytes f) (blockBytes f))).take e
  else (List.range e).map fun k => ofBytes (obBytes b r (64 * j * recPitch r + k * elBytes f) (elBytes f))

/-- Scale bytes of the blocks of row j. -/
def rowScales (b : Block) (r : BitVec 128) (j e : Nat) : List Nat :=
  let f := recFmt r
  (List.range ((e + 31) / 32)).map fun k =>
    if recBlen r = 32 then
      ofBytes (obBytes b r (64 * recSoff r + (64 * j * recPitch r + k * blockBytes f) / blockBytes f) 1)
    else 0x7F

/-- Row j written from memory layout (R80): elements, and scale bytes to the scale area. -/
def putRow (r : BitVec 128) (j e : Nat) (l : List Byte) (b : Block) : Block :=
  let f := recFmt r
  let base := 64 * recBase r
  if isBlockFmt f then
    { b with ob := (List.range (e / 32)).foldl (fun m k =>
        let seg := (l.drop (k * segBytes f)).take (segBytes f)
        let o := 64 * j * recPitch r + k * blockBytes f
        let m := ssetN 0 (base + o) (if f = 0x16 then seg else seg.drop 4) m
        if recBlen r = 32 then ssetN 0 (base + 64 * recSoff r + o / blockBytes f) (seg.take 1) m else m) b.ob }
  else { b with ob := ssetN 0 (base + 64 * j * recPitch r) l b.ob }

/-- The bytes of the operand buffer that row j of a record takes, as offsets and lengths: elements, and scale bytes. -/
def rowRanges (r : BitVec 128) (j e : Nat) : List (Nat × Nat) :=
  (64 * recBase r + 64 * j * recPitch r, rowBytes (recFmt r) e) ::
  (if recBlen r = 32 then
    [(64 * (recBase r + recSoff r) + 64 * j * recPitch r / blockBytes (recFmt r), (e + 31) / 32)] else [])

/-- The first place of some ranges that holds an uncorrectable error (R76). -/
def hurt (s : State) (place : Nat → Target) (l : List (Nat × Nat)) : Option Nat :=
  if s.bad.isEmpty then none
  else l.findSome? fun x => ((List.range x.2).find? fun i => badTarget s (place (x.1 + i))).map (x.1 + ·)

/-- What follows an access of a block's storage: an uncorrectable error ends its fault domain (R76). -/
def unlessHurt (x : Option Nat) (f : State → State × Act) (s : State) : State × Act :=
  match x with
  | some a => (s, .domain 0x14 (BitVec.ofNat 64 a) none)
  | none => f s

/-! Values and sums. -/

/-- The values of elements with their block scales (R121, R127, R128). -/
def operandValues (f planes : Nat) (rnd : Bool) (codes scales : List Nat) : List Fv :=
  (List.range codes.length).map fun k =>
    if isBlockFmt f then blockValue f (scales.getD (k / 32) 0x7F) planes rnd (codes.getD k 0) else plainValue f (codes.getD k 0)

/-- An exact product (R133): 0 × ∞ is a NaN. -/
def exactMul (a b : Fv) : Fv :=
  match mulVal a b with
  | some v => v
  | none => .nan false

/-- An exact sum (R133). -/
def exactAdd (a b : Fv) : Fv :=
  match a, b with
  | .fin n1 m1 e1, .fin n2 m2 e2 =>
    let (n, m, e) := addExact .rne n1 m1 e1 n2 m2 e2
    .fin n m e
  | .inf n1, .inf n2 => if n1 == n2 then .inf n1 else .nan false
  | .inf n, .fin _ _ _ => .inf n
  | .fin _ _ _, .inf n => .inf n
  | _, _ => .nan false

/-- rne32 (R132). -/
def rne32 (v : Fv) : Nat := (toFmt fB32 .rne v).1

/-- acc + gs, rounded once (R132). -/
def addGroup (acc : Nat) (gs : Fv) : Nat := (fAdd fB32 .rne (fdecode fB32 acc) (fdecode fB32 (rne32 gs))).1

/-- The exact sum of a group of products (R133). -/
def groupSum (l : List (Fv × Fv)) : Fv := l.foldl (fun s p => exactAdd s (exactMul p.1 p.2)) (.fin false 0 0)

/-- The sum of products in groups of 16 (R132), `n` of them at most. -/
def sumGroups : Nat → Nat → List (Fv × Fv) → Nat
  | 0, acc, _ => acc
  | n + 1, acc, l => if l.isEmpty then acc else sumGroups n (addGroup acc (groupSum (l.take 16))) (l.drop 16)

/-- One accumulator element after a product of a row and a column (R132). -/
def dotInto (acc : Nat) (x y : List Fv) : Nat := sumGroups ((x.length + 15) / 16) acc (x.zip y)

end Sys2Proof.Machine
end

