-- ==== Sys2Proof/Machine/Engine.lean ====
section
/-! DEFINITION. The matrix engine (R324 to R352): planes and row selection, the rows of mma, gang operations in the rendezvous latch,
accumulator images, and the writes that stand in the matrix queue. -/

namespace Sys2Proof.Machine

open Sys2Proof

def tfmtCode (t : Half) : Nat := vbits t 0 5
def tfmtPln (t : Half) : Nat := vbits t 8 4
def tfmtRnd (t : Half) : Bool := t.getLsbD 12

/-- Planes read of a format. -/
def planesRead (t : Half) : Nat := if isBpi (tfmtCode t) then tfmtPln t else 8

/-- Formats of the array (R320). -/
def isMatrixFmt (f : Nat) : Bool := (2 ≤ f && f ≤ 6) || (0x10 ≤ f && f ≤ 0x17)

def getRec (b : Block) (h : Nat) : BitVec 128 := vget b.recs h

/-- Plane p holds what the grant asks for (R335). -/
def planeFits (b : Block) (p : Plane) : Bool :=
  p.valid && p.k == b.gk.toNat && p.n == b.gn.toNat && p.fmt.toNat == tfmtCode b.tfmt && p.pln.toNat == tfmtPln b.tfmt &&
  p.rnd == tfmtRnd b.tfmt

/-- A plane loaded from rows j0 on of a record (R331). -/
def loadPlane (b : Block) (r : BitVec 128) (j0 : Nat) (id : BitVec 16) : Plane :=
  let k := b.gk.toNat
  let n := b.gn.toNat
  { valid := true, k := k, n := n, fmt := BitVec.ofNat 5 (tfmtCode b.tfmt), pln := BitVec.ofNat 4 (tfmtPln b.tfmt),
    rnd := tfmtRnd b.tfmt, id := id,
    w := (List.range n).foldl (fun m c => ssetN 0 (c * 128) ((rowCodes b r (j0 + c) k).map (BitVec.ofNat 16)) m) [],
    sc := if recBlen r = 32 then
        (List.range n).foldl (fun m c => ssetN 0 (c * 4) ((rowScales b r (j0 + c) k).map (BitVec.ofNat 8)) m) []
      else [] }

/-- Column c of a plane as values. -/
def planeColumn (p : Plane) (c : Nat) : List Fv :=
  operandValues p.fmt.toNat (if isBpi p.fmt.toNat then p.pln.toNat else 8) p.rnd
    ((sgetN 0 p.w (c * 128) p.k).map (·.toNat)) ((sgetN 0 p.sc (c * 4) ((p.k + 31) / 32)).map (·.toNat))

/-- Where a row goes (R332). -/
inductive Sel where
  | plane (p : Nat)
  | defer
  deriving DecidableEq, Repr

def selectRow (b : Block) (m : Nat) : Sel :=
  if b.tagOn then
    let t := sget 0xFFFF b.tags m
    if t != 0xFFFF && t == (vget b.planes 0).id then .plane 0
    else if t != 0xFFFF && t == (vget b.planes 1).id then .plane 1
    else .defer
  else if m < b.rbnd.toNat then .plane 0 else .plane 1

/-- The active rows of an mma with their planes (R326, R335). -/
def rowsOf (b : Block) (m : LatchMember) : List (Nat × Sel) :=
  ((List.range b.gm.toNat).filter fun r => decide (m.vstart ≤ r) && decide (r < m.vl) && m.prbits.getLsbD r).map
    fun r => (r, selectRow b r)

/-- The grant is missing or does not fit: cause 0x0A with the first failing value (R331, R335). -/
def grantFault (b : Block) (withM : Bool) : Option (Nat × Word) :=
  if b.gm = 0 ∨ b.gn = 0 ∨ b.gk = 0 ∨ b.tfmt = 0 then some (0x0A, 0)
  else if withM && limM b.place < b.gm.toNat then some (0x0A, BitVec.ofNat 64 b.gm.toNat)
  else if limN b.place b.faulty < b.gn.toNat then some (0x0A, BitVec.ofNat 64 b.gn.toNat)
  else if limK b.place b.ben < b.gk.toNat then some (0x0A, BitVec.ofNat 64 b.gk.toNat)
  else none

/-- The checks of mma (R335). -/
def mmaFault (b : Block) (m : LatchMember) : Option (Nat × Word) :=
  match grantFault b true with
  | some x => some x
  | none =>
    let rows := rowsOf b m
    if !recordCheck (getRec b m.handle) b.tfmt (rows.map fun r => m.j0.toNat + r.1) b.gk.toNat then
      some (0x0B, BitVec.ofNat 64 m.handle)
    else [0, 1].findSome? fun p =>
      if (rows.any fun r => r.2 == .plane p) && !planeFits b (vget b.planes p) then some (0x0A, BitVec.ofNat 64 p) else none

/-- Rows of a tile, as ranges of elements. -/
def tileRows (rows : List Nat) (cols : Nat) : List (Nat × Nat) := rows.map fun r => (r * 64, cols)

/-- An uncorrectable error in the storage that the rows of a member touch (R76). -/
def mmaHurt (s : State) (b : Block) (m : LatchMember) : Option Nat :=
  let rows := ((rowsOf b m).filter fun r => r.2 != .defer).map (·.1)
  (hurt s (.obuf b.uid) (rows.flatMap fun r => rowRanges (getRec b m.handle) (m.j0.toNat + r) b.gk.toNat)).orElse fun _ =>
    hurt s (.tile b.uid m.tile) (tileRows rows b.gn.toNat)

/-- One computed row of a tile. -/
def computeRow (b : Block) (m : LatchMember) (r p : Nat) : Block :=
  let rec_ := getRec b m.handle
  let k := b.gk.toNat
  let j := m.j0.toNat + r
  let x := operandValues (recFmt rec_) (planesRead b.tfmt) (tfmtRnd b.tfmt) (rowCodes b rec_ j k) (rowScales b rec_ j k)
  let t := vget b.tiles m.tile
  let row := (List.range b.gn.toNat).map fun n =>
    BitVec.ofNat 32 (dotInto (if m.z then 0 else (sget 0 t (r * 64 + n)).toNat) x (planeColumn (vget b.planes p) n))
  { b with tiles := vset b.tiles m.tile (ssetN 0 (r * 64) row t), pres := vset b.pres m.tile (putBit (vget b.pres m.tile) r true) }

/-- PD of a member's group: deferred rows set, computed rows cleared; p0 discards them. -/
def putDeferred (m : LatchMember) (rows : List (Nat × Sel)) (b : Block) : Block :=
  let mask (f : Sel → Bool) : BitVec 1024 := setOf (fun _ => true) ((rows.filter fun r => f r.2).map (·.1))
  { b with groups := modFirst (fun g => g.gidx == m.gidx) (fun g =>
      if m.pd = 0 then g
      else { g with p := vset g.p m.pd ((vget g.p m.pd &&& ~~~ mask fun x => x != .defer) ||| mask fun x => x == .defer) }) b.groups }

/-- The rows of a member computed in increasing order (R335). -/
def runRows (m : LatchMember) (rows : List (Nat × Sel)) (b : Block) : Block :=
  putDeferred m rows (rows.foldl (fun b r => match r.2 with
    | .plane p => computeRow b m r.1 p
    | .defer => b) b)

/-- The operands of an mma as its issue captures them. -/
def mmaMember (len : Nat) (c : BitVec 2) (h : BitVec 4) (a : BitVec 6) (r p : BitVec 4) (z : BitVec 1) (s : State) : LatchMember :=
  let g := curGroup s
  { gidx := g.gidx, pidx := exPath s, len := len, tile := c.toNat, handle := h.toNat, z := z == 1, pd := p.toNat, vl := g.vl.toNat,
    vstart := g.vstart.toNat, j0 := rdS a s, prbits := (rdP r.toNat s).truncate 256, ben := (curBlock s).ben }

/-- The row at which an mma stops for a pre-emption that stands: the device's choice (R336). -/
def rowStop (s : State) : State × Option Nat :=
  if (curBlock s).preempt && !(curGroup s).sup then ({ s with free := s.free + 1 }, some (Config.freeNat s.free)) else (s, none)

/-- mma (R335, R336). -/
def mmaBody (len : Nat) (c : BitVec 2) (h : BitVec 4) (a : BitVec 6) (r p : BitVec 4) (z : BitVec 1) (s : State) : State × Act :=
  let b := curBlock s
  let m := mmaMember len c h a r p z s
  match mmaFault b m with
  | some (k, x) => (s, .trap k x 0)
  | none =>
    unlessHurt (mmaHurt s b m) (fun s =>
      let (s, cut) := rowStop s
      match cut.filter fun r => decide (m.vstart < r) && decide (r < b.gm.toNat) with
      | some r => (setStart r (modB (runRows m ((rowsOf b m).filter fun x => decide (x.1 < r))) s), .stopped)
      | none => (zeroStart (modB (runRows m (rowsOf b m)) s), .next)) s

/-! Gangs (R182 to R184, R338 to R340). -/

def gangSeq (g : Word) : BitVec 8 := BitVec.ofNat 8 (vbits g 32 8)
def gangMembers (g : Word) : BitVec 16 := BitVec.ofNat 16 (vbits g 0 16)
def gangPair (g : Word) : Bool := g.getLsbD 16
def gangTmo (g : Word) : Nat := vbits g 48 16

/-- Validity of a gang register value for a group of a block (R182). -/
def gangValid (b : Block) (gidx : Nat) (x : Word) : Bool :=
  let m := gangMembers x
  m == 0 || (decide (2 ≤ popcount m) && decide (popcount m ≤ 6) && m.getLsbD gidx && (!gangPair x || popcount m == 2) &&
    (members m 16).all fun i => match findGroup b i with
      | some g => g.role == .m
      | none => false)

/-- What a write of the gang register stores: its reserved fields stay zero (R182, R198; log 33). -/
def gangStored (x : Word) : Word := putBits (putBits x 40 8 0) 17 15 0

/-- gangset: a value that R182 does not allow traps. -/
def gangsetBody (a : BitVec 6) (s : State) : State × Act :=
  let x := rdS a s
  if gangValid (curBlock s) (curGroup s).gidx x then (modG (fun g => { g with gang := gangStored x }) s, .next) else (s, .trap 0x01 0 0)

/-- A member's part after its gang operation: vstart 0, SEQ one on (R339). -/
def gangDone (g : Group) : Group :=
  { g with vstart := 0, gang := putBits g.gang 32 8 ((gangSeq g.gang).toNat + 1) }

/-- A waiting path goes on behind its instruction. -/
def passWait (w : Who) (len : Nat) (s : State) : State :=
  modPath w (fun p => match p.run with
    | .waiting _ _ => (stepPath len none false { p with run := .ready }).1
    | _ => p) s

/-- Members by rising GIDX. -/
def byGidx (l : List LatchMember) : List LatchMember := (List.range 16).flatMap fun i => l.filter fun m => m.gidx == i

/-- A gang operation of block `uid` with all its members (R339, R340): the pair rule, the checks of every member again, and the rows of
all. `waiting` are the members that wait in the latch. -/
def gangRun (uid : Nat) (e : LatchEntry) (waiting all : List LatchMember) (s : State) : State × Act :=
  let b := getBlock s uid
  let tiles := all.map (·.tile)
  let bad : Option (Nat × Word) :=
    if e.pair && decide (tiles.eraseDups.length < 2) then some (0x01, 0) else all.findSome? (mmaFault b)
  match bad with
  | some (c, a) => (failLatch uid { e with arrived := waiting } c a s, .trap c a 0)
  | none =>
    unlessHurt (all.findSome? (mmaHurt s b)) (fun s =>
      let s := modBlock uid (fun b => all.foldl (fun b m => runRows m (rowsOf b m) b) b) s
      let s := modBlock uid (fun b => { b with
        latch := b.latch.filter fun x => !sameGang x e.seq e.members e.pair,
        groups := b.groups.map fun g => if all.any fun m => m.gidx == g.gidx then gangDone g else g }) s
      (waiting.foldl (fun s m => passWait { uid := uid, gidx := m.gidx, pidx := m.pidx } m.len s) s, .next)) s

/-- The last member has arrived. -/
def gangFire (e : LatchEntry) (me : LatchMember) (s : State) : State × Act :=
  gangRun (cur s).who.uid e e.arrived (byGidx (me :: e.arrived)) s

/-- mma.g (R339): the member arrives, and the last arrival executes the operation for all. A second path of a group that has
arrived already waits until the entry is gone (log 31). While a pre-emption request stands the members stay stopped in the latch
(R401), and the operation executes once the block is restored. -/
def mmaGBody (len : Nat) (c : BitVec 2) (h : BitVec 4) (a : BitVec 6) (r p : BitVec 4) (z : BitVec 1) (s : State) : State × Act :=
  let g := curGroup s
  let b := curBlock s
  let m := mmaMember len c h a r p z s
  let mem := gangMembers g.gang
  let same (e : LatchEntry) : Bool := sameGang e (gangSeq g.gang) mem (gangPair g.gang)
  if mem = 0 then (s, .trap 0x01 0 0)
  else match mmaFault b m with
  | some (k, x) => (s, .trap k x 0)
  | none =>
    let e : LatchEntry := (b.latch.find? same).getD
      { seq := gangSeq g.gang, pair := gangPair g.gang, members := mem, tmo := gangTmo g.gang, elapsed := 0, arrived := [] }
    if e.arrived.any fun x => x.gidx == g.gidx then (s, .wait .latch)
    else if e.arrived.length + 1 = popcount mem ∧ !b.preempt ∧ b.res = .resident then gangFire e m s
    else
      (modB (fun b => { b with latch := b.latch.filter (fun x => !same x) ++ [{ e with arrived := e.arrived ++ [m] }] }) s, .wait .latch)

/-! Accumulator images (R344 to R346). -/

/-- The image of rows and columns of a tile (R344). -/
def imageBytes (b : Block) (tile rows cols prog : Nat) : List Byte :=
  let t := vget b.tiles tile
  toBytes 4 0x4343414B ++ toBytes 2 1 ++ toBytes 2 rows ++ toBytes 2 cols ++ toBytes 1 (tfmtCode b.tfmt) ++
  toBytes 1 (if prog = 0 then 0 else 1) ++ toBytes 2 prog ++ toBytes 2 0 ++
  toBytes 32 (vbits (vget b.pres tile) 0 rows) ++ toBytes 16 0 ++
  (List.range rows).flatMap fun m => (List.range cols).flatMap fun n => toBytes 4 (sget 0 t (m * 64 + n)).toNat

/-- A head that a loading core accepts (R346). -/
def headFits (b : Block) (l : List Byte) : Bool :=
  let f (o n : Nat) : Nat := ofBytes ((l.drop o).take n)
  let rows := f 6 2
  f 0 4 == 0x4343414B && f 4 2 == 1 && f 14 2 == 0 && f 48 16 == 0 && f 16 32 < 2 ^ rows &&
  decide (1 ≤ rows) && decide (rows ≤ limM b.place) && decide (1 ≤ f 8 2) && decide (f 8 2 ≤ limN b.place b.faulty)

/-- Elements of unit u of an image written to a tile. -/
def putUnit (cols u : Nat) (l : List Byte) (t : Sparse Half) : Sparse Half :=
  (List.range (l.length / 4)).foldl (fun t i =>
    let x := (u - 1) * 16 + i
    sset 0 (x / cols * 64 + x % cols) (BitVec.ofNat 32 (ofBytes ((l.drop (4 * i)).take 4))) t) t

/-- The bytes of unit u of an image of n bytes. -/
def unitLen (n u : Nat) : Nat := min 64 (n - 64 * u)

/-- A tile whose elements outside rows and columns are zero. -/
def cropTile (rows cols : Nat) (t : Sparse Half) : Sparse Half := skeep (fun k => decide (k / 64 < rows) && decide (k % 64 < cols)) t

/-- Writes from address `a` on added to the matrix queue (R345). -/
def queueWrites (m : MemArgs) (a : Word) (l : List (Target × List Byte)) (s : State) : State :=
  let b := curBlock s
  let op : MatOp :=
    { id := s.uids, pl := corePlace b.place, uid := b.uid, gidx := (cur s).who.gidx, cls := m.cls, scope := m.scope,
      addr := a, writes := l }
  modG (fun g => { g with qwide := putBit g.qwide 8 (g.qwide.getLsbD 8 || decide (2 ≤ m.scope)) })
    { s with matq := s.matq ++ [op], uids := s.uids + 1 }

/-- Bytes for the parts of a destination. -/
def splitParts : List (Nat × Nat × Nat) → List Byte → List (Target × List Byte)
  | [], _ => []
  | (pa, n, _) :: l, d => (.phys pa, d.take n) :: splitParts l (d.drop n)

/-- The writes of bytes at a resolved destination. -/
def destWrites (d : Dest) (l : List Byte) : List (Target × List Byte) :=
  match d with
  | .parts ps => splitParts ps l
  | .spad u off => [(.spad u off, l)]
  | .cellar die off => [(.cellar die off, l)]

/-- How the matrix queue reaches memory for one of its operations. -/
def matqEnv (s : State) (o : MatOp) : Env :=
  { uid := o.uid, pl := o.pl, ctx := blockCtx s (getBlock s o.uid), sup := false, scope := o.scope, cls := o.cls, noL1 := true,
    side := .core o.pl, core := some o.pl, owner := .matq o.id }

/-- How the matrix queue reaches memory for an instruction that reads through it (R135, R154). -/
def matEnv (m : MemArgs) (s : State) : Env := { curEnv m.cls m.scope s with actor := .engine }

/-- Where the writes of an operation stand: the address of the first that has not performed, those writes, and the cause of one that
failed. -/
abbrev Performed := Word × List (Target × List Byte) × Option Nat

/-- The writes of an operation from address `a` on performed in order, up to one that waits at an aperture, that is held with its
scratchpad (R37), or that fails. One to the scratchpad of a block that is gone is dropped (log 36). -/
def performWrites (env : Env) : Word → List (Target × List Byte) → State → State × Performed
  | a, [], s => (s, a, [], none)
  | a, (.phys pa, l) :: r, s =>
    let b := a + BitVec.ofNat 64 l.length
    if isAperture s pa then
      match apertureAccess env a pa l.length (some l) .write s with
      | (s, .ok _) => performWrites env b r s
      | (s, .trap c _ _) => (s, a, (.phys pa, l) :: r, some c)
      | (s, _) => (s, a, (.phys pa, l) :: r, none)
    else performWrites env b r (physWrite env.core pa l (wakeDie (homeDie s pa) s))
  | a, (.spad u off, l) :: r, s =>
    let b := a + BitVec.ofNat 64 l.length
    if (getBlock s u).transit then (s, a, (.spad u off, l) :: r, none)
    else performWrites env b r (if (findBlock s u).isSome then spadWrite u off l s else s)
  | a, (_, l) :: r, s => performWrites env (a + BitVec.ofNat 64 l.length) r s

/-- The path of a group that takes a trap which belongs to none of its instructions: in supervisor mode one that the supervisor runs on,
else the first that is ready, else the first (log 36). -/
def trapTaker (g : Group) : Option Nat :=
  if g.sup then (g.paths.find? fun p => g.svPaths.getLsbD p.idx).map (·.idx)
  else ((g.paths.find? fun p => p.run == .ready).orElse fun _ => g.paths.head?).map (·.idx)

/-- The issuing group of a queued write that failed traps with the address of the write (R447; log 36). -/
def trapIssuer (o : MatOp) (cause : Nat) (a : Word) (s : State) : State :=
  match (findGroup (getBlock s o.uid) o.gidx).bind trapTaker with
  | some i =>
    let w : Who := { uid := o.uid, gidx := o.gidx, pidx := i }
    trapPath w cause a (kindBits .write) (leaveWait w s)
  | none => s

/-- One operation of a matrix queue performed as far as it can be; it is gone once nothing of it is left, or once a write of it has failed:
the rest is not sent (R447). -/
def performMat (o : MatOp) (s : State) : State :=
  let done (s : State) : State := { s with matq := s.matq.filter fun x => x.id != o.id }
  match performWrites (matqEnv s o) o.addr o.writes s with
  | (s, a, _, some c) => trapIssuer o c a (done s)
  | (s, _, [], none) => done s
  | (s, a, l, none) => { s with matq := modFirst (fun x => x.id == o.id) (fun x => { x with addr := a, writes := l }) s.matq }

/-- The oldest operation of a core's matrix queue performs. -/
def runMatq (pl : Place) (s : State) : State :=
  match s.matq.find? fun o => o.pl == pl with
  | some o => performMat o s
  | none => s

/-- A read through the matrix queue comes after the operations that stand in it (R153, R154): while one does, the step is that of the
oldest of them, and the instruction is tried again (log 114), unless that step has taken the group out of its run. -/
def throughMatq (f : State → State × Act) (s : State) : State × Act :=
  let pl := corePlace (curBlock s).place
  if s.matq.any fun o => o.pl == pl then
    let t := runMatq pl s
    (t, if t.running == s.running then .stall else .left)
  else f s

/-- The cause that a write takes at its issue when nothing can be sent to the aperture that it goes to (R361, R443). -/
def deadDest (s : State) : Dest → Option Nat
  | .parts ps => (ps.find? fun p => isAperture s p.1 && portDead s p.1).map fun p => portCause s p.1
  | _ => none

/-- A destination of a write that the matrix queue will make: resolved, and within reach (R345, R361). -/
def resolveQueued (env : Env) (a : Ea) (n align : Nat) (s : State) : State × Got Dest :=
  andThen (resolveStore env a n align s) fun d s =>
    match deadDest s d with
    | some c => (s, .trap c a.addr (kindBits .write))
    | none => (s, .ok d)

/-- A unit of a macc.st resolved. A unit at which it has faulted keeps the translation of its retried walk until the capture (R345). -/
def resolveUnit (m : MemArgs) (a : Ea) (n : Nat) (s : State) : State × Got Dest :=
  let keep (x : Option (Nat × Nat)) (s : State) : State :=
    modG (fun g => { g with kept := (a.addr.toNat, x) :: g.kept.filter fun e => e.1 != a.addr.toNat }) s
  match (curGroup s).kept.lookup a.addr.toNat with
  | some (some (pa, ilv)) => (s, .ok (.parts [(pa, n, ilv)]))
  | was =>
    match resolveQueued (curEnv m.cls m.scope s) a n 64 s with
    | (s, .ok (.parts [(pa, k, ilv)])) => (if was.isSome then keep (some (pa, ilv)) s else s, .ok (.parts [(pa, k, ilv)]))
    | (s, .fault ft lv x k) => (keep none s, .fault ft lv x k)
    | r => r

/-- macc.st (R345). -/
def maccStBody (m : MemArgs) (c : BitVec 2) (a x : BitVec 6) (s : State) : State × Act :=
  let b := curBlock s
  let v := rdS x s
  let rows := vbits v 0 16
  let cols := vbits v 16 16
  if vbits v 32 32 ≠ 0 ∨ limM b.place < rows ∨ limN b.place b.faulty < cols ∨ rows = 0 ∨ cols = 0 then (s, .trap 0x0A v 0)
  else
    let n := 64 + 4 * rows * cols
    let ea (u : Nat) : Ea := exactAddr false (rdS a s) (64 * u : Nat)
    let (s, ds, stop) := accessAll (fun u s => resolveUnit m (ea u) (unitLen n u) s) (List.range ((n + 63) / 64)) s
    match stop with
    | some (_, g) => (s, gotAct (exPath s) g)
    | none => unlessHurt (hurt s (.tile b.uid c.toNat) (tileRows (List.range rows) cols)) (fun s =>
      let img := imageBytes b c.toNat rows cols (curGroup s).vstart.toNat
      let s := if (curGroup s).kept.isEmpty then s else modG (fun g => { g with kept := [] }) s
      (queueWrites m (rdS a s) (ds.flatMap fun e => destWrites e.2 ((img.drop (64 * e.1)).take (unitLen n e.1))) s, .next)) s

/-- One unit of an image read. -/
def loadUnit (m : MemArgs) (a : Word) (n u : Nat) (s : State) : State × Got (List Byte) :=
  let ea := exactAddr false a (64 * u : Nat)
  atEa ea .read (loadAt (matEnv m s) ea.addr (unitLen n u) 64) s

/-- macc.ld (R346): the head, then the units from vstart on; elements of a unit are in the tile once it is read (log 32). -/
def maccLdBody (m : MemArgs) (c : BitVec 2) (a : BitVec 6) (s : State) : State × Act :=
  let base := rdS a s
  let v0 := (curGroup s).vstart.toNat
  match alignFault base 64 with
  | some e => (s, .trap e base (kindBits .read))
  | none => throughMatq (fun s => match loadUnit m base 64 0 s with
  | (s, .ok head) =>
    if !headFits (curBlock s) head then (s, .trap 0x15 base 0)
    else
      let rows := ofBytes ((head.drop 6).take 2)
      let cols := ofBytes ((head.drop 8).take 2)
      let n := 64 + 4 * rows * cols
      let put (t : Sparse Half → Sparse Half) (s : State) : State :=
        modB (fun b => { b with tiles := vset b.tiles c.toNat (t (vget b.tiles c.toNat)) }) s
      let (s, _, stop) := accessAll (fun u s =>
        andThen (loadUnit m base n u s) fun l s => (put (putUnit cols u l) s, .ok ()))
        ((List.range ((n + 63) / 64)).filter fun u => decide (1 ≤ u) && decide (v0 ≤ u)) s
      match stop with
      | some (u, g) => (setStart u s, gotAct (exPath s) g)
      | none => unlessHurt (hurt s (.tile (curBlock s).uid c.toNat) (tileRows (List.range rows) cols)) (fun s =>
        let s := put (cropTile rows cols) s
        (zeroStart (modB (fun b => { b with
          pres := vset b.pres c.toNat (BitVec.ofNat 256 (ofBytes ((head.drop 16).take 32))) }) s), .next)) s
  | (s, .stall) => (s, .stall)
  | (s, g) => (setStart 0 s, gotAct (exPath s) g)) s

/-! Routing counters (R348 to R350). -/

/-- The counters of the block's cluster, taken for its context when they are free; none when another context holds them. -/
def takeRouting (s : State) : Option State :=
  let b := curBlock s
  let ctx := blockCtx s b
  match s.routing.find? fun r => r.die == b.place.die && r.cl == b.place.cl with
  | some r => if r.ctx == ctx then some s else none
  | none => some { s with routing := { die := b.place.die, cl := b.place.cl, ctx := ctx, counts := [] } :: s.routing }

def modRouting (f : Sparse Half → Sparse Half) (s : State) : State :=
  let b := curBlock s
  { s with routing := modFirst (fun r => r.die == b.place.die && r.cl == b.place.cl) (fun r => { r with counts := f r.counts }) s.routing }

/-- One entry counted (R349). -/
def countEntry (e : Nat) (m : Sparse Half) : Sparse Half :=
  if bitAt e 15 then m
  else
    let c := e % 256
    let x := sget 0 m c
    sset 0 c (if x = BitVec.allOnes 32 then x else x + 1) m

/-- rcount (R349). -/
def rcountBody (m : MemArgs) (a b : BitVec 6) (s : State) : State × Act :=
  let n := rdS b s
  let base := rdS a s
  match takeRouting s with
  | none => (s, .trap 0x06 0 0)
  | some s =>
    if 4096 < n.toNat then (s, .trap 0x0A n 0)
    else throughMatq (fun s =>
      let v0 := (curGroup s).vstart.toNat
      let (s, _, stop) := accessAll (fun j s =>
        andThen (loadNum (matEnv m s) (exactAddr false base (2 * j : Nat)) 2 2 s) fun e s =>
          (modRouting (countEntry e) s, .ok ()))
        ((List.range n.toNat).filter fun j => decide (v0 ≤ j)) s
      match stop with
      | some (j, g) => (setStart j s, gotAct (exPath s) g)
      | none => (zeroStart s, .next)) s

/-- rcsnap (R350). -/
def rcsnapBody (m : MemArgs) (d a : BitVec 6) (s : State) : State × Act :=
  match takeRouting s with
  | none => (s, .trap 0x06 0 0)
  | some s =>
    match resolveQueued (curEnv m.cls m.scope s) { ok := true, addr := rdS a s } 1024 1024 s with
    | (s, .ok dst) =>
      let b := curBlock s
      let counts := match s.routing.find? fun r => r.die == b.place.die && r.cl == b.place.cl with
        | some r => sgetN 0 r.counts 0 256
        | none => []
      let s := modRouting (fun _ => []) s
      let base := rdS a s
      let s := wrS d (BitVec.ofNat 64 (counts.map (·.toNat)).sum) s
      (queueWrites m base (destWrites dst (counts.flatMap fun c => toBytes 4 c.toNat)) s, .next)
    | (s, g) => (s, gotAct (exPath s) g)

end Sys2Proof.Machine
end

