-- ==== Sys2Proof/Machine/Matrix.lean ====
section
/-! DEFINITION. Grants, reservations, fills, planes, the multiply, accumulators and routing counters (majors 0x60 to 0x6B and their long
form; R320 to R351). Each is given the length of its form and its class and scope. -/

namespace Sys2Proof.Machine

open Sys2Proof

/-- Form of a matrix instruction: E, its length, class and scope. -/
structure MatForm where
  e : Bool
  len : Nat
  mem : MemArgs
  enc : Option Nat
  deriving DecidableEq, Repr

def shortMat (e : Bool) : MatForm := { e := e, len := 4, mem := shortMem 0, enc := none }

/-- A matrix instruction of a major: it executes once for each side (R173). -/
def issueMat (f : MatForm) (major : Nat) (enc : Option Nat) (body : State → State × Act) (s : State) :
    Host.Outcome State Fault Refusal :=
  issueSide { e := f.e, major := major, len := f.len, mOnly := major == 0x60 } (firstOf [enc, f.enc]) body s

/-! Grants (R321 to R323). -/

/-- grant(q, dim) of R321. -/
def grantOf (q lim : Nat) : Nat := min (max 8 (8 * ((q + 7) / 8))) lim

/-- The packed grant. -/
def packGrant (b : Block) : Word :=
  BitVec.ofNat 64 (b.gm.toNat + b.gn.toNat * 2 ^ 16 + b.gk.toNat * 2 ^ 32 + b.tfmt.toNat * 2 ^ 48)

/-- Formats and planes that tset refuses (R322). -/
def tsetBad (r : BitVec 1) (p : BitVec 4) (f : BitVec 5) : Bool :=
  let bpi := isBpi f.toNat
  !isMatrixFmt f.toNat || (bpi && (decide (p.toNat < 2) || decide (8 < p.toNat))) || (!bpi && (p != 0 || r != 0))

/-- tset (R322). -/
def tsetBody (d a : BitVec 6) (r : BitVec 1) (p : BitVec 4) (f : BitVec 5) (s : State) : State × Act :=
  let b := curBlock s
  let x := rdS a s
  let lm := limM b.place
  let ln := limN b.place b.faulty
  let lk := limK b.place b.ben
  if tsetBad r p f then (s, .trap 0x01 0 0)
  else if vbits x 48 16 ≠ 0 ∨ lm = 0 ∨ ln = 0 ∨ lk = 0 then (s, .trap 0x0A x 0)
  else
    let s := modB (fun b => { b with
      gm := BitVec.ofNat 32 (grantOf (vbits x 0 16) lm),
      gn := BitVec.ofNat 32 (grantOf (vbits x 16 16) ln),
      gk := BitVec.ofNat 32 (grantOf (vbits x 32 16) lk),
      tfmt := BitVec.ofNat 32 (f.toNat + p.toNat * 2 ^ 8 + r.toNat * 2 ^ 12) }) s
    (wrS d (packGrant (curBlock s)) s, .next)

def mTset (m : MatForm) (d a : BitVec 6) (r : BitVec 1) (p : BitVec 4) (f : BitVec 5) (s : State) : Host.Outcome State Fault Refusal :=
  issueMat m 0x60 none (tsetBody d a r p f) s

/-- tget, which every role may issue (R176, R322). -/
def mTget (m : MatForm) (d : BitVec 6) (s : State) : Host.Outcome State Fault Refusal :=
  issueSide { e := m.e, major := 0x60, len := m.len } m.enc (fun s => (wrS d (packGrant (curBlock s)) s, .next)) s

/-- Writes of BEN: a non-empty subset of AVAIL (R207). Bands that a block enables are powered (R323, R418). -/
def setBands (x : BitVec 4) (s : State) : Option State :=
  let p := (curBlock s).place
  if x = 0 ∨ x &&& ~~~ availOf p ≠ 0 then none
  else
    let s := modB (fun b => { b with ben := x }) s
    some { s with bands := kset (corePlace p) (kget 0 s.bands (corePlace p) ||| x) s.bands }

/-- tbands (R323). -/
def tbandsBody (d : BitVec 6) (x : BitVec 4) (s : State) : State × Act :=
  match setBands x s with
  | none => (s, .trap 0x0A (BitVec.ofNat 64 x.toNat) 0)
  | some s => (wrS d (BitVec.ofNat 64 (gkLimit (curBlock s).place x)) s, .next)

def mTbands (m : MatForm) (d : BitVec 6) (b : BitVec 4) (s : State) : Host.Outcome State Fault Refusal :=
  issueMat m 0x61 none (tbandsBody d b) s

/-! Reservations and fills (R327 to R329). -/

/-- obres. -/
def obresBody (h : BitVec 4) (a b : BitVec 6) (s : State) : State × Act :=
  let x := curBlock s
  let r : BitVec 128 := putBit (BitVec.ofNat 128 ((rdS a s).toNat + (rdS b s).toNat * 2 ^ 64)) 63 true
  if recInUse (getRec x h.toNat) || !recLegal x.obSize r then (s, .trap 0x0B 0 0)
  else (modB (fun x => { x with recs := vset x.recs h.toNat r }) s, .next)

def mObres (m : MatForm) (h : BitVec 4) (a b : BitVec 6) (s : State) : Host.Outcome State Fault Refusal :=
  issueMat m 0x62 none (obresBody h a b) s

/-- obrel. -/
def obrelBody (h : BitVec 4) (s : State) : State × Act :=
  (modB (fun x => { x with recs := vset x.recs h.toNat (putBit (getRec x h.toNat) 63 false) }) s, .next)

def mObrel (m : MatForm) (h : BitVec 4) (s : State) : Host.Outcome State Fault Refusal := issueMat m 0x62 none (obrelBody h) s

/-- One row that obfill reads: local and cluster-window addresses only (R44). -/
def obfillRow (m : MemArgs) (a : Ea) (n align : Nat) (s : State) : State × Got (List Byte) :=
  atEa a .read (fun s =>
    if !badTag a.addr && tagOf a.addr != 0xE && tagOf a.addr != 0xD then (s, .trap 0x07 a.addr (kindBits .read))
    else loadAt (matEnv m s) a.addr n align s) s

/-- obfill (R329). -/
def obfillBody (m : MemArgs) (c a b : BitVec 6) (h : BitVec 4) (s : State) : State × Act :=
  let r := getRec (curBlock s) h.toNat
  let f := recFmt r
  let sv := rdS b s
  let cv := rdS c s
  let pitch := vbits sv 0 32
  let rows := vbits sv 32 16
  let ne := vbits cv 0 16
  let first := vbits cv 16 16
  if vbits sv 48 16 ≠ 0 ∨ vbits cv 32 32 ≠ 0 then (s, .trap 0x0B 0 0)
  else if !recInUse r || (isBlockFmt f && ne % 32 != 0) || !((List.range rows).all fun i => rowPresent r ne (first + i)) then
    (s, .trap 0x0B 0 0)
  else if ne = 0 then (zeroStart s, .next)
  else throughMatq (fun s =>
    let base := rdS a s
    let align := if isBlockFmt f then 4 else elBytes f
    let v0 := (curGroup s).vstart.toNat
    let (s, _, stop) := accessAll (fun i s =>
      andThen (obfillRow m (exactAddr false base (i * pitch : Nat)) (memRowBytes f ne) align s) fun l s =>
        match hurt s (.obuf (curBlock s).uid) (rowRanges r (first + i) ne) with
        | some o => (s, .domain 0x14 (BitVec.ofNat 64 o) none)
        | none => (modB (putRow r (first + i) ne l) s, .ok ()))
      ((List.range rows).filter fun i => decide (v0 ≤ i)) s
    match stop with
    | some (i, g) => (setStart i s, gotAct (exPath s) g)
    | none => (zeroStart s, .next)) s

def mObfill (m : MatForm) (c a b : BitVec 6) (h : BitVec 4) (s : State) : Host.Outcome State Fault Refusal :=
  issueMat m 0x63 none (obfillBody m.mem c a b h) s

/-- obscale. -/
def obscaleBody (c a : BitVec 6) (k : BitVec 3) (h : BitVec 4) (s : State) : State × Act :=
  let r := getRec (curBlock s) h.toNat
  let first := (rdS a s).toNat
  let n := (rdS c s).toNat
  if !recInUse r || recBlen r == 0 || decide (64 < n) || (n != 0 && decide (scaleBytes r < first + n)) then (s, .trap 0x0B 0 0)
  else
    let g := curGroup s
    let l : List Byte := (List.range n).map fun j =>
      if (vget g.qs k.toNat).getLsbD j then BitVec.ofNat 8 (scaleEntry g k.toNat j) else 0xFF
    let o := 64 * (recBase r + recSoff r) + first
    unlessHurt (hurt s (.obuf (curBlock s).uid) [(o, n)]) (fun s => (modB (fun b => { b with ob := ssetN 0 o l b.ob }) s, .next)) s

def mObscale (m : MatForm) (c a : BitVec 6) (k : BitVec 3) (h : BitVec 4) (s : State) : Host.Outcome State Fault Refusal :=
  issueMat m 0x63 none (obscaleBody c a k h) s

/-! Planes (R331 to R333). -/

/-- mlds. -/
def mldsBody (b a : BitVec 6) (p : BitVec 1) (h : BitVec 4) (s : State) : State × Act :=
  let x := curBlock s
  let j0 := (rdS a s).toNat
  let r := getRec x h.toNat
  match grantFault x false with
  | some (c, v) => (s, .trap c v 0)
  | none =>
    if !recordCheck r x.tfmt ((List.range x.gn.toNat).map (j0 + ·)) x.gk.toNat then
      (s, .trap 0x0B (BitVec.ofNat 64 h.toNat) 0)
    else
      let pl := loadPlane x r j0 (BitVec.ofNat 16 (vbits (rdS b s) 0 16))
      unlessHurt (hurt s (.obuf x.uid) ((List.range x.gn.toNat).flatMap fun c => rowRanges r (j0 + c) x.gk.toNat))
        (fun s => (modB (fun x => { x with planes := vset x.planes p.toNat pl }) s, .next)) s

def mMlds (m : MatForm) (b a : BitVec 6) (p : BitVec 1) (h : BitVec 4) (s : State) : Host.Outcome State Fault Refusal :=
  issueMat m 0x64 none (mldsBody b a p h) s

/-- mswap. -/
def mswapBody (s : State) : State × Act :=
  (modB (fun b => { b with planes := vset (vset b.planes 0 (vget b.planes 1)) 1 (vget b.planes 0) }) s, .next)

def mMswap (m : MatForm) (s : State) : Host.Outcome State Fault Refusal := issueMat m 0x64 none mswapBody s

/-- mrbnd. -/
def mrbndBody (a : BitVec 6) (s : State) : State × Act :=
  let x := rdS a s
  if 256 < x.toNat then (s, .trap 0x02 0 0) else (modB (fun b => { b with rbnd := x.truncate 32 }) s, .next)

def mMrbnd (m : MatForm) (a : BitVec 6) (s : State) : Host.Outcome State Fault Refusal := issueMat m 0x65 none (mrbndBody a) s

/-- mtag: entries gather in the pending table and take effect together. -/
def mtagBody (m : MemArgs) (a b : BitVec 6) (s : State) : State × Act :=
  let n := rdS b s
  let base := rdS a s
  if n = 0 then (zeroStart (modB (fun x => { x with tagOn := false }) s), .next)
  else if 256 < n.toNat then (s, .trap 0x0A n 0)
  else throughMatq (fun s =>
    let v0 := (curGroup s).vstart.toNat
    let s := if v0 = 0 then modB (fun x => { x with pendTags := [] }) s else s
    let (s, _, stop) := accessAll (fun j s =>
      andThen (loadNum (matEnv m s) (exactAddr false base (2 * j : Nat)) 2 2 s) fun t s =>
        (modB (fun x => { x with pendTags := sset 0xFFFF j (BitVec.ofNat 16 t) x.pendTags }) s, .ok ()))
      ((List.range n.toNat).filter fun j => decide (v0 ≤ j)) s
    match stop with
    | some (j, g) => (setStart j s, gotAct (exPath s) g)
    | none =>
      (zeroStart (modB (fun x => { x with
        tags := skeep (fun j => decide (j < n.toNat)) x.pendTags, pendTags := [], tagOn := true }) s), .next)) s

def mMtag (m : MatForm) (a b : BitVec 6) (s : State) : Host.Outcome State Fault Refusal := issueMat m 0x65 none (mtagBody m.mem a b) s

/-! The multiply, gangs and guided extrapolation. -/

def mMma (m : MatForm) (c : BitVec 2) (h : BitVec 4) (a : BitVec 6) (r p : BitVec 4) (z : BitVec 1) (s : State) :
    Host.Outcome State Fault Refusal :=
  issueMat m 0x66 none (mmaBody m.len c h a r p z) s

def mMmaG (m : MatForm) (c : BitVec 2) (h : BitVec 4) (a : BitVec 6) (r p : BitVec 4) (z : BitVec 1) (s : State) :
    Host.Outcome State Fault Refusal :=
  issueMat m 0x67 none (mmaGBody m.len c h a r p z) s

def mGangset (m : MatForm) (a : BitVec 6) (s : State) : Host.Outcome State Fault Refusal := issueMat m 0x67 none (gangsetBody a) s

/-- guide(c, u, x) of R341: u + x × (c − u), rounded once. -/
def guide (c u x : Nat) : Nat :=
  let fc := fdecode fB32 c
  let fu := fdecode fB32 u
  match exactAdd fu (exactMul (fdecode fB32 x) (exactAdd fc (fNeg fu))) with
  | .fin n m e => if m = 0 then 0 else rne32 (.fin n m e)
  | v => rne32 v

/-- Row m of mguide: the destination row, if it is written, and the guide-miss bit. -/
def guideRow (b : Block) (c u x m : Nat) : Option (List Half) × Bool :=
  let n := b.gn.toNat
  let row (t : Nat) : List Half := sgetN 0 (vget b.tiles t) (m * 64) n
  match (vget b.pres c).getLsbD m, (vget b.pres u).getLsbD m with
  | true, true => (some (List.zipWith (fun p q => BitVec.ofNat 32 (guide p.toNat q.toNat x)) (row c) (row u)), false)
  | true, false => (some (row c), true)
  | false, true => (some (row u), true)
  | false, false => (none, false)

/-- mguide (R341). -/
def mguideBody (d c u : BitVec 2) (x : BitVec 6) (p : BitVec 4) (s : State) : State × Act :=
  let b := curBlock s
  if b.gm = 0 ∨ b.gn = 0 then (s, .trap 0x0A 0 0)
  else
    let rows := (List.range b.gm.toNat).map fun m => (m, guideRow b c.toNat u.toNat (vbits (rdS x s) 0 32) m)
    let put (b : Block) (e : Nat × Option (List Half) × Bool) : Block :=
      match e.2.1 with
      | some l => { b with
          tiles := vset b.tiles d.toNat (ssetN 0 (e.1 * 64) l (vget b.tiles d.toNat)),
          pres := vset b.pres d.toNat (putBit (vget b.pres d.toNat) e.1 true) }
      | none => b
    let read := (List.range b.gm.toNat).filter fun m => (vget b.pres c.toNat).getLsbD m || (vget b.pres u.toNat).getLsbD m
    unlessHurt ([d, c, u].findSome? fun t => hurt s (.tile b.uid t.toNat) (tileRows read b.gn.toNat)) (fun s =>
    let s := modB (fun b => rows.foldl put b) s
    (putPred p.toNat (ones 1024 b.gm.toNat) (setOf (fun _ => true) ((rows.filter fun e => e.2.2).map (·.1))) s, .next)) s

def mMguide (m : MatForm) (d c u : BitVec 2) (x : BitVec 6) (p : BitVec 4) (s : State) : Host.Outcome State Fault Refusal :=
  issueMat m 0x68 none (mguideBody d c u x p) s

/-! Accumulators (R343 to R347). -/

def mMzero (m : MatForm) (c : BitVec 2) (s : State) : Host.Outcome State Fault Refusal :=
  issueMat m 0x69 none (fun s =>
    (modB (fun b => { b with tiles := vset b.tiles c.toNat [], pres := vset b.pres c.toNat 0 }) s, .next)) s

def mMaccLd (m : MatForm) (c : BitVec 2) (a : BitVec 6) (s : State) : Host.Outcome State Fault Refusal :=
  issueMat m 0x69 none (maccLdBody m.mem c a) s

def mMaccSt (m : MatForm) (c : BitVec 2) (a b : BitVec 6) (s : State) : Host.Outcome State Fault Refusal :=
  issueMat m 0x69 none (maccStBody m.mem c a b) s

/-- The target group and row of mrd and mwr, after their checks (R347). -/
def rowTarget (v a b : BitVec 6) (f : Group → Nat → State → State × Act) (s : State) : State × Act :=
  let x := curBlock s
  let row := (rdS a s).toNat
  match (findGroup x (rdS b s).toNat).filter fun g => g.role == .v && !g.retired with
  | none => (s, .trap 0x1A 0 0)
  | some g =>
    if nrOf g.nrc ≤ v.toNat then (s, .trap 0x09 0 0)
    else if x.gn = 0 then (s, .trap 0x0A 0 0)
    else if limM x.place ≤ row then (s, .trap 0x0A (rdS a s) 0)
    else f g row s

/-- mrd. -/
def mrdBody (v a b : BitVec 6) (c : BitVec 2) : State → State × Act := rowTarget v a b fun g row s =>
  let x := curBlock s
  let l := sgetN 0 (vget x.tiles c.toNat) (row * 64) x.gn.toNat
  unlessHurt (hurt s (.tile x.uid c.toNat) (tileRows [row] x.gn.toNat)) (fun s =>
    (modGroup (cur s).who.uid g.gidx (fun g =>
      { g with v := ssetN 0 (v.toNat * 1024) l g.v, dirty := putBit g.dirty v.toNat true }) s, .next)) s

/-- mwr. -/
def mwrBody (v a b : BitVec 6) (c : BitVec 2) : State → State × Act := rowTarget v a b fun g row s =>
  let n := (curBlock s).gn.toNat
  let l := sgetN 0 g.v (v.toNat * 1024) n
  unlessHurt (hurt s (.tile (curBlock s).uid c.toNat) (tileRows [row] n)) (fun s =>
    (modB (fun x => { x with
      tiles := vset x.tiles c.toNat (ssetN 0 (row * 64) l (vget x.tiles c.toNat)),
      pres := vset x.pres c.toNat (putBit (vget x.pres c.toNat) row true) }) s, .next)) s

def mMrd (m : MatForm) (v a b : BitVec 6) (c : BitVec 2) (s : State) : Host.Outcome State Fault Refusal :=
  issueMat m 0x6A none (mrdBody v a b c) s

def mMwr (m : MatForm) (v a b : BitVec 6) (c : BitVec 2) (s : State) : Host.Outcome State Fault Refusal :=
  issueMat m 0x6A none (mwrBody v a b c) s

def mRcount (m : MatForm) (a b : BitVec 6) (s : State) : Host.Outcome State Fault Refusal := issueMat m 0x6B none (rcountBody m.mem a b) s

def mRcsnap (m : MatForm) (d a : BitVec 6) (s : State) : Host.Outcome State Fault Refusal := issueMat m 0x6B none (rcsnapBody m.mem d a) s

/-! The instructions. -/

/-- tset (R322). -/
def execTset (e : Bool) (d a : BitVec 6) (r : BitVec 1) (p : BitVec 4) (f : BitVec 5) (s : State) :
    Host.Outcome State Fault Refusal :=
  mTset (shortMat e) d a r p f s

/-- tget (R322). -/
def execTget (e : Bool) (d : BitVec 6) (s : State) : Host.Outcome State Fault Refusal := mTget (shortMat e) d s

/-- tbands (R323). -/
def execTbands (e : Bool) (d : BitVec 6) (b : BitVec 4) (s : State) : Host.Outcome State Fault Refusal := mTbands (shortMat e) d b s

/-- obres (R327). -/
def execObres (e : Bool) (h : BitVec 4) (a b : BitVec 6) (s : State) : Host.Outcome State Fault Refusal := mObres (shortMat e) h a b s

/-- obrel (R327). -/
def execObrel (e : Bool) (h : BitVec 4) (s : State) : Host.Outcome State Fault Refusal := mObrel (shortMat e) h s

/-- obfill (R329). -/
def execObfill (e : Bool) (c a b : BitVec 6) (h : BitVec 4) (s : State) : Host.Outcome State Fault Refusal :=
  mObfill (shortMat e) c a b h s

/-- obscale (R329). -/
def execObscale (e : Bool) (c a : BitVec 6) (k : BitVec 3) (h : BitVec 4) (s : State) : Host.Outcome State Fault Refusal :=
  mObscale (shortMat e) c a k h s

/-- mlds (R331). -/
def execMlds (e : Bool) (b a : BitVec 6) (p : BitVec 1) (h : BitVec 4) (s : State) : Host.Outcome State Fault Refusal :=
  mMlds (shortMat e) b a p h s

/-- mswap (R331). -/
def execMswap (e : Bool) (s : State) : Host.Outcome State Fault Refusal := mMswap (shortMat e) s

/-- mrbnd (R333). -/
def execMrbnd (e : Bool) (a : BitVec 6) (s : State) : Host.Outcome State Fault Refusal := mMrbnd (shortMat e) a s

/-- mtag (R333). -/
def execMtag (e : Bool) (a b : BitVec 6) (s : State) : Host.Outcome State Fault Refusal := mMtag (shortMat e) a b s

/-- mma (R334 to R336). -/
def execMma (e : Bool) (c : BitVec 2) (h : BitVec 4) (a : BitVec 6) (r p : BitVec 4) (z : BitVec 1) (s : State) :
    Host.Outcome State Fault Refusal :=
  mMma (shortMat e) c h a r p z s

/-- mma.g (R339, R340). -/
def execMmaG (e : Bool) (c : BitVec 2) (h : BitVec 4) (a : BitVec 6) (r p : BitVec 4) (z : BitVec 1) (s : State) :
    Host.Outcome State Fault Refusal :=
  mMmaG (shortMat e) c h a r p z s

/-- gangset (R338). -/
def execGangset (e : Bool) (a : BitVec 6) (s : State) : Host.Outcome State Fault Refusal := mGangset (shortMat e) a s

/-- mguide (R341). -/
def execMguide (e : Bool) (d c u : BitVec 2) (x : BitVec 6) (p : BitVec 4) (s : State) : Host.Outcome State Fault Refusal :=
  mMguide (shortMat e) d c u x p s

/-- mzero (R343). -/
def execMzero (e : Bool) (c : BitVec 2) (s : State) : Host.Outcome State Fault Refusal := mMzero (shortMat e) c s

/-- macc.ld (R346). -/
def execMaccLd (e : Bool) (c : BitVec 2) (a : BitVec 6) (s : State) : Host.Outcome State Fault Refusal := mMaccLd (shortMat e) c a s

/-- macc.st (R345). -/
def execMaccSt (e : Bool) (c : BitVec 2) (a b : BitVec 6) (s : State) : Host.Outcome State Fault Refusal :=
  mMaccSt (shortMat e) c a b s

/-- mrd (R347). -/
def execMrd (e : Bool) (v a b : BitVec 6) (c : BitVec 2) (s : State) : Host.Outcome State Fault Refusal := mMrd (shortMat e) v a b c s

/-- mwr (R347). -/
def execMwr (e : Bool) (v a b : BitVec 6) (c : BitVec 2) (s : State) : Host.Outcome State Fault Refusal := mMwr (shortMat e) v a b c s

/-- rcount (R349). -/
def execRcount (e : Bool) (a b : BitVec 6) (s : State) : Host.Outcome State Fault Refusal := mRcount (shortMat e) a b s

/-- rcsnap (R350). -/
def execRcsnap (e : Bool) (d a : BitVec 6) (s : State) : Host.Outcome State Fault Refusal := mRcsnap (shortMat e) d a s

/-- The long form (R351): the instruction that the body holds, with class and scope. Only obfill, mtag, macc.ld, macc.st, rcount and
rcsnap give them a meaning; for the others they must be zero. -/
def execMatrixLongForm (e : Bool) (xop : BitVec 4) (body : BitVec 24) (cls : BitVec 4) (scope : BitVec 3) (_hint : BitVec 4)
    (s : State) : Host.Outcome State Fault Refusal :=
  let q : MatForm :=
    { e := e, len := 8, mem := { cls := cls.toNat, scope := scope.toNat, rel := false, acq := false }, enc := none }
  let z : MatForm := { q with enc := failIf (cls != 0 || scope != 0) 0x02 }
  let f (w lo : Nat) : BitVec w := BitVec.ofNat w (vbits body lo w)
  match xop.toNat with
  | 0x0 => if body.getLsbD 11 then mTget z (f 6 18) s else mTset z (f 6 18) (f 6 12) (f 1 10) (f 4 6) (f 5 0) s
  | 0x1 => mTbands z (f 6 18) (f 4 0) s
  | 0x2 => if body.getLsbD 23 then mObrel z (f 4 19) s else mObres z (f 4 19) (f 6 12) (f 6 6) s
  | 0x3 =>
    if body.getLsbD 5 then mObscale z (f 6 18) (f 6 12) (f 3 9) (f 4 1) s else mObfill q (f 6 18) (f 6 12) (f 6 6) (f 4 1) s
  | 0x4 => if body.getLsbD 11 then mMswap z s else mMlds z (f 6 18) (f 6 12) (f 1 10) (f 4 6) s
  | 0x5 => if body.getLsbD 23 then mMtag q (f 6 12) (f 6 6) s else mMrbnd z (f 6 12) s
  | 0x6 => mMma z (f 2 22) (f 4 18) (f 6 12) (f 4 8) (f 4 4) (f 1 3) s
  | 0x7 =>
    if body.getLsbD 0 then mGangset z (f 6 12) s else mMmaG z (f 2 22) (f 4 18) (f 6 12) (f 4 8) (f 4 4) (f 1 3) s
  | 0x8 => mMguide z (f 2 22) (f 2 20) (f 2 18) (f 6 12) (f 4 8) s
  | 0x9 =>
    match vbits body 22 2 with
    | 0 => mMzero z (f 2 20) s
    | 1 => mMaccLd q (f 2 20) (f 6 12) s
    | _ => mMaccSt q (f 2 20) (f 6 12) (f 6 6) s
  | 0xA =>
    if body.getLsbD 3 then mMwr z (f 6 18) (f 6 12) (f 6 6) (f 2 4) s else mMrd z (f 6 18) (f 6 12) (f 6 6) (f 2 4) s
  | _ => if body.getLsbD 5 then mRcsnap q (f 6 18) (f 6 12) s else mRcount q (f 6 12) (f 6 6) s

end Sys2Proof.Machine
end

