-- ==== Sys2Proof/Machine/Copy.lean ====
section
/-! DEFINITION. Copies: descriptors and their checks at issue (R97 to R103), the movement and conversion of elements (R101, R102), stops
in error (R357), the instructions cpy, qfence and qwait (R354 to R362, R372), and the steps of the queues. -/

namespace Sys2Proof.Machine

open Sys2Proof

/-! Descriptors. -/

/-- Alignment that a format asks for (R45). -/
def fmtAlign (f : Nat) : Nat := if isBlockFmt f then 4 else elBytes f

/-- Supported conversions (R102). -/
def pairOk (x y : Nat) : Bool :=
  (x ≤ 0x15 && y ≤ 0x15) || (isBpi y && (x == 0x06 || x == y)) || isBpi x

/-- A descriptor as its words. -/
abbrev DescWords := List Nat

def dw (l : DescWords) (k : Nat) : Nat := l.getD k 0

def dNdim (l : DescWords) : Nat := bits (dw l 0) 56 4
def dSfmt (l : DescWords) : Nat := bits (dw l 0) 51 5
def dDfmt (l : DescWords) : Nat := bits (dw l 0) 46 5
def dRnd (l : DescWords) : Nat := bits (dw l 0) 43 3
def dDob (l : DescWords) : Bool := bitAt (dw l 0) 42
def dHandle (l : DescWords) : Nat := bits (dw l 0) 38 4
def dDpk (l : DescWords) : Bool := bitAt (dw l 0) 37
def dBnd (l : DescWords) : Bool := bitAt (dw l 0) 36

/-- Word j of dimension d. -/
def dDim (l : DescWords) (d j : Nat) : Nat := dw l (8 + 4 * d + j)

/-- A stride as a signed number. -/
def strideOf (x : Nat) : Int := sextNat x 64

/-- Box of dimension d (R100): a grant register multiplies it. -/
def boxOf (l : DescWords) (b : Block) (d : Nat) : Nat :=
  let n := bits (dDim l d 3) 0 32
  match bits (dDim l d 3) 62 2 with
  | 0 => n
  | 1 => n * b.gm.toNat
  | 2 => n * b.gn.toNat
  | _ => n * b.gk.toNat

/-- A packed destination stride (R100). -/
def packedStride (f : Nat) (dob : Bool) (box : Nat → Nat) : Nat → Int
  | 0 => if isBlockFmt f then 0 else elBytes f
  | d + 1 =>
    if d = 0 ∧ isBlockFmt f then ((box 0 / 32 * (if dob then blockBytes f else segBytes f) : Nat) : Int)
    else packedStride f dob box d * (box d : Nat)

/-- The dimensions with box and strides resolved (R100). -/
def dimsOf (l : DescWords) (b : Block) : List CopyDim :=
  (List.range (dNdim l)).map fun d =>
    { extent := bits (dDim l d 0) 32 32, start := bits (dDim l d 0) 0 32, sstr := strideOf (dDim l d 1),
      dstr := if dDpk l then packedStride (dDfmt l) (dDob l) (boxOf l b) d else strideOf (dDim l d 2), box := boxOf l b d }

/-- A reserved field is nonzero. A HANDLE without DOB counts as one: R98 asks for zero there and R103 names no row for it: DESIGN CHOICE
(log 111). -/
def descReserved (l : DescWords) : Bool :=
  bits (dw l 0) 0 36 != 0 || (!dDob l && dHandle l != 0) || ((List.range 5).any fun k => dw l (3 + k) != 0) ||
  ((List.range (dNdim l)).any fun d => bits (dDim l d 3) 32 30 != 0)

/-- A value that no descriptor may hold. -/
def descIllegal (l : DescWords) (dims : List CopyDim) : Bool :=
  let x := dSfmt l
  let y := dDfmt l
  let blk := isBlockFmt x || isBlockFmt y
  let d0 := dims.headD { extent := 0, start := 0, sstr := 0, dstr := 0, box := 0 }
  bits (dw l 0) 60 4 != 1 || dNdim l == 0 || decide (10 < dNdim l) || !isFmt x || !isFmt y || decide (4 < dRnd l) ||
  (dims.any fun d => d.extent == 0) || ((List.range (dNdim l)).any fun d => bits (dDim l d 3) 0 32 == 0) || !pairOk x y ||
  d0.sstr != (if isBlockFmt x then 0 else (elBytes x : Int)) ||
  (!dDpk l && d0.dstr != (if isBlockFmt y then 0 else (elBytes y : Int))) ||
  (blk && (d0.start % 32 != 0 || d0.extent % 32 != 0 || d0.box % 32 != 0))

def descMisaligned (l : DescWords) (dims : List CopyDim) : Bool :=
  let a : Int := fmtAlign (dSfmt l)
  let b : Int := fmtAlign (dDfmt l)
  (dw l 1 : Int) % a != 0 || (dw l 2 : Int) % b != 0 || dims.any fun d => d.sstr % a != 0 || d.dstr % b != 0

/-- BSEL names a grant register that holds 0. -/
def descNoGrant (l : DescWords) (b : Block) : Bool :=
  (List.range (dNdim l)).any fun d => match bits (dDim l d 3) 62 2 with
    | 0 => false
    | 1 => b.gm == 0
    | 2 => b.gn == 0
    | _ => b.gk == 0

/-- The index range of a dimension on the destination side (R101); empty when no element of it is written. -/
def dstRange (bnd : Bool) (d : CopyDim) : Nat × Nat := if bnd then (d.start, min (d.start + d.box) d.extent) else (0, d.box)

/-- The lowest and the highest byte offset at which a write to the operand buffer starts; none when nothing is written. -/
def obSpan (f : Nat) (bnd : Bool) (dst : Nat) (dims : List CopyDim) : Option (Int × Int) :=
  let r := dims.map (dstRange bnd)
  if r.any fun x => x.2 ≤ x.1 then none
  else
    let term (k d : Nat) (i : Nat) : Int :=
      if d = 0 ∧ isBlockFmt f then ((i / 32 * blockBytes f : Nat) : Int) else (i : Int) * ((dims.map (·.dstr)).getD k 0)
    let ends := (List.range dims.length).map fun d =>
      let x := r.getD d (0, 1)
      let u := term d d x.1
      let v := term d d (x.2 - 1)
      (min u v, max u v)
    some ((dst : Int) + (ends.map (·.1)).sum, (dst : Int) + (ends.map (·.2)).sum)

/-- DOB = 1: the record, or a byte outside its area. An unscaled block format has the whole range as its element area (R328; log 34). -/
def descOutside (l : DescWords) (r : BitVec 128) (dims : List CopyDim) : Bool :=
  let f := dDfmt l
  !recInUse r || recFmt r != f ||
  match obSpan f (dBnd l) (dw l 2) dims with
  | none => false
  | some (lo, hi) =>
    if isBlockFmt f then
      decide (lo < 0) || decide ((recArea r : Int) < hi + blockBytes f) ||
      (recBlen r == 32 && decide ((64 * recLen r : Int) < 64 * recSoff r + hi / blockBytes f + 1))
    else decide (lo < 0) || decide ((64 * recLen r : Int) < hi + elBytes f)

/-- The checks of R103 in its order (R355); `ws` exempts a WSLOAD node from the last. -/
def descFault (l : DescWords) (b : Block) (ws : Bool) : Option Nat :=
  let dims := dimsOf l b
  firstOf [
    failIf (descReserved l) 0x02,
    failIf (descIllegal l dims) 0x01,
    failIf (descMisaligned l dims) 0x04,
    failIf (descNoGrant l b) 0x0A,
    failIf (dDob l && descOutside l (getRec b (dHandle l)) dims) 0x0B,
    failIf (!dDob l && !ws && bits (dw l 2) 60 4 == 0xC) 0x08]

/-- The descriptor of an issued copy. -/
def descOf (l : DescWords) (b : Block) (rm : Nat) : CopyDesc :=
  { sfmt := dSfmt l, dfmt := dDfmt l, rnd := if dRnd l = 4 then rm else dRnd l, dob := dDob l,
    rec_ := if dDob l then getRec b (dHandle l) else 0, bnd := dBnd l, src := BitVec.ofNat 64 (dw l 1),
    dst := BitVec.ofNat 64 (dw l 2), dims := dimsOf l b }

/-- Words k to k + n − 1 of a descriptor read. -/
def readWords (env : Env) (a : Word) (k n : Nat) : State → State × Got (List Nat) :=
  readAll (fun i s => loadNum env (exactAddr false a (8 * (k + i) : Nat)) 8 8 s) (List.range n)

/-- The whole descriptor: the header, then as many dimensions as it names. -/
def readDesc (env : Env) (a : Word) : State → State × Got DescWords := restart fun s =>
  andThen (readWords env a 0 8 s) fun h s =>
    let n := dNdim h
    if n = 0 ∨ 10 < n then (s, .ok h)
    else andThen (readWords env a 8 (4 * n) s) fun r s => (s, .ok (h ++ r))

/-! Movement (R101, R102). -/

/-- Source elements that one unit of a copy covers: 32 for a block-format destination. -/
def unitEls (d : CopyDesc) : Nat := if isBlockFmt d.dfmt then 32 else 1

/-- Boxes in units. -/
def unitBoxes (d : CopyDesc) : List Nat :=
  match d.dims with
  | [] => []
  | x :: l => x.box / unitEls d :: l.map (·.box)

def unitCount (d : CopyDesc) : Nat := (unitBoxes d).foldl (· * ·) 1

/-- The box-relative index vector of unit t. -/
def relOf (boxes : List Nat) (t : Nat) : List Nat :=
  match boxes with
  | [] => []
  | b :: l => t % b :: relOf l (t / b)

/-- Of the first element of unit t: its box-relative indexes. -/
def unitRel (d : CopyDesc) (t : Nat) : List Nat :=
  match relOf (unitBoxes d) t with
  | [] => []
  | x :: l => x * unitEls d :: l

/-- A sum of index × stride, with dimension 0 in blocks for a block format. -/
def copyOffset (f perBlock : Nat) (idx : List Nat) (str : List Int) : Int :=
  (List.range idx.length).foldl (fun x d =>
    x + (if d = 0 ∧ isBlockFmt f then ((idx.getD 0 0 / 32 * perBlock : Nat) : Int) else (idx.getD d 0 : Int) * str.getD d 0)) 0

/-- Tensor indexes from box-relative ones. -/
def absIdx (d : CopyDesc) (rel : List Nat) : List Nat := List.zipWith (fun (x : CopyDim) r => x.start + r) d.dims rel

def outOfBounds (d : CopyDesc) (rel : List Nat) : Bool :=
  (List.zipWith (fun (x : CopyDim) i => decide (x.extent ≤ i)) d.dims (absIdx d rel)).any id

/-- How a copy reaches memory. -/
def copyEnv (s : State) (c : Copy) : Env :=
  match c.q with
  | .core _ _ =>
    let b := getBlock s c.uid
    { uid := c.uid, pl := b.place, ctx := c.ctx, sup := c.sup, scope := c.scope, cls := c.cls, noL1 := false, side := .core b.place,
      core := some (corePlace b.place), owner := .copy c.id }
  | .front die =>
    { uid := 0, pl := { die := die, cl := 99, site := 0, part := 0 }, ctx := c.ctx, sup := false, scope := c.scope, cls := c.cls,
      noL1 := true, side := .front die, core := none, owner := .copy c.id }

/-- Where a unit lies from the source base. -/
def srcOffset (d : CopyDesc) (rel : List Nat) : Int :=
  copyOffset d.sfmt (segBytes d.sfmt) (if d.bnd then rel else absIdx d rel) (d.dims.map (·.sstr))

/-- The source of a unit: element codes with their scale byte. -/
def readUnit (env : Env) (d : CopyDesc) (rel : List Nat) (s : State) : State × Got (List Nat × Nat) :=
  let at_ (rel : List Nat) : Ea :=
    exactAddr false d.src (srcOffset d rel)
  if isBlockFmt d.sfmt then
    let a := at_ rel
    andThen (atEa a .read (loadAt env a.addr (segBytes d.sfmt) 4) s) fun l s =>
      let els := segEls d.sfmt l
      (s, .ok (if unitEls d = 32 then els else [els.getD ((absIdx d rel).headD 0 % 32) 0], segScale d.sfmt l))
  else
    let n := elBytes d.sfmt
    andThen (readAll (fun j s =>
      let a := at_ (match rel with
        | [] => []
        | x :: l => (x + j) :: l)
      loadNum env a n n s) (List.range (unitEls d)) s) fun r s => (s, .ok (r, 0x7F))

/-- Is X8 of a scaled BPI destination 0x7F whatever the values (R128)? -/
def plainScale (d : CopyDesc) : Bool := d.sfmt == 0x06 || d.sfmt == 0x16

/-- The bytes that a unit writes (R102): identity between equal formats, an invalid block as 0xFF and zeros (R131). -/
def convertUnit (d : CopyDesc) (codes : List Nat) (x8 : Nat) : List Byte :=
  let y := d.dfmt
  if d.sfmt = y then
    if isBlockFmt y then packSeg y x8 codes else toBytes (elBytes y) (codes.headD 0)
  else
    let vals : List Fv := codes.map fun x => if isBlockFmt d.sfmt then blockValue d.sfmt x8 8 false x else plainValue d.sfmt x
    if isBlockFmt y then
      let (z, l) := blockFrom y (rmOf d.rnd) (plainScale d) vals
      packSeg y z l
    else toBytes (elBytes y) (plainCode y (rmOf d.rnd) (vals.headD (.fin false 0 0)))

/-- The bytes of a padded unit: zeros. -/
def zeroUnit (d : CopyDesc) : List Byte :=
  if isBlockFmt d.dfmt then
    let (z, l) := blockFrom d.dfmt .rne (plainScale d) (List.replicate 32 (.fin false 0 0))
    packSeg d.dfmt z l
  else toBytes (elBytes d.dfmt) 0

/-- Bytes with their offsets from `o` on. -/
def offsets (o : Nat) (l : List Byte) : List (Nat × Byte) := (List.range l.length).zipWith (fun i b => (o + i, b)) l

/-- The bytes of the operand buffer that a unit at an offset of the record's range writes (R80). -/
def obWrites (d : CopyDesc) (o : Nat) (l : List Byte) : List (Nat × Byte) :=
  let base := 64 * recBase d.rec_
  if isBlockFmt d.dfmt then
    offsets (base + o) (if d.dfmt = 0x16 then l else l.drop 4) ++
    (if recBlen d.rec_ = 32 then offsets (base + 64 * recSoff d.rec_ + o / blockBytes d.dfmt) (l.take 1) else [])
  else offsets (base + o) l

/-- Where a unit lies from the destination base. -/
def dstOffset (d : CopyDesc) (rel : List Nat) : Int :=
  copyOffset d.dfmt (if d.dob then blockBytes d.dfmt else segBytes d.dfmt) (if d.bnd then absIdx d rel else rel) (d.dims.map (·.dstr))

/-- Offset of a unit in the range of the record. -/
def obOffset (d : CopyDesc) (rel : List Nat) : Nat := ((d.dst.toNat : Int) + dstOffset d rel).toNat

/-- Granules that a unit of a fill writes (R81). -/
def granules (d : CopyDesc) (t : Nat) : List Nat :=
  let len := if isBlockFmt d.dfmt then segBytes d.dfmt else elBytes d.dfmt
  ((obWrites d (obOffset d (unitRel d t)) (List.replicate len 0)).map (·.1 / 64)).eraseDups

/-- Bytes written to a block's operand buffer. -/
def putOb (l : List (Nat × Byte)) (b : Block) : Block := { b with ob := l.foldl (fun m x => sset 0 x.1 x.2 m) b.ob }

/-- The destination of a unit in memory written. -/
def writeUnit (env : Env) (ws : Bool) (d : CopyDesc) (rel : List Nat) (l : List Byte) (s : State) : State × Got Unit :=
    let a := exactAddr false d.dst (dstOffset d rel)
    atEa a .write (fun s =>
      match decodeAddr s env a.addr l.length (fmtAlign d.dfmt) (!ws) with
      | .error c => (s, .trap c a.addr (kindBits .write))
      | .ok loc => writeLoc env a.addr loc l .write s) s

def modCopy (id : Nat) (f : Copy → Copy) (s : State) : State := { s with copies := modFirst (fun c => c.id == id) f s.copies }

/-- Bytes for granules of the operand buffer, kept with the copy until the granule is whole (R81); a later byte replaces an earlier one. -/
def stage (env : Env) (l : List (Nat × Byte)) (s : State) : State :=
  match env.owner with
  | .copy id => modCopy id (fun c => { c with staged := (c.staged.filter fun x => !(l.any fun y => y.1 == x.1)) ++ l }) s
  | _ => s

/-- The bytes of a unit sent to its destination. -/
def putCopyUnit (env : Env) (ws : Bool) (d : CopyDesc) (rel : List Nat) (l : List Byte) (s : State) : State × Got Unit :=
  if d.dob then (stage env (obWrites d (obOffset d rel) l) s, .ok ()) else writeUnit env ws d rel l s

/-- Addresses and lengths of the reads of a unit. -/
def sourceRanges (d : CopyDesc) (rel : List Nat) : List (Word × Nat) :=
  let at_ (rel : List Nat) : Word := (exactAddr false d.src (srcOffset d rel)).addr
  if isBlockFmt d.sfmt then [(at_ rel, segBytes d.sfmt)]
  else (List.range (unitEls d)).map fun j =>
    (at_ (match rel with
      | [] => []
      | x :: l => (x + j) :: l), elBytes d.sfmt)

/-- The translations of the source of a unit, which its walks have just given. -/
def sourcePages (env : Env) (d : CopyDesc) (rel : List Nat) (s : State) : List (Nat × Nat × Nat) :=
  (sourceRanges d rel).flatMap fun x =>
    if tagOf x.1 = 0 then
      match (translateParts env .read (pageParts (vbits x.1 0 52) x.2) s).2 with
      | .ok ps => partPages (vbits x.1 0 52) ps
      | _ => []
    else []

/-- Unit t of a copy moved. One whose write stalls keeps the translations of its source (R70). -/
def moveUnit (env : Env) (ws : Bool) (d : CopyDesc) (t : Nat) (s : State) : State × Got Unit :=
  let rel := unitRel d t
  if outOfBounds d rel then (if d.bnd then (s, .ok ()) else putCopyUnit env ws d rel (zeroUnit d) s)
  else andThen (readUnit env d rel s) fun x s =>
    keepOnStall env (sourcePages env d rel s) (putCopyUnit env ws d rel (convertUnit d x.1 x.2) s)

/-- Staged bytes whose granules no unit that is left writes (R81). -/
def wholeStaged (c : Copy) (left : List Nat) : List (Nat × Byte) :=
  if c.staged.isEmpty then []
  else
    let busy := left.flatMap (granules c.desc)
    c.staged.filter fun x => !busy.contains (x.1 / 64)

/-- Staged bytes enter the operand buffer, granule by granule (R81). -/
def flushStaged (c : Copy) (out : List (Nat × Byte)) (s : State) : State :=
  if out.isEmpty then s
  else modBlock c.uid (putOb out) (modCopy c.id (fun c => { c with staged := c.staged.filter fun x => !out.contains x }) s)

/-! Queues. -/

/-- The queue of number q at a place. -/
def queueAt (pl : Place) (q : Nat) : QKey := .core pl q

/-- The copies of a queue, the oldest first; those of held blocks are not on it. -/
def onQueue (s : State) (q : QKey) : List Copy := s.copies.filter fun c => c.q == q && !c.held

def dropCopy (id : Nat) (s : State) : State :=
  { s with
    copies := s.copies.filter fun c => c.id != id,
    ext := s.ext.filter fun e => e.owner != .copy id }

/-- A copy of a group is marked as ended in error. -/
def markBad (c : Copy) (s : State) : State :=
  match c.q with
  | .core _ q => modGroup c.uid c.gidx (fun g => { g with qbad := putBit g.qbad q true }) s
  | .front _ => s

def errAt (s : State) (q : QKey) : Option QErr := s.qerrs.find? fun e => e.q == q

/-- A copy stops in error (R357): those behind it on its queue are discarded and the error record is taken. A front-end copy
fails its node (R106, R385). -/
def stopCopy (c : Copy) (cause : Nat) (addr : Word) (kind : BitVec 4) (s : State) : State :=
  match c.q, c.node with
  | .front die, some va => failNode c.ctx va die cause addr.toNat (dropCopy c.id s)
  | q, _ =>
    let all := (onQueue s q).dropWhile fun x => x.id != c.id
    let s := all.foldl (fun s x => dropCopy x.id (markBad x s)) s
    { s with qerrs := { q := q, cause := cause, addr := addr, kind := kind, uid := c.uid } :: s.qerrs.filter fun e => e.q != q }

/-- Where a copy's fault is recorded. -/
def copyDie (s : State) (c : Copy) : Nat :=
  match c.q with
  | .core _ _ => (getBlock s c.uid).place.die
  | .front d => d

/-- A copy waits on a fault-queue slot, or for one (R60, R66). A front end's copy queue has no cluster, tenant or number: CLUSTER, TENANT
and UNIT of a slot that it reports first are 0 (DESIGN CHOICE, log 115). -/
def copyFault (c : Copy) (ft : FaultType) (level : Nat) (ea : Word) (kind : BitVec 4) (s : State) : State :=
  let b := getBlock s c.uid
  let die := copyDie s c
  let (cl, tn, q) := match c.q with
    | .core _ q => (b.place.cl, b.tenant, q)
    | .front _ => (0, 0, 0)
  match recordFault c.ctx die ft level ea kind 1 cl tn q s with
  | (s, some i) => modCopy c.id (fun c => { c with run := .fault die i ft ea kind }) s
  | (s, none) => modCopy c.id (fun c => { c with run := .noSlot die ft level ea kind }) s

/-- The end of the fault domain of a copy that met an uncorrectable error: that of the block whose scratchpad holds it (R76), else the
issuer's, or the context's for a node (R96). -/
def copyDomain (c : Copy) (cause : Nat) (addr : Word) (owner : Option Nat) (s : State) : State :=
  match owner, c.q with
  | some u, _ => endBlockDomain u cause addr s
  | none, .core _ _ => endBlockDomain c.uid cause addr s
  | none, .front die => endDomain c.ctx die cause addr s

/-- What puts the units of a copy in order (R101; log 7). Those of a fill of the operand buffer go by their granules, so that few stand
half filled (R81): the 64 blocks or the 64 bytes that make one, in any order, and each from its lowest offset up. -/
def unitRank (c : Copy) (t : Nat) : Nat :=
  let rank := Config.elementRank c.seed
  if c.desc.dob then
    let o := obOffset c.desc (unitRel c.desc t)
    rank (o / (if isBlockFmt c.desc.dfmt then 64 * blockBytes c.desc.dfmt else 64)) * 2 ^ 64 + o * 2 ^ 40 + rank t % 2 ^ 40
  else rank t

/-- The units of a copy in the order in which it moves them. -/
def unitOrder (c : Copy) : List Nat := sortByRank (unitRank c) (List.range (unitCount c.desc))

/-- Does a copy try the units that were put off before those of its order? -/
def lateFirst (units : List Nat) (back : Bool) (c : Copy) : Bool :=
  !c.late.isEmpty && (back || decide (units.length ≤ c.next))

/-- The unit that a copy tries next. -/
def nextUnit (units : List Nat) (back : Bool) (c : Copy) : Option Nat :=
  if lateFirst units back c then c.late.head? else units[c.next]?

/-- The units that are left of a copy. -/
def unitsLeft (units : List Nat) (c : Copy) : List Nat := units.drop c.next ++ c.late

/-- A copy whose tried unit has moved: translations are kept while others stand put off (R70). -/
def passUnit (units : List Nat) (back : Bool) (c : Copy) : Copy :=
  let c := if lateFirst units back c then { c with late := c.late.tail, hold := none } else { c with next := c.next + 1, hold := none }
  { c with pages := if c.late.isEmpty then [] else c.pages }

/-- A copy whose tried unit is held: it goes on with others (R87). -/
def putOff (units : List Nat) (back : Bool) (t : Nat) (c : Copy) : Copy :=
  if lateFirst units back c then { c with late := c.late.tail ++ [t] } else { c with next := c.next + 1, late := c.late ++ [t] }

/-- Units put off and bytes staged that a spill slot holds of a queue's oldest copy (log 40). -/
def lateCap : Nat := 128

/-- A copy can be stopped for its pre-empted block: its slot can hold where it stands (R358; log 40). -/
def copyStops (c : Copy) : Bool := decide (c.late.length ≤ lateCap) && decide (c.staged.length ≤ lateCap)

/-- The address of a unit that can no longer be reached (R357). -/
def lostAt (c : Copy) (t : Nat) : Option (Word × BitVec 4) :=
  let rel := unitRel c.desc t
  let out := outOfBounds c.desc rel
  let src := (exactAddr false c.desc.src (srcOffset c.desc rel)).addr
  let dst := (exactAddr false c.desc.dst (dstOffset c.desc rel)).addr
  if !out && inLost c.lost src then some (src, kindBits .read)
  else if !c.desc.dob && !(out && c.desc.bnd) && inLost c.lost dst then some (dst, kindBits .write)
  else none

/-- At most n of the units of a copy that remain are tried, in an order that the device does not promise (R101; log 7). `back`: those put
off come first. A unit that faults waits until none stands put off. -/
def moveUnits (id : Nat) (units : List Nat) (back : Bool) : Nat → State → State
  | 0, s => s
  | n + 1, s =>
    match s.copies.find? fun c => c.id == id with
    | none => s
    | some c =>
      match nextUnit units back c with
      | none => modCopy id (fun c => { c with run := .performed }) s
      | some t =>
        match restart (moveUnit (copyEnv s c) c.wsload c.desc t) s with
        | (s, .ok _) =>
          let s := modCopy id (passUnit units back) s
          let c' := (s.copies.find? fun c => c.id == id).getD c
          let out := wholeStaged c' (unitsLeft units c')
          match out.find? fun x => badTarget s (.obuf c.uid x.1) with
          | some x => copyDomain c 0x14 (BitVec.ofNat 64 x.1) none s
          | none => moveUnits id units back n (flushStaged c' out s)
        | (s, .trap k a x) => stopCopy c k a x s
        | (s, .fault ft lv a x) =>
          if c.late.isEmpty || lateFirst units back c then copyFault c ft lv a x s else moveUnits id units true n s
        | (s, .stall) =>
          if s.ext.any fun e => e.owner == .copy id then s else moveUnits id units back n (modCopy id (putOff units back t) s)
        | (s, .domain k a o) => copyDomain c k a o s

/-- A drain stands on a front-end queue before a copy (R439). -/
def behindDrain (s : State) (c : Copy) : Bool := s.ckpts.any fun k => c.q == .front k.die && draining k && decide (k.id < c.id)

/-- The oldest copy of a queue moves some of its units; how many is the device's choice (log 13). -/
def runQueue (q : QKey) (s : State) : State :=
  match onQueue s q with
  | [] => s
  | c :: _ =>
    if c.run != .queued || behindDrain s c then s
    else
      let units := unitOrder c
      match if c.lost.isEmpty then none else (unitsLeft units c).findSome? (lostAt c) with
      | some (a, k) => stopCopy c 0x06 a k s
      | none => moveUnits c.id units (c.node.isNone && (getBlock s c.uid).preempt) (2 + Config.freeNat s.free) { s with free := s.free + 1 }

/-! cpy (R354, R355, R372). -/

/-- cpy with its operands read. -/
def cpyOn (q : Nat) (post : Option (Nat × Nat)) (a : Word) (cls scope : Nat) (s : State) : State × Act :=
  let b := curBlock s
  let key := queueAt b.place q
  let slots := curSlots s
  if post.isSome && slots == 0 then (s, .trap 0x01 0 0)
  else match errAt s key with
  | some e => (s, .trap e.cause e.addr e.kind)
  | none =>
    if 32 ≤ (onQueue s key).length then (s, .wait (.queueFull q post a cls scope))
    else match alignFault a 64 with
    | some c => (s, .trap c a (kindBits .read))
    | none => match readDesc (curEnv cls scope s) a s with
    | (s, .ok l) =>
      match descFault l b false with
      | some c => (s, .trap c a (if c = 0x04 then kindBits .read else if c = 0x08 then kindBits .write else 0))
      | none =>
        let g := curGroup s
        let c : Copy :=
          { id := s.uids, seed := s.uids, q := key, uid := b.uid, gidx := g.gidx, ctx := blockCtx s b, sup := g.sup, cls := cls, scope := scope,
            post := post.map fun x => (x.1, x.2 % slots), desc := descOf l b (vbits g.fcsr 5 2), next := 0, run := .queued,
            node := none, wsload := false, held := false, late := [], staged := [], hold := none, lost := [], pages := [] }
        let s := modB (fun b => { b with issuedQ := putBit b.issuedQ q true }) { s with copies := s.copies ++ [c], uids := s.uids + 1 }
        (modG (fun g => { g with qwide := putBit g.qwide q (g.qwide.getLsbD q || decide (2 ≤ scope)) }) s, .next)
    | (s, .trap c _ k) => (s, .trap c a k)
    | (s, g) => (s, gotAct (exPath s) g)

/-- cpy: the slot item is SLOT + x. -/
def cpyBody (q : BitVec 3) (p : BitVec 1) (a : BitVec 6) (r c : BitVec 3) (x : Word) (cls scope : Nat) (s : State) : State × Act :=
  cpyOn q.toNat (if p = 1 then some (r.toNat, c.toNat + x.toNat) else none) (rdS a s) cls scope s

/-- RING, SLOT and XR are zero without a post. -/
def cpyEnc (p : BitVec 1) (r c : BitVec 3) (x : BitVec 6) : Option Nat := failIf (p == 0 && (r != 0 || c != 0 || x != 0)) 0x02

/-- cpy (R354). -/
def execCpy (e : Bool) (q : BitVec 3) (p : BitVec 1) (a : BitVec 6) (r c : BitVec 3) (k : BitVec 4) (s : State) :
    Host.Outcome State Fault Refusal :=
  issueSide { e := e, major := 0x6C } (cpyEnc p r c 0) (cpyBody q p a r c 0 k.toNat 1) s

/-- The long cpy (R372). -/
def execCpyLong (e : Bool) (q : BitVec 3) (p : BitVec 1) (a : BitVec 6) (r c : BitVec 3) (cls : BitVec 4) (scope : BitVec 3)
    (x : BitVec 6) (_hint : BitVec 4) (s : State) : Host.Outcome State Fault Refusal :=
  issueSide { e := e, major := 0x6C, len := 8 } (firstOf [failIf (6 ≤ scope.toNat) 0x01, cpyEnc p r c x])
    (fun s => cpyBody q p a r c (rdS x s) cls.toNat scope.toNat s) s

/-! qfence and qwait (R360 to R362). -/

/-- The operations of the issuing group that stand on the queues of a mask. -/
def awaited (mask : BitVec 9) (s : State) : List Nat :=
  let w := (cur s).who
  (s.copies.filterMap fun c => match c.q with
    | .core _ q => if c.uid == w.uid && c.gidx == w.gidx && mask.getLsbD q then some c.id else none
    | .front _ => none) ++
  (if mask.getLsbD 8 then (s.matq.filter fun o => o.uid == w.uid && o.gidx == w.gidx).map (·.id) else [])

/-- Is an operation still on its queue? -/
def stillQueued (s : State) (id : Nat) : Bool := (s.copies.any fun c => c.id == id) || s.matq.any fun o => o.id == id

/-- The wait for queues is over: the lowest queue with an error of the group's own copies is reported (R361). -/
def queuesDone (mask : BitVec 9) (s : State) : State × Act :=
  let g := curGroup s
  let pl := (curBlock s).place
  match (List.range 8).findSome? fun q => if mask.getLsbD q && g.qbad.getLsbD q then errAt s (queueAt pl q) else none with
  | some e => (s, .trap e.cause e.addr e.kind)
  | none => (fenceAt (if g.qwide &&& mask != 0 then 2 else 1) s, .next)

/-- The wait for operations of queues. -/
def queuesOn (mask : BitVec 9) (ids : List Nat) (s : State) : State × Act :=
  let l := ids.filter (stillQueued s)
  if l.isEmpty then queuesDone mask s else (s, .wait (.queues mask l))

def qfenceBody (mask : BitVec 9) (s : State) : State × Act :=
  if mask = 0 then (s, .next) else queuesOn mask (awaited mask s) s

def queueMask (n : BitVec 4) : BitVec 9 := BitVec.ofNat 9 (2 ^ n.toNat)

/-- qwait.clr (R362): the record is emptied, and the marks of the copies that it stood for. -/
def qclrBody (n : BitVec 4) (s : State) : State × Act :=
  let pl := (curBlock s).place
  let q := n.toNat
  if 8 ≤ q then (s, .next)
  else ({ s with
    qerrs := s.qerrs.filter fun e => e.q != queueAt pl q,
    blocks := s.blocks.map fun b =>
      if b.place == pl then { b with groups := b.groups.map fun g => { g with qbad := putBit g.qbad q false } } else b }, .next)

/-- qfence (R361). -/
def execQfence (e : Bool) (m : BitVec 9) (s : State) : Host.Outcome State Fault Refusal :=
  issueSide { e := e, major := 0x6D } none (qfenceBody m) s

/-- qwait (R361). -/
def execQwait (e : Bool) (n : BitVec 4) (s : State) : Host.Outcome State Fault Refusal :=
  issueSide { e := e, major := 0x6D } (failIf (8 < n.toNat) 0x01) (qfenceBody (queueMask n)) s

/-- qwait.clr (R362). -/
def execQwaitClr (e : Bool) (n : BitVec 4) (s : State) : Host.Outcome State Fault Refusal :=
  issueSide { e := e, major := 0x6D, supOnly := true } (failIf (8 < n.toNat) 0x01) (qclrBody n) s

end Sys2Proof.Machine
end

