-- ==== Sys2Proof/Machine/Nodes.lean ====
section
/-! DEFINITION. Graph nodes (R378 to R386): reading and checking them, becoming ready, completing, failing, the decrement of
successors, and what the walker does for each type. -/

namespace Sys2Proof.Machine

open Sys2Proof

/-- Steps that are due, in order. -/
def pend (l : List Instr) (s : State) : State := { s with pending := s.pending ++ l }

/-! Reading. -/

/-- The die that executes a node (R378). -/
def nodeDie (s : State) (ctx va : Nat) : Nat := bits (nodeWord s ctx va 0) 56 2

/-- How a walker reaches memory for a node: class 15 at package scope, in supervisor mode. -/
def nodeEnv (s : State) (ctx va : Nat) : Env :=
  let d := nodeDie s ctx va
  { uid := 0, pl := { die := d, cl := 99, site := 0, part := 0 }, ctx := ctx, sup := true, scope := 4, cls := 15, noL1 := true,
    side := .front d, core := none, owner := .node ctx va }

/-- An address as a word; one beyond the address space keeps a reserved tag. -/
def addrWord (x : Nat) : Word := BitVec.ofNat 64 (min x (2 ^ 64 - 1))

/-- A read of a global address for a node. -/
def nodeRead (ctx va a n align : Nat) (s : State) : State × Got (List Byte) :=
  if 2 ^ 52 ≤ a then (s, .trap 0x07 (addrWord a) (kindBits .read)) else loadAt (nodeEnv s ctx va) (addrWord a) n align s

/-- A read of what is updated in place at its home, which has to lie in DRAM: a node, a checkpoint descriptor (log 35). -/
def homeRead (ctx va a n align : Nat) (s : State) : State × Got (List Byte) :=
  match peek s ctx a .read true with
  | some pa => if isDram s pa then nodeRead ctx va a n align s else (s, .trap 0x06 (addrWord a) (kindBits .read))
  | none => nodeRead ctx va a n align s

/-- The little-endian 64-bit words of bytes. -/
def wordsOf (l : List Byte) : List Nat := (packetOf l).toList.map (·.toNat)

/-- The eight words of a node. -/
def readNode (ctx va : Nat) (s : State) : State × Got (List Nat) :=
  andThen (homeRead ctx va va 64 64 s) fun l s => (s, .ok (wordsOf l))

/-- A word that a walker reads. -/
def nodeNum (ctx va a : Nat) (s : State) : State × Got Nat := andThen (nodeRead ctx va a 8 8 s) fun l s => (s, .ok (ofBytes l))

/-- n words from a list. -/
def readList (ctx va a n : Nat) : State → State × Got (List Nat) := readAll (fun i s => nodeNum ctx va (a + 8 * i) s) (List.range n)

/-! Failure. -/

/-- A node whose read failed fails with its cause (R385); one that waits for an answer through an aperture is tried again. The end of the
domain has failed a node beneath it already. -/
def failGot (ctx va : Nat) (again : State → State) (g : Got α) (s : State) : State :=
  let d := nodeDie s ctx va
  match g with
  | .ok _ => s
  | .trap c a _ => failNode ctx va d c a.toNat s
  | .fault ft _ a _ => failNode ctx va d (failCause ft) a.toNat s
  | .stall => again s
  | .domain c a o =>
    let s := match o with
      | some u => endBlockDomain u c a s
      | none => endDomain ctx d c a s
    if bits (nodeWord s ctx va 0) 58 2 = 3 then s else failNode ctx va d c a.toNat s

/-! Becoming ready (R380). -/

/-- The walker's step for a node type. -/
def nodeStep (t ctx va : Nat) (restore : Bool) : Option Instr :=
  match t with
  | 1 => some (.nodeKernel ctx va)
  | 2 => some (.nodeCopy ctx va)
  | 3 => some (.nodeWsload ctx va)
  | 4 => some (.nodeCond ctx va)
  | 5 => some (.nodeLoop ctx va)
  | 6 => some (.nodeSignal ctx va)
  | 7 => some (.nodeWait ctx va)
  | 8 => some (if restore then .ckptRestore ctx va else .ckptStart ctx va)
  | 9 => some (.nodeEnd ctx va)
  | _ => none

/-- MODE 1 of the descriptor of a CKPT node. -/
def isRestore (s : State) (ctx va : Nat) : Bool := bitAt (nodeWord s ctx (nodeWord s ctx va 4) 0) 59

/-- A node becomes ready: its walker's step is due. In a STATE other than armed it fails, but for an active LOOP that a decrement from
its body has made ready (R380). -/
def makeReady (byBody : Bool) (ctx va : Nat) (s : State) : State :=
  match readNode ctx va s with
  | (s, .ok w) =>
    let w0 := w.getD 0 0
    let d := bits w0 56 2
    let t := bits w0 60 4
    let st := bits w0 58 2
    if st != 0 && !(byBody && t == 5 && st == 1) then failNode ctx va d 0 va s
    else match nodeStep t ctx va (isRestore s ctx va) with
      | some i => pend [i] s
      | none => failNode ctx va d 0x01 va s
  | (s, g) => failGot ctx va id g s

/-! Completion (R381). -/

/-- A successor that cannot be read fails (R385): its STATE cannot be written, the record is. -/
def badSuccessor (ctx sva cause addr : Nat) (s : State) : State := logError (nodeDie s ctx sva) 2 cause addr sva ctx s

/-- One decrement of a successor's count, at its home. A look-up of its RCB that meets an uncorrectable error ends the context's domain
(R53). -/
def decrement (ctx sva : Nat) (s : State) : State :=
  let stray (s : State) : State := logError (nodeDie s ctx sva) 8 0 0 sva ctx s
  match readNode ctx sva s with
  | (s, .ok w) =>
    match peekBad s ctx (w.getD 3 0) .read true with
    | some a => endDomain ctx (nodeDie s ctx sva) 0x14 (addrWord a) s
    | none =>
    let w0 := w.getD 0 0
    let t := bits w0 60 4
    let st := bits w0 58 2
    let mine := ((rcbAt s ctx (w.getD 3 0)).map (rcbCtx s)) == some ctx
    if t == 6 && st == 2 && s.signalled.contains (ctx, sva) then s
    else if !mine || bits w0 0 32 == 0 || !(st == 0 || (t == 5 && st == 1)) then stray s
    else
      let s := putWord ctx sva (w0 - 1) s
      if bits w0 0 32 = 1 then makeReady true ctx sva s else s
  | (s, .trap c a _) => badSuccessor ctx sva c a.toNat s
  | (s, .fault ft _ a _) => badSuccessor ctx sva (failCause ft) a.toNat s
  | (s, .domain c a _) => endDomain ctx (nodeDie s ctx sva) c a s
  | (s, .stall) => s

/-- A node that completes waits for its list, which stands at an aperture: its walker's step looks again. -/
def againWith (ctx va a n : Nat) (s : State) : State :=
  pend (nodeStep (bits (nodeWord s ctx va 0) 60 4) ctx va (isRestore s ctx va)).toList
    { s with completing := kset (ctx, va) (a, n) s.completing }

/-- A node completes with a list of successors: STATE done, then each is decremented in list order. -/
def completeWith (ctx va a n : Nat) (s : State) : State :=
  let s := if (s.completing.lookup (ctx, va)).isSome then s
    else setNodeState ctx va 2 { s with waits := s.waits.filter (· != (ctx, va)) }
  match readList ctx va a n s with
  | (s, .ok l) =>
    l.foldl (fun s x => decrement ctx x s) { s with
      completing := s.completing.filter fun x => x.1 != (ctx, va), ext := s.ext.filter fun e => e.owner != .node ctx va }
  | (s, g) => failGot ctx va (againWith ctx va a n) g s

/-- A node completes with its own list. -/
def completeNode (ctx va : Nat) (s : State) : State :=
  completeWith ctx va (nodeWord s ctx va 2) (bits (nodeWord s ctx va 0) 32 16) s

/-! Checks (R378, R379, R385). -/

/-- A reserved field of a node is nonzero. -/
def nodeReserved (w : List Nat) : Bool :=
  let x (k : Nat) : Nat := w.getD k 0
  let t := bits (x 0) 60 4
  bits (x 0) 48 7 != 0 || (t != 7 && bitAt (x 0) 55) || (t != 5 && bits (x 1) 0 32 != 0) ||
  (bits (x 0) 32 16 == 0 && x 2 != 0) ||
  match t with
  | 1 => x 5 != 0 || x 6 != 0
  | 2 => x 5 != 0 || x 6 != 0 || x 7 != 0
  | 3 => x 5 != 0 || x 6 != 0 || x 7 != 0
  | 4 => 2 ^ 16 ≤ x 6 || x 7 != 0
  | 5 => 2 ^ 18 ≤ x 5 || (bits (x 5) 16 2 == 0 && x 7 != 0)
  | 6 => x 4 != 0 || x 5 != 0 || x 6 != 0 || x 7 != 0
  | 7 => 4 ≤ x 6 || x 7 != 0
  | 8 => x 5 != 0 || x 6 != 0 || x 7 != 0
  | _ => x 6 != 0 || x 7 != 0

/-- A field of a node holds a value that it may not hold. -/
def nodeInvalid (w : List Nat) : Bool :=
  let x (k : Nat) : Nat := w.getD k 0
  match bits (x 0) 60 4 with
  | 4 => bits (x 0) 32 16 != 0 || x 2 != 0 || x 6 == 0
  | 5 => 2 ≤ bits (x 5) 16 2
  | 7 => x 6 == 3
  | _ => false

/-- The first failing check of a node: cause and address. -/
def nodeFault (s : State) (ctx va : Nat) (w : List Nat) : Option (Nat × Nat) :=
  let x (k : Nat) : Nat := w.getD k 0
  if nodeReserved w then some (0x02, va)
  else if nodeInvalid w then some (0x01, va)
  else if bits (x 0) 32 16 != 0 && x 2 % 8 != 0 then some (0x04, x 2)
  else match rcbAt s ctx (x 3) with
    | none => some (0x05, x 3)
    | some r => if 3 < rcbKind s r then some (0x01, x 3) else if rcbCtx s r != ctx then some (0x06, x 3) else none

/-- A walker executes a node of type t: the step is used up when the node has ended meanwhile (R366), goes on with a completion under
way, waits behind a checkpoint that holds its RCB unless it is a COPY or WSLOAD under way (R437), and the node fails on a failing check. A look-up of the RCB that meets an
uncorrectable error ends the context's domain (R53). -/
def takeNode (t ctx va : Nat) (self : Instr) (f : List Nat → State → State) (s : State) : State :=
  match readNode ctx va s with
  | (s, .ok w) =>
    let w0 := w.getD 0 0
    match s.completing.lookup (ctx, va) with
    | some (a, n) => completeWith ctx va a n s
    | none =>
    if bits w0 60 4 != t || 2 ≤ bits w0 58 2 then s
    else if held s (nodeRcb s ctx va) && !(bits w0 58 2 == 1 && (t == 2 || t == 3)) then pend [self] s
    else match peekBad s ctx (w.getD 3 0) .read true with
    | some a => endDomain ctx (bits w0 56 2) 0x14 (addrWord a) s
    | none =>
      match nodeFault s ctx va w with
      | some (c, a) => failNode ctx va (bits w0 56 2) c a s
      | none => f w s
  | (s, g) => failGot ctx va id g s

/-- A node's STATE set to active. -/
def activate (ctx va : Nat) (s : State) : State := setNodeState ctx va 1 s

def addWait (ctx va : Nat) (s : State) : State :=
  if s.waits.contains (ctx, va) then s else { s with waits := s.waits ++ [(ctx, va)] }

def dropWait (ctx va : Nat) (s : State) : State := { s with waits := s.waits.filter (· != (ctx, va)) }

/-! The types (R382). -/

/-- KERNEL: it waits for an entry of its die, then the packet is accepted. -/
def kernelNode (ctx va : Nat) (w : List Nat) (s : State) : State :=
  let d := bits (w.getD 0 0) 56 2
  let a := w.getD 4 0
  let s := activate ctx va s
  match nodeRead ctx va a 128 128 s with
  | (s, .ok l) =>
    let p := packetOf l
    match peekBad s ctx (vget p 3).toNat .read true with
    | some x => endDomain ctx d 0x14 (addrWord x) s
    | none =>
    if entryAvailable s d (packetRcb s ctx p) then
      let (s, id) := acceptLaunch d p (addrWord a) ctx (some va) false (dropWait ctx va s)
      putWord ctx (va + 56) id s
    else addWait ctx va s
  | (s, g) => failGot ctx va (pend [.nodeKernel ctx va]) g s

/-- A kernel of a context exists (R41): one that has been accepted and not released. -/
def kernelExists (s : State) (ctx : Nat) : Bool := s.launches.any fun l => l.ctx == ctx

/-- A node's descriptor names a grant register or the operand buffer, which no node has (R106). -/
def descOfBlock (l : DescWords) : Bool := dDob l || (List.range (dNdim l)).any fun d => bits (dDim l d 3) 62 2 != 0

/-- The checks of a node's descriptor: those of R103, and 0x01 for one that breaks R106 or R108, after a reserved field and before the
other checks (log 74). -/
def nodeDescFault (l : DescWords) (ws : Bool) : Option Nat :=
  firstOf [
    failIf (descReserved l) 0x02,
    failIf (descOfBlock l) 0x01,
    descFault l blankBlock ws,
    failIf (ws && bits (dw l 2) 60 4 != 0xC) 0x01]

/-- COPY and WSLOAD: the copy is queued on the front-end queue of the node's die (R106, R108); a WSLOAD waits while a kernel of its
context exists (R41). -/
def copyNode (ws : Bool) (self : Instr) (ctx va : Nat) (w : List Nat) (s : State) : State :=
  let d := bits (w.getD 0 0) 56 2
  let a := w.getD 4 0
  let s := activate ctx va s
  if ws && kernelExists s ctx then addWait ctx va s
  else match alignFault (addrWord a) 64 with
  | some c => failNode ctx va d c a s
  | none => match readDesc { nodeEnv s ctx va with sup := false } (addrWord a) s with
  | (s, .ok l) =>
    match nodeDescFault l ws with
    | some c => failNode ctx va d c a s
    | none =>
      let c : Copy :=
        { id := s.uids, seed := s.uids, q := .front d, uid := 0, gidx := 0, ctx := ctx, sup := false, cls := 15, scope := 4, post := none,
          desc := descOf l blankBlock 0, next := 0, run := .queued, node := some va, wsload := ws, held := false,
          late := [], staged := [], hold := none, lost := [], pages := [] }
      dropWait ctx va { s with copies := s.copies ++ [c], uids := s.uids + 1 }
  | (s, g) => failGot ctx va (pend [self]) g s

/-- The entry of its table that a COND chooses: a list and its length. -/
def condEntry (ctx va : Nat) (w : List Nat) : State → State × Got (List Nat) := restart fun s =>
  andThen (nodeNum ctx va (w.getD 4 0) s) fun x s => readList ctx va (w.getD 5 0 + 16 * min x (bits (w.getD 6 0) 0 16 - 1)) 2 s

/-- COND: the selector's entry takes the place of the successor list. -/
def condNode (ctx va : Nat) (w : List Nat) (s : State) : State :=
  match condEntry ctx va w (activate ctx va s) with
  | (s, .ok x) => completeWith ctx va (x.getD 0 0) (x.getD 1 0) s
  | (s, g) => failGot ctx va (pend [.nodeCond ctx va]) g s

/-- A body node armed again (R383). -/
def rearm (ctx va : Nat) (s : State) : State :=
  let w0 := nodeWord s ctx va 0
  let w1 := nodeWord s ctx va 1
  let s := putWord ctx va (bits w0 60 4 * 2 ^ 60 + bits w0 32 26 * 2 ^ 32 + bits w1 32 32) s
  if bits w0 60 4 = 5 then putWord ctx (va + 8) (bits w1 32 32 * 2 ^ 32) s else s

/-- The word that a LOOP in MODE 1 looks at; 1 in MODE 0. -/
def loopWord (ctx va : Nat) (w : List Nat) (s : State) : State × Got Nat :=
  if bits (w.getD 5 0) 16 2 = 0 then (s, .ok 1)
  else nodeNum ctx va (w.getD 7 0) s

/-- The body of a LOOP that goes on, every node of which can be read; none when it does not go on. -/
def passBody (ctx va : Nat) (w : List Nat) (iter : Nat) : State → State × Got (Option (List Nat)) := restart fun s =>
  let n := w.getD 6 0
  let mode := bits (w.getD 5 0) 16 2
  andThen (loopWord ctx va w s) fun x s =>
    if (mode = 0 ∧ iter < n) ∨ (mode ≠ 0 ∧ x ≠ 0 ∧ (n = 0 ∨ iter < n)) then
      andThen (readList ctx va (w.getD 4 0) (bits (w.getD 5 0) 0 16) s) fun body s =>
        andThen (readAll (readNode ctx) body s) fun _ s => (s, .ok (some body))
    else (s, .ok none)

/-- LOOP (R383). ITER counts a pass before the loop word is read; a try that follows an answer through an aperture counts none. -/
def loopNode (ctx va : Nat) (w : List Nat) (s : State) : State :=
  let w0 := w.getD 0 0
  let again := s.ext.any fun e => e.owner == .node ctx va
  let iter := if again then kget 0 s.passes (ctx, va) else if bits w0 58 2 = 0 then 0 else kget 0 s.passes (ctx, va) + 1
  let s := { s with passes := kset (ctx, va) iter s.passes }
  let s := putWord ctx (va + 8) (bits (w.getD 1 0) 32 32 * 2 ^ 32 + iter % 2 ^ 32) (activate ctx va s)
  match passBody ctx va w iter s with
  | (s, .ok (some body)) =>
    if body.any fun b => bits (nodeWord s ctx b 0) 58 2 == 1 then failNode ctx va (bits w0 56 2) 0 va s
    else
      let s := body.foldl (fun s b => rearm ctx b s) { s with ext := s.ext.filter fun e => e.owner != .node ctx va }
      let v := nodeWord s ctx va 0
      let s := putWord ctx va (v - bits v 0 32 + 1) s
      (body.filter fun b => bits (nodeWord s ctx b 1) 32 32 == 0).foldl (fun s b => makeReady false ctx b s) s
  | (s, .ok none) => completeNode ctx va { s with passes := s.passes.filter fun e => e.1 != (ctx, va) }
  | (s, g) => failGot ctx va (pend [.nodeLoop ctx va]) g s

/-- SIGNAL: with its count at 0 it completes at once, else it waits for gsig. -/
def signalNode (ctx va : Nat) (w : List Nat) (s : State) : State :=
  if bits (w.getD 0 0) 0 32 = 0 then completeNode ctx va { s with signalled := s.signalled.filter (· != (ctx, va)) }
  else addWait ctx va (activate ctx va s)

/-- The test of a WAIT node (R379). -/
def waitTest (ctx va : Nat) (s : State) : State :=
  let v := nodeWord s ctx va 5
  let cond := nodeWord s ctx va 6
  match nodeRead ctx va (nodeWord s ctx va 4) 8 8 s with
  | (s, .ok l) =>
    let x := ofBytes l
    let ok : Bool := match cond with
      | 0 => x == v
      | 1 => x != v
      | _ => decide (v ≤ x)
    if ok then completeNode ctx va s else s
  | (s, g) => failGot ctx va id g s

def waitNode (ctx va : Nat) (_w : List Nat) (s : State) : State := waitTest ctx va (addWait ctx va (activate ctx va s))

/-- END: the completion word is written at system scope, then the node completes. -/
def endNode (ctx va : Nat) (w : List Nat) (s : State) : State :=
  let a := w.getD 4 0
  let s := activate ctx va s
  if a = 0 then completeNode ctx va s
  else
    let env : Env := { nodeEnv s ctx va with scope := 5 }
    let r : State × Got Unit :=
      if 2 ^ 52 ≤ a then (s, .trap 0x07 (addrWord a) (kindBits .write)) else storeAt env (addrWord a) 8 (toBytes 8 (w.getD 5 0)) s
    match r with
    | (s, .ok _) => completeNode ctx va s
    | (s, g) => failGot ctx va (pend [.nodeEnd ctx va]) g s

/-! The end of a launch (R190, R387). -/

/-- A launch leaves the pending-launch store and the ready queues (R387); service launches that waited for its entry are tried again. -/
def releaseLaunch (id : Nat) (s : State) : State :=
  match findLaunch s id with
  | none => s
  | some l =>
    retryNotices (writeUsages l.rcb { s with
      launches := s.launches.filter fun x => x.id != id,
      queue := s.queue.map fun q => q.filter fun x => x != id,
      reserve := s.reserve.map fun r => if r == some id then none else r })

/-- A launch that has passed its check completes when no block of it can come or is left. -/
def settleLaunch (id : Nat) (s : State) : State :=
  match findLaunch s id with
  | none => s
  | some l =>
    if l.checked && noMoreBlocks l && !(s.blocks.any fun b => b.launch == id) then
      let s := releaseLaunch id s
      match l.node with
      | some va => completeNode l.ctx va s
      | none => s
    else leaveQueues id s

/-- Submission at a doorbell (R386): SUBMIT is exchanged with 0 and its node becomes ready. -/
def submit (rcb : Nat) (s : State) : State :=
  let root := rcbWord s rcb 3
  if root = 0 then s
  else
    let ctx := rcbCtx s rcb
    makeReady false ctx root { physPut none (rcb + 24) 8 0 s with ctxs := if s.ctxs.contains ctx then s.ctxs else s.ctxs ++ [ctx] }

end Sys2Proof.Machine
end

