-- ==== Sys2Proof/Machine/Faults.lean ====
section
/-! DEFINITION. Who waits on a fault-queue slot, the doorbell that resolves it (R64, R65), waiters without a slot (R66), and the
package-wide invalidation of translations (R58, R59). -/

namespace Sys2Proof.Machine

open Sys2Proof

/-- Is a group in fault-wait (R60)? -/
def inFaultWait (g : Group) : Bool := g.paths.any fun p => faultWaiting p.run

/-- Every path with its name. -/
def allPaths (s : State) : List (Who × Path) :=
  s.blocks.flatMap fun b => b.groups.flatMap fun g => g.paths.map fun p => ({ uid := b.uid, gidx := g.gidx, pidx := p.idx }, p)

/-- The waits of all paths. -/
def allWaits (s : State) : List (Who × Wait) :=
  (allPaths s).filterMap fun x => match x.2.run with
    | .waiting w _ => some (x.1, w)
    | _ => none

/-- The root RCB, found through a context that the device knows. -/
def anyRoot (s : State) : Option Nat := ((s.ctxs ++ s.launches.map (·.ctx)).head?).map (rcbRoot s)

/-- Base of a die's fault queue, from the root. -/
def fqBase (s : State) (root die : Nat) : Nat := rcbWord s root 2 + die * 0x20000

/-! Resolution. -/

/-- Does a path answer for its group now? Not one whose block is being pre-empted, which has left its fault-wait (R71, R401), nor one
that stands while the supervisor runs on another path (log 23). -/
def mayTrap (s : State) (w : Who) : Bool :=
  let g := getGroup s w.uid w.gidx
  if g.sup then g.svPaths.getLsbD w.pidx else !(getBlock s w.uid).preempt

/-- A path that has waited begins its instruction again, and the group's next run is its (R65, R105). -/
def resumePath (w : Who) (s : State) : State :=
  let pc := (pathOf s w).pc
  let first (g : Group) : Nat := ((g.melds.find? fun m => m.b == w.pidx).map (·.a)).getD w.pidx
  modGroup w.uid w.gidx (fun g => { beginAgain w.pidx pc s.stamp g with last := (first g + 63) % 64 })
    (modPath w (fun p => { p with run := .ready }) s)

/-- A waiting path resumes or traps. One that may not trap now issues its instruction again later. -/
def wakePath (retry : Bool) (w : Who) (ft : FaultType) (ea : Word) (kind : BitVec 4) (s : State) : State :=
  let s := resumePath w s
  if retry || !mayTrap s w then s else trapPath w (failCause ft) ea kind s

/-- A waiting copy resumes or stops in error. -/
def wakeCopy (retry : Bool) (c : Copy) (ft : FaultType) (ea : Word) (kind : BitVec 4) (s : State) : State :=
  if retry then modCopy c.id (fun c => { c with run := .queued }) s
  else if s.copies.any fun x => x.id == c.id then stopCopy c (failCause ft) ea kind s else s

/-- Every waiter of a slot is woken (R65). -/
def wakeWaiters (die slot : Nat) (retry : Bool) (s : State) : State :=
  let s := (allWaits s).foldl (fun s x => match x.2 with
    | .fault d i ft ea k => if d == die && i == slot then wakePath retry x.1 ft ea k s else s
    | _ => s) s
  s.copies.foldl (fun s c => match c.run with
    | .fault d i ft ea k => if d == die && i == slot then wakeCopy retry c ft ea k s else s
    | _ => s) s

/-- The fault doorbell of a die with a slot index (R64, R65): `ctx` is the context in whose log an ignored doorbell is counted. -/
def doorbell (root ctx die slot : Nat) (s : State) : State :=
  let base := fqBase s root die
  let w0 := slotWord s base slot 0
  let resp := bits (slotWord s base slot 3) 56 8
  if bits w0 60 4 = 0 ∨ resp = 0 then logError die 7 0 slot ctx ctx s
  else physPut none (base + 32 * slot) 8 (w0 % 2 ^ 60) (wakeWaiters die slot (resp == 1) s)

/-! Waiters without a slot (R66). -/

/-- The paths and copies of a die that wait for a slot to free. -/
inductive Slotless where
  | path (w : Who)
  | copy (id : Nat)
  deriving DecidableEq, Repr

def slotless (s : State) (die : Nat) : List Slotless :=
  ((allWaits s).filterMap fun x => match x.2 with
    | .noSlot d _ _ _ _ => if d == die then some (.path x.1) else none
    | _ => none) ++
  s.copies.filterMap fun c => match c.run with
    | .noSlot d _ _ _ _ => if d == die then some (.copy c.id) else none
    | _ => none

/-- Waiter number n of a die records its fault, when a slot has freed or takes it. -/
def recordSlotless (die n : Nat) (s : State) : State :=
  match (slotless s die)[n]? with
  | none => s
  | some (.path w) =>
    match (pathOf s w).run with
    | .waiting (.noSlot _ ft lv ea k) len => enterFaultWait w len ft lv ea k s
    | _ => s
  | some (.copy id) =>
    match s.copies.find? fun c => c.id == id with
    | some c => match c.run with
      | .noSlot _ ft lv ea k => copyFault c ft lv ea k s
      | _ => s
    | none => s

/-! Invalidation. -/

/-- Does an invalidation (R58) select the page that translates address a of an address space: by its own 64 KiB page, or by an entry of a
TLB that maps both (log 83)? -/
def selects (s : State) (kind : Nat) (asid : BitVec 16) (va : Nat) (of_ : BitVec 16) (a : Nat) : Bool :=
  kind == 0 || (of_ == asid && (kind == 1 || a / 65536 == va / 65536 || s.tlb.any fun e => tlbHit asid va e && tlbHit asid a e))

/-- Accesses that have been translated and not performed (R59): those sent through an aperture and not answered, writes to memory that
stand on a matrix queue, and accesses that keep a translation (R70, R345), of a selected page where that is known. -/
def inFlight (kind : Nat) (asid : BitVec 16) (va : Nat) (s : State) : Bool :=
  let hit (l : List (Nat × Nat × Nat)) : Bool := l.any fun x => selects s kind asid va asid x.1
  (s.ext.any fun e => e.got.isNone || hit e.kept) || (s.copies.any fun c => hit c.pages) ||
  (s.matq.any fun o => o.writes.any fun x => match x.1 with
    | .phys _ => true
    | _ => false) ||
  s.blocks.any fun b => b.groups.any fun g => g.kept.any fun x =>
    x.2.isSome && selects s kind asid va (ctxAsid s (blockCtx s b)) (x.1 % 2 ^ 52)

/-- An invalidation that has come to its end (R59): the writing path, if a path wrote it, goes on behind its syswr, which is a fence
at package scope. It waits until no access is in flight. -/
def tlbStep (self : Instr) (w : Option Who) (kind : Nat) (asid : BitVec 16) (vpn : Nat) (s : State) : State :=
  match w with
  | none => if inFlight kind asid (vpn * 65536) s then pend [self] s else invalidate kind asid (vpn * 65536) s
  | some w =>
    match (pathOf s w).run with
    | .waiting (.tlb _) len =>
      if inFlight kind asid (vpn * 65536) s then pend [self] s
      else passWait w len (modGroup w.uid w.gidx (raiseFence [pathParty w.pidx] [32] s.stamp)
        (l1Clear (corePlace (getBlock s w.uid).place) (invalidate kind asid (vpn * 65536) s)))
    | _ => s

/-- Does a value written to tlbinv break R58? -/
def badTlbinv (x : Word) : Bool := vbits x 62 2 == 3 || vbits x 36 10 != 0

/-- The invalidation that a value of R58 names. -/
def tlbInstr (w : Option Who) (x : Word) : Instr :=
  match vbits x 62 2 with
  | 0 => .tlbinvAll w
  | 1 => .tlbinvAsid w (BitVec.ofNat 16 (vbits x 46 16))
  | _ => .tlbinvPage w (BitVec.ofNat 16 (vbits x 46 16)) (BitVec.ofNat 36 (vbits x 0 36))

/-- TLBINV_ALL (R58, R59): KIND 0. -/
def execTlbinvAll (w : Option Who) (s : State) : Host.Outcome State Fault Refusal := .next (tlbStep (.tlbinvAll w) w 0 0 0 s)

/-- TLBINV_ASID (R58, R59): KIND 1. -/
def execTlbinvAsid (w : Option Who) (asid : BitVec 16) (s : State) : Host.Outcome State Fault Refusal :=
  .next (tlbStep (.tlbinvAsid w asid) w 1 asid 0 s)

/-- TLBINV_PAGE (R58, R59): KIND 2. -/
def execTlbinvPage (w : Option Who) (asid : BitVec 16) (vpn : BitVec 36) (s : State) : Host.Outcome State Fault Refusal :=
  .next (tlbStep (.tlbinvPage w asid vpn) w 2 asid vpn.toNat s)

/-- FAULT_SLOT_WAIT_RECORD (R66). -/
def execFaultSlotWaitRecord (die n : Nat) (s : State) : Host.Outcome State Fault Refusal := .next (recordSlotless die n s)

end Sys2Proof.Machine
end

