-- ==== Sys2Proof/Machine/Queues.lean ====
section
/-! DEFINITION. The steps of copy queues (R154, R356, R357) and of the matrix queue (R345, R350). -/

namespace Sys2Proof.Machine

open Sys2Proof

/-! Copy queues. -/

/-- A copy whose bytes have all performed completes: it posts its ring slot at its scope, or its node completes (R356, R107). -/
def finishCopy (c : Copy) (s : State) : State :=
  let s := match c.post with
    | some (r, j) => modBlock c.uid (postSlot r j c.scope) s
    | none => s
  let s := dropCopy c.id s
  match c.node with
  | some va => completeNode c.ctx va s
  | none => s

/-- The oldest copy of a queue, when it has performed, completes. -/
def completeQueue (q : QKey) (s : State) : State :=
  match onQueue s q with
  | [] => s
  | c :: _ => if c.run == .performed then finishCopy c s else s

/-- COPY_EXECUTE (R154, R101, R357). -/
def execCopyExecute (q : QKey) (s : State) : Host.Outcome State Fault Refusal := .next (runQueue q s)

/-- COPY_COMPLETE (R356, R107, R381). -/
def execCopyComplete (q : QKey) (s : State) : Host.Outcome State Fault Refusal := .next (completeQueue q s)

/-- MATRIX_QUEUE_COMPLETE (R345, R350). -/
def execMatrixQueueComplete (pl : Place) (s : State) : Host.Outcome State Fault Refusal := .next (runMatq pl s)

end Sys2Proof.Machine
end

