-- ==== Sys2Proof/Machine/Frames.lean ====
section
/-! DEFINITION. The save frame and the spill slot as bytes (R398, R408 to R412): group headers, path records, block sections, latch
entries, and the device's own spill of a block (R75, R77, R352, R358). -/

namespace Sys2Proof.Machine

open Sys2Proof

/-! Bytes of the frame, which the device reaches through the context (R407). -/

/-- How the device reaches a block's frame. -/
def frameEnv (s : State) (b : Block) : Env :=
  { uid := b.uid, pl := b.place, ctx := blockCtx s b, sup := true, scope := 4, cls := 15, noL1 := true, side := .core b.place,
    core := some (corePlace b.place), owner := .node 0 0 }

/-- Why a frame access fails: the cause and the address with which it ends the fault domain. -/
abbrev Broken := Option (Nat × Word)

/-- The parts of a frame range, translated; only DRAM can hold a frame. -/
def frameParts (env : Env) (k : Kind) (va n : Nat) (s : State) : State × Except (Nat × Word) (List (Nat × Nat × Nat)) :=
  if 2 ^ 52 < va + n then (s, .error (0x05, addrWord va))
  else match translateParts env k (pageParts va n) s with
    | (s, .ok ps) => if ps.all fun p => isDram s p.1 then (s, .ok ps) else (s, .error (0x06, addrWord va))
    | (s, .fault ft _ a _) => (s, .error (failCause ft, a))
    | (s, .domain c a _) => (s, .error (c, a))
    | (s, _) => (s, .error (0x06, addrWord va))

/-- Bytes stored in a frame. -/
def frameStore (env : Env) (va : Nat) (l : List Byte) (s : State) : State × Broken :=
  match frameParts env .write va l.length s with
  | (s, .ok ps) =>
    match writeParts env (addrWord va) .write ps l s with
    | (s, .domain c a _) => (s, some (c, a))
    | (s, _) => (s, none)
  | (s, .error e) => (s, some e)

/-- Several stores, up to the first that fails. -/
def frameStores (env : Env) : List (Nat × List Byte) → State → State × Broken
  | [], s => (s, none)
  | (va, l) :: r, s =>
    match frameStore env va l s with
    | (s, none) => frameStores env r s
    | x => x

/-- Bytes loaded from a frame. -/
def frameLoad (env : Env) (va n : Nat) (s : State) : State × Except (Nat × Word) (List Byte) :=
  match frameParts env .read va n s with
  | (s, .ok ps) =>
    match readParts env (addrWord va) .read ps s with
    | (s, .ok l) => (s, .ok l)
    | (s, .domain c a _) => (s, .error (c, a))
    | (s, _) => (s, .error (0x06, addrWord va))
  | (s, .error e) => (s, .error e)

/-- Several loads, up to the first that fails. -/
def frameLoads (env : Env) : List (Nat × Nat) → State → State × Except (Nat × Word) (List (List Byte))
  | [], s => (s, .ok [])
  | (va, n) :: r, s =>
    match frameLoad env va n s with
    | (s, .ok l) =>
      match frameLoads env r s with
      | (s, .ok ls) => (s, .ok (l :: ls))
      | (s, .error e) => (s, .error e)
    | (s, .error e) => (s, .error e)

/-- Bytes of a frame as a device at the block's place would read them; none when they cannot be read. -/
def frameSees (s : State) (b : Block) (va n : Nat) : Option (List Byte) :=
  match (frameLoad (frameEnv s b) va n s).2 with
  | .ok l => some l
  | .error _ => none

/-- Where the group section lies; where the block section lies. -/
def groupSection (s : State) (b : Block) (gidx : Nat) : Nat := frameBase s (blockCtx s b) (b.frame.getD 0) + gidx * 0x40000

def blockSection (s : State) (b : Block) : Nat := frameBase s (blockCtx s b) (b.frame.getD 0) + 0x400000

/-! Group header (R409). -/

def headerBytes (b : Block) (g : Group) (next : Nat) : List Byte :=
  mkBytes 1024 ([
    (0, 2, 1), (2, 1, classOf b.place), (3, 1, g.gidx), (4, 1, g.paths.length), (5, 1, next),
    (8, 4, vlmaxOf b.place g.nrc * 2 ^ 16 + g.nrc.toNat), (12, 4, g.vl.toNat), (16, 4, g.vstart.toNat), (20, 4, g.fcsr.toNat),
    (24, 8, g.dirty.toNat), (32, 4, b.gm.toNat), (36, 4, b.gn.toNat), (40, 4, b.gk.toNat), (44, 4, b.tfmt.toNat),
    (48, 8, g.gang.toNat), (56, 8, g.epc.toNat), (64, 8, g.ecause.toNat), (72, 8, g.eaddr.toNat),
    (112, 8, (g.paths.map fun p => 2 ^ p.idx).sum), (128, 128, g.exited.toNat)] ++
    (List.range 4).map fun i => (80 + 8 * i, 8, (vget g.ssave i).toNat))

/-- p1 to p15, then the scale registers and masks (R408). -/
def predBytes (g : Group) : List Byte := (List.range 15).flatMap fun i => toBytes 128 (vget g.p (i + 1)).toNat

def scaleRegBytes (g : Group) : List Byte :=
  ((List.range 8).flatMap fun i => toBytes 64 (vget g.ks i).toNat) ++ (List.range 8).flatMap fun i => toBytes 8 (vget g.qs i).toNat

/-- The validity mask of a scale register: bit b is 1 exactly when entry b is not 0xFF (R130). -/
def maskOf (k : BitVec 512) : Word :=
  (List.range 64).foldl (fun w b => putBit w b (vbits k (8 * b) 8 != 0xFF)) 0

/-! Path records (R410). -/

def w64 (l : List Byte) (o : Nat) : Word := BitVec.ofNat 64 (field l o 8)

/-- A path from its record. One that was parked or waited issues its instruction again (R319). -/
def pathOfRecord (idx : Nat) (l : List Byte) : Path :=
  { idx := idx, pc := w64 l 0,
    regs := Vector.ofFn fun i => if i.val = 0 then 0 else w64 l (512 + 8 * i.val),
    threads := BitVec.ofNat 1024 (field l 160 128),
    rets := ((List.range (field l 8 1)).map fun d => w64 l (1024 + 8 * d)).reverse,
    loops := ((List.range (min 4 (field l 9 1))).map fun i =>
      { start := w64 l (32 + 32 * i), stop := w64 l (40 + 32 * i), left := w64 l (48 + 32 * i), depth := field l (56 + 32 * i) 8 :
        LoopEntry }).reverse,
    tokens := BitVec.ofNat 16 (field l 12 2),
    maps := Vector.ofFn fun t => w64 l (288 + 8 * t.val),
    rpt := if field l 24 1 = 0 then none
      else some { start := w64 l 16, len := field l 24 1, stride := field l 25 1, n := field l 26 2, pass := field l 28 2,
                  pos := field l 30 1 },
    run := .ready }

/-- The melded regions that path records describe: side a and side b of one token. -/
def meldsOfRecords (rs : List (Nat × List Byte)) : List Meld :=
  rs.filterMap fun a =>
    let st := field a.2 10 1
    if bitAt st 2 && !bitAt st 3 then
      (rs.find? fun b => field b.2 10 1 == st + 8).map fun b =>
        { tok := st / 16, a := a.1, b := b.1, table := BitVec.ofNat 512 (field a.2 416 64), doneA := bitAt (field a.2 14 2) 0,
          doneB := bitAt (field a.2 14 2) 1, startB := none }
    else none

/-! Latch entries (R412). -/

/-- Members of an entry: those that have arrived, then the others, each by rising GIDX. -/
def latchMembers (e : LatchEntry) : List (Nat × Option LatchMember) :=
  let here := byGidx e.arrived
  here.map (fun m => (m.gidx, some m)) ++
    ((members e.members 16).filter fun g => !(here.any fun m => m.gidx == g)).map fun g => (g, none)

def latchBytes (e : LatchEntry) : List Byte :=
  let ms := latchMembers e
  mkBytes 512 ([
    (0, 8, 2 ^ 63 + e.seq.toNat * 2 ^ 32 + b2n e.pair * 2 ^ 16 + e.members.toNat), (8, 8, e.elapsed),
    (16, 2, (e.arrived.map fun m => 2 ^ m.gidx).sum), (18, 2, e.tmo)] ++
    (List.range (min 6 ms.length)).flatMap fun i =>
      let o := 32 + 64 * i
      match ms[i]? with
      | some (_, some m) => [(o, 1, m.gidx), (o + 1, 1, m.tile), (o + 2, 1, m.handle), (o + 3, 1, b2n m.z + m.pd % 16 * 16),
          (o + 4, 4, m.vl), (o + 8, 4, m.vstart), (o + 16, 8, m.j0.toNat), (o + 32, 32, m.prbits.toNat)]
      | some (g, none) => [(o, 1, g)]
      | none => [])

/-- A member from its record. The record names no path; `who` finds the path and the length of its instruction (log 39). Its bands are
those of the block (R418). -/
def memberOfRecord (who : Nat → Nat × Nat) (ben : BitVec 4) (l : List Byte) : LatchMember :=
  let g := field l 0 1
  { gidx := g, pidx := (who g).1, len := (who g).2, tile := field l 1 1 % 4, handle := field l 2 1 % 16, z := bitAt (field l 3 1) 0,
    pd := field l 3 1 / 16, vl := field l 4 4, vstart := field l 8 4, j0 := w64 l 16, prbits := BitVec.ofNat 256 (field l 32 32),
    ben := ben }

def latchOfRecord (who : Nat → Nat × Nat) (ben : BitVec 4) (l : List Byte) : Option LatchEntry :=
  if bitAt (field l 0 8) 63 then
    let arr := field l 16 2
    some { seq := BitVec.ofNat 8 (field l 4 1), pair := bitAt (field l 0 8) 16, members := BitVec.ofNat 16 (field l 0 2),
           tmo := field l 18 2, elapsed := field l 8 8,
           arrived := (List.range 6).filterMap fun i =>
             let r := l.drop (32 + 64 * i)
             if i < popcount (BitVec.ofNat 16 arr) && bitAt arr (field r 0 1) then some (memberOfRecord who ben r) else none }
  else none

/-! Block section (R411). The byte TSAVED at 3 belongs to the save routine. -/

def sectionHead (b : Block) : List Byte := mkBytes 3 [(0, 2, 1), (2, 1, b.groups.length)]

def sectionTail (launchid : Nat) (b : Block) : List Byte :=
  mkBytes 0x24FC ([
    (0x000, 4, b.blockid.toNat), (0x004, 1, b.tenant), (0x005, 1, b.ben.toNat), (0x006, 2, b.rbnd.toNat), (0x00C, 4, b.gm.toNat),
    (0x010, 4, b.gn.toNat), (0x014, 4, b.gk.toNat), (0x018, 4, b.tfmt.toNat), (0x01C, 8, b.iter.toNat), (0x024, 8, launchid)] ++
    ((List.range 64).map fun k =>
      let x := vget b.bars k
      (0x0FC + 8 * k, 8, x.expect.toNat + x.count.toNat * 2 ^ 16 + x.gen.toNat * 2 ^ 32)) ++
    ((List.range 8).map fun r => (0x2FC + 8 * r, 8, (vget b.rings r).toNat)) ++
    ((List.range 16).map fun h => (0x3FC + 16 * h, 16, (vget b.recs h).toNat)) ++
    (List.range (min 16 b.latch.length)).flatMap fun e =>
      match b.latch[e]? with
      | some x => [(0x4FC + 512 * e, 512, ofBytes (latchBytes x))]
      | none => [])

/-- What of a block its section restores (R414): grants, rbnd and BEN first, then ITER, barriers, rings, records and latch. Reserved fields
of registers stay zero (R4, R205, R208). -/
def blockOfSection (who : Nat → Nat × Nat) (ben : BitVec 4) (l : List Byte) (b : Block) : Block :=
  { b with
    ben := ben, rbnd := BitVec.ofNat 32 (field l 0x00A 2) &&& 0x1FF,
    gm := BitVec.ofNat 32 (field l 0x010 4) &&& 0x1FF, gn := BitVec.ofNat 32 (field l 0x014 4) &&& 0x1FF,
    gk := BitVec.ofNat 32 (field l 0x018 4) &&& 0x1FF, tfmt := BitVec.ofNat 32 (field l 0x01C 4) &&& 0x1F1F, iter := w64 l 0x020,
    bars := Vector.ofFn fun k =>
      { expect := BitVec.ofNat 16 (field l (0x100 + 8 * k.val) 2), count := BitVec.ofNat 16 (field l (0x102 + 8 * k.val) 2),
        gen := BitVec.ofNat 32 (field l (0x104 + 8 * k.val) 4) },
    rings := Vector.ofFn fun r => BitVec.ofNat 8 (field l (0x300 + 8 * r.val) 1),
    recs := Vector.ofFn fun h => BitVec.ofNat 128 (field l (0x400 + 16 * h.val) 16),
    latch := (List.range 16).filterMap fun e => latchOfRecord who ben ((l.drop (0x500 + 512 * e)).take 512) }

/-! The spill slot (R75, R77, R352, R358). The spec says what it holds and how large it is; the places of the parts are the model's
(log 40): the scratchpad at 0, the operand buffer at 0x10_0000, the planes at 0x14_0000 and 0x14_A000, the row tags at 0x15_4000, what
each group knows of its queues at 0x15_4410, where side b of its melded region starts at 0x15_4450, the copies at 0x15_5000, and at
0x17_D000 the units that the copy under way of each queue has put off and the bytes that it has staged. -/

/-- The n bytes at a physical address made equal to a sparse map of bytes. -/
def physBlit (base n : Nat) (m : Sparse Byte) (s : State) : State :=
  let old := (s.mem.filter fun c => decide (base ≤ c.1) && decide (c.1 < base + n)).map (·.1 - base)
  let keys := old ++ (m.map (·.1)).filter fun k => !old.contains k
  let s' := keys.foldl (fun s k => if k < n then physByte none (base + k) (sget 0 m k) s else s) s
  { s' with links := breakGlob base n s'.links }

/-- The n bytes at a physical address as a sparse map. -/
def physSparse (s : State) (base n : Nat) : Sparse Byte :=
  (s.mem.filter fun c => decide (base ≤ c.1) && decide (c.1 < base + n)).map fun c => (c.1 - base, c.2)

/-- A list of bytes as a sparse map. -/
def sparseOf (l : List Byte) : Sparse Byte := ((List.range l.length).map fun i => (i, l.getD i 0)).filter fun e => e.2 != 0

/-- Sixteen-bit entries as bytes. -/
def halves (m : Sparse (BitVec 16)) : Sparse Byte :=
  (m.flatMap fun e => [(2 * e.1, BitVec.ofNat 8 e.2.toNat), (2 * e.1 + 1, BitVec.ofNat 8 (e.2.toNat / 256))]).filter fun e => e.2 != 0

def planeHead (p : Plane) : List Byte :=
  mkBytes 16 [(0, 1, b2n p.valid), (1, 1, p.k), (2, 1, p.n), (3, 1, p.fmt.toNat), (4, 1, p.pln.toNat), (5, 1, b2n p.rnd),
    (6, 2, p.id.toNat)]

def spillPlane (at_ : Nat) (p : Plane) (s : State) : State :=
  physBlit (at_ + 0x8000) 0x200 p.sc (physBlit (at_ + 0x40) 0x4000 (halves p.w) (physBlit at_ 16 (sparseOf (planeHead p)) s))

def unspillPlane (s : State) (at_ : Nat) : Plane :=
  let h := physBytes s at_ 16
  let codes := (List.range 8192).map fun i => BitVec.ofNat 16 (physRead s (at_ + 0x40 + 2 * i) 2)
  { valid := field h 0 1 == 1, k := field h 1 1, n := field h 2 1, fmt := BitVec.ofNat 5 (field h 3 1),
    pln := BitVec.ofNat 4 (field h 4 1), rnd := field h 5 1 == 1, id := BitVec.ofNat 16 (field h 6 2), w := ssetN 0 0 codes [],
    sc := physSparse s (at_ + 0x8000) 0x200 }

/-- A tag as it is spilled: complemented, so that 0xFFFF is stored as zero. -/
def spillTags (m : Sparse (BitVec 16)) : Sparse Byte := halves (m.map fun e => (e.1, ~~~ e.2))

def unspillTags (s : State) (at_ : Nat) : Sparse (BitVec 16) :=
  ssetN 0xFFFF 0 ((List.range 256).map fun j => ~~~ BitVec.ofNat 16 (physRead s (at_ + 2 * j) 2)) []

def intField (i : Int) : Nat := (BitVec.ofInt 64 i).toNat

/-- A copy as it is spilled, in 640 bytes. -/
def copyBytes (c : Copy) : List Byte :=
  let d := c.desc
  let q : Nat := match c.q with
    | .core _ q => q
    | .front _ => 0
  mkBytes 640 ([
    (0, 1, 1), (1, 1, q), (2, 1, c.gidx), (3, 1, b2n c.sup), (4, 1, c.cls), (5, 1, c.scope), (6, 1, b2n c.post.isSome),
    (7, 1, (c.post.map (·.1)).getD 0), (8, 8, (c.post.map (·.2)).getD 0), (16, 8, c.next), (24, 1, b2n (c.run == .performed)),
    (25, 1, d.sfmt), (26, 1, d.dfmt), (27, 1, d.rnd), (28, 1, b2n d.dob), (29, 1, b2n d.bnd), (30, 1, d.dims.length), (32, 16, d.rec_.toNat),
    (48, 8, d.src.toNat), (56, 8, d.dst.toNat), (64, 8, c.seed), (72, 8, c.late.length),
    (480, 4, (c.lost.eraseDups.map (2 ^ ·)).sum), (484, 4, c.staged.length)] ++
    (List.range (min 10 d.dims.length)).flatMap fun i =>
      match d.dims[i]? with
      | some x => [(80 + 40 * i, 8, x.extent), (88 + 40 * i, 8, x.start), (96 + 40 * i, 8, intField x.sstr), (104 + 40 * i, 8, intField x.dstr),
          (112 + 40 * i, 8, x.box)]
      | none => [])

def copyOfBytes (id : Nat) (pl : Place) (uid ctx : Nat) (late : List Nat) (staged : List (Nat × Byte)) (l : List Byte) : Copy :=
  { id := id, seed := field l 64 8, q := .core pl (field l 1 1), uid := uid, gidx := field l 2 1, ctx := ctx, sup := field l 3 1 == 1,
    cls := field l 4 1, scope := field l 5 1, post := if field l 6 1 = 1 then some (field l 7 1, field l 8 8) else none,
    desc := { sfmt := field l 25 1, dfmt := field l 26 1, rnd := field l 27 1, dob := field l 28 1 == 1, bnd := field l 29 1 == 1,
              rec_ := BitVec.ofNat 128 (field l 32 16), src := w64 l 48, dst := w64 l 56,
              dims := (List.range (min 10 (field l 30 1))).map fun i =>
                { extent := field l (80 + 40 * i) 8, start := field l (88 + 40 * i) 8, sstr := (w64 l (96 + 40 * i)).toInt,
                  dstr := (w64 l (104 + 40 * i)).toInt, box := field l (112 + 40 * i) 8 } },
    next := field l 16 8, run := if field l 24 1 = 1 then .performed else .queued, node := none, wsload := false, held := false,
    late := late, staged := staged, hold := none, lost := members (BitVec.ofNat 64 (field l 480 4)) 32, pages := [] }

/-- The units that the copies of a block have put off and the bytes that they have staged, in the places of their queues. -/
def lateBytes (l : List Copy) : Sparse Byte :=
  l.foldl (fun m c => match c.q with
    | .core _ q => if c.late.isEmpty && c.staged.isEmpty then m
      else ssetN 0 (1536 * q + 1024) (c.staged.flatMap fun x => toBytes 3 x.1 ++ [x.2]) (ssetN 0 (1536 * q) (c.late.flatMap (toBytes 8)) m)
    | .front _ => m) []

/-- Where side b of a group's melded region starts the vector instruction under way (R269), in 24 bytes: side a, both starts, the PC. -/
def startBytes (g : Group) : List Byte :=
  match g.melds.find? fun m => m.startB.isSome with
  | some m => match m.startB with
    | some (pc, b, a) => mkBytes 24 [(0, 1, 1), (1, 1, m.a), (4, 4, b.toNat), (8, 4, a.toNat), (16, 8, pc.toNat)]
    | none => mkBytes 24 []
  | none => mkBytes 24 []

/-- Where a group's slot keeps it. -/
def startAt (s : State) (b : Block) (gidx : Nat) : Nat := spillSlot s (blockCtx s b) (b.frame.getD 0) + 0x154450 + 24 * gidx

/-- The melded regions of a group with the start that its slot keeps. -/
def withStart (l : List Byte) (ms : List Meld) : List Meld :=
  ms.map fun m => if field l 0 1 = 1 ∧ field l 1 1 = m.a then
    { m with startB := some (w64 l 16, BitVec.ofNat 32 (field l 4 4), BitVec.ofNat 32 (field l 8 4)) } else m

/-- What each group knows of its queues (R361): qbad and qwide. -/
def queueMarks (b : Block) : Sparse Byte :=
  b.groups.foldl (fun m g => ssetN 0 (4 * g.gidx) (toBytes 1 g.qbad.toNat ++ toBytes 2 g.qwide.toNat) m) []

/-- The copies of a block, in order of issue. -/
def copiesOf (s : State) (uid : Nat) : List Copy := s.copies.filter fun c => c.uid == uid && c.node.isNone

/-- A block's own spill written to its slot. -/
def spillBlock (b : Block) (s : State) : State :=
  let a := spillSlot s (blockCtx s b) (b.frame.getD 0)
  let s := physBlit a b.spadSize b.spad s
  let s := physBlit (a + 0x100000) b.obSize b.ob s
  let s := spillPlane (a + 0x140000) (vget b.planes 0) s
  let s := spillPlane (a + 0x14A000) (vget b.planes 1) s
  let s := physBlit (a + 0x154000) 0x200 (spillTags b.tags) s
  let s := physBlit (a + 0x154200) 0x200 (spillTags b.pendTags) s
  let s := physBlit (a + 0x154400) 1 (sparseOf [BitVec.ofNat 8 (b2n b.tagOn)]) s
  let s := physBlit (a + 0x154410) 0x40 (queueMarks b) s
  let s := physBlit (a + 0x17D000) 0x3000 (lateBytes (copiesOf s b.uid)) s
  physBlit (a + 0x155000) 0x28000 (sparseOf ((copiesOf s b.uid).take 256 |>.flatMap copyBytes)) s

/-- What of a block its slot restores. A plane that does not fit the place loses V and ID (R352). -/
def unspillBlock (s : State) (b : Block) : Block :=
  let a := spillSlot s (blockCtx s b) (b.frame.getD 0)
  let fit (p : Plane) : Plane :=
    if limK b.place b.ben < p.k ∨ limN b.place b.faulty < p.n then { p with valid := false, id := 0xFFFF } else p
  { b with
    spad := physSparse s a b.spadSize, ob := physSparse s (a + 0x100000) b.obSize,
    planes := vset (vset b.planes 0 (fit (unspillPlane s (a + 0x140000)))) 1 (fit (unspillPlane s (a + 0x14A000))),
    tags := unspillTags s (a + 0x154000), pendTags := unspillTags s (a + 0x154200), tagOn := physRead s (a + 0x154400) 1 == 1,
    groups := b.groups.map fun g => { g with
      qbad := BitVec.ofNat 8 (physRead s (a + 0x154410 + 4 * g.gidx) 1), qwide := BitVec.ofNat 9 (physRead s (a + 0x154411 + 4 * g.gidx) 2) } }

/-- The copies that a slot holds, on the queues of a place, numbered from `s.uids` on. -/
def unspillCopies (s : State) (b : Block) : List Copy :=
  let a := spillSlot s (blockCtx s b) (b.frame.getD 0)
  (List.range 256).filterMap fun i =>
    let l := physBytes s (a + 0x155000 + 640 * i) 640
    let own := a + 0x17D000 + 1536 * field l 1 1
    let late := (List.range (min lateCap (field l 72 8))).map fun j => physRead s (own + 8 * j) 8
    let staged := (List.range (min lateCap (field l 484 4))).map fun j =>
      (physRead s (own + 1024 + 4 * j) 3, BitVec.ofNat 8 (physRead s (own + 1024 + 4 * j + 3) 1))
    if field l 0 1 = 1 then some (copyOfBytes (s.uids + i) b.place b.uid (blockCtx s b) late staged l) else none

end Sys2Proof.Machine
end

