-- ==== Sys2Proof/Machine/Context.lean ====
section
/-! DEFINITION. Pre-emption and restoration of blocks (R401 to R416): capture of a group, the end of a save, restoration, and the end
of a restore; threads under another VLMAX (R200, R415). -/

namespace Sys2Proof.Machine

open Sys2Proof

/-! Ready paths (R169, R393). -/

/-- A path that may take the group's next run. A melded pair stands as its side a, when both are ready; in supervisor mode only the
paths that the supervisor runs on are ready. No path of a group in fault-wait is ready (R60, R66). -/
def pathReady (g : Group) (p : Path) : Bool :=
  p.run == .ready && g.part != .ended && !inFaultWait g &&
  (if g.sup then g.svPaths.getLsbD p.idx
   else !(g.melds.any fun m => m.b == p.idx) &&
    match g.melds.find? fun m => m.a == p.idx with
    | some m => (getPath g m.b).run == .ready
    | none => true)

/-- The first of some path indexes after `last`, in cyclic index order. -/
def cyclicNext (last : Nat) (l : List Nat) : Option Nat :=
  (l.filter fun i => decide (last < i)).head?.orElse fun _ => l.head?

/-- The path that the group's next run goes to (R169). -/
def nextPath (g : Group) : Option Nat := cyclicNext g.last ((g.paths.filter (pathReady g)).map (·.idx))

/-- The next path of R404. -/
def savedNext (g : Group) : Nat :=
  (nextPath g).getD (if (findPath g g.last).isSome then g.last else ((g.paths.map (·.idx)).head?).getD 0)

/-! Threads under another VLMAX (R200, R415). -/

/-- Paths that have lost their last thread are freed (R170). -/
def dropEmpty (g : Group) : Group := { g with
  paths := g.paths.filter fun p => p.threads != 0,
  melds := g.melds.filter fun m => (getPath g m.a).threads != 0 && (getPath g m.b).threads != 0 }

/-- Predicates, exited threads and thread sets under VLMAX vn, when they stood under vo. -/
def adjustThreads (vo vn : Nat) (g : Group) : Group :=
  let m := ones 1024 (min vo vn)
  let fresh : BitVec 1024 := ones 1024 vn &&& ~~~ ones 1024 (min vo vn)
  let home : Nat := ((g.paths.find? fun p => decide (0 < vo) && p.threads.getLsbD (vo - 1)).map (·.idx)).getD
    (((g.paths.map (·.idx)).head?).getD 0)
  let g' : Group := { g with
    p := Vector.ofFn fun i => if i.val = 0 then BitVec.allOnes 1024 else vget g.p i.val &&& m,
    exited := g.exited &&& m,
    paths := g.paths.map fun p => { p with
      threads := if p.idx = home then (p.threads &&& m) ||| fresh else p.threads &&& m } }
  if vn < vo then dropEmpty g' else g'

/-! The save path (R403). -/

/-- The path on which a group saves or restores: every thread, an empty stack, and the addresses of frame and sections. -/
def savePath (s : State) (b : Block) (gidx vm : Nat) : Path :=
  let frame := frameBase s (blockCtx s b) (b.frame.getD 0)
  { blankPath (ones 1024 vm) (svEntry s (blockCtx s b)) with
    regs := scalarFile [0, addrWord frame, addrWord (frame + gidx * 0x40000), addrWord (frame + 0x400000)] }

/-- A group on its save path, with cause 0x11 or 0x12 (R403, R404, R414). -/
def onSavePath (sp : Path) (cause next : Nat) (epc : Word) (g : Group) : Group :=
  { g with
    paths := [sp], melds := [], exited := 0, vstart := 0, sup := true, svPaths := 1, nest := 0, frames := [], last := 0, bp := [],
    issued := 0, ffGo := false, kept := [], stackSlot := none, epc := epc, ecause := ecauseOf 0 false false false false next cause, eaddr := 0,
    part := .running }

/-- The frame accesses of a block have failed: its fault domain ends (R407). -/
def frameBroken (uid : Nat) (e : Nat × Word) (s : State) : State := endBlockDomain uid e.1 e.2 s

/-! Capture (R401, R402). -/

/-- A group of a block that is being pre-empted has stopped: it has retired, does its part, or stands in user mode at a run end. -/
def groupStopped (s : State) (uid : Nat) (g : Group) : Bool :=
  g.retired || g.part != .none || (!g.sup && !(s.running.any fun f => f.who.uid == uid && f.who.gidx == g.gidx))

/-- Slots that the captured paths waited on lose a waiter (R71), and polls of watched words are given up. -/
def leaveWaits (s : State) (b : Block) (g : Group) : State :=
  let s := g.paths.foldl (fun s p => match p.run with
    | .waiting (.fault d i _ _ _) _ => leaveSlot (blockCtx s b) d i s
    | _ => s) s
  { s with ext := s.ext.filter fun e => match e.owner with
      | .path w => !(w.uid == b.uid && w.gidx == g.gidx)
      | _ => true }

/-- What a capture writes (R402). -/
def captureWrites (s : State) (b : Block) (g : Group) : List (Nat × List Byte) :=
  let base := groupSection s b g.gidx
  (if b.res == .resident then [(blockSection s b + 3, [0])] else []) ++
  [(base, headerBytes b g (savedNext g)), (base + 0x8400, predBytes g), (base + 0x8C00, scaleRegBytes g)] ++
  g.paths.map fun p => (base + 0x9400 + 3072 * p.idx, pathBytes g p)

/-- A stopped group is captured and enters the supervisor on its save path (R402 to R404). -/
def captureGroup (uid gidx : Nat) (s : State) : State :=
  let b := getBlock s uid
  let g := getGroup s uid gidx
  let next := savedNext g
  match frameStores (frameEnv s b) (captureWrites s b g) s with
  | (s, some e) => frameBroken uid e s
  | (s, none) =>
    match targetFault (svEntry s (blockCtx s b)) with
    | some c => endBlockDomain uid c (svEntry s (blockCtx s b)) s
    | none =>
      let sp := savePath s b gidx (vlmaxOf b.place g.nrc)
      let s := breakGroup uid gidx (leaveWaits (physBlit (startAt s b gidx) 24 (sparseOf (startBytes g)) s) b g)
      modBlock uid (fun b => { b with res := .saving }) (modGroup uid gidx (onSavePath sp 0x11 next (getPath g next).pc) s)

/-! The end of a save (R406). -/

/-- A launch stands in the ready queues of its dies, in order of acceptance (R388, R392). -/
def enqueueLaunch (id : Nat) (s : State) : State :=
  match findLaunch s id with
  | none => s
  | some l => { s with queue := Vector.ofFn fun d =>
      if l.dies.getLsbD d.val then ((s.launches.map (·.id)).filter fun i => i == id || s.queue[d].contains i) else s.queue[d] }

/-- The block's copies stop at a byte boundary and stand in its slot (R358), with what they have read for granules of the operand buffer
that are not whole (R81). -/
def stopCopies (b : Block) (s : State) : State :=
  let s := (copiesOf s b.uid).foldl (fun s c => match c.run with
    | .fault d i _ _ _ => leaveSlot c.ctx d i s
    | _ => s) s
  { s with copies := s.copies.map fun c => if c.uid == b.uid && c.node.isNone then
      { c with held := true, hold := none, pages := [], run := if c.run == .performed then .performed else .queued } else c }

/-- Every group's part of the save has ended: copies and storage are spilled, the block section is written, and the block leaves
its core (R406). The header of a group that has retired is written with no live path (log 43). -/
def finishSave (uid : Nat) (s : State) : State :=
  let b := getBlock s uid
  let s := stopCopies b s
  let at_ := blockSection s b
  let gone := (b.groups.filter (·.retired)).map fun g => (groupSection s b g.gidx, headerBytes b { g with paths := [] } 0)
  match frameStores (frameEnv s b) ([(at_, sectionHead b), (at_ + 4, sectionTail (launchidOf s b) b)] ++ gone) s with
  | (s, some e) => frameBroken uid e s
  | (s, none) =>
    let s := breakBlock uid (spillBlock (getBlock s uid) s)
    let s := modBlock uid (fun b => { b with res := .held, preempt := false, hint := none, issuedQ := 0 }) s
    let s := leaveCore b (blockCtx s b) s
    writeUsages (blockRcb s b) (enqueueLaunch b.launch s)

/-- No group of the block has still to be captured or to end its part. -/
def savesEnded (b : Block) : Bool := b.groups.all fun g => g.retired || g.part == .ended

/-- The block's operations on the matrix queue performed as far as they can be. -/
def drainMatq (uid : Nat) (s : State) : State := (s.matq.filter fun o => o.uid == uid).foldl (fun s o => performMat o s) s

/-- Accesses of the block that have been sent and not answered, writes of it that stand on the matrix queue (R162), or copies of it that
cannot stop yet (R358). -/
def stillOut (s : State) (uid : Nat) : Bool :=
  (s.matq.any fun o => o.uid == uid) || (s.copies.any fun c => c.uid == uid && c.node.isNone && !copyStops c) || s.ext.any fun e => e.got.isNone && match e.owner with
    | .path w => w.uid == uid
    | .copy c => s.copies.any fun x => x.id == c && x.uid == uid && x.node.isNone
    | _ => false

/-- The save of a block completes, once its accesses have performed. -/
def trySave (uid : Nat) (s : State) : State :=
  let b := getBlock s uid
  if b.preempt && (b.res == .saving || b.res == .resident) && savesEnded b then
    let s := drainMatq uid s
    if stillOut s uid then s else finishSave uid s
  else s

/-- eret with cause 0x11: the group's part of the save ends (R400, R406). -/
def endSavePart (uid gidx : Nat) (s : State) : State :=
  trySave uid (modGroup uid gidx (fun g => { g with part := .ended, bp := [], issued := 0 }) (stopRuns uid gidx s))

/-! Restoration (R414). -/

/-- BEN′ of R413. -/
def benFor (p : Place) (saved : BitVec 4) : BitVec 4 := if saved ≠ 0 ∧ saved &&& ~~~ availOf p = 0 then saved else availOf p

/-- The paths that a group's section of the frame holds, as far as it can be read. -/
def savedPaths (s : State) (b : Block) (gidx : Nat) : List Path :=
  let base := groupSection s b gidx
  match frameSees s b base 1024 with
  | none => []
  | some h => (members (w64 h 112) 64).filterMap fun i => (frameSees s b (base + 0x9400 + 3072 * i) 3072).map (pathOfRecord i)

/-- The path and the length of an arrived member's mma.g: as the latch held it, else the first saved path that stands at an mma.g
(log 39). -/
def memberPath (s : State) (b : Block) (gidx : Nat) : Nat × Nat :=
  match (b.latch.flatMap (·.arrived)).find? fun m => m.gidx == gidx with
  | some m => (m.pidx, m.len)
  | none =>
    let isGang (p : Path) : Option (Nat × Nat) := match peekInstr s (blockCtx s b) p.pc.toNat true with
      | some w =>
        if bits w 24 7 = 0x67 ∧ bits w 0 1 = 0 then some (p.idx, 4)
        else if bits w 24 7 = 0x7B ∧ bits w 56 4 = 7 ∧ bits w 0 1 = 0 then some (p.idx, 8) else none
      | none => none
    ((savedPaths s b gidx).findSome? isGang).getD (0, 4)

/-- The path table that a group section holds: live paths, and the melded regions. -/
def loadPaths (env : Env) (base : Nat) (livep : Word) (s : State) : State × Except (Nat × Word) (List Path × List Meld) :=
  let idx := members livep 64
  match frameLoads env (idx.map fun i => (base + 0x9400 + 3072 * i, 3072)) s with
  | (s, .ok rs) =>
    let l := idx.zip rs
    (s, .ok (l.map fun e => pathOfRecord e.1 e.2, meldsOfRecords l))
  | (s, .error e) => (s, .error e)

/-- The groups of a block enter the supervisor with cause 0x12 (R414). Every vector register is zeroed here, so that one whose saved dirty
bit is 0 (R203) but which the restore routine writes keeps what the routine wrote: DESIGN CHOICE (log 107). vl is VLMAX and dirty is 0
there, where neither R197 nor R414 says what they hold: DESIGN CHOICE (log 122). -/
def enterRestores (uid : Nat) : List Nat → State → State × Broken
  | [], s => (s, none)
  | i :: l, s =>
    let b := getBlock s uid
    let g := getGroup s uid i
    let base := groupSection s b i
    match frameLoad (frameEnv s b) base 1024 s with
    | (s, .error e) => (s, some e)
    | (s, .ok h) =>
      let next := field h 5 1 % 64
      match frameLoad (frameEnv s b) (base + 0x9400 + 3072 * next) 8 s with
      | (s, .error e) => (s, some e)
      | (s, .ok pc) =>
        let sp := savePath s b i (vlmaxOf b.place g.nrc)
        let start (g : Group) : Group := { onSavePath sp 0x12 next (w64 pc 0) g with
          v := [], dirty := 0, vl := BitVec.ofNat 32 (vlmaxOf b.place g.nrc), retired := false,
          floors := sset 0 (floorKey everyParty 32) s.stamp [], again := [] }
        enterRestores uid l (modGroup uid i start s)

/-- The queues on which copies stand. -/
def queuesOf (l : List Copy) : BitVec 8 := l.foldl (fun x c => match c.q with
  | .core _ q => putBit x q true
  | .front _ => x) 0

/-- A block that has just been put on a core is restored (R414, R89, R352, R358): its section, its slot, its copies, its groups. -/
def restoreBlock (uid : Nat) (s : State) : State :=
  let b := getBlock s uid
  let live := (b.groups.filter fun g => !g.retired).map (·.gidx)
  match frameLoad (frameEnv s b) (blockSection s b) 0x2500 s with
  | (s, .error e) => frameBroken uid e s
  | (s, .ok sec) =>
    let b1 := unspillBlock s (blockOfSection (memberPath s b) (benFor b.place (BitVec.ofNat 4 (field sec 9 1))) sec
      { b with tiles := Vector.replicate 4 [], pres := Vector.replicate 4 0, res := .restoring })
    let copies := unspillCopies s b
    let b' : Block := { b1 with issuedQ := queuesOf copies }
    let s := { s with
      blocks := modFirst (fun x => x.uid == uid) (fun _ => b') s.blocks,
      copies := s.copies.filter (fun c => !(c.uid == uid && c.node.isNone)) ++ copies, uids := s.uids + 256,
      bands := kset (corePlace b.place) (kget 0 s.bands (corePlace b.place) ||| b'.ben) s.bands }
    let s := l1Clear (corePlace b.place) s
    match targetFault (svEntry s (blockCtx s b)) with
    | some c => endBlockDomain uid c (svEntry s (blockCtx s b)) s
    | none =>
      match enterRestores uid live s with
      | (s, some e) => frameBroken uid e s
      | (s, none) => s

/-- A latch entry of a block that has been restored executes when every member has arrived while the block was not on a core in user
mode (R339, R401). -/
def settleEntry (uid : Nat) (e : LatchEntry) (s : State) : State :=
  if e.arrived.length = popcount e.members then
    match gangRun uid e e.arrived (byGidx e.arrived) s with
    | (s, .domain c a o) => endBlockDomain (o.getD uid) c a s
    | (s, _) => s
  else s

/-- The block's restore has ended for every group: its frame is free (R407, R415), and its latch goes on unless a pre-emption stands
already (R401; log 128). -/
def tryRestored (uid : Nat) (s : State) : State :=
  let b := getBlock s uid
  if b.res == .restoring && b.groups.all (fun g => g.retired || g.part == .none) then
    let s := modBlock uid (fun b => { b with res := .resident, frame := b.nextFrame, nextFrame := none }) s
    if b.preempt then s else b.latch.foldl (fun s e => settleEntry uid e s) s
  else s

/-- The state that a group's section holds, installed in the group (R415); reserved fields of registers stay zero (R4). -/
def installGroup (b : Block) (vn : Nat) (h preds scales : List Byte) (paths : List Path) (melds : List Meld) (g : Group) : Group :=
  let vo := field h 10 2 % 2048
  let next := field h 5 1 % 64
  let waits (p : Path) : Path :=
    match (b.latch.flatMap (·.arrived)).find? fun m => m.gidx == g.gidx && m.pidx == p.idx with
    | some m => { p with run := .waiting .latch m.len }
    | none => p
  adjustThreads vo vn { g with
    p := Vector.ofFn fun i =>
      if i.val = 0 then BitVec.allOnes 1024 else BitVec.ofNat 1024 (field preds (128 * (i.val - 1)) 128),
    ks := Vector.ofFn fun i => BitVec.ofNat 512 (field scales (64 * i.val) 64),
    qs := Vector.ofFn fun i => maskOf (BitVec.ofNat 512 (field scales (64 * i.val) 64)),
    vl := BitVec.ofNat 32 (min (field h 12 4) vn), vstart := BitVec.ofNat 32 (field h 16 4), fcsr := BitVec.ofNat 32 (field h 20 4) &&& 0x17F,
    gang := gangStored (w64 h 48), epc := w64 h 56, ecause := w64 h 64 &&& 0x0FF0FFFF, eaddr := w64 h 72,
    ssave := Vector.ofFn fun i => w64 h (80 + 8 * i.val),
    exited := BitVec.ofNat 1024 (field h 128 128),
    paths := paths.map waits, melds := melds, sup := false, svPaths := 0, nest := 0, frames := [], last := (next + 63) % 64,
    part := .none, bp := [], issued := 0 }

/-- eret with cause 0x12: the group's captured state is installed and it returns to user mode (R400, R415). -/
def endRestorePart (uid gidx : Nat) (s : State) : State :=
  let b := getBlock s uid
  let g := getGroup s uid gidx
  let env := frameEnv s b
  let base := groupSection s b gidx
  match frameLoads env [(base, 1024), (base + 0x8400, 1920), (base + 0x8C00, 576)] s with
  | (s, .error e) => frameBroken uid e s
  | (s, .ok ls) =>
    let h := ls.getD 0 []
    match loadPaths env base (w64 h 112) s with
    | (s, .error e) => frameBroken uid e s
    | (s, .ok (paths, melds)) =>
      let s := stopRuns uid gidx s
      let melds := withStart (physBytes s (startAt s b gidx) 24) melds
      let s := modGroup uid gidx (installGroup b (vlmaxOf b.place g.nrc) h (ls.getD 1 []) (ls.getD 2 []) paths melds) s
      let slot := if 8 < (getGroup s uid gidx).paths.length then freeStackSlot s (blockCtx s b) else none
      let s := modGroup uid gidx (fun g => { g with stackSlot := slot }) s
      if (getGroup s uid gidx).paths.isEmpty then tryRestored uid (retireGroup uid gidx s)
      else settleTokens { uid := uid, gidx := gidx, pidx := 0 } 64 (tryRestored uid s)

/-- A group of a block that is being pre-empted has still to be captured. -/
def uncaptured (g : Group) : Bool := !g.retired && g.part == .none

/-- GROUP_CAPTURE (R401 to R404): a group that has stopped is captured; with no group left to capture the save completes. A block that is
being restored comes to the end of that first (log 128). -/
def capture (uid gidx : Nat) (s : State) : State :=
  let b := getBlock s uid
  if (findBlock s uid).isSome && b.preempt && !b.transit && b.res != .restoring then
    match findGroup b gidx with
    | some g => if uncaptured g then (if groupStopped s uid g then captureGroup uid gidx s else s) else trySave uid s
    | none => trySave uid s
  else s

def execGroupCapture (uid gidx : Nat) (s : State) : Host.Outcome State Fault Refusal := .next (capture uid gidx s)

end Sys2Proof.Machine
end

