-- ==== Sys2Proof/Machine/System.lean ====
section
/-! DEFINITION. Launches, graph signals, system registers, traps and returns, code-cache and hint instructions (majors 0x6E to 0x73;
R363 to R371, R195 to R214). -/

namespace Sys2Proof.Machine

open Sys2Proof

/-! Launches (R363 to R365). -/

/-- A launch of a captured packet: accepted when an entry is available; else the status, or the wait of launch.w. The written
registers are given by number. -/
def launchOn (wait : Bool) (packet : List Byte) (addr : Word) (d b : Nat) (s : State) : State × Act :=
  let ctx := curCtx s
  let p := packetOf packet
  match peekBad s ctx (vget p 3).toNat .read true with
  | some x => (s, .domain 0x14 (addrWord x) none)
  | none =>
  if entryAvailable s (curDie s) (packetRcb s ctx p) then
    let (s, id) := acceptLaunch (curDie s) p addr ctx none false s
    (wrReg b (BitVec.ofNat 64 id) (wrReg d 0 s), .next)
  else if wait then (s, .wait (.space packet addr d b))
  else (wrReg d 1 s, .next)

/-- launch and launch.w: the packet is read as loads of class 15 at package scope, then the launch is a fence over all classes there. -/
def launchBody (wait : Bool) (d a b : BitVec 6) (s : State) : State × Act :=
  let p := rdS a s
  if p.toNat % 128 ≠ 0 then endScalar (α := Unit) (.trap 0x04 p (kindBits .read)) s
  else
    match readAll (fun i s => loadNum (curEnv 15 4 s) (exactAddr false p (8 * i : Nat)) 8 8 s) (List.range 16) s with
    | (s, .ok l) => launchOn wait (l.flatMap (toBytes 8)) p (sregOf s d) (sregOf s b) (fenceAt 4 s)
    | (s, g) => endScalar g s

/-! Signals and graph words (R366). -/

/-- Is the RCB at a virtual address one of this context? -/
def rcbMine (s : State) (ctx va : Nat) : Bool := (rcbAt s ctx va).map (rcbCtx s) == some ctx

/-- A node address that gsig may find a node at: global, in DRAM (log 35). -/
def nodeHome (s : State) (ctx : Nat) (a : Word) : Bool :=
  !badTag a && tagOf a == 0 && (peek s ctx a.toNat .read true).any (isDram s)

/-- gsig's node completes now; its own count no longer matters (R366, R381). -/
def signalNow (ctx va : Nat) (s : State) : State :=
  completeNode ctx va { dropWait ctx va (fenceAt 4 s) with signalled := (ctx, va) :: s.signalled }

/-- gsig (R366): the read of the node is a load, with the checks of R24 in their order, made at the node's home with its update. A look-up
of its RCB that meets an uncorrectable error ends the domain (R53). -/
def gsigBody (d a : BitVec 6) (s : State) : State × Act :=
  let p := rdS a s
  let ctx := curCtx s
  match alignFault p 64 with
  | some e => endScalar (α := Unit) (.trap e p (kindBits .read)) s
  | none =>
    let load (k : Nat) (s : State) : State × Got Nat :=
      loadNum { curEnv 15 4 s with actor := .engine } (exactAddr false p (8 * k : Nat)) 8 8 s
    match andThen (load 0 s) fun w0 s => andThen (load 3 s) fun w3 s => (s, .ok (w0, w3)) with
    | (s, .ok (w0, w3)) =>
      match peekBad s ctx w3 .read true with
      | some x => (s, .domain 0x14 (addrWord x) none)
      | none =>
      if bits w0 60 4 ≠ 6 ∨ nodeHome s ctx p = false ∨ rcbMine s ctx w3 = false then
        (logError (curDie s) 3 0 0 p.toNat ctx (wrS d 2 s), .next)
      else if 2 ≤ bits w0 58 2 then (wrS d 1 s, .next)
      else
        let s := signalNow ctx p.toNat (wrS d 0 s)
        (s, if (findBlock s (cur s).who.uid).isSome then .next else .left)
    | (s, g) => endScalar g s

/-! System registers (R198, R367). -/

/-- Access rights of R198. -/
inductive SysAccess where
  | ro | rw | rws | s | wo
  deriving DecidableEq, Repr

/-- The system-register map (R198); `none` for a number that is not in it. -/
def sysAccess (i : Nat) : Option SysAccess :=
  if i = 0x000 ∨ i = 0x001 ∨ i = 0x003 ∨ i = 0x004 ∨ i = 0x006 then some .rw
  else if i = 0x002 ∨ (0x010 ≤ i ∧ i ≤ 0x015) ∨ i = 0x030 then some .rws
  else if i = 0x005 ∨ i = 0x007 ∨ (0x020 ≤ i ∧ i ≤ 0x027) then some .ro
  else if (0x040 ≤ i ∧ i ≤ 0x042) ∨ (0x044 ≤ i ∧ i ≤ 0x047) then some .s
  else if i = 0x050 ∨ i = 0x051 then some .wo
  else none

/-- The number of a system register is checked first (R367). -/
def sysEnc (i : BitVec 12) : Option Nat := failIf (sysAccess i.toNat).isNone 0x01

def mayRead (sup : Bool) : Option SysAccess → Bool
  | some .s => sup
  | some .wo => false
  | some _ => true
  | none => false

def mayWrite (sup : Bool) : Option SysAccess → Bool
  | some .rw => true
  | some .ro => false
  | some _ => sup
  | none => false

/-- coreinfo (R20). -/
def coreinfo (b : Block) : Nat :=
  let p := b.place
  2 ^ 56 + p.die * 2 ^ 14 + p.cl * 2 ^ 11 + b2n (isEc p) * 2 ^ 10 + b2n (isHalf p) * 2 ^ 9 + b2n (p.part == 2) * 2 ^ 8 +
  (if isEc p then 0 else b.faulty)

def roleCode : Role → Nat
  | .c => 0
  | .m => 1
  | .v => 2

/-- grpinfo (R180). -/
def grpinfo (b : Block) (g : Group) : Nat := roleCode g.role * 2 ^ 14 + b.groups.length * 2 ^ 4 + g.gidx

/-- pathid (R204). -/
def pathid (s : State) : Nat :=
  match curMeld s with
  | some _ => b2n (cur s).side * 2 ^ 7 + 2 ^ 6 + exPath s
  | none => exPath s

/-- ashape (R207). -/
def ashape (b : Block) : Nat := ncolOf b.place b.faulty * 2 ^ 16 + (availOf b.place).toNat * 2 ^ 4 + b.ben.toNat

/-- The value of a system register (R198). -/
def readSys (i : Nat) (s : State) : Word :=
  let g := curGroup s
  let b := curBlock s
  BitVec.ofNat 64 (match i with
    | 0x000 => g.vl.toNat
    | 0x001 => g.vstart.toNat
    | 0x002 => vlmax s * 2 ^ 16 + g.nrc.toNat
    | 0x003 => g.fcsr.toNat
    | 0x004 => g.dirty.toNat
    | 0x005 => pathid s
    | 0x006 => g.gang.toNat
    | 0x007 => grpinfo b g
    | 0x010 => b.gm.toNat
    | 0x011 => b.gn.toNat
    | 0x012 => b.gk.toNat
    | 0x013 => b.tfmt.toNat
    | 0x014 => ashape b
    | 0x015 => b.rbnd.toNat
    | 0x020 => b.place.site
    | 0x021 => b.tenant
    | 0x022 => b.blockid.toNat
    | 0x023 => launchidOf s b
    | 0x024 => ((launchOf s b).map fun l => pkWord l 3).getD 0
    | 0x025 => coreinfo b
    | 0x026 => wscal s b.place.die
    | 0x027 => tickOf s b.place.die
    | 0x030 => (skewOf s b.place).toNat
    | 0x040 => g.epc.toNat
    | 0x041 => g.ecause.toNat
    | 0x042 => g.eaddr.toNat
    | _ => (vget g.ssave (i - 0x044)).toNat)

/-- sysrd. -/
def sysrdBody (d : BitVec 6) (i : BitVec 12) (s : State) : State × Act :=
  if mayRead (curGroup s).sup (sysAccess i.toNat) then (wrS d (readSys i.toNat s) s, .next) else (s, .trap 0x03 0 0)

/-- A grant register written by the supervisor (R206): 0, or a multiple of 8 from 8 up to the grant limit. -/
def writeGrant (x lim : Nat) (f : Half → Block → Block) (s : State) : State × Act :=
  if x = 0 ∨ (x % 8 = 0 ∧ x ≤ lim) then (modB (f (BitVec.ofNat 32 x)) s, .next) else (s, .trap 0x0A (BitVec.ofNat 64 x) 0)

/-- Values of tfmt that R206 allows. -/
def tfmtOk (t : Half) : Bool :=
  (tfmtCode t == 0 || isFmt (tfmtCode t)) &&
  (if isBpi (tfmtCode t) then 2 ≤ tfmtPln t && tfmtPln t ≤ 8 else tfmtPln t == 0)

/-- A write of value x to a system register (R198 to R213), its access rights apart. Reserved and read-only fields ignore what is
written. A read of a grant register, ashape or rbnd by another group that nothing synchronises with the write returns the value after
it, where R209 allows the one before too: DESIGN CHOICE (log 108). -/
def writeSys (i : Nat) (x : Word) (s : State) : State × Act :=
  let b := curBlock s
  let low : Half := BitVec.ofNat 32 x.toNat
  match i with
  | 0x000 => if vlmax s < low.toNat then (s, .trap 0x09 0 0) else (modG (fun g => { g with vl := low }) s, .next)
  | 0x001 => if vlmax s ≤ low.toNat then (s, .trap 0x09 0 0) else (modG (fun g => { g with vstart := low }) s, .next)
  | 0x003 => (modG (fun g => { g with fcsr := low &&& 0x17F }) s, .next)
  | 0x004 => (modG (fun g => { g with dirty := x &&& ones 64 (nr s) }) s, .next)
  | 0x006 =>
    if gangValid b (curGroup s).gidx x then (modG (fun g => { g with gang := gangStored x }) s, .next) else (s, .trap 0x01 0 0)
  | 0x010 => writeGrant (vbits x 0 9) (limM b.place) (fun v b => { b with gm := v }) s
  | 0x011 => writeGrant (vbits x 0 9) (limN b.place b.faulty) (fun v b => { b with gn := v }) s
  | 0x012 => writeGrant (vbits x 0 9) (limK b.place b.ben) (fun v b => { b with gk := v }) s
  | 0x013 =>
    let t := low &&& 0x1F1F
    if tfmtOk t then (modB (fun b => { b with tfmt := t }) s, .next) else (s, .trap 0x0A (BitVec.ofNat 64 t.toNat) 0)
  | 0x014 =>
    match setBands (BitVec.ofNat 4 x.toNat) s with
    | some s => (s, .next)
    | none => (s, .trap 0x0A (BitVec.ofNat 64 (vbits x 0 4)) 0)
  | 0x015 =>
    if 256 < vbits x 0 9 then (s, .trap 0x02 0 0) else (modB (fun b => { b with rbnd := BitVec.ofNat 32 (vbits x 0 9) }) s, .next)
  | 0x030 => ({ s with skews := kset b.place (BitVec.ofNat 4 x.toNat) s.skews }, .next)
  | 0x040 => (modG (fun g => { g with epc := x }) s, .next)
  | 0x041 => (modG (fun g => { g with ecause := x &&& 0x0FF0FFFF }) s, .next)
  | 0x042 => (modG (fun g => { g with eaddr := x }) s, .next)
  | 0x050 =>
    if badTlbinv x then (s, .trap 0x02 0 0)
    else ({ s with pending := s.pending ++ [tlbInstr (some (curWho s)) x], uids := s.uids + 1 }, .wait (.tlb s.uids))
  | _ => (modG (fun g => { g with ssave := vset g.ssave (i - 0x044) x }) s, .next)

/-- syswr to a register other than vcfg and fqdone. -/
def syswrBody (d : BitVec 6) (i : BitVec 12) (s : State) : State × Act :=
  if mayWrite (curGroup s).sup (sysAccess i.toNat) then writeSys i.toNat (rdS d s) s else (s, .trap 0x03 0 0)

/-- A supervisor's write of NRC (R200). Where it frees the path that the supervisor runs on, the spec does not say what the group does
next: it stays in supervisor mode, where no path of it can run, and it retires when no path is left: DESIGN CHOICE (log 106). -/
def syswrVcfgBody (d : BitVec 6) (s : State) : State × Act :=
  let n : BitVec 2 := BitVec.ofNat 2 (rdS d s).toNat
  let g := curGroup s
  let vo := vlmax s
  let vn := vlmaxOf (curBlock s).place n
  let keep (k : Nat) : Bool := decide (k % 1024 < min vo vn) && decide (k / 1024 < min (nrOf g.nrc) (nrOf n))
  let s := modG (fun g =>
    let g := if n = g.nrc then g else adjustThreads vo vn { g with v := skeep keep g.v }
    { g with nrc := n, vl := BitVec.ofNat 32 vn, vstart := 0, dirty := g.dirty &&& ones 64 (nrOf n) }) s
  if (curGroup s).paths.isEmpty then (retireGroup (cur s).who.uid (cur s).who.gidx s, .left) else (s, .nextEnd)

/-- fqdone (R64): the doorbell is rung once the syswr has completed. -/
def fqdoneBody (h : Head) (d : BitVec 6) (s : State) : State :=
  let x := rdS d s
  let ctx := curCtx s
  doorbell (rcbRoot s ctx) ctx (vbits x 12 2) (vbits x 0 12) (finish h false (s, .next))

/-! Traps and returns (R368, R369, R400). -/

/-- trap and brk: one trap for a melded region, with SDONE 0. -/
def trapBody (cause : Nat) (s : State) : State × Act := (setDone false false s, .trap cause 0 0)

/-- Addresses of the instructions of a repeat frame, and the address behind it, as far as they can be read. -/
def frameAddrs (s : State) (ctx : Nat) (sup : Bool) : Nat → Word → List Word
  | 0, a => [a]
  | n + 1, a =>
    match peekWord s ctx a.toNat sup with
    | some w => a :: frameAddrs s ctx sup n (a + if isLong w then 8 else 4)
    | none => [a]

/-- What becomes of a repeat frame at an eret to epc (R258): the frame and the PC. -/
def returnFrame (s : State) (ctx : Nat) (epc : Word) : Option RptFrame → Option RptFrame × Word
  | none => (none, epc)
  | some f =>
    match (frameAddrs s ctx true f.len f.start).findIdx? (· == epc) with
    | none => (none, epc)
    | some i =>
      if i < f.len then (some { f with pos := i }, epc)
      else if f.pass + 1 < f.n then (some { f with pass := f.pass + 1, pos := 0 }, f.start)
      else (none, epc)

/-- The return of R369 to epc in the mode PMODE. It is an assignment to the PC: the loop test of R256, which follows an instruction of the
path, is not made of it: DESIGN CHOICE (log 126). An instruction that the return begins again reads what stands then or later (R105). -/
def returnTo (s : State) : State :=
  let g := curGroup s
  let p := (cur s).who.pidx
  let user := !g.ecause.getLsbD 23
  let (rpt, pc) := returnFrame s (curCtx s) g.epc (g.frames.headD none)
  let go (q : Path) : Path := { q with pc := pc, rpt := rpt }
  let redo := g.ecause.getLsbD 22
  let s := modG (fun g =>
    let g := beginAgain p pc s.stamp (modPathIn p go g)
    let g := match if user then g.melds.find? fun m => m.a == p || m.b == p else none with
      | some m => { beginAgain m.a pc s.stamp (beginAgain m.b pc s.stamp (modPathIn m.a go (modPathIn m.b go g))) with
          melds := modFirst (fun x => x.a == m.a) (fun x =>
            { x with doneA := redo && g.ecause.getLsbD 20, doneB := redo && g.ecause.getLsbD 21 }) g.melds }
      | none => g
    { g with
      sup := !user, svPaths := if user then 0 else g.svPaths, nest := 0, frames := if user then [] else g.frames.tail }) s
  let w := (cur s).who
  let s := endRun s
  if user then settleTokens w 64 s else s

/-- eret (R369, R400). Cause 0x11 ends a part of a save and 0x12 one of a restore, while the group has one to end (log 41). -/
def eretBody (s : State) : State × Act :=
  let g := curGroup s
  let w := (cur s).who
  let c := vbits g.ecause 0 8
  let r := (curBlock s).res
  if 0x80 ≤ c then (endBlockDomain w.uid (c - 0x80) g.eaddr s, .left)
  else if c = 0x11 ∧ g.part = .running ∧ r = .saving then (endSavePart w.uid w.gidx s, .left)
  else if c = 0x12 ∧ g.part = .running ∧ r = .restoring then (endRestorePart w.uid w.gidx s, .left)
  else match targetFault g.epc with
    | some k => (s, .trap k g.epc (kindBits .exec))
    | none => (returnTo s, .left)

/-! Code cache and hints (R370, R371). -/

/-- A word of a decoded operation lies in a range. -/
def opInRange (lo hi : Nat) (d : DecodedOp) : Bool :=
  let hit (a : Nat) : Bool := decide (lo ≤ a) && decide (a < hi)
  hit d.va || (isLong (d.words % 2 ^ 32) && hit (d.va + 4))

/-- icinv over a range. -/
def icinvBody (a b : BitVec 6) (s : State) : State × Act :=
  let lo := (rdS a s).toNat
  let hi := min (lo + (rdS b s).toNat) (2 ^ 52)
  let core := corePlace (curBlock s).place
  ({ s with decoded := s.decoded.filter fun d => !(d.core == core && d.ctx == curCtx s && opInRange lo hi d) }, .next)

def icinvAllBody (s : State) : State × Act :=
  ({ s with decoded := s.decoded.filter fun d => d.core != corePlace (curBlock s).place }, .next)

/-- halt: the group retires (R190). -/
def haltBody (s : State) : State × Act := (retireGroup (cur s).who.uid (cur s).who.gidx s, .left)

/-- pwrhint. -/
def pwrhintBody (a : BitVec 6) (k : BitVec 4) (s : State) : State × Act :=
  let n := (rdS a s).toNat
  let h : Option Hint :=
    if k = 0 then none else some { kind := k, expires := if n = 0 then none else some (tickOf s (curDie s) + 1000 * n) }
  (modB (fun b => { b with hint := h }) s, .next)

/-- launch (R363). -/
def execLaunch (e : Bool) (d a b : BitVec 6) (s : State) : Host.Outcome State Fault Refusal :=
  issueSide { e := e, major := 0x6E } none (launchBody false d a b) s

/-- launch.w (R363). -/
def execLaunchW (e : Bool) (d a b : BitVec 6) (s : State) : Host.Outcome State Fault Refusal :=
  issueSide { e := e, major := 0x6E } none (launchBody true d a b) s

/-- gsig (R366). -/
def execGsig (e : Bool) (d a : BitVec 6) (s : State) : Host.Outcome State Fault Refusal :=
  issueSide { e := e, major := 0x6F } none (gsigBody d a) s

/-- gcond (R366): a releasing store of class 15 at system scope. -/
def execGcond (e : Bool) (a b : BitVec 6) (s : State) : Host.Outcome State Fault Refusal :=
  issueSide { e := e, major := 0x6F } none (storeScalar { cls := 15, scope := 5, rel := true, acq := false } 8 b a 0) s

/-- sysrd (R367). -/
def execSysrd (e : Bool) (d : BitVec 6) (i : BitVec 12) (s : State) : Host.Outcome State Fault Refusal :=
  issueSide { e := e, major := 0x70 } (sysEnc i) (sysrdBody d i) s

/-- syswr (R367). -/
def execSyswr (e : Bool) (d : BitVec 6) (i : BitVec 12) (s : State) : Host.Outcome State Fault Refusal :=
  issueSide { e := e, major := 0x70 } (sysEnc i) (syswrBody d i) s

/-- syswr to vcfg (R200). -/
def execSyswrVcfg (e : Bool) (d : BitVec 6) (s : State) : Host.Outcome State Fault Refusal :=
  issueOnce { e := e, major := 0x70, supOnly := true } none (syswrVcfgBody d) s

/-- syswr to fqdone (R64). -/
def execFqdone (e : Bool) (d : BitVec 6) (s : State) : Host.Outcome State Fault Refusal :=
  issue { e := e, major := 0x70, supOnly := true } none (fun _ => false) (fqdoneBody { e := e, major := 0x70, supOnly := true } d) s

/-- trap (R368). -/
def execTrap (e : Bool) (_c : BitVec 16) (s : State) : Host.Outcome State Fault Refusal :=
  issueOnce { e := e, major := 0x71 } none (trapBody 0x0F) s

/-- eret (R369, R400). -/
def execEret (e : Bool) (s : State) : Host.Outcome State Fault Refusal :=
  issueOnce { e := e, major := 0x71, supOnly := true } none eretBody s

/-- brk (R368). -/
def execBrk (e : Bool) (_c : BitVec 16) (s : State) : Host.Outcome State Fault Refusal :=
  issueOnce { e := e, major := 0x71 } none (trapBody 0x0E) s

/-- icinv.all (R370). -/
def execIcinvAll (e : Bool) (s : State) : Host.Outcome State Fault Refusal := issueSide { e := e, major := 0x72 } none icinvAllBody s

/-- icinv (R370). -/
def execIcinv (e : Bool) (a b : BitVec 6) (s : State) : Host.Outcome State Fault Refusal :=
  issueSide { e := e, major := 0x72 } none (icinvBody a b) s

/-- yield (R370). -/
def execYield (e : Bool) (s : State) : Host.Outcome State Fault Refusal := issueOnce { e := e, major := 0x72 } none (fun s => (s, .nextEnd)) s

/-- nop (R370). -/
def execNop (e : Bool) (s : State) : Host.Outcome State Fault Refusal := issueOnce { e := e, major := 0x72 } none (fun s => (s, .next)) s

/-- halt (R370). -/
def execHalt (e : Bool) (s : State) : Host.Outcome State Fault Refusal :=
  issueOnce { e := e, major := 0x72, noMeld := true } none haltBody s

/-- pwrhint (R371). -/
def execPwrhint (e : Bool) (a : BitVec 6) (k : BitVec 4) (s : State) : Host.Outcome State Fault Refusal :=
  issueSide { e := e, major := 0x73 } (failIf (decide (4 ≤ k.toNat)) 0x01) (pwrhintBody a k) s

end Sys2Proof.Machine
end

