-- ==== Sys2Proof/Machine/Place.lean ====
section
/-! DEFINITION. From a launch to an issue slot: the check of a packet (R187, R390), placement, reservation and pre-emption requests
(R389 to R392, R413, R33), retirement of blocks (R190, R315) and arbitration of runs (R393). -/

namespace Sys2Proof.Machine

open Sys2Proof

/-! The check of a packet (R187, R363, R373, R377, R390). -/

/-- The shape is one that the front end rejects. -/
def shapeBad (l : Launch) : Bool :=
  shapeField l 0 4 != 0 || numGroups l == 0 || decide (16 < numGroups l) || decide (1048576 < spuBytes l) ||
  decide (262144 < obuBytes l) || !((List.range 3).any (eligible l)) || (coresBit l && numBlk l == 0)

/-- A co-resident set fits the empty cores of a die: in one cluster when it has 32 blocks or fewer, else within the tenant numbers
of the clusters of its classes (R390, R457). -/
def setFits (l : Launch) : Bool :=
  decide (numBlk l ≤ 32) ||
  decide (numBlk l ≤ (if eligible l 0 then 128 else 0) + if eligible l 1 || eligible l 2 then 32 else 0)

/-- Why a packet is rejected: the cause, the address, and the RCB whose log tells it (log 45: the causes). One whose RCB does not lie
beneath the issuing context is told to that context (R363). -/
def packetFault (s : State) (l : Launch) : Option (Nat × Nat × Nat) :=
  match (packetRcb s l.ctx l.packet).filter fun r => rcbCtx s r == l.ctx with
  | none => some (0, pkWord l 3, l.ctx)
  | some r =>
    if shapeBad l then some (0, 0, r)
    else match targetFault (vget l.packet 0) with
      | some c => some (c, pkWord l 0, r)
      | none => if coresBit l && (effDies s r == 0 || !setFits l) then some (0x0A, 0, r) else none

/-- A launch passes R187 and enters the ready queues, or is rejected. A look-up of its RCB that meets an uncorrectable error ends the
context's domain (R53). -/
def checkLaunch (id : Nat) (s : State) : State :=
  match findLaunch s id with
  | none => s
  | some l =>
    if l.checked then s
    else match peekBad s l.ctx (pkWord l 3) .read true with
    | some a => endDomain l.ctx l.die 0x14 (addrWord a) s
    | none =>
    match packetFault s l with
      | some (cause, addr, r) =>
        let s := logError l.die 1 cause addr l.addr.toNat r s
        let s := releaseLaunch id ((blocksOf s id).foldl (fun s b => dropBlock b s) s)
        match l.node with
        | some va => failNode l.ctx va l.die cause addr s
        | none => s
      | none =>
        let prio := if l.service then 15 else min (shapeField l 39 4) (effPrio s l.rcb)
        let s := modLaunch id (fun l => { l with checked := true, prio := prio, dies := effDies s l.rcb }) s
        settleLaunch id (enqueueLaunch id s)

/-! Room on a core (R389, R458). `gone` are blocks taken as having left. -/

/-- Blocks on a core, but for those gone. -/
def onCore (s : State) (gone : List Nat) (core : Place) : List Block :=
  (residents s).filter fun b => corePlace b.place == core && !gone.contains b.uid

/-- The first thread-group slot of a place: the halves of an EC share its issue slots (R393). -/
def slotBase (p : Place) : Nat := if p.part = 2 then 4 else 0

/-- Free thread-group slots of a place. -/
def freeSlots (s : State) (gone : List Nat) (p : Place) : List Nat :=
  let used := ((onCore s gone (corePlace p)).filter fun b => b.place == p).flatMap fun b => b.groups.map (·.slot)
  ((List.range (groupLimit (classOf p))).map (· + slotBase p)).filter fun i => !used.contains i

/-- Which contexts may share the core. -/
def contextFits (s : State) (gone : List Nat) (ctx : Nat) (p : Place) : Bool :=
  let here := onCore s gone (corePlace p)
  if p.part = 0 then (!s.parted.contains p || here.isEmpty) && here.all fun b => blockCtx s b == ctx
  else s.parted.contains (corePlace p) && here.all fun b => (b.place == p) == (blockCtx s b == ctx)

/-- A limit of a budget, where it sets one. -/
def within (x n unset : Nat) : Bool := x == unset || decide (n ≤ x)

/-- The budgets of R375 hold with one more block on a place. -/
def budgetFits (s : State) (l : Launch) (p : Place) : Bool :=
  (rcbChain s l.rcb).all fun r =>
    let (m, e, _, sp, ob) := usage s r
    let seen := (residents s).any fun b => b.place == p && beneath s (blockRcb s b) r
    let w4 := rcbWord s r 4
    let w5 := rcbWord s r 5
    within (bits w4 48 16) (m + if seen || isEc p then 0 else 1) 0xFFFF &&
    within (bits w4 32 16) (e + if seen || !isEc p then 0 else if p.part = 0 then 2 else 1) 0xFFFF &&
    within (bits w5 32 32) (sp + spuBytes l / 4096) 0xFFFFFFFF && within (bits w5 0 32) (ob + obuBytes l / 4096) 0xFFFFFFFF

/-- Tenant numbers in use by a context in the cluster of a place (R457). -/
def tenantsUsed (s : State) (gone : List Nat) (ctx : Nat) (p : Place) : List Nat :=
  ((residents s).filter fun b =>
    b.place.die == p.die && b.place.cl == p.cl && blockCtx s b == ctx && !gone.contains b.uid).map (·.tenant)

/-- The tenant numbers that a block on a place may take: the first block of a half takes the number of the site, which the other half
carries (R15; log 46). -/
def siteTenants (s : State) (gone : List Nat) (p : Place) : List Nat :=
  let here := onCore s gone (corePlace p)
  if p.part != 0 && !here.isEmpty && here.all (fun b => b.place != p) then here.map (·.tenant) else List.range 32

/-- The lowest free tenant number, or a preferred one when it is free (log 46). -/
def pickTenant (s : State) (gone : List Nat) (ctx : Nat) (p : Place) (prefer : Option Nat) : Option Nat :=
  let free := (siteTenants s gone p).filter fun t => !(tenantsUsed s gone ctx p).contains t
  match prefer.filter fun t => free.contains t with
  | some t => some t
  | none => free.head?

/-- Capacity on a core that is withheld from a launch: groups, scratchpad and operand buffer (R390; log 44). It is withheld from one that has
the priority of the waiting set or a lower one. -/
def withheld (s : State) (l : Launch) (p : Place) : Nat × Nat × Nat :=
  match (vget s.reserve p.die).bind (findLaunch s) with
  | some x =>
    if x.id != l.id && decide (l.prio ≤ x.prio) then
      let kept := s.reserved.filter fun k => corePlace k.at_ == corePlace p
      ((kept.map (·.groups)).sum, (kept.map (·.spad)).sum, (kept.map (·.ob)).sum)
    else (0, 0, 0)
  | none => (0, 0, 0)

/-- A site between which and another a transfer is under way takes no block (R37, R429). -/
def inTransfer (s : State) (p : Place) : Bool :=
  s.pans.any fun x => x.moving && x.die == p.die && x.cl == p.cl && (x.hot == p.site || x.cool == p.site)

/-- A block of a launch may be placed on a place (R389). -/
def roomAt (s : State) (gone : List Nat) (l : Launch) (p : Place) : Bool :=
  eligible l (classOf p) && contextFits s gone l.ctx p && !inTransfer s p &&
  (let here := (onCore s gone (corePlace p)).filter fun b => b.place == p
   let kept := withheld s l p
   decide (numGroups l + kept.1 ≤ (freeSlots s gone p).length) &&
   decide ((here.map (·.spadSize)).sum + spuBytes l + kept.2.1 ≤ spadLimit (classOf p)) &&
   decide ((here.map (·.obSize)).sum + obuBytes l + kept.2.2 ≤ obLimit (classOf p))) &&
  budgetFits s l p && (pickTenant s gone l.ctx p none).isSome

/-! Held blocks (R413). -/

/-- Tiles whose image a save has marked fit the place (R346). -/
def imagesFit (s : State) (b : Block) (tsaved : Nat) : Bool :=
  (List.range 4).all fun t => !bitAt tsaved t || (frameSees s b (blockSection s b + 0x3000 + t * 0x11000) 64).all (headFits b)

/-- The saved state of a block fits a place. A frame that cannot be read does not forbid it: the restore then ends the domain (R407). -/
def savedFits (s : State) (b0 : Block) (p : Place) : Bool :=
  let b := { b0 with place := p, faulty := faultyOf p }
  match frameSees s b (blockSection s b) 0x2500 with
  | none => true
  | some sec =>
    let ben := benFor p (BitVec.ofNat 4 (field sec 9 1))
    let grant (o lim : Nat) : Bool := decide (field sec o 4 ≤ lim)
    let heads := (b.groups.filter fun g => !g.retired).filterMap fun g => frameSees s b (groupSection s b g.gidx) 1024
    grant 0x10 (limM p) && grant 0x14 (limN p (faultyOf p)) && grant 0x18 (limK p ben) && imagesFit s b (field sec 3 1) &&
    decide ((heads.filter fun h => decide (8 < field h 4 1)).length ≤
      numStackSlots s (blockCtx s b) - ((s.blocks.filter fun x => sameSpill s (blockCtx s x) (blockCtx s b)).flatMap fun x =>
        x.groups.filterMap (·.stackSlot)).length) &&
    heads.all fun h => decide (field h 12 4 ≤ vlmaxOf p (BitVec.ofNat 2 (field h 8 1)))

/-! Commits. -/

/-- The roles of a launch's groups by GIDX (R179). -/
def rolesOf (l : Launch) : List Role :=
  List.replicate (numC l) Role.c ++ List.replicate (numM l) Role.m ++ List.replicate (numV l) Role.v

/-- The scalar file of every group (R188). -/
def startFile (l : Launch) : Vector Word 64 :=
  scalarFile ([0, BitVec.ofNat 64 (pkWord l 1), BitVec.ofNat 64 l.shown, l.addr] ++ (List.range 12).map fun i => vget l.packet (4 + i))

def launchNrc (l : Launch) : BitVec 2 := BitVec.ofNat 2 (shapeField l 47 2)

/-- A group at its start (R188). -/
def startGroup (l : Launch) (p : Place) (gidx slot : Nat) (r : Role) : Group :=
  let vm := vlmaxOf p (launchNrc l)
  { blankGroup with
    gidx := gidx, role := r, slot := slot, nrc := launchNrc l, vl := BitVec.ofNat 32 vm,
    paths := [{ blankPath (ones 1024 vm) (vget l.packet 0) with regs := startFile l }] }

/-- What a core takes on with a block: its bands are powered, its L1 starts empty for the block (R89, R107, R418), and an EC that
takes a half is partitioned. -/
def settleCore (p : Place) (ben : BitVec 4) (s : State) : State :=
  let core := corePlace p
  let s := { s with bands := kset core (kget 0 s.bands core ||| ben) s.bands,
                    parted := if p.part != 0 && !s.parted.contains core then core :: s.parted else s.parted }
  l1Clear core s

/-- First placement of a block (R188, R195, R75, R77). -/
def commitNew (l : Launch) (p : Place) (tenant : Nat) (s : State) : State :=
  let uid := s.uids
  let n := ((findLaunch s l.id).map (·.placed)).getD 0
  let slots := freeSlots s [] p
  let b : Block := { blankBlock with
    uid := uid, launch := l.id, blockid := BitVec.ofNat 32 n, tenant := tenant, place := p, order := uid, ben := availOf p,
    spadSize := spuBytes l, obSize := obuBytes l, faulty := faultyOf p,
    groups := (rolesOf l).zipIdx.map fun x =>
      { startGroup l p x.2 (slots.getD x.2 0) x.1 with floors := sset 0 (floorKey everyParty 32) s.stamp [] } }
  let s := { s with uids := uid + 1, blocks := s.blocks ++ [b] }
  let s := modLaunch l.id (fun x => { x with placed := x.placed + 1 }) s
  leaveQueues l.id (writeUsages l.rcb (settleCore p (availOf p) s))

/-- Placement of a held block (R413, R414). -/
def commitHeld (l : Launch) (b : Block) (p : Place) (tenant : Nat) (s : State) : State :=
  let slots := freeSlots s [] p
  let put (x : Block) : Block := { x with
    place := p, tenant := tenant, order := s.uids, res := .restoring, transit := false, faulty := faultyOf p,
    groups := x.groups.map fun g => { g with slot := slots.getD g.gidx 0 } }
  let s := modBlock b.uid put { s with uids := s.uids + 1 }
  tryRestored b.uid (restoreBlock b.uid (leaveQueues l.id (writeUsages l.rcb (settleCore p 0 s))))

/-! The choice of a place (R389, R391). -/

/-- Places of a class on a die. -/
def placesOf (die c : Nat) : List Place :=
  match c with
  | 0 => (List.range 4).flatMap fun cl => (List.range 32).map fun i => { die := die, cl := cl, site := i, part := 0 }
  | 1 => (List.range 32).map fun i => { die := die, cl := 4, site := i, part := 0 }
  | _ => (List.range 32).flatMap fun i => [{ die := die, cl := 4, site := i, part := 1 }, { die := die, cl := 4, site := i, part := 2 }]

/-- An entry of a list by a pick that may lie beyond it. -/
def pickOf (pick : Nat) (l : List α) : Option α := l[pick % l.length]?

/-- The place for a block among the places of a list that satisfy a test: classes in the order MC, whole EC, EC half. -/
def choosePlace (die pick : Nat) (ok : Place → Bool) : Option Place :=
  (List.range 3).findSome? fun c => pickOf pick ((placesOf die c).filter ok)

/-- Held blocks of a launch, the first placed first. -/
def heldBlocks (s : State) (id : Nat) : List Block := (blocksOf s id).filter fun b => b.res == .held

/-- A block of a launch placed on one of the places that satisfy a test: held blocks before any new one (R392). -/
def placeOne (l : Launch) (die pick : Nat) (gone : List Nat) (only : Place → Bool) (prefer : Option Nat) (s : State) : Option State :=
  match heldBlocks s l.id with
  | b :: bs =>
    (b :: bs).findSome? fun b =>
      (choosePlace die pick fun p => only p && roomAt s gone l p && savedFits s b p).bind fun p =>
        (pickTenant s gone l.ctx p (some (prefer.getD b.tenant))).map fun t => commitHeld l b p t s
  | [] =>
    if noMoreBlocks ((findLaunch s l.id).getD l) then none
    else (choosePlace die pick fun p => only p && roomAt s gone l p).bind fun p =>
      (pickTenant s gone l.ctx p prefer).map fun t => commitNew l p t s

/-- The places of a die in the order MC, whole EC, EC half. -/
def allPlaces (die : Nat) : List Place := (List.range 3).flatMap (placesOf die)

/-- Several blocks of a set, each with its tenant number if it must keep one, placed on places that satisfy a test; all or none. Every
choice of places and tenant numbers is tried (R390). -/
def placeSet (l : Launch) (die : Nat) (gone : List Nat) (only : Place → Bool) : List (Option Block × Option Nat) → State → Option State
  | [], s => some s
  | (b, t) :: rest, s =>
    let saved (p : Place) : Bool := b.all fun b => savedFits s b p
    ((allPlaces die).filter fun p => only p && roomAt s gone l p && saved p).findSome? fun p =>
      let used := tenantsUsed s gone l.ctx p
      ((siteTenants s gone p).filter fun x => !used.contains x && t.all (· == x)).findSome? fun x =>
        placeSet l die gone only rest (match b with
          | some b => commitHeld l b p x s
          | none => commitNew l p x s)

/-- Places that satisfy a test have slots for n blocks more: without that a search for them is in vain. -/
def slotsFor (s : State) (l : Launch) (die : Nat) (gone : List Nat) (only : Place → Bool) (n : Nat) : Bool :=
  decide (n ≤ (((allPlaces die).filter fun p => only p && roomAt s gone l p).map fun p =>
    (freeSlots s gone p).length / max 1 (numGroups l)).sum)

/-- The clusters of a die in the order in which a pick tries them. -/
def clusterTests (die pick : Nat) : List (Place → Bool) :=
  ((List.range 4).map fun i => fun (p : Place) => p.die == die && p.cl == (i + pick) % 4) ++ [fun p => p.die == die && p.cl == 4]

/-- Runs of consecutive free tenant numbers for n blocks in the cluster of a place (R33). -/
def tenantRuns (s : State) (gone : List Nat) (ctx n : Nat) (p : Place) : List Nat :=
  let used := tenantsUsed s gone ctx p
  (List.range (33 - n)).filter fun t => (List.range n).all fun i => !used.contains (t + i)

/-- A co-resident set placed whole (R33, R390). -/
def placeWhole (l : Launch) (die pick : Nat) (gone : List Nat) (only : Place → Bool) (s : State) : Option State :=
  let n := numBlk l
  let all := blocksOf s l.id
  let here := all.filter fun b => b.res == .resident && !b.preempt && !gone.contains b.uid
  let set (only : Place → Bool) (l' : List (Option Block × Option Nat)) : Option State :=
    if slotsFor s l die gone only l'.length then placeSet l die gone only l' s else none
  match heldBlocks s l.id with
  | [] =>
    if noMoreBlocks ((findLaunch s l.id).getD l) then none
    else if n ≤ 32 then
      (clusterTests die pick).findSome? fun c =>
        ((allPlaces die).find? c).bind fun p0 => (tenantRuns s gone l.ctx n p0).findSome? fun t =>
          set (fun p => c p && only p) ((List.range n).map fun i => (none, some (t + i)))
    else set only (List.replicate n (none, none))
  | held =>
    if held.length + here.length < all.length ∨ here.any (fun b => b.place.die != die) then none
    else if n ≤ 32 then
      (clusterTests die pick).findSome? fun c =>
        if here.all fun b => c b.place then
          set (fun p => c p && only p) (held.map fun b => (some b, some b.tenant))
        else none
    else set only (held.map fun b => (some b, none))

/-- May blocks of a launch be placed at all? A WSLOAD node of the context keeps all but service kernels back (R41), and a checkpoint
its region (R437). -/
def mayPlace (s : State) (l : Launch) : Bool :=
  l.checked && !held s l.rcb && (l.service || !(s.copies.any fun c => c.wsload && c.ctx == l.ctx))

/-- The state after one commit of a launch on a die, on places that satisfy a test. Capacity that is held back for a set goes to a launch of
higher priority only when it cannot otherwise be placed (R390): it is first tried as one of the lowest. -/
def tryPlace (die pick : Nat) (gone : List Nat) (only : Place → Bool) (l : Launch) (s : State) : Option State :=
  let put (l : Launch) : Option State := if coresBit l then placeWhole l die pick gone only s else placeOne l die pick gone only none s
  if !mayPlace s l then none else (put { l with prio := 0 }).orElse fun _ => put l

/-- The launches that stand in a die's queues, the highest priority first, in order of acceptance. -/
def queued (s : State) (die : Nat) : List Launch :=
  let l := (vget s.queue die).filterMap (findLaunch s)
  ((List.range 16).reverse).flatMap fun p => l.filter fun x => x.prio == p

/-- An empty EC partitioned for blocks of two contexts, one on each half (R15): the step commits the first, with a tenant number that the
other's context has free, and the other half is then open to the other context (R391; log 42). -/
def placePair (die pick : Nat) (l : Launch) (s : State) : Option State :=
  if coresBit l || !mayPlace s l || !eligible l 2 then none
  else
    (pickOf pick ((placesOf die 1).filter fun c => (onCore s [] c).isEmpty && !s.parted.contains c)).bind fun c =>
      let half (k : Nat) (p : Place) : Bool := p == { c with part := k }
      (List.range 32).findSome? fun t =>
        (placeOne l die pick [] (half 1) (some t) { s with parted := c :: s.parted }).filter fun s1 =>
          (queued s1 die).any fun x =>
            x.ctx != l.ctx && !coresBit x && mayPlace s1 x && (placeOne x die pick [] (half 2) none s1).isSome

/-! Pre-emption requests (R392, R401). -/

/-- Frames of a context's spill area in use (R407). -/
def usedFrames (s : State) (ctx : Nat) : List Nat :=
  (s.blocks.filter fun b => sameSpill s (blockCtx s b) ctx).flatMap fun b => b.frame.toList ++ b.nextFrame.toList

/-- The lowest free frame of a context's spill area (R407). -/
def freeFrame (s : State) (ctx : Nat) : Option Nat := (List.range (numFrames s ctx)).find? fun i => !(usedFrames s ctx).contains i

/-- A pre-emption request; nothing without a free frame. A block that is being restored comes to the end of that first (log 128). -/
def requestPreempt (uid : Nat) (s : State) : State :=
  match freeFrame s (blockCtx s (getBlock s uid)) with
  | some f => modBlock uid (fun b =>
      if b.res = .restoring then { b with preempt := true, nextFrame := some f } else { b with preempt := true, frame := some f }) s
  | none => s

/-- Blocks of a die with priority below p, in the victim order. -/
def victims (s : State) (die p : Nat) : List Block :=
  let l := s.blocks.filter fun b => (b.res == .resident || b.res == .restoring) && !b.preempt && b.place.die == die && decide (blockPrio s b < p)
  let key (i : Nat) : Nat := match l[i]? with
    | some b => blockPrio s b * 2 ^ 64 + (2 ^ 64 - 1 - b.order)
    | none => 0
  (sortByRank key (List.range l.length)).filterMap fun i => l[i]?

/-- Victims taken in order until the need is covered, the latest first. -/
def takeVictims (ok : List Nat → Bool) : List Block → List Nat → Option (List Nat)
  | [], _ => none
  | b :: l, got => if ok (b.uid :: got) then some (b.uid :: got) else takeVictims ok l (b.uid :: got)

/-- Of some victims, the latest first, those that must leave for the need to be covered. -/
def mustLeave (ok : List Nat → Bool) : List Nat → List Nat → List Nat
  | [], kept => kept.reverse
  | u :: l, kept => if ok (kept ++ l) then mustLeave ok l kept else mustLeave ok l (u :: kept)

/-- The victims of a target have free frames. -/
def framesFor (s : State) (uids : List Nat) : Bool :=
  let ctxs := uids.map fun u => blockCtx s (getBlock s u)
  ctxs.eraseDups.all fun c =>
    decide ((ctxs.filter (sameSpill s c)).length +
      (usedFrames s c).length ≤ numFrames s c)

/-- Does list a of ranks come before b? -/
def ranksBefore : List Nat → List Nat → Bool
  | [], _ => true
  | _ :: _, [] => false
  | x :: a, y :: b => if x < y then true else if y < x then false else ranksBefore a b

/-- The targets of a launch: places for a single block, clusters for a set of at most 32, the die for a larger one. -/
def targets (l : Launch) (die pick : Nat) : List (Place → Bool) :=
  if !coresBit l then
    (allPlaces die).map fun q => fun p => p == q
  else if numBlk l ≤ 32 then clusterTests die pick
  else [fun _ => true]

/-- The blocks that stand on a target: whole cores and their halves stand in each other's way. -/
def onTarget (die : Nat) (t : Place → Bool) (b : Block) : Bool :=
  b.place.die == die && (t b.place || t (corePlace b.place) || (b.place.part == 0 && (t { b.place with part := 1 } || t { b.place with part := 2 })))

/-- The victims for which a launch waits on a die: those of the preferred target. Blocks that are leaving count as gone. -/
def victimsFor (s : State) (l : Launch) (die pick : Nat) : List Nat :=
  let leaving := (s.blocks.filter fun b => b.preempt && b.place.die == die).map (·.uid)
  let order := victims s die l.prio
  let rank (u : Nat) : Nat := (order.findIdx? fun b => b.uid == u).getD 0
  let sets := (targets l die pick).filterMap fun t =>
    let ok (gone : List Nat) : Bool := (tryPlace die pick (leaving ++ gone) t l s).isSome
    if ok [] then some []
    else ((takeVictims ok (order.filter (onTarget die t)) []).map fun v => mustLeave ok v []).filter (framesFor s)
  let best := sets.foldl (fun (acc : Option (List Nat)) x => match acc with
    | none => some x
    | some y => if ranksBefore (y.reverse.map rank) (x.reverse.map rank) then some y else some x) none
  (best.getD []).reverse

/-- The distributor of a die asks for room for the first launch of its highest non-empty queue (R392). -/
def makeRoom (die pick : Nat) (s : State) : State :=
  match (queued s die).head? with
  | none => s
  | some l =>
    if !mayPlace s l || (tryPlace die pick [] (fun _ => true) l s).isSome || (placePair die pick l s).isSome then s
    else (victimsFor s l die pick).foldl (fun s u => requestPreempt u s) s

/-- The set for which a die holds capacity back: the highest-priority one that waits for capacity (R390). What was held back for another
set is free again. -/
def reserveFor (die pick : Nat) (s : State) : State :=
  let s0 := { s with reserve := vset s.reserve die none }
  let gone := ((residents s).filter fun b => b.place.die == die).map (·.uid)
  let waits (l : Launch) : Bool :=
    coresBit l && (tryPlace die pick [] (fun _ => true) l s0).isNone && (tryPlace die pick gone (fun _ => true) l s0).isSome
  let x := ((queued s die).find? waits).map (·.id)
  { s with reserve := vset s.reserve die x,
           reserved := if x = vget s.reserve die then s.reserved else s.reserved.filter fun k => k.at_.die != die }

/-- One placement step of a die (R391). `pick` settles which core of a class is taken, which is not promised. -/
def placementStep (die pick : Nat) (s : State) : State :=
  let s := makeRoom die pick (reserveFor die pick s)
  ((queued s die).findSome? fun l =>
    (tryPlace die pick [] (fun _ => true) l s).orElse fun _ => placePair die pick l s).getD s

/-! Retirement (R190, R315). -/

/-- Set barriers pass to the next block of the set, and into its frame while it is held pre-empted. -/
def passBarriers (b : Block) (s : State) : State :=
  match setOfBlock s b, blocksOf s b.launch with
  | some _, first :: next :: _ =>
    if first.uid = b.uid then
      let s := modBlock next.uid (fun x => { x with bars := Vector.ofFn fun k => if k.val < 48 then x.bars[k] else b.bars[k] }) s
      (List.range 16).foldl (fun s k => match noteBar next.uid (48 + k) s with
        | (s, none) => s
        | (s, some (c, a)) => endBlockDomain next.uid c a s) s
    else s
  | _, _ => s

/-- A block may retire: its groups have, its copies and matrix-queue writes have completed, and no pre-emption stands. -/
def blockDone (s : State) (b : Block) : Bool :=
  b.res == .resident && !b.preempt && !b.transit && b.groups.all (·.retired) && (copiesOf s b.uid).isEmpty &&
  !(s.matq.any fun o => o.uid == b.uid)

def retireBlock (uid : Nat) (s : State) : State :=
  let b := getBlock s uid
  if (findBlock s uid).isSome && blockDone s b then
    let r := blockRcb s b
    let s := dropBlock b (passBarriers b s)
    settleLaunch b.launch (writeUsages r s)
  else s

/-! Runs (R393). -/

/-- A group of a resident block that may take a run. -/
def groupReady (s : State) (b : Block) (g : Group) : Bool :=
  b.res != .held && !b.transit && !g.retired && (nextPath g).isSome && !(b.preempt && !g.sup && g.part == .none) &&
  !(s.running.any fun f => f.who.uid == b.uid && f.who.gidx == g.gidx)

/-- A run of a role is in progress on a core. -/
def slotBusy (s : State) (core : Place) (r : Role) : Bool :=
  s.running.any fun f => corePlace (getBlock s f.who.uid).place == core && (getGroup s f.who.uid f.who.gidx).role == r

/-- The ready groups of a role on a core. -/
def readyOn (s : State) (core : Place) (r : Role) : List (Block × Group) :=
  (s.blocks.filter fun b => corePlace b.place == core).flatMap fun b =>
    (b.groups.filter fun g => g.role == r && groupReady s b g).map fun g => (b, g)

/-- The next run of an issue slot. -/
def issueRun (core : Place) (r : Role) (s : State) : State :=
  let ready := readyOn s core r
  let p := (ready.map fun x => blockPrio s x.1).foldl max 0
  let top := ready.filter fun x => blockPrio s x.1 == p
  let last := kget 0 s.last (core, r, p)
  let slots := (List.range 16).filter fun i => top.any fun x => x.2.slot == i
  match (cyclicNext last slots).bind fun i => top.find? fun x => x.2.slot == i with
  | none => s
  | some (b, g) =>
    if slotBusy s core r then s
    else
      let w : Who := { uid := b.uid, gidx := g.gidx, pidx := (nextPath g).getD 0 }
      let s := modGroup b.uid g.gidx (fun g => { g with bp := [], issued := 0 }) s
      { s with running := s.running ++ [{ who := w, side := false }], last := kset (core, r, p) g.slot s.last }

/-- LAUNCH_PACKET_CHECK (R187, R363, R377, R390). -/
def execLaunchPacketCheck (id : Nat) (s : State) : Host.Outcome State Fault Refusal := .next (checkLaunch id s)

/-- PLACEMENT_STEP (R391, R392, R414). -/
def execPlacementStep (die pick : Nat) (s : State) : Host.Outcome State Fault Refusal :=
  .next (placementStep die pick { s with free := s.free + 4 })

/-- BLOCK_RETIRE (R190, R315). -/
def execBlockRetire (uid : Nat) (s : State) : Host.Outcome State Fault Refusal := .next (retireBlock uid s)

/-- RUN_ISSUE (R393). -/
def execRunIssue (pl : Place) (role : Role) (s : State) : Host.Outcome State Fault Refusal := .next (issueRun pl role s)

end Sys2Proof.Machine
end

