-- ==== Sys2Proof/Machine/Walker.lean ====
section
/-! DEFINITION. The steps of the graph walker, one for each type of node (R380 to R385). -/

namespace Sys2Proof.Machine

open Sys2Proof

/-- NODE_KERNEL (R382). -/
def execNodeKernel (ctx va : Nat) (s : State) : Host.Outcome State Fault Refusal :=
  .next (takeNode 1 ctx va (.nodeKernel ctx va) (kernelNode ctx va) s)

/-- NODE_COPY (R106, R382). -/
def execNodeCopy (ctx va : Nat) (s : State) : Host.Outcome State Fault Refusal :=
  .next (takeNode 2 ctx va (.nodeCopy ctx va) (copyNode false (.nodeCopy ctx va) ctx va) s)

/-- NODE_WSLOAD (R41, R108, R382). -/
def execNodeWsload (ctx va : Nat) (s : State) : Host.Outcome State Fault Refusal :=
  .next (takeNode 3 ctx va (.nodeWsload ctx va) (copyNode true (.nodeWsload ctx va) ctx va) s)

/-- NODE_COND (R382). -/
def execNodeCond (ctx va : Nat) (s : State) : Host.Outcome State Fault Refusal :=
  .next (takeNode 4 ctx va (.nodeCond ctx va) (condNode ctx va) s)

/-- NODE_LOOP (R383). -/
def execNodeLoop (ctx va : Nat) (s : State) : Host.Outcome State Fault Refusal :=
  .next (takeNode 5 ctx va (.nodeLoop ctx va) (loopNode ctx va) s)

/-- NODE_SIGNAL (R382, R366). -/
def execNodeSignal (ctx va : Nat) (s : State) : Host.Outcome State Fault Refusal :=
  .next (takeNode 6 ctx va (.nodeSignal ctx va) (signalNode ctx va) s)

/-- NODE_WAIT (R382). -/
def execNodeWait (ctx va : Nat) (s : State) : Host.Outcome State Fault Refusal :=
  .next (takeNode 7 ctx va (.nodeWait ctx va) (waitNode ctx va) s)

/-- WAIT_NODE_RETEST (R382): an active WAIT node looks at its word again. -/
def execWaitNodeRetest (ctx va : Nat) (s : State) : Host.Outcome State Fault Refusal :=
  .next (if s.waits.contains (ctx, va) then waitTest ctx va s else s)

/-- NODE_END (R382). -/
def execNodeEnd (ctx va : Nat) (s : State) : Host.Outcome State Fault Refusal :=
  .next (takeNode 9 ctx va (.nodeEnd ctx va) (endNode ctx va) s)

end Sys2Proof.Machine
end

