-- ==== Sys2Proof/Machine/Power.lean ====
section
/-! DEFINITION. Power, clocks, thermal throttling, laggard boost, pan rotation, rest depths and background work (R418 to R434), the
refresh calendar's windows (R85) and reset (R453). -/

namespace Sys2Proof.Machine

open Sys2Proof

/-! Clocks and the envelope (R421, R422). -/

/-- Is cluster i, of die * 5 + cluster, throttled (R426)? -/
def clusterThrottled (s : State) (i : Nat) : Bool := (vget s.domains i).throttled

/-- Every unthrottled cluster's clock changed by a function of its index and clock. -/
def stepClocks (f : Nat → Nat → Nat) (s : State) : State :=
  { s with clocks := Vector.ofFn fun i => if clusterThrottled s i.val then s.clocks[i] else f i.val s.clocks[i] }

/-- A limit of R422 would be passed by an interval of `mw` milliwatts. -/
def overLimit (mw : Nat) (s : State) : Bool :=
  let n := s.powers.length + 1
  decide (3600000 < mw) || decide (3300000 * n < mw + s.powers.sum) ||
  (decide (3300000 < mw) && (decide (10000000 < s.stretch + 100000) || (s.stretch == 0 && decide (s.calm < 100000000))))

/-- A background task counted (R432). -/
def countTask (die kind : Nat) (s : State) : State :=
  let t := (s.tasks.find? fun t => t.die == die && t.kind == kind).getD { die := die, kind := kind, count := 0, last := 0 }
  { s with tasks := { t with count := t.count + 1, last := tickOf s die } :: s.tasks.filter fun t => !(t.die == die && t.kind == kind) }

/-- Free values that a step has read are used up. -/
def useFree (n : Nat) (s : State) : State := { s with free := s.free + n }

/-- POWER_SAMPLE: the mean power of an interval of 100 µs. Over a limit the clocks of all unthrottled clusters fall by a step. -/
def powerSample (mw : Nat) (s0 : State) : State :=
  let s := useFree 1 (countTask 0 6 s0)
  let t := if overLimit mw s then stepClocks (fun _ f => max 900 (f - 50)) s else s
  let hot := decide (3300000 < mw)
  { t with
    powers := (mw :: s.powers).take 9999,
    stretch := if hot then s.stretch + 100000 else 0,
    calm := if hot then s.calm else if s.stretch = 0 then s.calm + 100000 else 100000 }

/-! Laggard boost (R423, R424). -/

/-- The arrivals of a context at a barrier phase: the cluster and its tick, one for each cluster. -/
def arrivalsAt (s : State) (ctx bar : Nat) (gen : BitVec 32) : List (Nat × Nat) :=
  (s.arrivals.filter fun a => a.ctx == ctx && a.bar == bar && a.gen == gen).foldr (fun a l => kset a.cl a.tick l) []

def within1ms (a b : Nat) : Bool := decide (a ≤ b + 1000000) && decide (b ≤ a + 1000000)

/-- A matched phase: two clusters or more arrive within 1 ms of one another. -/
def matched (l : List (Nat × Nat)) : Bool := l.any fun a => l.any fun b => a.1 != b.1 && within1ms a.2 b.2

/-- The last eight matched phases of a context and a barrier, newest first. -/
def matchedPhases (s : State) (ctx bar : Nat) : List (List (Nat × Nat)) :=
  let gens := ((s.arrivals.filter fun a => a.ctx == ctx && a.bar == bar).map (·.gen)).eraseDups
  ((gens.map (arrivalsAt s ctx bar)).filter matched).take 8

/-- Cluster `cl` is a laggard of a phase: it arrives within 1 µs of the latest. -/
def laggardOf (cl : Nat) (l : List (Nat × Nat)) : Bool :=
  l.any fun a => a.1 == cl && l.all fun b => decide (b.2 ≤ a.2 + 1000)

/-- The histories of every context and set barrier. -/
def histories (s : State) : List (List (List (Nat × Nat))) :=
  ((s.arrivals.map fun a => (a.ctx, a.bar)).eraseDups).map fun k => matchedPhases s k.1 k.2

def isLaggard (s : State) (cl : Nat) : Bool :=
  (histories s).any fun h => decide (5 ≤ (h.filter (laggardOf cl)).length)

def isEarly (s : State) (cl : Nat) : Bool :=
  !isLaggard s cl && (histories s).any fun h =>
    decide (h.length = 8) && h.all fun l => (l.any fun a => a.1 == cl) && !laggardOf cl l

/-- The power hint of KIND k stands for a block of a cluster (R371, R433). -/
def hinted (s : State) (i k : Nat) : Bool :=
  (residents s).any fun b => b.place.die * 5 + b.place.cl == i && b.hint.any fun h =>
    h.kind.toNat == k && h.expires.all fun t => decide (tickOf s b.place.die < t)

/-- The clusters in the order in which a classification moves them (R424, R433): donors, those hinted `.mem` first, then what may rise:
laggards, those hinted `.array` first, and the rest. -/
def boostOrder (s : State) : List Nat :=
  let all := List.range 20
  let pick (p h : Nat → Bool) : List Nat := (all.filter fun i => p i && h i) ++ all.filter fun i => p i && !h i
  pick (isEarly s) (fun i => hinted s i 1) ++ pick (isLaggard s) (fun i => hinted s i 2) ++
    all.filter fun i => !isEarly s i && !isLaggard s i

/-- The clock that a cluster of clock f strives for at a classification (R424). -/
def boostTarget (s : State) (i f : Nat) : Nat :=
  let donors := (List.range 20).any fun j => isLaggard s j && !clusterThrottled s j && decide (1750 < vget s.clocks j)
  if s.boost && isLaggard s i then max f (min 2100 (f + 50))
  else if s.boost && isEarly s i then (if donors then min f (max 1400 (f - 50)) else f)
  else if f < 1750 then min 1750 (f + 50)
  else max 1750 (f - 50)

/-- Arrivals that can still matter: those of phases in a history, and those of the last millisecond. -/
def pruneArrivals (s : State) : State :=
  let live (a : Arrival) : Bool :=
    decide (s.now ≤ a.tick + 1000000) || (matchedPhases s a.ctx a.bar).contains (arrivalsAt s a.ctx a.bar a.gen)
  { s with arrivals := s.arrivals.filter live }

/-- Rises that the envelope has room for: none after a sample above a mean of R422, else the device's choice (log 6). -/
def boostRoom (s : State) : Nat :=
  if 3300000 < s.powers.headD 0 ∨ 3300000 * s.powers.length < s.powers.sum then 0 else Config.freeNat s.free

/-- One cluster's move, with the rises that are left. -/
def boostMove (s : State) (x : Vector Nat 20 × Nat) (i : Nat) : Vector Nat 20 × Nat :=
  let f := vget s.clocks i
  let y := boostTarget s i f
  if clusterThrottled s i then x
  else if f < y then (if x.2 = 0 then x else (vset x.1 i y, x.2 - 1))
  else (vset x.1 i y, x.2)

/-- BOOST_CLASSIFY. No rise is taken that R422 would forbid. -/
def boostClassify (s0 : State) : State :=
  let s := countTask 0 5 s0
  pruneArrivals { useFree 1 s with clocks := ((boostOrder s).foldl (boostMove s) (s.clocks, boostRoom s)).1 }

/-! Thermal throttling (R425 to R427). -/

/-- One sample of a domain in state `t` with trip point `tp` in degrees (R426). -/
def thermalNext (now tp temp : Nat) (t : Thermal) : Thermal :=
  let x := { t with temp := temp }
  let dwell := now - t.since
  if t.throttled then
    if temp + 24 < tp * 8 ∧ 2000000 ≤ dwell then { x with throttled := false, emergency := false, since := now } else x
  else if tp * 8 + 80 ≤ temp then { x with throttled := true, emergency := true, since := now }
  else if tp * 8 ≤ temp ∧ 2000000 ≤ dwell then { x with throttled := true, emergency := false, since := now }
  else x

/-- The clock of a cluster after a sample. -/
def thermalClock (old new : Thermal) (f : Nat) : Nat :=
  if new.throttled then (if new.emergency then 900 else 1200) else if old.throttled then 1750 else f

/-- The die of a thermal domain (R425). -/
def domainDie (dom : Nat) : Nat := if dom < 20 then dom / 5 else dom - 20

/-- THERMAL_SAMPLE of a domain, in eighths of a degree. -/
def thermalSample (dom temp : Nat) (s0 : State) : State :=
  let s := useFree 1 (countTask (domainDie dom) (8 + dom) s0)
  let old := vget s.domains dom
  let new := thermalNext s.now (if dom < 20 then s.tripC.toNat else s.tripD.toNat) temp old
  { s with
    domains := vset s.domains dom new,
    clocks := if dom < 20 then vset s.clocks dom (thermalClock old new (vget s.clocks dom)) else s.clocks }

/-! Pan rotation (R428 to R430). -/

def siteActivity (s : State) (die cl site : Nat) : Nat := sget 0 s.activity ((die * 5 + cl) * 32 + site)

/-- Blocks that stand at a site. -/
def atSite (s : State) (die cl site : Nat) : List Block :=
  (residents s).filter fun b => b.place.die == die && b.place.cl == cl && b.place.site == site

/-- The first entry of a list with the extreme value: the highest or the lowest. -/
def extreme (f : Nat → Nat) (high : Bool) (l : List Nat) : Option Nat :=
  l.foldl (fun acc i => match acc with
    | none => some i
    | some j => if (if high then f j < f i else f i < f j) then some i else some j) none

/-- The site of a list with the extreme reading; among those that read within 2 °C of it the accumulated activity decides. -/
def pickSite (read act : Nat → Nat) (hot : Bool) (l : List Nat) : Option Nat :=
  (extreme read hot l).bind fun e =>
    extreme act hot (l.filter fun i => decide (read i ≤ read e + 16) && decide (read e ≤ read i + 16))

/-- The exchange that a cluster takes at a rotation point, if any. -/
def choosePan (die cl : Nat) (temps : List Nat) (s : State) : Option Pan :=
  let read (i : Nat) : Nat := temps.getD (cl * 32 + i) 0
  let act (i : Nat) : Nat := siteActivity s die cl i
  (pickSite read act true ((List.range 32).filter fun i => !(atSite s die cl i).isEmpty)).bind fun h =>
    (pickSite read act false ((List.range 32).filter (· != h))).bind fun c =>
      let a := act h
      let b := act c
      let alike := decide ((max a b - min a b) * 100 < max a b) || a == b
      if read h < read c + 16 ∧ alike then none
      else some { die := die, cl := cl, hot := h, cool := c, point := s.now, moving := false }

/-- PAN_ROTATION: the readings of a die's sites at a rotation point, in order of cluster and site. An exchange that has not started is
chosen anew, and the period written since takes effect (R434). -/
def panRotation (die : Nat) (temps : List Nat) (s : State) : State :=
  let stay := s.pans.filter fun p => p.die != die || p.moving
  let idle (cl : Nat) : Bool := !(stay.any fun p => p.die == die && p.cl == cl)
  let new := ((List.range 5).filter idle).filterMap fun cl => choosePan die cl temps s
  useFree 160 (countTask die 3 { s with pans := stay ++ new, panNow := vset s.panNow die s.panper })

def findPan (s : State) (die cl : Nat) : Option Pan := s.pans.find? fun p => p.die == die && p.cl == cl

def dropPan (die cl : Nat) (s : State) : State := { s with pans := s.pans.filter fun p => !(p.die == die && p.cl == cl) }

/-- The blocks of an exchange. -/
def panBlocks (s : State) (p : Pan) : List Block := atSite s p.die p.cl p.hot ++ atSite s p.die p.cl p.cool

/-- What abandons an exchange (R429). A gang operation executes within one step, so none is ever found executing. -/
def panBlocked (s : State) (p : Pan) : Bool :=
  (panBlocks s p).any fun b => b.preempt || b.res != .resident || b.groups.any (·.sup)

/-- Every group of the exchange stands at a run boundary. -/
def panStill (s : State) (p : Pan) : Bool :=
  (panBlocks s p).all fun b => !(s.running.any fun f => f.who.uid == b.uid)

/-- PAN_EXCHANGE: the transfer starts; accesses to the blocks are held (R37). -/
def panExchange (die cl : Nat) (s : State) : State :=
  match findPan s die cl with
  | none => s
  | some p =>
    if p.moving || panBlocked s p || !panStill s p then s
    else
      let uids := (panBlocks s p).map (·.uid)
      { s with
        pans := modFirst (fun x => x.die == die && x.cl == cl) (fun x => { x with moving := true }) s.pans,
        blocks := s.blocks.map (fun b => if uids.contains b.uid then { b with transit := true } else b) }

/-- Something abandons an exchange within 100 µs of its rotation point (R429). -/
def panGivenUp (s : State) (p : Pan) : Bool := !p.moving && panBlocked s p && decide (s.now ≤ p.point + 100000)

/-- PAN_EXCHANGE_ABANDON. -/
def panAbandon (die cl : Nat) (s : State) : State :=
  match findPan s die cl with
  | some p => if panGivenUp s p then dropPan die cl s else s
  | none => s

/-- Where a place lies after the exchange. -/
def panMove (p : Pan) (x : Place) : Place :=
  if x.die = p.die ∧ x.cl = p.cl then
    if x.site = p.hot then { x with site := p.cool } else if x.site = p.cool then { x with site := p.hot } else x
  else x

def panQueue (p : Pan) : QKey → QKey
  | .core pl q => .core (panMove p pl) q
  | q => q

/-- The bands that the residents of a core enable, and those enabled when an mma.g issued that still waits in a latch (R418). -/
def bandsOf (s : State) (core : Place) : BitVec 4 :=
  ((residents s).filter fun b => corePlace b.place == core).foldl
    (fun x b => (b.latch.flatMap (·.arrived)).foldl (fun y m => y ||| m.ben) (x ||| b.ben)) 0

/-- The skew of a core whose blocks leave together (R213): the value of the half that they leave, the larger one where they leave both. -/
def skewWhole (core : Place) (s : State) : State :=
  let half (k : Nat) : Place := { core with part := k }
  let inUse (k : Nat) : Bool := (residents s).any fun b => b.place == half k
  if s.parted.contains core then
    let a := skewOf s (half 1)
    let b := skewOf s (half 2)
    let x := if inUse 1 && !inUse 2 then a else if inUse 2 && !inUse 1 then b else if a.ult b then b else a
    { s with skews := kset core x (s.skews.filter fun e => corePlace e.1 != core) }
  else s

/-- Every later access of every party of a block sees what has been written (R161). -/
def acquireBlock (uid : Nat) (s : State) : State :=
  (getBlock s uid).groups.foldl (fun s g => acquireAll uid g.gidx s) s

/-- PAN_TRANSFER_END: blocks, copies, error records, matrix-queue writes and partitions stand at the other site; links are broken,
both L1s are empty (R430, R157, R89), and the move is a fence for every party of its blocks (R36, R161). skew stays with the core, to which
R213 says that it belongs, where R196 moves every register of R195 but siteid: DESIGN CHOICE (log 124). -/
def panTransferEnd (die cl : Nat) (s : State) : State :=
  match findPan s die cl with
  | none => s
  | some p =>
    if !p.moving then s
    else
      let site (i : Nat) : Place := { die := die, cl := cl, site := i, part := 0 }
      let uids := (panBlocks s p).map (·.uid)
      let s := uids.foldl (fun s u => acquireBlock u (breakBlock u s)) (skewWhole (site p.hot) (skewWhole (site p.cool) s))
      let s : State := { s with
        blocks := s.blocks.map (fun b : Block =>
          if uids.contains b.uid then
            { b with place := panMove p b.place, transit := false, groups := b.groups.map fun g => { g with bp := [] } }
          else b),
        copies := s.copies.map (fun c => { c with q := panQueue p c.q }),
        qerrs := s.qerrs.map (fun e => { e with q := panQueue p e.q }),
        matq := s.matq.map (fun o => { o with pl := panMove p o.pl }),
        parted := s.parted.map (panMove p) }
      let s : State := { s with bands := [site p.hot, site p.cool].foldl (fun l c => kset c (kget 0 l c ||| bandsOf s c) l) s.bands }
      dropPan die cl (l1Clear (site p.hot) (l1Clear (site p.cool) s))

/-! Bands, rest and hints. -/

/-- BAND_POWER_OFF: a band that no resident block enables (R418). -/
def bandPowerOff (pl : Place) (band : Nat) (s : State) : State :=
  let core := corePlace pl
  if (bandsOf s core).getLsbD band then s
  else { s with bands := kset core (putBit (kget 0 s.bands core) band false) s.bands }

/-- Exit latencies in microseconds (R431). -/
def restLatency : Nat → Nat
  | 0 => 0
  | 1 => 2
  | 2 => 20
  | 3 => 200
  | _ => 5000

/-- The deepest rest depth within LATTOL. -/
def restDepth (s : State) : Nat := ((List.range 5).filter fun d => decide (restLatency d ≤ s.lattol.toNat)).foldl max 0

/-- A step of a walker of the die is due, or a node of it is under way. -/
def nodesActive (s : State) (die : Nat) : Bool :=
  (s.waits.any fun w => nodeDie s w.1 w.2 == die) || (s.completing.any fun x => nodeDie s x.1.1 x.1.2 == die) || (s.passes.any fun p => nodeDie s p.1.1 p.1.2 == die) ||
  (s.copies.any fun c => c.q == .front die) || (s.ckpts.any fun c => nodeDie s c.ctx c.va == die) ||
  s.pending.any fun i => (stepNode i).any fun n => nodeDie s n.1 n.2 == die

/-- A die has nothing to do (R431): no block, no launch that it has accepted or that stands in its queues, held blocks among them, and no
node (log 129). -/
def dieIdle (s : State) (die : Nat) : Bool :=
  !((residents s).any fun b => b.place.die == die) && !(s.launches.any fun l => l.die == die || (vget s.queue die).contains l.id) &&
  !nodesActive s die

/-- REST_ENTER: an idle die takes the depth that LATTOL allows, a deeper or a shallower one. From depth 3 on the translations are invalid
and the links run at two lanes; at depth 4 they pause. -/
def restEnter (die : Nat) (s : State) : State :=
  if !dieIdle s die then s
  else
    let d := restDepth s
    if d < 3 then
      let s := wakeDie die s
      { s with depth := vset s.depth die d }
    else { s with
      depth := vset s.depth die d,
      tlb := s.tlb.filter fun e => e.at_.die != die,
      walker := s.walker.filter fun e => e.die != die,
      wires := s.wires.mapIdx (fun i x =>
        if dieLink die i then { x with lanes := 2, paused := d == 4 || (x.paused && x.rewidth.isSome) } else x) }

/-- REST_EXIT: the links that rest had shed widen again. -/
def restExit (die : Nat) (s : State) : State := wakeDie die s

/-- POWER_HINT_EXPIRY (R371, R433). -/
def hintExpiry (uid : Nat) (s : State) : State :=
  modBlock uid (fun b => match b.hint with
    | some h => if h.expires.any fun t => decide (t ≤ tickOf s b.place.die) then { b with hint := none } else b
    | none => b) s

/-! The refresh calendar (R85). -/

/-- The bank group whose window is open on a die. -/
def openWindow (s : State) (die : Nat) : Option Nat :=
  let p := calendar s die % 48000
  if p % 3000 < 1200 then some (p / 3000) else none

def refreshStart (die bg : Nat) (s : State) : State :=
  if openWindow s die = some bg then { s with refreshing := vset s.refreshing die (some bg) } else s

def refreshEnd (die bg : Nat) (s : State) : State :=
  if vget s.refreshing die = some bg ∧ openWindow s die ≠ some bg then { s with refreshing := vset s.refreshing die none } else s

/-! Background work (R432). -/

/-- Leaves of a table and of the tables below it, with the virtual address and the address of each entry. Only entries that memory lists
can be valid. -/
def leavesFrom (s : State) : Nat → Nat → Nat → Nat → List (Nat × Leaf)
  | 0, _, _, _ => []
  | fuel + 1, level, table, va =>
    let idx := ((s.mem.filter fun c => decide (table ≤ c.1) && decide (c.1 < table + 4096)).map fun c => (c.1 - table) / 8).eraseDups
    idx.flatMap fun i =>
      let a := table + 8 * i
      let e := physRead s a 8
      let v := va + i * 2 ^ (43 - 9 * level)
      if !bitAt e 0 || malformed e level then []
      else if entryLeaf e then [(v, { entry := e, at_ := a, level := level })]
      else leavesFrom s fuel (level + 1) (entryPa e) v

/-- The leaves of a context. -/
def leavesOf (s : State) (ctx : Nat) : List (Nat × Leaf) :=
  if ctxRootTable s ctx = 0 then [] else leavesFrom s 4 0 (ctxRootTable s ctx) 0

/-- The contexts that a place of storage belongs to (R96, R76, R39). -/
def ownersOf (s : State) (t : Target) : List Nat :=
  let all := (s.ctxs ++ s.launches.map (·.ctx)).eraseDups
  match t with
  | .phys pa => all.filter fun c => (leavesOf s c).any fun l =>
      decide (entryPa l.2.entry ≤ pa) && decide (pa < entryPa l.2.entry + pageBytes l.2.level)
  | .cellar die off => all.filter fun c => cellarOwned s c die off
  | _ => []

/-- The die that scrubs a place. -/
def targetDie (s : State) : Target → Nat
  | .phys pa => homeDie s pa
  | .cellar d _ => d
  | .spad u _ => (getBlock s u).place.die
  | .obuf u _ => (getBlock s u).place.die
  | .tile u _ _ => (getBlock s u).place.die

/-- A place scrubbed: an uncorrectable error ends the fault domain of its owner with cause 0x14. -/
def scrubPlace (s : State) (t : Target) : State :=
  let die := targetDie s t
  if !badTarget s t then s
  else match t with
    | .spad u off => if (findBlock s u).isSome then endBlockDomain u 0x14 (BitVec.ofNat 64 off) s else s
    | .obuf u off => if (findBlock s u).isSome then endBlockDomain u 0x14 (BitVec.ofNat 64 off) s else s
    | .tile u _ off => if (findBlock s u).isSome then endBlockDomain u 0x14 (BitVec.ofNat 64 off) s else s
    | .phys pa => (ownersOf s t).foldl (fun s c => endDomain c die 0x14 (BitVec.ofNat 64 pa) s) s
    | .cellar _ off => (ownersOf s t).foldl (fun s c => endDomain c die 0x14 (BitVec.ofNat 64 off) s) s

/-- The last tick of a background task of a die. -/
def lastTask (s : State) (d kind : Nat) : Nat := ((s.tasks.find? fun t => t.die == d && t.kind == kind).map (·.last)).getD 0

/-- A pass over every line of a die is due (R432). -/
def scrubDue (s : State) (d : Nat) : Bool := decide (lastTask s d 0 + 86400000000000 ≤ tickOf s d)

/-- PATROL_SCRUB of a place; when a pass over the die is due, of every place of it (log 113). -/
def patrolScrub (t : Target) (s : State) : State :=
  let die := targetDie s t
  let all := if scrubDue s die then s.bad.filter fun x => targetDie s x == die else []
  (t :: all).foldl scrubPlace (countTask die 0 s)

/-- TELEMETRY: the activity of occupied sites grows by what the device measures (log 13). -/
def telemetry (s : State) : State :=
  let keys := ((residents s).map fun b => (b.place.die * 5 + b.place.cl) * 32 + b.place.site).eraseDups
  let s := { s with
    activity := keys.zipIdx.foldl (fun m k => sset 0 k.1 (sget 0 m k.1 + Config.freeNat (s.free + k.2)) m) s.activity,
    free := s.free + keys.length }
  (List.range 4).foldl (fun s d => countTask d 4 s) s

/-- DEVICE_RESET (R453): the state after reset, with the signature check's outcome; the model's own counters go on. -/
def deviceReset (good : Bool) (s : State) : State :=
  let port : HostPort := if good then HostPort.reset else { HostPort.reset with result := 3 }
  { State.reset with booted := good, ports := Vector.replicate 2 port, sched := s.sched, steps := s.steps, free := s.free, sent := s.sent,
                     resets := s.resets + 1 }

/-- LINK_CALIBRATION of a link (R432). -/
def linkCalibration (link : Nat) (s : State) : State :=
  countTask (link / 4) 2 { s with linkCal := vset s.linkCal link (tickOf s (link / 4)) }

/-- POWER_SAMPLE (R422). -/
def execPowerSample (mw : Nat) (s : State) : Host.Outcome State Fault Refusal := .next (powerSample mw s)

/-- BOOST_CLASSIFY (R424). -/
def execBoostClassify (s : State) : Host.Outcome State Fault Refusal := .next (boostClassify s)

/-- THERMAL_SAMPLE (R425 to R427). -/
def execThermalSample (dom temp : Nat) (s : State) : Host.Outcome State Fault Refusal := .next (thermalSample dom temp s)

/-- PAN_ROTATION (R428). -/
def execPanRotation (die : Nat) (temps : List Nat) (s : State) : Host.Outcome State Fault Refusal := .next (panRotation die temps s)

/-- PAN_EXCHANGE (R429, R37). -/
def execPanExchange (die cl : Nat) (s : State) : Host.Outcome State Fault Refusal := .next (panExchange die cl s)

/-- PAN_EXCHANGE_ABANDON (R429). -/
def execPanExchangeAbandon (die cl : Nat) (s : State) : Host.Outcome State Fault Refusal := .next (panAbandon die cl s)

/-- PAN_TRANSFER_END (R430, R36). -/
def execPanTransferEnd (die cl : Nat) (s : State) : Host.Outcome State Fault Refusal := .next (panTransferEnd die cl s)

/-- BAND_POWER_OFF (R418). -/
def execBandPowerOff (pl : Place) (band : Nat) (s : State) : Host.Outcome State Fault Refusal := .next (bandPowerOff pl band s)

/-- REST_ENTER (R431). -/
def execRestEnter (die : Nat) (s : State) : Host.Outcome State Fault Refusal := .next (restEnter die s)

/-- REST_EXIT (R431). -/
def execRestExit (die : Nat) (s : State) : Host.Outcome State Fault Refusal := .next (restExit die s)

/-- POWER_HINT_EXPIRY (R371, R433). -/
def execPowerHintExpiry (uid : Nat) (s : State) : Host.Outcome State Fault Refusal := .next (hintExpiry uid s)

/-- CELLAR_REFRESH_START (R85). -/
def execCellarRefreshStart (die bg : Nat) (s : State) : Host.Outcome State Fault Refusal := .next (refreshStart die bg s)

/-- CELLAR_REFRESH_END (R85, R87). -/
def execCellarRefreshEnd (die bg : Nat) (s : State) : Host.Outcome State Fault Refusal := .next (refreshEnd die bg s)

/-- LINK_CALIBRATION (R432). -/
def execLinkCalibration (link : Nat) (s : State) : Host.Outcome State Fault Refusal :=
  .next (linkCalibration link s)

/-- DRAM_CALIBRATION (R432). -/
def execDramCalibration (die : Nat) (s : State) : Host.Outcome State Fault Refusal := .next (countTask die 1 s)

/-- PATROL_SCRUB (R432, R96, R76). -/
def execPatrolScrub (t : Target) (s : State) : Host.Outcome State Fault Refusal := .next (patrolScrub t s)

/-- TELEMETRY (R432). -/
def execTelemetry (s : State) : Host.Outcome State Fault Refusal := .next (telemetry s)

/-- DEVICE_RESET (R453). -/
def execDeviceReset (good : Bool) (s : State) : Host.Outcome State Fault Refusal := .next (deviceReset good s)

end Sys2Proof.Machine
end

