-- ==== Sys2Proof/Machine/Ckpt.lean ====
section
/-! DEFINITION. Checkpoints and restores of a region (R435 to R442): the descriptor and its checks, cut, skim, drain and restore. -/

namespace Sys2Proof.Machine

open Sys2Proof

/-! The descriptor (R435). -/

def ckPeer (d : List Nat) : Nat := bits (d.getD 0 0) 40 5
def ckRanges (d : List Nat) : List (Nat × Nat) :=
  (List.range (bits (d.getD 0 0) 52 4)).map fun r => (d.getD (8 + 2 * r) 0, d.getD (9 + 2 * r) 0)
def ckResv (d : List Nat) : Nat := d.getD 1 0
def ckLogSize (d : List Nat) : Nat := d.getD 4 0
def ckCtlSize (d : List Nat) : Nat := d.getD 5 0

/-- Two ranges have a byte in common. -/
def rangesOverlap : List (Nat × Nat) → Bool
  | [] => false
  | x :: l => (l.any fun y => decide (x.1 < y.1 + y.2) && decide (y.1 < x.1 + x.2) && x.2 != 0 && y.2 != 0) || rangesOverlap l

/-- The reserve lies in one region of DRAM. -/
def reserveInDram (s : State) (base size : Nat) : Bool :=
  size == 0 || (isDram s base && isDram s (base + size - 1) && (decide (2 ^ 40 ≤ base) || base / 2 ^ 37 == (base + size - 1) / 2 ^ 37))

/-- The first failing check of a descriptor: cause and address (log 48: the causes, and the areas that must fit). -/
def ckptFault (s : State) (ctx a : Nat) (d : List Nat) : Option (Nat × Nat) :=
  let w (k : Nat) : Nat := d.getD k 0
  let n := bits (w 0) 52 4
  let pct := bits (w 0) 45 7
  let rs := ckRanges d
  if bits (w 0) 56 3 != 0 || bits (w 0) 0 40 != 0 then some (0x02, a)
  else if w 1 % 65536 != 0 || w 3 % 65536 != 0 || w 6 % 8 != 0 || rs.any fun r => r.1 % 65536 != 0 then some (0x04, a)
  else if bits (w 0) 60 4 != 1 || n == 0 || decide (8 < n) || pct == 0 || decide (100 < pct) ||
      w 2 % 65536 != 0 || w 4 % 65536 != 0 || w 5 % 65536 != 0 || (rs.any fun r => r.2 % 65536 != 0 || decide (2 ^ 52 < r.1 + r.2)) ||
      decide (2 ^ 41 < w 3 + w 4 + w 5 + (rs.map (·.2)).sum) || w 4 == 0 || decide (2 ^ 52 ≤ w 6) || !reserveInDram s (w 1) (w 2) ||
      rangesOverlap rs || decide (w 5 < 0x10000 + numFrames s ctx * 0x180000) then some (0x01, a)
  else none

/-! Cut and skim (R437, R438, R442). -/

/-- Resident blocks beneath a node. -/
def residentsBeneath (s : State) (rcb : Nat) : List Block := (residents s).filter fun b => beneath s (blockRcb s b) rcb

def heldBeneath (s : State) (rcb : Nat) : List Block := s.blocks.filter fun b => b.res == .held && beneath s (blockRcb s b) rcb

/-- COPY and WSLOAD nodes beneath a node that have not completed: a copy of theirs, an active one whose step is due, and a WSLOAD that
waits for kernels. -/
def nodeCopiesBeneath (s : State) (rcb : Nat) : Bool :=
  let active (ctx va : Nat) : Bool := bits (nodeWord s ctx va 0) 58 2 == 1 && beneath s (nodeRcb s ctx va) rcb
  (s.copies.any fun c => c.node.any fun va => beneath s (nodeRcb s c.ctx va) rcb) ||
  (s.pending.any fun i => match i with
    | .nodeCopy c v => active c v
    | .nodeWsload c v => active c v
    | _ => false) ||
  s.waits.any fun w => bits (nodeWord s w.1 w.2 0) 60 4 == 3 && active w.1 w.2

/-- Pre-emption is requested of every block beneath the RCB that runs (R437). -/
def requestAll (rcb : Nat) (s : State) : State :=
  ((residentsBeneath s rcb).filter fun b => b.res == .resident && !b.preempt).foldl (fun s b => requestPreempt b.uid s) s

/-- Nothing of the region runs any more. -/
def cutDone (s : State) (c : Ckpt) : Bool := (residentsBeneath s c.rcb).isEmpty && !nodeCopiesBeneath s c.rcb

/-- A length padded to 64 bytes. -/
def pad64 (n : Nat) : Nat := (n + 63) / 64 * 64

/-- Launches that a cut record holds. -/
def cutLaunches (s : State) (rcb : Nat) : List Launch :=
  s.launches.filter fun l => beneath s l.rcb rcb && (decide (l.counter.toNat < pkWord l 1) || s.blocks.any fun b => b.launch == l.id && b.res == .held)

/-- The cut record (R442). -/
def cutRecord (s : State) (c : Ckpt) : List Byte :=
  let ls := cutLaunches s c.rcb
  let bs := heldBeneath s c.rcb
  mkBytes 0x40 [(0, 8, 0x53484B43), (8, 8, c.gen), (0x10, 8, c.va), (0x18, 4, ls.length), (0x1C, 4, bs.length)] ++
  (ls.flatMap fun l => (l.packet.toList.flatMap fun w => toBytes 8 w.toNat) ++
    mkBytes 128 [(0, 8, l.shown), (8, 8, l.counter.toNat), (16, 8, l.placed)]) ++
  bs.flatMap fun b => mkBytes 16 [(0, 4, b.frame.getD 0), (4, 4, b.blockid.toNat),
    (8, 4, (ls.findIdx? fun l => l.id == b.launch).getD 0), (12, 1, b.tenant)]

/-- The leaves that map part of a range, each with the first byte and the length of that part. -/
def skimLeaves (s : State) (c : Ckpt) : List (Leaf × Nat × Nat) :=
  let take (l : Leaf) : Bool :=
    (c.desc.getD 7 0 == 0 || bitAt l.entry 7) && (isDram s (entryPa l.entry) || isAperture s (entryPa l.entry))
  (ckRanges c.desc).flatMap fun r => ((leavesOf s c.ctx).filter fun x => take x.2).filterMap fun x =>
    let lo := max r.1 x.1
    let hi := min (r.1 + r.2) (x.1 + pageBytes x.2.level)
    if lo < hi then some (x.2, lo, hi - lo) else none

/-- What a skim copies: KIND, address or frame index, and where the data lies in memory with its length. -/
def skimRecords (s : State) (c : Ckpt) : List (Nat × Nat × Nat × Nat) :=
  ((sortByRank id ((heldBeneath s c.rcb).map fun b => b.frame.getD 0)).map fun f => (2, f, spillSlot s c.ctx f, 0x180000)) ++
  (skimLeaves s c).map fun x => (1, x.2.1, leafPa x.1.entry x.1.level x.2.1, x.2.2)

/-- A record: its head and its padded data. -/
def ckRecord (kind x : Nat) (l : List Byte) : List Byte :=
  mkBytes 64 [(0, 8, kind * 2 ^ 60), (8, 8, x), (16, 8, l.length)] ++ l ++ List.replicate (pad64 l.length - l.length) 0

/-- Records written one after another. -/
def writeRecords : Nat → List (Nat × Nat × List Byte) → State → State
  | _, [], s => s
  | a, (k, x, l) :: r, s => writeRecords (a + 64 + pad64 l.length) r (physWrite none a (ckRecord k x l) s)

/-- A range of memory holds an uncorrectable error. -/
def badIn (s : State) (pa n : Nat) : Bool := s.bad.any fun t => match t with
  | .phys x => decide (pa / 8 ≤ x / 8) && decide (x / 8 ≤ (pa + n - 1) / 8)
  | _ => false

/-- D of a copied leaf cleared at its home, and its page invalidated. -/
def cleanLeaf (c : Ckpt) (x : Leaf × Nat × Nat) (s : State) : State :=
  let e := physRead s x.1.at_ 8
  let s := physPut none x.1.at_ 8 (e - if bitAt e 7 then 2 ^ 7 else 0) s
  invalidate 2 (ctxAsid s c.ctx) x.2.1 s

def ckEnv (c : Ckpt) : Env :=
  { uid := 0, pl := { die := c.die, cl := 99, site := 0, part := 0 }, ctx := c.ctx, sup := true, scope := 5, cls := 15, noL1 := true,
    side := .front c.die, core := none, owner := .ckpt c.ctx c.va }

/-- A checkpoint in progress changed. -/
def modCkpt (c : Ckpt) (f : Ckpt → Ckpt) (s : State) : State :=
  { s with ckpts := s.ckpts.map fun x => if sameCkpt c x then f x else x }

/-- The data of the records: what memory holds, and for a page in an aperture what has been read there. -/
def skimData (s : State) : List (Nat × Nat × Nat × Nat) → List (List Byte) → List (Nat × Nat × List Byte)
  | [], _ => []
  | r :: rs, got =>
    if isAperture s r.2.2.1 then (r.1, r.2.1, got.headD []) :: skimData s rs got.tail
    else (r.1, r.2.1, physBytes s r.2.2.1 r.2.2.2) :: skimData s rs got

/-- The bytes that a skim would copy. -/
def skimTotal (s : State) (c : Ckpt) : Nat :=
  64 + pad64 (cutRecord s c).length + ((skimRecords s c).map fun r => 64 + pad64 r.2.2.2).sum

/-- The end of a skim (R438): the records are copied, the D bits are cleared, and the region resumes. -/
def skimEnd (c : Ckpt) (s : State) : State :=
  let total := skimTotal s c
  let data := (3, c.gen, cutRecord s c) :: skimData s (skimRecords s c) c.got
  let s := (skimLeaves s c).foldl (fun s x => cleanLeaf c x s) (writeRecords (ckResv c.desc) data s)
  match ckptStatus c 3 0 s with
  | (s, some e) => failCkpt c 0 e.1 e.2 s
  | (s, none) =>
    let c' : Ckpt := { c with phase := .drain, bytes := total, id := s.uids, got := [] }
    retryNotices { s with uids := s.uids + 1, ckpts := s.ckpts.map fun x => if sameCkpt c x then c' else x }

/-- An access translated with a leaf that the skim cleans has not performed yet (R59). -/
def skimBusy (s : State) (c : Ckpt) : Bool := (skimLeaves s c).any fun x => inFlight 2 (ctxAsid s c.ctx) x.2.1 s

/-- Every page in an aperture has been read, and the invalidation cannot end yet. -/
def skimWaits (s : State) (c : Ckpt) : Bool :=
  decide (((skimRecords s c).filter fun r => isAperture s r.2.2.1).length ≤ c.got.length) && skimBusy s c

/-- A skim goes on: pages in apertures are read, one access for each (log 49), and then it ends, once the invalidation of its pages can
end (R59). -/
def skimRun (c : Ckpt) (s : State) : State :=
  let rs := skimRecords s c
  match (rs.filter fun r => isAperture s r.2.2.1)[c.got.length]? with
  | some r =>
    match apertureAccess (ckEnv c) (addrWord r.2.1) r.2.2.1 r.2.2.2 none .read s with
    | (s, .ok l) => modCkpt c (fun x => { x with got := x.got ++ [l] }) s
    | (s, .trap cause _ _) => failCkpt c 5 cause r.2.1 s
    | (s, _) => s
  | none =>
    match rs.find? fun r => badIn s r.2.2.1 r.2.2.2 with
    | some r => endDomain c.ctx c.die 0x14 (addrWord r.2.1) s
    | none => if skimBusy s c then s else skimEnd c s

/-- The skim starts at the cut (R438). -/
def skim (c : Ckpt) (s : State) : State :=
  match ckptStatus c 2 0 s with
  | (s, some e) => failCkpt c 0 e.1 e.2 s
  | (s, none) =>
    let total := skimTotal s c
    if c.desc.getD 2 0 < total ∨ ckLogSize c.desc - 64 < total ∨ 65536 < (cutRecord s c).length then failCkpt c 2 0x0A c.addr s
    else skimRun c (modCkpt c (fun x => { x with phase := .skim, got := [] }) s)

/-! Accesses to the buddy (R439, R440). -/

/-- One access to the buddy area, at an offset from its base. -/
inductive CkOp where
  | read (off n : Nat)
  | write (off : Nat) (l : List Byte)
  deriving DecidableEq, Repr

/-- The physical address of an offset of the buddy area. -/
def buddyPa (c : Ckpt) (off : Nat) : Nat := 0x400000000000 + ckPeer c.desc * 2 ^ 41 + c.desc.getD 3 0 + off

/-- The access is lost with its link, or has no route: a failure with LINK rather than WINDOW. -/
def ckLost (s : State) (c : Ckpt) : Bool :=
  (routeLink s (buddyPa c 0)).isNone || s.ext.any fun e => e.owner == .ckpt c.ctx c.va && !(vget s.wires e.link).up

/-- An access of a checkpoint: its answer stands in `got` once it is there. -/
def ckAccess (c : Ckpt) (o : CkOp) (s : State) : State × Got (List Byte) :=
  match o with
  | .read off n => apertureAccess (ckEnv c) (addrWord (buddyPa c off)) (buddyPa c off) n none .read s
  | .write off l => apertureAccess (ckEnv c) (addrWord (buddyPa c off)) (buddyPa c off) l.length (some l) .write s

/-- What an answer adds to a checkpoint's progress: nothing for a write. -/
def answerOf (o : CkOp) (l : List Byte) : List Byte :=
  match o with
  | .read _ _ => l
  | .write _ _ => []

/-- An access made, or its answer taken; `f` follows a read or a write that has performed. -/
def ckStep (c : Ckpt) (o : CkOp) (f : List Byte → State → State) (s : State) : State :=
  let lost := ckLost s c
  match ckAccess c o s with
  | (s, .ok l) => f (answerOf o l) s
  | (s, .stall) => s
  | (s, _) => failCkpt c (if lost then 3 else 4) 0x13 (buddyPa c 0) s

/-- The next access of a phase, or what follows its last. -/
def ckRun (c : Ckpt) (o : Option CkOp) (done : State → State) (s : State) : State :=
  match o with
  | some o => ckStep c o (fun l s => modCkpt c (fun x => { x with got := x.got ++ [l] }) s) s
  | none => done s

/-- A phase follows. -/
def ckPhase (c : Ckpt) (p : CkptPhase) (s : State) : State := modCkpt c (fun x => { x with phase := p, got := [] }) s

/-! The log and the mirror. -/

/-- Where record data lies in the mirror (R439). -/
def mirrorAt (d : List Nat) (kind x : Nat) : Option Nat :=
  let rec inRanges : Nat → List (Nat × Nat) → Option Nat
    | _, [] => none
    | off, r :: l => if r.1 ≤ x ∧ x < r.1 + r.2 then some (off + (x - r.1)) else inRanges (off + r.2) l
  match kind with
  | 3 => some (ckLogSize d)
  | 2 => some (ckLogSize d + 0x10000 + x * 0x180000)
  | 1 => inRanges (ckLogSize d + ckCtlSize d) (ckRanges d)
  | _ => none

/-- The records of the reserve from an offset on: offset, KIND, address and length. -/
def reserveRecords (s : State) (c : Ckpt) : Nat → Nat → List (Nat × Nat × Nat × Nat)
  | 0, _ => []
  | fuel + 1, off =>
    if c.bytes ≤ off then []
    else
      let h := physBytes s (ckResv c.desc + off) 24
      let n := min (field h 16 8) (c.bytes - off - 64)
      (off, field h 7 1 / 16, field h 8 8, n) :: reserveRecords s c fuel (off + 64 + pad64 n)

def recordsOf (s : State) (c : Ckpt) : List (Nat × Nat × Nat × Nat) := reserveRecords s c (c.bytes / 64 + 1) 0

/-- A write of bytes of the reserve. -/
def fromReserve (s : State) (c : Ckpt) (dst off n : Nat) : CkOp := .write dst (physBytes s (ckResv c.desc + off) n)

/-- The writes of the log. -/
def logOp (s : State) (c : Ckpt) (k : Nat) : Option CkOp :=
  ((recordsOf s c)[k]?).map fun r => fromReserve s c (64 + r.1) r.1 (64 + pad64 r.2.2.2)

/-- The writes of the mirror. -/
def mirrorOp (s : State) (c : Ckpt) (k : Nat) : Option CkOp :=
  (((recordsOf s c).filterMap fun r => (mirrorAt c.desc r.2.1 r.2.2.1).map fun m => (m, r))[k]?).map fun x =>
    fromReserve s c x.1 (x.2.1 + 64) x.2.2.2.2

/-- An earlier log applied at the buddy, as far as its answers go: the next access, or the answers left over. -/
def oldLog (d : List Nat) (total : Nat) : Nat → Nat → List (List Byte) → CkOp ⊕ List (List Byte)
  | 0, _, ans => .inr ans
  | fuel + 1, off, ans =>
    if total ≤ off then .inr ans
    else match ans with
    | [] => .inl (.read (64 + off) 64)
    | h :: ans =>
      let n := field h 16 8
      match mirrorAt d (field h 7 1 / 16) (field h 8 8) with
      | none => oldLog d total fuel (off + 64 + pad64 n) ans
      | some m => match ans with
        | [] => .inl (.read (128 + off) n)
        | [x] => .inl (.write m x)
        | _ :: _ :: ans => oldLog d total fuel (off + 64 + pad64 n) ans

/-- apply for a log that is committed and not applied (R439, R441). -/
def oldApply (d : List Nat) (got : List (List Byte)) : CkOp ⊕ List (List Byte) :=
  match got with
  | [] => .inl (.read 0 64)
  | h :: ans =>
    if field h 16 8 ≠ 1 then .inr ans
    else match oldLog d (field h 8 8) (field h 8 8 / 64 + 1) 0 ans with
    | .inl o => .inl o
    | .inr [] => .inl (.write 16 (toBytes 8 2))
    | .inr (_ :: ans) => .inr ans

/-- The next access of the drain's first part: an earlier log applied, then the log written. -/
def drainOp (s : State) (c : Ckpt) : Option CkOp :=
  match oldApply c.desc c.got with
  | .inl o => some o
  | .inr ans => logOp s c ans.length

/-- The write of the head that commits the log. -/
def commitOp (c : Ckpt) : Option CkOp :=
  if c.got.isEmpty then some (.write 0 (toBytes 8 c.gen ++ toBytes 8 c.bytes ++ toBytes 8 1)) else none

def applyOp (s : State) (c : Ckpt) : Option CkOp := mirrorOp s c c.got.length

def applyDoneOp (c : Ckpt) : Option CkOp := if c.got.isEmpty then some (.write 16 (toBytes 8 2)) else none

/-- The end of a checkpoint: GEN, PHASE 4, and the node completes. -/
def ckptDone (c : Ckpt) (s : State) : State :=
  match peekBad s c.ctx (c.addr + 56) .read true with
  | some a => endDomain c.ctx c.die 0x14 (addrWord a) s
  | none =>
  match ckptStatus c 4 0 (putWord c.ctx (c.addr + 56) c.gen (dropCkpt c s)) with
  | (s, some e) => failNode c.ctx c.va c.die e.1 e.2 s
  | (s, none) => completeNode c.ctx c.va s

/-! Restore (R441). -/

/-- Where a piece of the mirror goes: to a virtual address, or into a spill slot. -/
inductive CkDest where
  | va (v : Nat)
  | slot (f off : Nat)
  deriving DecidableEq, Repr

/-- The pieces of a restore, 64 KiB each: the offset in the buddy area and the destination; the ranges, then the spill slots of the
blocks that the cut record names. -/
def restorePlan (d : List Nat) (frames : List Nat) : List (Nat × CkDest) :=
  let rec ranges : Nat → List (Nat × Nat) → List (Nat × CkDest)
    | _, [] => []
    | off, r :: l => ((List.range (r.2 / 65536)).map fun i => (off + i * 65536, .va (r.1 + i * 65536))) ++ ranges (off + r.2) l
  ranges (ckLogSize d + ckCtlSize d) (ckRanges d) ++
  frames.flatMap fun f => (List.range 24).map fun i => (ckLogSize d + 0x10000 + f * 0x180000 + i * 65536, .slot f (i * 65536))

def cutCount (l : List Byte) : Nat := field l 0x18 4
def cutHeld (l : List Byte) : Nat := field l 0x1C 4

/-- Block b of a cut record. -/
def cutBlock (l : List Byte) (b : Nat) : List Byte := (l.drop (0x40 + 256 * cutCount l + 16 * b)).take 16

def cutFrames (l : List Byte) : List Nat := (List.range (cutHeld l)).map fun b => field (cutBlock l b) 0 4

/-- A cut record that a restore refuses: a wrong MAGIC, a record beyond its 64 KiB, or a frame that the context lacks. -/
def cutBad (s : State) (ctx : Nat) (l : List Byte) : Bool :=
  field l 0 8 != 0x53484B43 || decide (65536 < 0x40 + 256 * cutCount l + 16 * cutHeld l) ||
  (cutFrames l).any fun f => decide (numFrames s ctx ≤ f)

/-- A piece stored; a range may lie in an aperture. -/
def putPiece (c : Ckpt) (dst : CkDest) (l : List Byte) (s : State) : State × Got Unit :=
  match dst with
  | .va v => writeLoc (ckEnv c) (addrWord v) (.glob v) l .write s
  | .slot f o => (physWrite none (spillSlot s c.ctx f + o) l s, .ok ())

/-- A piece that has been read, which stands last among the answers, is stored, and its place is kept by an empty answer. -/
def storePiece (c : Ckpt) (dst : CkDest) (l : List Byte) (s : State) : State :=
  match putPiece c dst l s with
  | (s, .ok _) => modCkpt c (fun x => { x with got := x.got.dropLast ++ [[]] }) s
  | (s, .stall) => s
  | (s, .trap cause a _) => failCkpt c 5 cause a.toNat s
  | (s, .fault ft _ a _) => failCkpt c 5 (failCause ft) a.toNat s
  | (s, .domain cause a _) => endDomain c.ctx c.die cause a s

/-- The copying part of a restore. -/
def restoreCopy (c : Ckpt) (s : State) : State :=
  match oldApply c.desc c.got with
  | .inl o => ckRun c (some o) id s
  | .inr [] => ckRun c (some (.read (ckLogSize c.desc) 65536)) id s
  | .inr (l :: ans) =>
    if cutBad s c.ctx l then failCkpt c 2 0x0A c.addr s
    else
      let k := (ans.filter (·.isEmpty)).length
      match (restorePlan c.desc (cutFrames l))[k]?, ans[k]? with
      | none, _ => modCkpt c (fun x => { x with phase := .restoreAccept, got := [], record := l, gen := field l 8 8 }) s
      | some (_, dst), some x => storePiece c dst x s
      | some (off, _), none => ckRun c (some (.read off 65536)) id s

/-- Launch k of a cut record: its saved id is shown again, and the device tells it apart from every live launch (R441). -/
def cutLaunch (s : State) (c : Ckpt) (k : Nat) : Launch :=
  let l := (c.record.drop (0x40 + 256 * k)).take 256
  let p := packetOf l
  { id := 2 ^ 64 + s.uids, shown := field l 128 8, die := c.die, packet := p, addr := 0, ctx := c.ctx, rcb := (packetRcb s c.ctx p).getD 0,
    counter := BitVec.ofNat 64 (field l 136 8), placed := field l 144 8, prio := 0, dies := 0, checked := false, node := none, service := false }

/-- A saved block enters as held pre-empted in its frame; a group without a live path has retired. -/
def enterHeld (l : Launch) (die : Nat) (e : List Byte) (s : State) : State :=
  let uid := s.uids
  let b : Block := { blankBlock with
    uid := uid, launch := l.id, blockid := BitVec.ofNat 32 (field e 4 4), tenant := field e 12 1,
    place := { die := die, cl := 0, site := 0, part := 0 }, order := uid, spadSize := spuBytes l, obSize := obuBytes l, res := .held,
    frame := some (field e 0 4) }
  let group (r : Role × Nat) : Group :=
    let g := { startGroup l b.place r.2 0 r.1 with part := .ended }
    match frameSees s b (groupSection s b r.2) 1024 with
    | some h => { g with nrc := BitVec.ofNat 2 (field h 8 1), retired := field h 112 8 == 0 }
    | none => g
  { s with uids := uid + 1, blocks := s.blocks ++ [{ b with groups := (rolesOf l).zipIdx.map group }] }

/-- A launch of the cut record accepted with its held blocks (log 49). -/
def acceptSaved (c : Ckpt) (k : Nat) (s : State) : State :=
  let l := cutLaunch s c k
  let s := { s with uids := s.uids + 1, launches := s.launches ++ [l] }
  let mine := ((List.range (cutHeld c.record)).map (cutBlock c.record)).filter fun e => field e 8 4 == k
  let s := mine.foldl (fun s e => enterHeld l c.die e s) s
  checkLaunch l.id (writeUsages l.rcb s)

/-- The accepting part of a restore: one launch when an entry is available, and the end once all have been accepted. -/
def restoreAccept (c : Ckpt) (s : State) : State :=
  let k := c.got.length
  if k < cutCount c.record then
    if entryAvailable s c.die (packetRcb s c.ctx (cutLaunch s c k).packet) then
      acceptSaved c k (modCkpt c (fun x => { x with got := x.got ++ [[]] }) s)
    else s
  else ckptDone c (completeNode c.ctx (field c.record 0x10 8) s)

/-! The steps. -/

/-- Twenty-four words of a descriptor. -/
def descWords (l : List Byte) : List Nat := (List.range 24).map fun k => field l (8 * k) 8

/-- A CKPT node starts (R437, R441), unless a checkpoint of its descriptor is in progress (R440). -/
def beginCkpt (ctx va : Nat) (self : Instr) (w : List Nat) (s : State) : State :=
  let die := bits (w.getD 0 0) 56 2
  let a := w.getD 4 0
  match homeRead ctx va a 192 64 s with
  | (s, .ok l) =>
    let d := descWords l
    match ckptFault s ctx a d with
    | some (cause, x) => failNode ctx va die cause x s
    | none =>
      if s.ckpts.any fun c => c.ctx == ctx && c.addr == a then pend [self] s
      else
        let rcb := nodeRcb s ctx va
        let restore := bitAt (d.getD 0 0) 59
        let c : Ckpt :=
          { ctx := ctx, va := va, die := die, rcb := rcb, addr := a, desc := d, id := 0, gen := d.getD 7 0 + 1,
            phase := if restore then .restoreApply else .cut, bytes := 0, got := [], record := [] }
        let s := activate ctx va s
        if restore then { s with ckpts := s.ckpts ++ [c] }
        else match ckptStatus c 1 0 s with
        | (s, some e) => failNode ctx va die e.1 e.2 s
        | (s, none) =>
          let used := usedFrames s ctx
          if numFrames s ctx - used.length < (residentsBeneath s rcb).length then failCkpt c 1 0x0A a s
          else requestAll rcb { s with ckpts := s.ckpts ++ [c] }
  | (s, g) => failGot ctx va (pend [self]) g s

/-- The checkpoint of a node in a phase. -/
def findCkpt (s : State) (ctx va : Nat) (p : CkptPhase) : Option Ckpt := s.ckpts.find? fun c => c.ctx == ctx && c.va == va && c.phase == p

/-- A step of a checkpoint in a phase; nothing when none stands there. -/
def inPhase (p : CkptPhase) (ctx va : Nat) (f : Ckpt → State → State) (s : State) : State :=
  match findCkpt s ctx va p with
  | some c => f c s
  | none => s

/-- The drain waits for the copies that stand on the queue before it. -/
def queueAhead (s : State) (c : Ckpt) : Bool := s.copies.any fun x => x.q == .front c.die && decide (x.id < c.id)

/-- CKPT_START (R437). -/
def execCkptStart (ctx va : Nat) (s : State) : Host.Outcome State Fault Refusal :=
  .next (takeNode 8 ctx va (.ckptStart ctx va) (beginCkpt ctx va (.ckptStart ctx va)) s)

/-- CKPT_CUT (R437, R438): what runs is pre-empted, and at the cut the region is skimmed. -/
def execCkptCut (ctx va : Nat) (s : State) : Host.Outcome State Fault Refusal :=
  .next (match findCkpt s ctx va .skim with
    | some c => skimRun c s
    | none => inPhase .cut ctx va (fun c s => if cutDone s c then skim c s else requestAll c.rcb s) s)

/-- CKPT_DRAIN (R439). -/
def execCkptDrain (ctx va : Nat) (s : State) : Host.Outcome State Fault Refusal :=
  .next (inPhase .drain ctx va (fun c s => if queueAhead s c then s else ckRun c (drainOp s c) (ckPhase c .commit) s) s)

/-- CKPT_COMMIT (R439). -/
def execCkptCommit (ctx va : Nat) (s : State) : Host.Outcome State Fault Refusal :=
  .next (inPhase .commit ctx va (fun c s => ckRun c (commitOp c) (ckPhase c .apply) s) s)

/-- CKPT_APPLY (R439). -/
def execCkptApply (ctx va : Nat) (s : State) : Host.Outcome State Fault Refusal :=
  .next (inPhase .apply ctx va (fun c s => ckRun c (applyOp s c) (ckPhase c .applyDone) s) s)

/-- CKPT_APPLY_DONE (R439). -/
def execCkptApplyDone (ctx va : Nat) (s : State) : Host.Outcome State Fault Refusal :=
  .next (inPhase .applyDone ctx va (fun c s => ckRun c (applyDoneOp c) (ckptDone c) s) s)

/-- CKPT_RESTORE (R441): the node starts, copies, or accepts launches. -/
def execCkptRestore (ctx va : Nat) (s : State) : Host.Outcome State Fault Refusal :=
  .next (match findCkpt s ctx va .restoreApply, findCkpt s ctx va .restoreAccept with
    | some c, _ => restoreCopy c s
    | none, some c => restoreAccept c s
    | none, none => takeNode 8 ctx va (.ckptRestore ctx va) (beginCkpt ctx va (.ckptRestore ctx va)) s)

end Sys2Proof.Machine
end

