-- ==== Sys2Proof/Machine/Hosts.lean ====
section
/-! DEFINITION. The hosts and the peers: doorbells, the management mailbox and its commands (R449 to R454), liveness (R451), host and
peer accesses (R41, R448), answers to the device's own accesses (R95, R445, R447) and the links (R444 to R447). -/

namespace Sys2Proof.Machine

open Sys2Proof

/-! Ports. -/

def modPort (p : Nat) (f : HostPort → HostPort) (s : State) : State := { s with ports := vset s.ports p (f (vget s.ports p)) }

def ignore (s : State) : State := { s with ignored := s.ignored + 1 }

/-- The contexts that the device knows. -/
def knownCtxs (s : State) : List Nat := (s.ctxs ++ s.launches.map (·.ctx)).eraseDups

def ctxsOf (s : State) (port : Nat) : List Nat := (knownCtxs s).filter fun c => ctxHost s c == port

/-- The commands of the mailboxes. -/
def isCommand (i : Instr) : Bool :=
  match i with
  | .resync _ => true
  | .mailboxTlbinv _ => true
  | .setis _ => true
  | .handover _ => true
  | .attest _ => true
  | .setroute _ => true
  | .setwin _ => true
  | _ => false

/-- Pending steps of one lane run in the order in which they became pending: the commands of the mailboxes (R450), the accesses of each
host's port (R137), the submissions of each port that a checkpoint holds (R437), and the nodes of each die's walker (R380). -/
def laneOf (s : State) (i : Instr) : Option Nat :=
  if isCommand i then some 4
  else match i with
  | .submitDoorbell p _ rcb => some (if held s rcb then 7 + p else 5 + p)
  | .faultDoorbell p _ _ => some (5 + p)
  | .hostMemoryWrite p _ _ => some (5 + p)
  | .hostMemoryRead p _ _ => some (5 + p)
  | .heartbeat p => some (5 + p)
  | .mailboxWrite p _ _ => some (5 + p)
  | i => (stepNode i).map fun n => nodeDie s n.1 n.2

/-- The pending step that moves when the one at k is chosen: the first of its lane. -/
def firstOfLane (s : State) (k : Nat) : Nat :=
  match s.pending[k]? with
  | none => k
  | some i => match laneOf s i with
    | none => k
    | some x => (s.pending.findIdx? fun j => laneOf s j == some x).getD k

/-- A step that waits lets the other lanes go by and stays the first of its own. -/
def pendLane (self : Instr) (s : State) : State :=
  let same (i : Instr) : Bool := laneOf s i == laneOf s self
  { s with pending := s.pending.filter (fun i => !same i) ++ self :: s.pending.filter same }

/-- Steps that are due before all that are pending. -/
def pendFirst (l : List Instr) (s : State) : State := { s with pending := l ++ s.pending }

/-- What an event at a resting die does: the die leaves its rest depth first (R431). -/
def waking (die : Nat) (self : Instr) (f : State → State) (s : State) : State :=
  if vget s.depth die = 0 then f s
  else pendFirst (if s.pending.contains (.restExit die) then [self] else [.restExit die, self]) s

/-! Doorbells (R386, R64, R451). -/

/-- The submit doorbell of a die. It waits behind a checkpoint that holds the RCB (R437). -/
def submitDoorbell (port die rcb : Nat) (s : State) : State :=
  if !s.booted || ctxHost s (rcbCtx s rcb) != port then ignore s
  else waking die (.submitDoorbell port die rcb)
    (fun s => if held s rcb then pendLane (.submitDoorbell port die rcb) s
      else if rcbKind s rcb == 1 || rcbKind s rcb == 2 then submit rcb s else s) s

/-- The fault doorbell of a die: accepted from the owner of the slot's context. -/
def faultDoorbell (port die slot : Nat) (s : State) : State :=
  match anyRoot s with
  | none => ignore s
  | some root =>
    let base := fqBase s root die
    let ctx := slotWord s base slot 2
    let free := bits (slotWord s base slot 0) 60 4 == 0
    if !s.booted || (!free && ctxHost s ctx != port) then ignore s
    else waking die (.faultDoorbell port die slot) (doorbell root (if free then root else ctx) die slot) s

/-! Liveness (R451). -/

def beat (port : Nat) (s : State) : State := modPort port (fun p => { p with alive := true, failed := false, lastBeat := s.now }) s

/-- HOST of a context flipped. -/
def flipHost (ctx : Nat) (s : State) : State :=
  let w := rcbWord s ctx 0
  physPut none ctx 8 (if bitAt w 44 then w - 2 ^ 44 else w + 2 ^ 44) s

/-- Does an access go to the aperture of a host? -/
def toHost (s : State) (port pa : Nat) : Bool := paKind s pa == .host port

/-- The notices of unresolved slots of contexts that a host served, repeated to a port. -/
def repeatNotices (ctxs : List Nat) (port : Nat) (s : State) : State :=
  (List.range 4).foldl (fun s die =>
    (ctxs.filter fun c => rcbWord s c 9 == 0).foldl (fun s c =>
      let base := queueBase s c die
      ((occupied s base).filter fun i => slotWord s base i 2 == c).foldl (fun s i => send (.irq port die 0 i) s) s) s) s

/-- A host fails: the other port takes its contexts, and accesses to its aperture fail. -/
def failHost (port : Nat) (s : State) : State :=
  let mine := ctxsOf s port
  let s := modPort port (fun p => { p with alive := false, failed := true }) s
  let s := mine.foldl (fun s c => flipHost c s) s
  let s := repeatNotices mine (1 - port) (send (.irq (1 - port) (1 - port) 1 0) s)
  { s with ext := s.ext.map fun e => if toHost s port e.pa && e.got.isNone then { e with got := some none } else e }

/-- A host that has not failed has missed three heartbeat periods. -/
def beatsMissed (s : State) (port : Nat) : Bool :=
  let p := vget s.ports port
  !p.failed && decide (p.lastBeat + 3 * p.hbper.toNat * 1000000 ≤ s.now)

/-! The mailbox (R449, R450, R434). -/

/-- The step of a command code. -/
def commandOf (code port : Nat) : Option Instr :=
  match code with
  | 1 => some (.resync port)
  | 2 => some (.mailboxTlbinv port)
  | 3 => some (.setis port)
  | 4 => some (.handover port)
  | 5 => some (.attest port)
  | 6 => some (.setroute port)
  | 7 => some (.setwin port)
  | _ => none

/-- MBCMD written. -/
def writeCommand (port code : Nat) (s : State) : State :=
  if (vget s.ports port).busy then ignore s
  else if !s.booted && code != 5 then modPort port (fun p => { p with result := 3 }) s
  else match commandOf code port with
  | some i => pend [i] (modPort port (fun p => { p with busy := true }) s)
  | none => modPort port (fun p => { p with result := 1 }) s

/-- A command completes. -/
def commandDone (port : Nat) (result : Byte) (s : State) : State := modPort port (fun p => { p with busy := false, result := result }) s

/-- A word of the power control page written (R434). -/
def writePower (off x : Nat) (s : State) : State :=
  match off with
  | 0x00 => if 80 ≤ x ∧ x ≤ 105 then { s with tripC := BitVec.ofNat 8 x } else s
  | 0x08 => if 75 ≤ x ∧ x ≤ 100 then { s with tripD := BitVec.ofNat 8 x } else s
  | 0x10 => if 1 ≤ x ∧ x ≤ 32 then { s with panper := BitVec.ofNat 8 x } else s
  | 0x18 => if x < 2 ^ 32 then { s with lattol := BitVec.ofNat 32 x } else s
  | 0x20 => if x < 2 then { s with boost := x == 1 } else s
  | _ => s

/-- A write to the mailbox other than a doorbell. -/
def writeMailbox (port off : Nat) (x : Word) (s : State) : State :=
  match off with
  | 0x000 => writeCommand port (vbits x 0 8) s
  | 0x008 => modPort port (fun p => { p with arg0 := x }) s
  | 0x010 => modPort port (fun p => { p with arg1 := x }) s
  | 0x018 => modPort port (fun p => { p with arg2 := x }) s
  | 0x080 => beat port s
  | 0x088 => if 10 ≤ x.toNat ∧ x.toNat ≤ 10000 then modPort port (fun p => { p with hbper := BitVec.ofNat 16 x.toNat }) s else s
  | _ => if 0x1000 ≤ off then writePower (off - 0x1000) x.toNat s else s

/-- MAILBOX_WRITE: the doorbells of the dies lie at 0x040 and 0x060. The port's die leaves its rest depth (R431). -/
def mailboxWrite (port off : Nat) (x : Word) (s : State) : State :=
  if 0x040 ≤ off ∧ off < 0x060 ∧ off % 8 = 0 then submitDoorbell port ((off - 0x040) / 8) x.toNat s
  else if 0x060 ≤ off ∧ off < 0x080 ∧ off % 8 = 0 then faultDoorbell port ((off - 0x060) / 8) (vbits x 0 12) s
  else waking port (.mailboxWrite port off x) (writeMailbox port off x) s

/-- PORTSTAT of a port. -/
def portStat (s : State) (port : Nat) : Nat :=
  let o := vget s.ports (1 - port)
  b2n o.alive + 2 * b2n o.failed

/-- DEPTH and THROT of the power control page. -/
def depthWord (s : State) : Nat := ((List.range 4).map fun d => vget s.depth d * 2 ^ (3 * d)).sum
def throtWord (s : State) : Nat := ((List.range 24).map fun i => b2n (vget s.domains i).throttled * 2 ^ i).sum

/-- A register of the mailbox or of the power control page as a host reads it (R449, R434); none for one that is only written, and for
an offset that names none. -/
def readMailbox (s : State) (port off : Nat) : Option Nat :=
  let p := vget s.ports port
  match off with
  | 0x008 => some p.arg0.toNat
  | 0x010 => some p.arg1.toNat
  | 0x018 => some p.arg2.toNat
  | 0x020 => some (b2n p.busy * 2 ^ 63 + p.result.toNat)
  | 0x088 => some p.hbper.toNat
  | 0x090 => some (portStat s port)
  | 0x1000 => some s.tripC.toNat
  | 0x1008 => some s.tripD.toNat
  | 0x1010 => some s.panper.toNat
  | 0x1018 => some s.lattol.toNat
  | 0x1020 => some (b2n s.boost)
  | 0x1028 => some (depthWord s)
  | 0x1030 => some (throtWord s)
  | _ => none

/-! RESYNC (R452). Fields are of 8 bytes unless the sizes of the sections ask for less (log 50). -/

/-- Fields of 8 bytes, padded to n bytes. -/
def fieldsIn (n : Nat) (l : List Nat) : List Byte := ((l.flatMap (toBytes 8)) ++ List.replicate n 0).take n

def linkCode (l : LinkState) : Nat := if !l.up then 3 else if l.rewidth.isSome then 2 else b2n l.paused

/-- The lowest peer whose route holds a link; 32 for none. -/
def linkPeer (s : State) (i : Nat) : Nat := ((List.range 32).find? fun p => (vget s.routes p).getLsbD i).getD 32

def fqOccupied (s : State) (die : Nat) : List Nat :=
  match anyRoot s with
  | some r => occupied s (fqBase s r die)
  | none => []

/-- The 32 bytes of a fault-queue slot. -/
def slotBytes (s : State) (die i : Nat) : List Byte :=
  match anyRoot s with
  | some r => physBytes s (fqBase s r die + 32 * i) 32
  | none => List.replicate 32 0

/-- A copy-queue error record in 16 bytes. -/
def qerrBytes (e : QErr) : List Byte :=
  let (d, c, i, p, q) := match e.q with
    | .core pl q => (pl.die, pl.cl, pl.site, pl.part, q)
    | .front d => (d, 7, 0, 0, 0)
  mkBytes 16 [(0, 8, e.addr.toNat), (8, 1, e.cause), (9, 1, e.kind.toNat), (10, 1, d), (11, 1, c), (12, 1, i), (13, 1, p), (14, 1, q)]

/-- The control blocks that the device knows: those above its contexts and launches. -/
def knownRcbs (s : State) : List Nat := ((knownCtxs s ++ (s.launches.map (·.rcb)).filter (· != 0)).flatMap (rcbChain s)).eraseDups

/-- The error-log records that the known nodes hold, the latest first. -/
def logRecords (s : State) : List (List Byte) :=
  let all := ((knownRcbs s).filter fun r => rcbWord s r 10 != 0).flatMap fun r =>
    (List.range (min 128 (rcbWord s r 14))).map fun i => physBytes s (rcbWord s r 10 + 32 * i) 32
  let key (i : Nat) : Nat := 2 ^ 64 - field (all.getD i []) 24 8
  (sortByRank key (List.range all.length)).map fun i => all.getD i []

/-- The summary of R452. Counts of corrected errors are what the device has measured (log 13). -/
def resyncBytes (s : State) : List Byte :=
  let pad (n : Nat) (l : List Byte) : List Byte := (l ++ List.replicate n 0).take n
  let depth4 (d p : Nat) : List Byte :=
    toBytes 4 ((vget s.queue d).filter fun i => ((findLaunch s i).map (·.prio)) == some p).length ++
    toBytes 4 (s.launches.filter fun l => l.die == d && l.prio == p).length
  fieldsIn 256 [0x53594E43, 1, tickOf s 0, s.share, 1, 0, s.discarded, s.ignored, s.rejected] ++
  ((List.range 2).flatMap fun p =>
    fieldsIn 128 [b2n (vget s.ports p).alive + 2 * b2n (vget s.ports p).failed, s.now - (vget s.ports p).lastBeat, (ctxsOf s p).length]) ++
  ((List.range 16).flatMap fun i =>
    let l := vget s.wires i
    fieldsIn 64 [linkPeer s i, l.lanes, linkCode l, l.replays, l.pauses, l.downs]) ++
  fieldsIn 512 ([depthWord s, throtWord s] ++ s.clocks.toList ++ s.domains.toList.map (·.temp)) ++
  fieldsIn 1024 ((List.range 4).flatMap fun d => (List.range 5).flatMap fun k =>
    let t := (s.tasks.find? fun t => t.die == d && t.kind == k).getD { die := d, kind := k, count := 0, last := 0 }
    [t.count, t.last, Config.freeNat (s.free + 5 * d + k)]) ++
  pad 8192 (((List.range 4).flatMap fun d => toBytes 8 (fqOccupied s d).length) ++
    (((List.range 4).flatMap fun d => (fqOccupied s d).map fun i => slotBytes s d i).take 255).flatten) ++
  pad 2560 (((List.range 4).flatMap fun d => (List.range 16).flatMap (depth4 d)) ++ (s.qerrs.take 128).flatMap qerrBytes) ++
  pad 16384 (((knownRcbs s).take 512).flatMap fun r =>
    fieldsIn 32 [r, rcbKind s r + rcbWord s r 6 % 2 ^ 56 * 256, rcbWord s r 12, rcbWord s r 13]) ++
  pad 8192 ((logRecords s).take 256).flatten ++ List.replicate 27136 0

/-- A command runs when its port waits for it. -/
def command (port : Nat) (f : HostPort → State → State) (s : State) : State :=
  if (vget s.ports port).busy then f (vget s.ports port) s else s

def resync (port : Nat) : State → State := command port fun p s =>
  if p.arg0.toNat % 65536 ≠ 0 then commandDone port 2 s
  else
    let l := resyncBytes s
    commandDone port 0 (send (.bytes port p.arg0.toNat l) { s with free := s.free + 20 })

/-- TLBINV: as tlbinv (R58, R59), with the operand that stood in MBARG0 when it started (R450). -/
def mailboxTlbinv (port : Nat) : State → State := command port fun p s =>
  let x := p.taken.getD p.arg0
  let kind := vbits x 62 2
  let asid := BitVec.ofNat 16 (vbits x 46 16)
  let va := vbits x 0 36 * 65536
  if badTlbinv x then commandDone port 2 s
  else if inFlight kind asid va s then pendLane (.mailboxTlbinv port) (modPort port (fun p => { p with taken := some x }) s)
  else commandDone port 0 (modPort port (fun p => { p with taken := none }) (invalidate kind asid va s))

/-! SETIS (R90, R92). -/

/-- The die and the place in its stack of a DRAM address under a share. -/
def cellOf (share pa : Nat) : Nat × Nat :=
  if pa < 2 ^ 40 then (pa / 2 ^ 37, pa % 2 ^ 37)
  else
    let o := pa - 2 ^ 40
    (bits o 12 2, 96 * 2 ^ 30 - share * 2 ^ 34 + o / 2 ^ 14 * 2 ^ 12 + o % 2 ^ 12)

/-- The physical address of a place in a die's stack under a share. -/
def addrOf (share : Nat) (x : Nat × Nat) : Nat :=
  let low := 96 * 2 ^ 30 - share * 2 ^ 34
  if x.2 < low then x.1 * 2 ^ 37 + x.2
  else 2 ^ 40 + (x.2 - low) / 2 ^ 12 * 2 ^ 14 + x.1 * 2 ^ 12 + (x.2 - low) % 2 ^ 12

/-- The share changed: every byte stays in its place of its stack (log 51). -/
def setShare (n : Nat) (s : State) : State :=
  let move (pa : Nat) : Nat := addrOf n (cellOf s.share pa)
  { s with
    share := n, mem := s.mem.foldl (fun m c => sset 0 (move c.1) c.2 m) [],
    bad := s.bad.map (fun t => match t with
      | .phys pa => .phys (move pa)
      | t => t),
    l1 := [], stale := [], past := [], links := s.links.filter fun k => match k.line with
      | .glob _ => false
      | .spad _ _ => true }

def setis (port : Nat) : State → State := command port fun p s =>
  if 6 < p.arg0.toNat then commandDone port 2 s
  else if !(knownCtxs s).isEmpty then commandDone port 3 s
  else commandDone port 0 (setShare p.arg0.toNat s)

/-! The other commands. -/

/-- HANDOVER: the context passes to the other port; only its owner may ask. -/
def handover (port : Nat) : State → State := command port fun p s =>
  let r := p.arg0.toNat
  if r % 128 ≠ 0 ∨ !isDram s r ∨ rcbKind s r ≠ 1 then commandDone port 2 s
  else if ctxHost s r ≠ port then commandDone port 3 s
  else commandDone port 0 (flipHost r s)

/-- NFCOL of every MC. -/
def allNfcol : List Byte :=
  (List.range 512).map fun i => BitVec.ofNat 8 (faultyOf { die := i / 128, cl := i / 32 % 4, site := i % 32, part := 0 })

/-- The report of R454: the nonce, the firmware's digest, LVMAJ, LVMIN, FEAT (R20), NFCOL of every MC, the fuse state, and the signature.
Digest, fuses and signature are free (log 13). -/
def attestReport (s : State) (nonce : List Byte) : List Byte :=
  let open_ (at_ n : Nat) : List Byte := (List.range n).map fun i => Config.freeByte (s.free + at_ + i)
  nonce ++ open_ 0 64 ++ [1, 0, 0, 0] ++ allNfcol ++ open_ 64 (Config.freeNat s.free % 2941) ++ open_ 3005 512

/-- The 64-byte nonce at MBARG0 in host memory, read by an access of its own. -/
def askNonce (port : Nat) (a : Word) (s : State) : State :=
  let r : ExtReq :=
    { id := s.uids, owner := .mailbox port, va := vbits a 0 52, pa := 0x800000000000 + port * 2 ^ 46 + a.toNat % 2 ^ 46, n := 64, data := none,
      cls := 15, link := 16, got := none, kept := [] }
  { s with uids := s.uids + 1, ext := s.ext ++ [r] }

/-- ATTEST: the nonce is read, and then the report is written (R454). In the boot state RESULT stays 3 (R453). A nonce that cannot be read
is a bad argument (log 13). -/
def attest (port : Nat) : State → State := command port fun p s =>
  let done (r : Byte) (s : State) : State := commandDone port (if s.booted then r else 3) s
  match s.ext.find? fun e => e.owner == .mailbox port with
  | some e => match e.got with
    | none => pendLane (.attest port) s
    | some none => done 2 { s with ext := dropExt e.id s.ext }
    | some (some l) =>
      done 0 (send (.bytes port p.arg1.toNat (attestReport s ((l ++ List.replicate 64 0).take 64)))
        { s with ext := dropExt e.id s.ext, free := s.free + 3517 })
  | none => if p.failed then done 2 s else pendLane (.attest port) (askNonce port p.arg0 s)

def setroute (port : Nat) : State → State := command port fun p s =>
  if 32 ≤ p.arg0.toNat ∨ 2 ^ 16 ≤ p.arg1.toNat then commandDone port 2 s
  else commandDone port 0 { s with routes := vset s.routes p.arg0.toNat (BitVec.ofNat 16 p.arg1.toNat) }

def setwin (port : Nat) : State → State := command port fun p s =>
  let i := vbits p.arg0 0 8
  if 16 ≤ i ∨ 2 ^ 10 ≤ p.arg0.toNat then commandDone port 2 s
  else
    let w : Window := { base := p.arg1.toNat, size := p.arg2.toNat, read := p.arg0.getLsbD 8, write := p.arg0.getLsbD 9 }
    commandDone port 0 { s with windows := vset s.windows i w }

/-! Host and peer accesses (R41, R448). -/

/-- The contexts for which a weight-store byte may not be written by a host. -/
def guarded (s : State) (die off : Nat) : List Nat :=
  (knownCtxs s).filter fun c => cellarOwned s c die off &&
    (kernelExists s c || s.copies.any fun x => x.wsload && x.ctx == c)

/-- The first byte of a write that a context's guard keeps out. -/
def firstGuarded (s : State) (die off n ctx : Nat) : Option Nat :=
  ((List.range n).map (off + ·)).find? fun o => (guarded s die o).contains ctx

/-- Bytes written where a test allows. -/
def cellarBytes (die : Nat) (ok : Nat → Bool) : Nat → List Byte → State → State
  | _, [], s => s
  | off, b :: l, s => cellarBytes die ok (off + 1) l (if ok off then cellarWrite die off [b] s else s)

/-- A host write to the weight store, decided byte by byte. -/
def hostCellarWrite (die off : Nat) (l : List Byte) (s : State) : State :=
  let out := (knownCtxs s).filterMap fun c => (firstGuarded s die off l.length c).map fun o => (c, o)
  let t := cellarBytes die (fun o => decide (o < 0x30000000) && (guarded s die o).isEmpty) off l s
  let t := out.foldl (fun t x => logError die 4 0 (0xC * 2 ^ 60 + die * 2 ^ 56 + x.2) x.1 x.1 t) t
  if out.isEmpty then t else { t with discarded := t.discarded + 1 }

/-- Bytes written to DRAM by a party outside the device; bytes beyond it have no place. -/
def dramBytes : Nat → List Byte → State → State
  | _, [], s => s
  | pa, b :: l, s => dramBytes (pa + 1) l (if isDram s pa then physWrite none pa [b] s else s)

/-- A resting die that an access from outside has reached leaves its depth (log 47). -/
def wakeHome (pa : Nat) (s : State) : State :=
  let d := homeDie s pa
  if vget s.depth d = 0 then s else pend [.restExit d] s

/-- HOST_MEMORY_WRITE. -/
def hostWrite (t : Target) (l : List Byte) (s : State) : State :=
  match t with
  | .phys pa => wakeHome pa (dramBytes pa l s)
  | .cellar die off => wakeDie die (hostCellarWrite die off l s)
  | _ => s

/-- A range of DRAM that a party outside the device may read. -/
def readable (s : State) (pa n : Nat) : Bool := ((List.range n).all fun i => isDram s (pa + i)) && !badIn s pa n

/-- A host reads a 64-bit register at an offset of its mailbox; one that holds no value to read gives a free one (log 112). -/
def mailboxRead (port off : Nat) (s : State) : State :=
  match readMailbox s port off with
  | some x => send (.bytes port (2 ^ 48 + off) (toBytes 8 x)) s
  | none => send (.bytes port (2 ^ 48 + off) ((List.range 8).map fun i => Config.freeByte (s.free + i))) (useFree 8 s)

/-- HOST_MEMORY_READ: the bytes go to the host. From 2^48 on, beyond the physical addresses, the address is 2^48 plus an offset of the
port's mailbox (R449, R434; log 112). -/
def hostRead (port pa n : Nat) (s : State) : State :=
  if 2 ^ 48 ≤ pa then mailboxRead port (pa - 2 ^ 48) s
  else wakeHome pa (if readable s pa n then send (.bytes port pa (physBytes s pa n)) (settle s.stamp s) else s)

/-- A peer access lies in an inbound window that permits it. -/
def admitted (s : State) (pa n : Nat) (write : Bool) : Bool :=
  s.windows.any fun w => decide (w.base ≤ pa) && decide (pa + n ≤ w.base + w.size) && (if write then w.write else w.read)

/-- PEER_ACCESS: a write, which is acknowledged (R445), or a read of n bytes whose answer goes to the peer. -/
def peerAccess (peer pa n : Nat) (data : Option (List Byte)) (s : State) : State :=
  if !admitted s pa ((data.map (·.length)).getD n) data.isSome then
    send (.reply peer pa false) { s with rejected := s.rejected + 1 }
  else match data with
  | some l => send (.reply peer pa true) (wakeHome pa (dramBytes pa l s))
  | none => wakeHome pa (if readable s pa n then send (.bytes (2 + peer) pa (physBytes s pa n)) (settle s.stamp s) else s)

/-! Answers (R95, R445, R447). -/

/-- The answer to an access: its party takes it; a store that no party waits for is gone, and its failure at a host is recorded. -/
def answer (id : Nat) (got : Option (List Byte)) (s : State) : State :=
  match s.ext.find? fun e => e.id == id && e.got.isNone with
  | none => s
  | some e =>
    match e.owner with
    | .posted ctx die =>
      let s := { s with ext := dropExt id s.ext }
      if got.isNone && !(match paKind s e.pa with
        | .peer _ => true
        | _ => false) then logError die 0 0x06 e.pa 0 ctx s else s
    | o =>
      let s := { s with ext := modFirst (fun x => x.id == id) (fun x => { x with got := some got }) s.ext }
      match o with
      | .notice _ _ _ => retryNotices s
      | _ => s

/-- The access of a number goes to a peer; to a host. -/
def isPeerReq (s : State) (id : Nat) : Bool := s.ext.any fun e => e.id == id && match paKind s e.pa with
  | .peer _ => true
  | _ => false

def isStoreReq (s : State) (id : Nat) : Bool := s.ext.any fun e => e.id == id && e.data.isSome

/-! Links (R443 to R447). -/

def modWire (i : Nat) (f : LinkState → LinkState) (s : State) : State := { s with wires := vset s.wires i (f (vget s.wires i)) }

/-- A link sheds to 2 or 4 lanes, or widens. -/
def rewidth (link lanes : Nat) (s : State) : State :=
  if lanes = 2 ∨ lanes = 4 ∨ lanes = 8 then modWire link (fun l => if l.up then { l with rewidth := some lanes, paused := true } else l) s
  else s

def rewidthEnd (link : Nat) (s : State) : State :=
  modWire link (fun l => match l.rewidth with
    | some n => { l with lanes := n, rewidth := none, paused := false }
    | none => l) s

/-- A link is down: it leaves every route, and what it held is lost. -/
def downLink (link : Nat) (s : State) : State :=
  if 16 ≤ link ∨ !(vget s.wires link).up then s
  else
    let s := modWire link (fun l => { l with up := false, downs := l.downs + 1, rewidth := none }) s
    let s := { s with routes := s.routes.map fun r => putBit r link false }
    let lost := s.ext.filter fun e => e.link == link && e.got.isNone
    lost.foldl (fun s e => answer e.id none s) s

/-! The steps. -/

/-- SUBMIT_DOORBELL (R386, R451). -/
def execSubmitDoorbell (port die rcb : Nat) (s : State) : Host.Outcome State Fault Refusal := .next (submitDoorbell port die rcb s)

/-- FAULT_DOORBELL (R64, R65, R451). -/
def execFaultDoorbell (port die slot : Nat) (s : State) : Host.Outcome State Fault Refusal := .next (faultDoorbell port die slot s)

/-- HOST_MEMORY_WRITE (R41). -/
def execHostMemoryWrite (_port : Nat) (t : Target) (l : List (BitVec 8)) (s : State) : Host.Outcome State Fault Refusal :=
  .next (hostWrite t l s)

/-- HOST_MEMORY_READ (R137, R434, R449). -/
def execHostMemoryRead (port pa n : Nat) (s : State) : Host.Outcome State Fault Refusal := .next (hostRead port pa n s)

/-- HEARTBEAT (R449, R451). -/
def execHeartbeat (port : Nat) (s : State) : Host.Outcome State Fault Refusal := .next (waking port (.heartbeat port) (beat port) s)

/-- HOST_FAILED (R451): three heartbeat periods missed. -/
def execHostFailed (port : Nat) (s : State) : Host.Outcome State Fault Refusal :=
  .next (if beatsMissed s port then failHost port s else s)

/-- HOST_LINK_DOWN (R451). -/
def execHostLinkDown (port : Nat) (s : State) : Host.Outcome State Fault Refusal :=
  .next (if (vget s.ports port).failed then s else failHost port s)

/-- MAILBOX_WRITE (R449, R450, R434). -/
def execMailboxWrite (port off : Nat) (x : Word) (s : State) : Host.Outcome State Fault Refusal := .next (mailboxWrite port off x s)

/-- RESYNC (R452). -/
def execResync (port : Nat) (s : State) : Host.Outcome State Fault Refusal := .next (resync port s)

/-- MAILBOX_TLBINV (R450, R58). -/
def execMailboxTlbinv (port : Nat) (s : State) : Host.Outcome State Fault Refusal := .next (mailboxTlbinv port s)

/-- SETIS (R90, R450). -/
def execSetis (port : Nat) (s : State) : Host.Outcome State Fault Refusal := .next (setis port s)

/-- HANDOVER (R450, R451). -/
def execHandover (port : Nat) (s : State) : Host.Outcome State Fault Refusal := .next (handover port s)

/-- ATTEST (R454). -/
def execAttest (port : Nat) (s : State) : Host.Outcome State Fault Refusal := .next (attest port s)

/-- SETROUTE (R443). -/
def execSetroute (port : Nat) (s : State) : Host.Outcome State Fault Refusal := .next (setroute port s)

/-- SETWIN (R448). -/
def execSetwin (port : Nat) (s : State) : Host.Outcome State Fault Refusal := .next (setwin port s)

/-- PEER_ACCESS (R448). -/
def execPeerAccess (peer pa n : Nat) (l : Option (List (BitVec 8))) (s : State) : Host.Outcome State Fault Refusal :=
  .next (peerAccess peer pa n l s)

/-- PEER_STORE_ACK (R445). -/
def execPeerStoreAck (id : Nat) (s : State) : Host.Outcome State Fault Refusal :=
  .next (if isPeerReq s id && isStoreReq s id then answer id (some []) s else s)

/-- FLIT_REPLAY (R444). -/
def execFlitReplay (link : Nat) (s : State) : Host.Outcome State Fault Refusal :=
  .next (modWire link (fun l => { l with replays := l.replays + 1 }) s)

/-- PAUSE (R444). -/
def execPause (link : Nat) (s : State) : Host.Outcome State Fault Refusal :=
  .next (modWire link (fun l => { l with paused := true, pauses := l.pauses + 1 }) s)

/-- RESUME (R444). -/
def execResume (link : Nat) (s : State) : Host.Outcome State Fault Refusal :=
  .next (modWire link (fun l => { l with paused := false }) s)

/-- LINK_REWIDTH (R446). -/
def execLinkRewidth (link lanes : Nat) (s : State) : Host.Outcome State Fault Refusal := .next (rewidth link lanes s)

/-- LINK_REWIDTH_END (R446). -/
def execLinkRewidthEnd (link : Nat) (s : State) : Host.Outcome State Fault Refusal := .next (rewidthEnd link s)

/-- LINK_DOWN (R447). -/
def execLinkDown (link : Nat) (s : State) : Host.Outcome State Fault Refusal := .next (downLink link s)

/-- PEER_RESPONSE (R445, R447): data, or none for a rejection. -/
def execPeerResponse (id : Nat) (l : Option (List (BitVec 8))) (s : State) : Host.Outcome State Fault Refusal :=
  .next (if isPeerReq s id then answer id l s else s)

/-- HOST_APERTURE_COMPLETION (R95): data, or none for an error. -/
def execHostApertureCompletion (id : Nat) (l : Option (List (BitVec 8))) (s : State) : Host.Outcome State Fault Refusal :=
  .next (if isPeerReq s id then s else answer id l s)

end Sys2Proof.Machine
end

