-- ==== Sys2Proof/Machine/VecLong.lean ====
section
/-! DEFINITION. The long vector form (R271 to R273): its encoding checks, and the meaning of the short instruction it extends. -/

namespace Sys2Proof.Machine

open Sys2Proof

/-- Instructions with a 64-bit form (R273), by major, X and function field. -/
def hasWide (major x fn b : Nat) : Bool :=
  (0x30 ≤ major && major ≤ 0x3C) || (major == 0x3D && x == 0) || major == 0x3E || (0x40 ≤ major && major ≤ 0x45) || major == 0x47 ||
  (major == 0x46 && b != 3) || (0x4B ≤ major && major ≤ 0x4D) || (major == 0x4E && fn % 4 == 0)

/-- Majors whose B names a vector source, so that SB has a meaning (R271). -/
def hasVecB (major x fn : Nat) : Bool :=
  (0x30 ≤ major && major ≤ 0x3B) || (major == 0x3C && x == 0) || (0x40 ≤ major && major ≤ 0x45) || major == 0x47 ||
  (major == 0x4B && fn % 4 == 0)

/-- Majors in which X selects a mnemonic (R226). -/
def hasX (major : Nat) : Bool :=
  (0x30 ≤ major && major ≤ 0x3A) || (0x3C ≤ major && major ≤ 0x3E) || (0x40 ≤ major && major ≤ 0x44) || major == 0x47 ||
  major == 0x4C

/-- Majors in which FSUB holds a function or a condition (R272), and how many of its bits. -/
def fsubBits (major : Nat) : Nat :=
  if major = 0x3B ∨ major = 0x45 ∨ major = 0x49 ∨ major = 0x4A then 4
  else if major = 0x4B ∨ major = 0x4E ∨ major = 0x4F then 2 else 0

/-- Must-be-zero checks shared by every long vector form (R271, R272). -/
def longMbz (x : VecLong) : Option Nat :=
  let major := 0x30 + x.xop.toNat
  firstOf [
    failIf (x.ord != 0 || x.k != 0 || x.ef != 0 || x.pln != 0 || x.prnd != 0) 0x02,
    failIf (x.fsub.toNat / 2 ^ fsubBits major != 0) 0x02,
    failIf (!hasX major && x.x != 0) 0x02,
    failIf (x.sb == 1 && (!hasVecB major x.x.toNat x.fsub.toNat || x.ls.getLsbD 1)) 0x02]

/-- The DW check, and a further check of the instruction (R273): causes 0x01 come first (R228). -/
def longEnc (x : VecLong) (illegal mbz : Bool) : Option Nat :=
  firstOf [
    failIf (x.dw == 1 && !hasWide (0x30 + x.xop.toNat) x.x.toNat x.fsub.toNat x.b.toNat) 0x01,
    failIf illegal 0x01, longMbz x, failIf mbz 0x02]

/-- Bits [5:4] of a field that names a predicate. -/
def highPred (f : BitVec 6) : Bool := vbits f 4 2 != 0

/-- The predicate that a field names. -/
def predOf (f : BitVec 6) : Nat := f.toNat % 16

/-- Predicate logic (R285). -/
def predLogic (fn : Nat) (x y : Bool) : Bool :=
  match fn with
  | 0 => x && y
  | 1 => x || y
  | 2 => x != y
  | 3 => x && !y
  | 4 => !x
  | _ => x

/-- The meaning of a long form by its extended major. -/
def vLongMajor (x : VecLong) (v : VArgs) (s : State) : Host.Outcome State Fault Refusal :=
  let fn := x.fsub.toNat
  let noB := x.b != 0 || v.lb
  let noA := x.a != 0 || v.la
  let sel := x.x.toNat
  match v.major with
  | 0x3B => vCmp (predOf x.d) fn (longEnc x (decide (9 < fn)) (highPred x.d || v.nw)) v s
  | 0x3C => if sel = 0 then vSel (longEnc x false false) v s else vMov (longEnc x false noB) v s
  | 0x3D => if sel = 0 then vBcast (longEnc x false (noB || v.la)) v s else vId (longEnc x false (noA || noB)) v s
  | 0x3E =>
    if sel = 0 then vExt (longEnc x false (v.nw || v.lb || v.pm != 0)) v s
    else vIns (longEnc x false (v.la || v.lb || v.pm != 0)) v s
  | 0x3F => vCvt (longEnc x (decide (0x14 < x.b.toNat)) v.lb) v s
  | 0x45 => vFcmp (predOf x.d) fn (longEnc x (decide (7 < fn)) (highPred x.d || v.nw)) v s
  | 0x46 => vFun1 x.b.toNat (longEnc x (decide (13 < x.b.toNat)) v.lb) v s
  | 0x48 => vFcvt (vbits x.b 3 3) (vbits x.b 0 3)
      (longEnc x (decide (5 < vbits x.b 3 3) || decide (5 < vbits x.b 0 3) || vbits x.b 3 3 == vbits x.b 0 3) v.lb) v s
  | 0x49 =>
    let bad := v.la || v.lb || v.nw || highPred x.a || highPred x.d || (if fn ≤ 3 then highPred x.b else x.b != 0)
    vPred (predLogic fn) (predOf x.d) (predOf x.a) (predOf x.b) (longEnc x (decide (5 < fn)) bad) v s
  | 0x4A =>
    let bad := v.la || v.lb || v.nw || highPred x.a || x.b != 0
    match fn with
    | 0 => vPrefix beforeFirst (predOf x.d) (predOf x.a) (longEnc x false (bad || highPred x.d)) v s
    | 1 => vPrefix untilFirst (predOf x.d) (predOf x.a) (longEnc x false (bad || highPred x.d)) v s
    | 2 => vPrefix atFirst (predOf x.d) (predOf x.a) (longEnc x false (bad || highPred x.d)) v s
    | 3 => vPfirst (predOf x.a) (longEnc x false bad) v s
    | 4 => vPpopc (predOf x.a) (longEnc x false bad) v s
    | k => vPiota (predOf x.a) (longEnc x (decide (5 < k)) bad) v s
  | 0x4B =>
    match fn % 4 with
    | 0 => vShfl (longEnc x false false) v s
    | 1 => vShift laneXor (longEnc x false v.lb) v s
    | 2 => vShift laneUp (longEnc x false v.lb) v s
    | _ => vShift laneDown (longEnc x false v.lb) v s
  | 0x4C => vPack (sel == 1) (longEnc x false noB) v s
  | 0x4D => vRed x.b.toNat (longEnc x (decide (9 < x.b.toNat)) (v.lb || v.nw)) v s
  | 0x4E =>
    match fn % 4 with
    | 0 => vScan (vbits x.b 0 5) (x.b.getLsbD 5) (longEnc x (decide (6 < vbits x.b 0 5)) v.lb) v s
    | 1 => vBallot (predOf x.a) (longEnc x false (v.la || v.lb || v.nw || v.pm != 0 || highPred x.a)) v s
    | 2 => vVote (vbits x.b 0 2) (predOf x.a)
        (longEnc x (vbits x.b 0 2 == 3) (v.la || v.lb || v.nw || highPred x.a || vbits x.b 2 4 != 0)) v s
    | _ => vScan 0 false (longEnc x true false) v s
  | 0x4F =>
    match fn % 4 with
    | 0 => vMaxexp (vbits x.b 3 3) (vbits x.b 0 3) (longEnc x (vbits x.b 3 3 == 7) (v.lb || v.nw || x.d != 0)) v s
    | 1 => vQuant (vbits x.b 3 3) (vbits x.b 0 3) (longEnc x (vbits x.b 3 3 == 7) v.lb) v s
    | 2 => vDequant (vbits x.b 0 3) (longEnc x (vbits x.b 3 3 == 7) (v.lb || vbits x.b 3 3 != 0)) v s
    | _ => vDequant 0 (longEnc x true false) v s
  | m => if m < 0x3B then vInt sel (longEnc x false false) v s else vFp sel (longEnc x false false) v s

/-- A long vector form (R271). -/
def execVectorLongForm (e : Bool) (x : VecLong) (s : State) : Host.Outcome State Fault Refusal := vLongMajor x (longV e x) s

end Sys2Proof.Machine
end

