-- ==== Sys2Proof/Machine/Waits.lean ====
section
/-! DEFINITION. Waits that end (R193, R319, R361, R363), watched words (R318), the timeout of the rendezvous latch (R184) and the
watchdog (R394, R395). -/

namespace Sys2Proof.Machine

open Sys2Proof

/-! Waiting paths. -/

/-- The melded region that a path of a group belongs to. -/
def meldOf (g : Group) (p : Nat) : Option Meld := if g.sup then none else g.melds.find? fun m => m.a == p || m.b == p

/-- A waiting path may go on: its block stands still on a core, no run of its group is in progress, its group is not in fault-wait (R60),
in user mode no pre-emption stands, which keeps it stopped until its capture (R401), and in supervisor mode it is one of the paths that
the supervisor runs on. -/
def mayGoOn (s : State) (w : Who) : Bool :=
  let b := getBlock s w.uid
  let g := getGroup s w.uid w.gidx
  (findBlock s w.uid).isSome && b.res != .held && !b.transit && !inFaultWait g && !(b.preempt && !g.sup) &&
  !(s.running.any fun f => f.who.uid == w.uid && f.who.gidx == w.gidx) && (!g.sup || g.svPaths.getLsbD w.pidx)

/-- The state in which a path executes, as if a run of its group had it. -/
def focusOn (w : Who) (s : State) : State :=
  match meldOf (getGroup s w.uid w.gidx) w.pidx with
  | some m => { s with running := { who := { w with pidx := m.a }, side := w.pidx == m.b } :: s.running }
  | none => { s with running := { who := w, side := false } :: s.running }

def unfocus (s : State) : State := { s with running := s.running.tail }

/-- A waiting path is ready to issue its instruction again. -/
def wake (w : Who) (s : State) : State :=
  modPath w (fun p => match p.run with
    | .waiting _ _ => { p with run := .ready }
    | _ => p) s

/-- The instruction of a path that has waited is complete: in a melded region when both sides have done it (R173, R175). Where side a's
wait ends before side b has executed, the next run of the pair issues side b's execution, which belongs to no run's count: the run
starts behind the instruction (R221; DESIGN CHOICE, log 125). -/
def waitDone (w : Who) (len : Nat) (s : State) : State :=
  let g := getGroup s w.uid w.gidx
  match meldOf g w.pidx with
  | none => passWait w len s
  | some m =>
    let set (a b : Bool) (g : Group) : Group :=
      { g with melds := modFirst (fun x => x.a == m.a) (fun x => { x with doneA := a, doneB := b, startB := none, waited := a }) g.melds }
    let s := wake w s
    if w.pidx = m.a ∧ !m.doneB then modGroup w.uid w.gidx (set true false) s
    else
      let p := (stepPath len none false (getPath (getGroup s w.uid w.gidx) m.a)).1
      modGroup w.uid w.gidx (fun g => set false false (modPathIn m.b (samePc len none false p) (modPathIn m.a (fun _ => p) g))) s

/-- A wait looked at again with its captured operands: it is over, goes on, or the path traps or faults. -/
def lookAgain (w : Who) (len : Nat) (f : State → State × Act) (s : State) : State :=
  match f (focusOn w s) with
  | (t, .next) => waitDone w len (unfocus t)
  | (t, .trap c a k) => trapPath w c a k (unfocus t)
  | (t, .fault _ ft lv ea k) => enterFaultWait w len ft lv ea k (unfocus t)
  | (t, .domain c a o) => endBlockDomain (o.getD w.uid) c a (unfocus t)
  | (t, _) => unfocus t

/-- Is a path arrived in the latch with its group? -/
def inLatch (s : State) (w : Who) : Bool := (getBlock s w.uid).latch.any fun e => e.arrived.any fun m => m.gidx == w.gidx

/-- A wait whose condition holds now. Watched words and slots have their own steps. -/
def waitOver (s : State) (w : Who) (x : Wait) : Bool :=
  let b := getBlock s w.uid
  match x with
  | .bar k gen => (barrierHolder s w.uid k).all fun u => (getBar s u k).gen != gen
  | .iter d v => (iterAt s w.uid d).all fun y => !y.ult v
  | .ring r j want => (vget b.rings r).getLsbD j == want
  | .latch => !inLatch s w
  | .queues _ ids => !(ids.any (stillQueued s))
  | .queueFull q _ _ _ _ => decide ((onQueue s (queueAt b.place q)).length < 32) || (errAt s (queueAt b.place q)).isSome
  | .space packet _ _ _ => entryAvailable s b.place.die (packetRcb s (blockCtx s b) (packetOf packet))
  | _ => false

/-- What a waiting instruction does with its captured operands when its wait ends (R221): it completes, and the next run of the path
starts behind it. -/
def afterWait (x : Wait) : Option (State → State × Act) :=
  match x with
  | .bar k gen => some (barwaitOn (BitVec.ofNat 6 k) gen)
  | .iter d v => some (iwaitOn d v)
  | .ring r j want => some (stgwaitOn r j want)
  | .queues mask ids => some (queuesOn mask ids)
  | .queueFull q post desc cls scope => some (cpyOn q post desc cls scope)
  | .space packet addr d b => some (launchOn true packet addr d b)
  | _ => none

/-- WAIT_SATISFIED. A member whose latch entry is gone issues its instruction again. -/
def waitSatisfied (w : Who) (s : State) : State :=
  match (pathOf s w).run with
  | .waiting x len =>
    if !mayGoOn s w || !waitOver s w x then s
    else match afterWait x with
    | some f => lookAgain w len f s
    | none => wake w s
  | _ => s

/-- WAITW_RECHECK and WAITW_POLL: the watched word is read again. -/
def wordAgain (w : Who) (s : State) : State :=
  match (pathOf s w).run with
  | .waiting (.word ext a old d) len => if mayGoOn s w then lookAgain w len (waitwOn ext a old d) s else s
  | _ => s

/-! The rendezvous latch (R184). -/

/-- The timeout of an entry of a block has expired. While a pre-emption stands its members stay stopped (R401). -/
def latchExpired (b : Block) (e : LatchEntry) : Bool :=
  b.res == .resident && !b.preempt && e.tmo != 0 && decide (e.tmo * 1000 ≤ e.elapsed)

def gangTimeout (uid i : Nat) (s : State) : State :=
  match (getBlock s uid).latch[i]? with
  | some e => if latchExpired (getBlock s uid) e then failLatch uid e 0x0C 0 s else s
  | none => s

/-- The timeout of a latch entry counts (R184). -/
def latchCounts (b : Block) (e : LatchEntry) : Bool :=
  b.res == .resident && b.groups.all fun g => !e.members.getLsbD g.gidx || (!g.sup && g.paths.all fun p => match p.run with
    | .waiting (.fault _ _ _ _ _) _ => false
    | .waiting (.noSlot _ _ _ _ _) _ => false
    | _ => true)

/-! The watchdog (R394, R395). -/

/-- A service kernel resolves the faults of a context. -/
def served (s : State) (ctx : Nat) : Bool := rcbWord s ctx 9 != 0

/-- Internal waits of R193. -/
def internalWait (s : State) (ctx : Nat) (r : PathRun) : Bool :=
  match r with
  | .ready => false
  | .atJoin _ => true
  | .atMeld _ _ => true
  | .waiting (.word ext _ _ _) _ => !ext
  | .waiting (.fault _ _ _ _ _) _ => served s ctx
  | .waiting (.noSlot _ _ _ _ _) _ => served s ctx
  | .waiting _ _ => true

/-- The blocks of a context whose groups can wait. -/
def waitingBlocks (s : State) (ctx : Nat) : List Block := s.blocks.filter fun b => b.res != .held && blockCtx s b == ctx

/-- The access of a path is held now (R37, R87). -/
def holding (s : State) (w : Who) : Bool := s.holds.any fun x => x.1 == w && holdStands s x.2

def pathIn (b : Block) (g : Group) (p : Path) : Who := { uid := b.uid, gidx := g.gidx, pidx := p.idx }

/-- The path on which a group waits internally: one that waits before one that is parked. A group that a pre-emption has stopped waits
for its capture instead (R401; log 79), and one in fault-wait waits for its servicer alone (R67). -/
def internalPath (s : State) (ctx : Nat) (b : Block) (g : Group) : Option Path :=
  let waits (p : Path) : Bool := internalWait s ctx p.run || holding s (pathIn b g p)
  if b.preempt && !g.sup then none
  else if inFaultWait g then (if served s ctx then g.paths.find? fun p => faultWaiting p.run else none)
  else (g.paths.find? fun p => waits p && !parked p).orElse fun _ => g.paths.find? waits

/-- A copy of a context waits internally: in fault-wait on a slot that a service kernel serves, or with its unit held. -/
def copyInternal (s : State) (ctx : Nat) (c : Copy) : Bool :=
  c.ctx == ctx && !c.held && match c.run with
    | .fault _ _ _ _ _ => served s ctx
    | .noSlot _ _ _ _ _ => served s ctx
    | .queued => c.hold.any (holdStands s)
    | .performed => false

/-- The access of a path, or of the other side of its melded region, is held now. -/
def sideHolds (s : State) (b : Block) (g : Group) (p : Path) : Bool :=
  holding s (pathIn b g p) || (!g.sup && g.melds.any fun m => m.a == p.idx && holding s (pathIn b g (getPath g m.b)))

/-- A group has a ready path (R393) whose access is not held. A standing pre-emption leaves it ready. -/
def groupActive (s : State) (b : Block) (g : Group) : Bool :=
  !g.retired && g.paths.any fun p => pathReady g p && !sideHolds s b g p

/-- The watchdog of a context counts. -/
def watchdogCounts (s : State) (ctx : Nat) : Bool :=
  let bs := waitingBlocks s ctx
  ((bs.any fun b => b.groups.any fun g => (internalPath s ctx b g).isSome) || s.copies.any (copyInternal s ctx)) &&
  !(bs.any fun b => b.groups.any (groupActive s b))

/-- The count of a context. -/
def watchdogCount (s : State) (ctx : Nat) : Nat := kget 0 s.watchdog ctx

def watchdogDue (s : State) (ctx : Nat) : Bool := decide (effWdms s ctx * 1000000 ≤ watchdogCount s ctx) && watchdogCounts s ctx

/-- A waiting path traps with cause 0x10; what it held of its wait is given up. -/
def trapWaiting (w : Who) (s : State) : State := trapPath w 0x10 0 0 (leaveWait w s)

/-- A copy in an internal fault-wait stops in error. -/
def stopWaiting (c : Copy) (s : State) : State :=
  match c.run with
  | .fault d i _ ea _ => stopCopy c 0x10 ea 0 (leaveSlot c.ctx d i s)
  | .noSlot _ _ _ ea _ => stopCopy c 0x10 ea 0 s
  | _ => s

def watchdogFire (ctx : Nat) (s : State) : State :=
  if !watchdogDue s ctx then s
  else
    let who := (waitingBlocks s ctx).flatMap fun b => b.groups.filterMap fun g =>
      (internalPath s ctx b g).map fun p => ({ uid := b.uid, gidx := g.gidx, pidx := p.idx } : Who)
    let die := ((who.head?).map fun w => (getBlock s w.uid).place.die).getD 0
    let copies := s.copies.filter (copyInternal s ctx)
    let s := who.foldl (fun s w => trapWaiting w s) s
    let s := copies.foldl (fun s c => if s.copies.any fun x => x.id == c.id then stopWaiting c s else s) s
    logError die 6 0x10 0 ctx ctx { s with watchdog := kset ctx 0 s.watchdog }

/-- WAIT_SATISFIED (R193, R319, R361, R363, R59). -/
def execWaitSatisfied (w : Who) (s : State) : Host.Outcome State Fault Refusal := .next (waitSatisfied w s)

/-- WAITW_RECHECK (R318): a write to the word's line has performed. -/
def execWaitwRecheck (w : Who) (s : State) : Host.Outcome State Fault Refusal := .next (wordAgain w s)

/-- WAITW_POLL (R318): a word in an aperture is read again. -/
def execWaitwPoll (w : Who) (s : State) : Host.Outcome State Fault Refusal := .next (wordAgain w s)

/-- GANG_TIMEOUT (R184). -/
def execGangTimeout (uid entry : Nat) (s : State) : Host.Outcome State Fault Refusal := .next (gangTimeout uid entry s)

/-- WATCHDOG_FIRE (R395, R376). -/
def execWatchdogFire (ctx : Nat) (s : State) : Host.Outcome State Fault Refusal := .next (watchdogFire ctx s)

end Sys2Proof.Machine
end

