-- ==== Sys2Proof/Machine/Dispatch.lean ====
section
/-! DEFINITION. Every instruction of the table, one arm each: its meaning, or its rejection by name. -/

namespace Sys2Proof.Machine

open Sys2Proof

def exec (i : Instr) (s : State) : Host.Outcome State Fault Refusal :=
  match i with
  | .tlbinvAll w => Sys2Proof.Machine.execTlbinvAll w s
  | .tlbinvAsid w asid => Sys2Proof.Machine.execTlbinvAsid w asid s
  | .tlbinvPage w asid vpn => Sys2Proof.Machine.execTlbinvPage w asid vpn s
  | .faultSlotWaitRecord die n => Sys2Proof.Machine.execFaultSlotWaitRecord die n s
  | .faultDoorbell port die slot => Sys2Proof.Machine.execFaultDoorbell port die slot s
  | .runIssue pl role => Sys2Proof.Machine.execRunIssue pl role s
  | .waitSatisfied w => Sys2Proof.Machine.execWaitSatisfied w s
  | .waitwRecheck w => Sys2Proof.Machine.execWaitwRecheck w s
  | .waitwPoll w => Sys2Proof.Machine.execWaitwPoll w s
  | .gangTimeout uid entry => Sys2Proof.Machine.execGangTimeout uid entry s
  | .watchdogFire ctx => Sys2Proof.Machine.execWatchdogFire ctx s
  | .copyExecute q => Sys2Proof.Machine.execCopyExecute q s
  | .copyComplete q => Sys2Proof.Machine.execCopyComplete q s
  | .matrixQueueComplete pl => Sys2Proof.Machine.execMatrixQueueComplete pl s
  | .launchPacketCheck id => Sys2Proof.Machine.execLaunchPacketCheck id s
  | .placementStep die pick => Sys2Proof.Machine.execPlacementStep die pick s
  | .groupCapture uid gidx => Sys2Proof.Machine.execGroupCapture uid gidx s
  | .blockRetire uid => Sys2Proof.Machine.execBlockRetire uid s
  | .submitDoorbell port die rcb => Sys2Proof.Machine.execSubmitDoorbell port die rcb s
  | .nodeKernel ctx va => Sys2Proof.Machine.execNodeKernel ctx va s
  | .nodeCopy ctx va => Sys2Proof.Machine.execNodeCopy ctx va s
  | .nodeWsload ctx va => Sys2Proof.Machine.execNodeWsload ctx va s
  | .nodeCond ctx va => Sys2Proof.Machine.execNodeCond ctx va s
  | .nodeLoop ctx va => Sys2Proof.Machine.execNodeLoop ctx va s
  | .nodeSignal ctx va => Sys2Proof.Machine.execNodeSignal ctx va s
  | .nodeWait ctx va => Sys2Proof.Machine.execNodeWait ctx va s
  | .waitNodeRetest ctx va => Sys2Proof.Machine.execWaitNodeRetest ctx va s
  | .nodeEnd ctx va => Sys2Proof.Machine.execNodeEnd ctx va s
  | .ckptStart ctx va => Sys2Proof.Machine.execCkptStart ctx va s
  | .ckptCut ctx va => Sys2Proof.Machine.execCkptCut ctx va s
  | .ckptDrain ctx va => Sys2Proof.Machine.execCkptDrain ctx va s
  | .ckptCommit ctx va => Sys2Proof.Machine.execCkptCommit ctx va s
  | .ckptApply ctx va => Sys2Proof.Machine.execCkptApply ctx va s
  | .ckptApplyDone ctx va => Sys2Proof.Machine.execCkptApplyDone ctx va s
  | .ckptRestore ctx va => Sys2Proof.Machine.execCkptRestore ctx va s
  | .hostMemoryWrite port t bytes => Sys2Proof.Machine.execHostMemoryWrite port t bytes s
  | .hostMemoryRead port pa n => Sys2Proof.Machine.execHostMemoryRead port pa n s
  | .heartbeat port => Sys2Proof.Machine.execHeartbeat port s
  | .hostFailed port => Sys2Proof.Machine.execHostFailed port s
  | .hostLinkDown port => Sys2Proof.Machine.execHostLinkDown port s
  | .mailboxWrite port off val => Sys2Proof.Machine.execMailboxWrite port off val s
  | .resync port => Sys2Proof.Machine.execResync port s
  | .mailboxTlbinv port => Sys2Proof.Machine.execMailboxTlbinv port s
  | .setis port => Sys2Proof.Machine.execSetis port s
  | .handover port => Sys2Proof.Machine.execHandover port s
  | .attest port => Sys2Proof.Machine.execAttest port s
  | .setroute port => Sys2Proof.Machine.execSetroute port s
  | .setwin port => Sys2Proof.Machine.execSetwin port s
  | .peerAccess peer pa n bytes => Sys2Proof.Machine.execPeerAccess peer pa n bytes s
  | .peerStoreAck id => Sys2Proof.Machine.execPeerStoreAck id s
  | .flitReplay link => Sys2Proof.Machine.execFlitReplay link s
  | .pause link => Sys2Proof.Machine.execPause link s
  | .resume link => Sys2Proof.Machine.execResume link s
  | .linkRewidth link lanes => Sys2Proof.Machine.execLinkRewidth link lanes s
  | .linkRewidthEnd link => Sys2Proof.Machine.execLinkRewidthEnd link s
  | .linkDown link => Sys2Proof.Machine.execLinkDown link s
  | .linkCalibration link => Sys2Proof.Machine.execLinkCalibration link s
  | .dramCalibration die => Sys2Proof.Machine.execDramCalibration die s
  | .patrolScrub t => Sys2Proof.Machine.execPatrolScrub t s
  | .telemetry => Sys2Proof.Machine.execTelemetry s
  | .powerSample mw => Sys2Proof.Machine.execPowerSample mw s
  | .boostClassify => Sys2Proof.Machine.execBoostClassify s
  | .thermalSample dom temp => Sys2Proof.Machine.execThermalSample dom temp s
  | .panRotation die temps => Sys2Proof.Machine.execPanRotation die temps s
  | .panExchange die cl => Sys2Proof.Machine.execPanExchange die cl s
  | .panExchangeAbandon die cl => Sys2Proof.Machine.execPanExchangeAbandon die cl s
  | .panTransferEnd die cl => Sys2Proof.Machine.execPanTransferEnd die cl s
  | .bandPowerOff pl band => Sys2Proof.Machine.execBandPowerOff pl band s
  | .restEnter die => Sys2Proof.Machine.execRestEnter die s
  | .restExit die => Sys2Proof.Machine.execRestExit die s
  | .cellarRefreshStart die bg => Sys2Proof.Machine.execCellarRefreshStart die bg s
  | .cellarRefreshEnd die bg => Sys2Proof.Machine.execCellarRefreshEnd die bg s
  | .deviceReset good => Sys2Proof.Machine.execDeviceReset good s
  | .powerHintExpiry uid => Sys2Proof.Machine.execPowerHintExpiry uid s
  | .peerResponse id bytes => Sys2Proof.Machine.execPeerResponse id bytes s
  | .hostApertureCompletion id bytes => Sys2Proof.Machine.execHostApertureCompletion id bytes s
  | .sadd e d a b => Sys2Proof.Machine.execSadd e d a b s
  | .ssub e d a b => Sys2Proof.Machine.execSsub e d a b s
  | .sand e d a b => Sys2Proof.Machine.execSand e d a b s
  | .sandn e d a b => Sys2Proof.Machine.execSandn e d a b s
  | .sor e d a b => Sys2Proof.Machine.execSor e d a b s
  | .sxor e d a b => Sys2Proof.Machine.execSxor e d a b s
  | .sshl e d a b => Sys2Proof.Machine.execSshl e d a b s
  | .sshr e d a b => Sys2Proof.Machine.execSshr e d a b s
  | .ssra e d a b => Sys2Proof.Machine.execSsra e d a b s
  | .smin e d a b => Sys2Proof.Machine.execSmin e d a b s
  | .smax e d a b => Sys2Proof.Machine.execSmax e d a b s
  | .sminu e d a b => Sys2Proof.Machine.execSminu e d a b s
  | .smaxu e d a b => Sys2Proof.Machine.execSmaxu e d a b s
  | .smul e d a b => Sys2Proof.Machine.execSmul e d a b s
  | .smulh e d a b => Sys2Proof.Machine.execSmulh e d a b s
  | .smulhu e d a b => Sys2Proof.Machine.execSmulhu e d a b s
  | .sdiv e d a b => Sys2Proof.Machine.execSdiv e d a b s
  | .sdivu e d a b => Sys2Proof.Machine.execSdivu e d a b s
  | .srem e d a b => Sys2Proof.Machine.execSrem e d a b s
  | .sremu e d a b => Sys2Proof.Machine.execSremu e d a b s
  | .sseq e d a b => Sys2Proof.Machine.execSseq e d a b s
  | .ssne e d a b => Sys2Proof.Machine.execSsne e d a b s
  | .sslt e d a b => Sys2Proof.Machine.execSslt e d a b s
  | .ssltu e d a b => Sys2Proof.Machine.execSsltu e d a b s
  | .ssle e d a b => Sys2Proof.Machine.execSsle e d a b s
  | .ssleu e d a b => Sys2Proof.Machine.execSsleu e d a b s
  | .sclz e d a => Sys2Proof.Machine.execSclz e d a s
  | .sctz e d a => Sys2Proof.Machine.execSctz e d a s
  | .spopc e d a => Sys2Proof.Machine.execSpopc e d a s
  | .sbrev e d a => Sys2Proof.Machine.execSbrev e d a s
  | .ssext e d a w => Sys2Proof.Machine.execSsext e d a w s
  | .szext e d a w => Sys2Proof.Machine.execSzext e d a w s
  | .smov e d a => Sys2Proof.Machine.execSmov e d a s
  | .saddi e d a i1 => Sys2Proof.Machine.execSaddi e d a i1 s
  | .sandi e d a i1 => Sys2Proof.Machine.execSandi e d a i1 s
  | .sori e d a i1 => Sys2Proof.Machine.execSori e d a i1 s
  | .sxori e d a i1 => Sys2Proof.Machine.execSxori e d a i1 s
  | .sshli e d a n => Sys2Proof.Machine.execSshli e d a n s
  | .sshri e d a n => Sys2Proof.Machine.execSshri e d a n s
  | .ssrai e d a n => Sys2Proof.Machine.execSsrai e d a n s
  | .sslti e d a i1 => Sys2Proof.Machine.execSslti e d a i1 s
  | .ssltui e d a i1 => Sys2Proof.Machine.execSsltui e d a i1 s
  | .sli e d i1 => Sys2Proof.Machine.execSli e d i1 s
  | .slhi e d i1 => Sys2Proof.Machine.execSlhi e d i1 s
  | .sadr e d a b s1 => Sys2Proof.Machine.execSadr e d a b s1 s
  | .sadrPc e d b s1 => Sys2Proof.Machine.execSadrPc e d b s1 s
  | .sadrLoc e d a b s1 => Sys2Proof.Machine.execSadrLoc e d a b s1 s
  | .sadrCw e d a b s1 => Sys2Proof.Machine.execSadrCw e d a b s1 s
  | .sadrWs e d a b s1 => Sys2Proof.Machine.execSadrWs e d a b s1 s
  | .saluLongImm e d a fn imm hint => Sys2Proof.Machine.execSaluLongImm e d a fn imm hint s
  | .sliLong e d imm hint => Sys2Proof.Machine.execSliLong e d imm hint s
  | .slhiW e d imm hint => Sys2Proof.Machine.execSlhiW e d imm hint s
  | .sadrLong e d a fn imm hint => Sys2Proof.Machine.execSadrLong e d a fn imm hint s
  | .sfadd e d a b t => Sys2Proof.Machine.execSfadd e d a b t s
  | .sfsub e d a b t => Sys2Proof.Machine.execSfsub e d a b t s
  | .sfmul e d a b t => Sys2Proof.Machine.execSfmul e d a b t s
  | .sffma e d a b t => Sys2Proof.Machine.execSffma e d a b t s
  | .sfdiv e d a b t => Sys2Proof.Machine.execSfdiv e d a b t s
  | .sfsqrt e d a t => Sys2Proof.Machine.execSfsqrt e d a t s
  | .sfmin e d a b t => Sys2Proof.Machine.execSfmin e d a b t s
  | .sfmax e d a b t => Sys2Proof.Machine.execSfmax e d a b t s
  | .sfcmpEq e d a b t => Sys2Proof.Machine.execSfcmpEq e d a b t s
  | .sfcmpLt e d a b t => Sys2Proof.Machine.execSfcmpLt e d a b t s
  | .sfcmpLe e d a b t => Sys2Proof.Machine.execSfcmpLe e d a b t s
  | .sfcmpUn e d a b t => Sys2Proof.Machine.execSfcmpUn e d a b t s
  | .sfcvt e d a x y => Sys2Proof.Machine.execSfcvt e d a x y s
  | .br e o => Sys2Proof.Machine.execBr e o s
  | .bnz e s1 o => Sys2Proof.Machine.execBnz e s1 o s
  | .bz e s1 o => Sys2Proof.Machine.execBz e s1 o s
  | .call e o => Sys2Proof.Machine.execCall e o s
  | .jr e a => Sys2Proof.Machine.execJr e a s
  | .callr e a => Sys2Proof.Machine.execCallr e a s
  | .ret e => Sys2Proof.Machine.execRet e s
  | .loop e s1 o => Sys2Proof.Machine.execLoop e s1 o s
  | .rpt e s1 l n => Sys2Proof.Machine.execRpt e s1 l n s
  | .vbr e p t o => Sys2Proof.Machine.execVbr e p t o s
  | .vjoin e t => Sys2Proof.Machine.execVjoin e t s
  | .vmeld e t o => Sys2Proof.Machine.execVmeld e t o s
  | .vunmeld e t => Sys2Proof.Machine.execVunmeld e t s
  | .vexit e p => Sys2Proof.Machine.execVexit e p s
  | .vbrk e p => Sys2Proof.Machine.execVbrk e p s
  | .vany e d p m => Sys2Proof.Machine.execVany e d p m s
  | .vall e d p m => Sys2Proof.Machine.execVall e d p m s
  | .vnone e d p m => Sys2Proof.Machine.execVnone e d p m s
  | .vcfg e d n => Sys2Proof.Machine.execVcfg e d n s
  | .vgrant e d a => Sys2Proof.Machine.execVgrant e d a s
  | .vadd e d a b m l w => Sys2Proof.Machine.execVadd e d a b m l w s
  | .vsub e d a b m l w => Sys2Proof.Machine.execVsub e d a b m l w s
  | .vmul e d a b m l w => Sys2Proof.Machine.execVmul e d a b m l w s
  | .vmulh e d a b m l w => Sys2Proof.Machine.execVmulh e d a b m l w s
  | .vmulhu e d a b m l w => Sys2Proof.Machine.execVmulhu e d a b m l w s
  | .vmad e d a b m l w => Sys2Proof.Machine.execVmad e d a b m l w s
  | .vand e d a b m l w => Sys2Proof.Machine.execVand e d a b m l w s
  | .vor e d a b m l w => Sys2Proof.Machine.execVor e d a b m l w s
  | .vxor e d a b m l w => Sys2Proof.Machine.execVxor e d a b m l w s
  | .vandn e d a b m l w => Sys2Proof.Machine.execVandn e d a b m l w s
  | .vshl e d a b m l w => Sys2Proof.Machine.execVshl e d a b m l w s
  | .vshr e d a b m l w => Sys2Proof.Machine.execVshr e d a b m l w s
  | .vsra e d a b m l w => Sys2Proof.Machine.execVsra e d a b m l w s
  | .vrot e d a b m l w => Sys2Proof.Machine.execVrot e d a b m l w s
  | .vmin e d a b m l w => Sys2Proof.Machine.execVmin e d a b m l w s
  | .vmax e d a b m l w => Sys2Proof.Machine.execVmax e d a b m l w s
  | .vminu e d a b m l w => Sys2Proof.Machine.execVminu e d a b m l w s
  | .vmaxu e d a b m l w => Sys2Proof.Machine.execVmaxu e d a b m l w s
  | .vadds e d a b m l w => Sys2Proof.Machine.execVadds e d a b m l w s
  | .vsubs e d a b m l w => Sys2Proof.Machine.execVsubs e d a b m l w s
  | .vaddsu e d a b m l w => Sys2Proof.Machine.execVaddsu e d a b m l w s
  | .vsubsu e d a b m l w => Sys2Proof.Machine.execVsubsu e d a b m l w s
  | .vcmp e p c a b m l => Sys2Proof.Machine.execVcmp e p c a b m l s
  | .vsel e d a b m l w => Sys2Proof.Machine.execVsel e d a b m l w s
  | .vmov e d a m l w => Sys2Proof.Machine.execVmov e d a m l w s
  | .vbcast e d a m w => Sys2Proof.Machine.execVbcast e d a m w s
  | .vid e d m w => Sys2Proof.Machine.execVid e d m w s
  | .vext e d a b l => Sys2Proof.Machine.execVext e d a b l s
  | .vins e d a b w => Sys2Proof.Machine.execVins e d a b w s
  | .vcvt e d a c m l w => Sys2Proof.Machine.execVcvt e d a c m l w s
  | .vfadd e d a b m l w => Sys2Proof.Machine.execVfadd e d a b m l w s
  | .vfsub e d a b m l w => Sys2Proof.Machine.execVfsub e d a b m l w s
  | .vfmul e d a b m l w => Sys2Proof.Machine.execVfmul e d a b m l w s
  | .vfdiv e d a b m l w => Sys2Proof.Machine.execVfdiv e d a b m l w s
  | .vffma e d a b m l w => Sys2Proof.Machine.execVffma e d a b m l w s
  | .vffms e d a b m l w => Sys2Proof.Machine.execVffms e d a b m l w s
  | .vfnma e d a b m l w => Sys2Proof.Machine.execVfnma e d a b m l w s
  | .vfnms e d a b m l w => Sys2Proof.Machine.execVfnms e d a b m l w s
  | .vfmin e d a b m l w => Sys2Proof.Machine.execVfmin e d a b m l w s
  | .vfmax e d a b m l w => Sys2Proof.Machine.execVfmax e d a b m l w s
  | .vfcmp e p c a b m l => Sys2Proof.Machine.execVfcmp e p c a b m l s
  | .vfsqrt e d a m l w => Sys2Proof.Machine.execVfsqrt e d a m l w s
  | .vfrcp e d a m l w => Sys2Proof.Machine.execVfrcp e d a m l w s
  | .vfrsq e d a m l w => Sys2Proof.Machine.execVfrsq e d a m l w s
  | .vfexp2f e d a m l w => Sys2Proof.Machine.execVfexp2f e d a m l w s
  | .vfgetexp e d a m l w => Sys2Proof.Machine.execVfgetexp e d a m l w s
  | .vfgetman e d a m l w => Sys2Proof.Machine.execVfgetman e d a m l w s
  | .vfclass e d a m l w => Sys2Proof.Machine.execVfclass e d a m l w s
  | .vfabs e d a m l w => Sys2Proof.Machine.execVfabs e d a m l w s
  | .vfneg e d a m l w => Sys2Proof.Machine.execVfneg e d a m l w s
  | .vfround e d a m l w => Sys2Proof.Machine.execVfround e d a m l w s
  | .vfroundRne e d a m l w => Sys2Proof.Machine.execVfroundRne e d a m l w s
  | .vfroundRtz e d a m l w => Sys2Proof.Machine.execVfroundRtz e d a m l w s
  | .vfroundRdn e d a m l w => Sys2Proof.Machine.execVfroundRdn e d a m l w s
  | .vfroundRup e d a m l w => Sys2Proof.Machine.execVfroundRup e d a m l w s
  | .vfscaleb e d a b m l w => Sys2Proof.Machine.execVfscaleb e d a b m l w s
  | .vfsgnj e d a b m l w => Sys2Proof.Machine.execVfsgnj e d a b m l w s
  | .vfcvt e d a x y m l w => Sys2Proof.Machine.execVfcvt e d a x y m l w s
  | .vfcvtBlockToF32 e x => Sys2Proof.Machine.execVfcvtBlockToF32 e x s
  | .vfcvtF32ToBlock e x => Sys2Proof.Machine.execVfcvtF32ToBlock e x s
  | .vectorLongForm e x => Sys2Proof.Machine.execVectorLongForm e x s
  | .pand e d a b m => Sys2Proof.Machine.execPand e d a b m s
  | .por e d a b m => Sys2Proof.Machine.execPor e d a b m s
  | .pxor e d a b m => Sys2Proof.Machine.execPxor e d a b m s
  | .pandn e d a b m => Sys2Proof.Machine.execPandn e d a b m s
  | .pnot e d a m => Sys2Proof.Machine.execPnot e d a m s
  | .pmov e d a m => Sys2Proof.Machine.execPmov e d a m s
  | .psbf e d a m => Sys2Proof.Machine.execPsbf e d a m s
  | .psif e d a m => Sys2Proof.Machine.execPsif e d a m s
  | .psof e d a m => Sys2Proof.Machine.execPsof e d a m s
  | .pfirst e d a m => Sys2Proof.Machine.execPfirst e d a m s
  | .ppopc e d a m => Sys2Proof.Machine.execPpopc e d a m s
  | .piota e d a m => Sys2Proof.Machine.execPiota e d a m s
  | .vshfl e d a b m l => Sys2Proof.Machine.execVshfl e d a b m l s
  | .vshflx e d a b m l => Sys2Proof.Machine.execVshflx e d a b m l s
  | .vlup e d a b m l => Sys2Proof.Machine.execVlup e d a b m l s
  | .vldn e d a b m l => Sys2Proof.Machine.execVldn e d a b m l s
  | .vcompress e d a m l w => Sys2Proof.Machine.execVcompress e d a m l w s
  | .vexpand e d a m l w => Sys2Proof.Machine.execVexpand e d a m l w s
  | .vredSum e d a m l => Sys2Proof.Machine.execVredSum e d a m l s
  | .vredMin e d a m l => Sys2Proof.Machine.execVredMin e d a m l s
  | .vredMax e d a m l => Sys2Proof.Machine.execVredMax e d a m l s
  | .vredAnd e d a m l => Sys2Proof.Machine.execVredAnd e d a m l s
  | .vredOr e d a m l => Sys2Proof.Machine.execVredOr e d a m l s
  | .vredXor e d a m l => Sys2Proof.Machine.execVredXor e d a m l s
  | .vredFsumO e d a m l => Sys2Proof.Machine.execVredFsumO e d a m l s
  | .vredFsumU e d a m l => Sys2Proof.Machine.execVredFsumU e d a m l s
  | .vredFmin e d a m l => Sys2Proof.Machine.execVredFmin e d a m l s
  | .vredFmax e d a m l => Sys2Proof.Machine.execVredFmax e d a m l s
  | .vscan e d a x o m l => Sys2Proof.Machine.execVscan e d a x o m l s
  | .vballot e d a b => Sys2Proof.Machine.execVballot e d a b s
  | .vvoteAny e d a m => Sys2Proof.Machine.execVvoteAny e d a m s
  | .vvoteAll e d a m => Sys2Proof.Machine.execVvoteAll e d a m s
  | .vvoteCnt e d a m => Sys2Proof.Machine.execVvoteCnt e d a m s
  | .vmaxexp e a f k m l => Sys2Proof.Machine.execVmaxexp e a f k m l s
  | .vquant e d a f k m l => Sys2Proof.Machine.execVquant e d a f k m l s
  | .vdequant e d a k m l => Sys2Proof.Machine.execVdequant e d a k m l s
  | .sld e d a c w o => Sys2Proof.Machine.execSld e d a c w o s
  | .sst e d a c w o => Sys2Proof.Machine.execSst e d a c w o s
  | .vld e d a c m o => Sys2Proof.Machine.execVld e d a c m o s
  | .vst e d a c m o => Sys2Proof.Machine.execVst e d a c m o s
  | .vlds e d a b c m => Sys2Proof.Machine.execVlds e d a b c m s
  | .vsts e d a b c m => Sys2Proof.Machine.execVsts e d a b c m s
  | .vldx e d a b c m => Sys2Proof.Machine.execVldx e d a b c m s
  | .vstx e d a b c m => Sys2Proof.Machine.execVstx e d a b c m s
  | .vldff e d a c m o => Sys2Proof.Machine.execVldff e d a c m o s
  | .vldw e d a z s1 c m => Sys2Proof.Machine.execVldw e d a z s1 c m s
  | .vstw e d a z c m => Sys2Proof.Machine.execVstw e d a z c m s
  | .vldbp e d a c m s1 r k => Sys2Proof.Machine.execVldbp e d a c m s1 r k s
  | .vlseg e d a k f c m => Sys2Proof.Machine.execVlseg e d a k f c m s
  | .vsseg e d a k f c m => Sys2Proof.Machine.execVsseg e d a k f c m s
  | .vldgl e d a b c m => Sys2Proof.Machine.execVldgl e d a b c m s
  | .vstsc e d a b c m => Sys2Proof.Machine.execVstsc e d a b c m s
  | .vldglLong e x => Sys2Proof.Machine.execVldglLong e x s
  | .vstscLong e x => Sys2Proof.Machine.execVstscLong e x s
  | .sll e d a c w => Sys2Proof.Machine.execSll e d a c w s
  | .ssc e d a b c w => Sys2Proof.Machine.execSsc e d a b c w s
  | .memLongControlForm e x => Sys2Proof.Machine.execMemLongControlForm e x s
  | .memLongOffsetForm e d a xop sub off hint => Sys2Proof.Machine.execMemLongOffsetForm e d a xop sub off hint s
  | .fence e s1 m => Sys2Proof.Machine.execFence e s1 m s
  | .barinit e a b => Sys2Proof.Machine.execBarinit e a b s
  | .bararr e d a b => Sys2Proof.Machine.execBararr e d a b s
  | .barwait e a b => Sys2Proof.Machine.execBarwait e a b s
  | .ipost e a => Sys2Proof.Machine.execIpost e a s
  | .iwait e a d => Sys2Proof.Machine.execIwait e a d s
  | .stgpost e a r s1 => Sys2Proof.Machine.execStgpost e a r s1 s
  | .stgwait e a r p s1 => Sys2Proof.Machine.execStgwait e a r p s1 s
  | .claim e d a => Sys2Proof.Machine.execClaim e d a s
  | .waitw e d a b => Sys2Proof.Machine.execWaitw e d a b s
  | .waitwExt e d a b => Sys2Proof.Machine.execWaitwExt e d a b s
  | .tset e d a r p f => Sys2Proof.Machine.execTset e d a r p f s
  | .tget e d => Sys2Proof.Machine.execTget e d s
  | .tbands e d b => Sys2Proof.Machine.execTbands e d b s
  | .obres e h a b => Sys2Proof.Machine.execObres e h a b s
  | .obrel e h => Sys2Proof.Machine.execObrel e h s
  | .obfill e c a b h => Sys2Proof.Machine.execObfill e c a b h s
  | .obscale e c a k h => Sys2Proof.Machine.execObscale e c a k h s
  | .mlds e b a p h => Sys2Proof.Machine.execMlds e b a p h s
  | .mswap e => Sys2Proof.Machine.execMswap e s
  | .mrbnd e a => Sys2Proof.Machine.execMrbnd e a s
  | .mtag e a b => Sys2Proof.Machine.execMtag e a b s
  | .mma e c h a r p z => Sys2Proof.Machine.execMma e c h a r p z s
  | .mmaG e c h a r p z => Sys2Proof.Machine.execMmaG e c h a r p z s
  | .gangset e a => Sys2Proof.Machine.execGangset e a s
  | .mguide e d c u s1 p => Sys2Proof.Machine.execMguide e d c u s1 p s
  | .mzero e c => Sys2Proof.Machine.execMzero e c s
  | .maccLd e c a => Sys2Proof.Machine.execMaccLd e c a s
  | .maccSt e c a b => Sys2Proof.Machine.execMaccSt e c a b s
  | .mrd e v a b c => Sys2Proof.Machine.execMrd e v a b c s
  | .mwr e v a b c => Sys2Proof.Machine.execMwr e v a b c s
  | .rcount e a b => Sys2Proof.Machine.execRcount e a b s
  | .rcsnap e d a => Sys2Proof.Machine.execRcsnap e d a s
  | .matrixLongForm e xop body cls scope hint => Sys2Proof.Machine.execMatrixLongForm e xop body cls scope hint s
  | .cpy e q p a r s1 c => Sys2Proof.Machine.execCpy e q p a r s1 c s
  | .cpyLong e q p a r s1 cls scope x hint => Sys2Proof.Machine.execCpyLong e q p a r s1 cls scope x hint s
  | .qfence e m => Sys2Proof.Machine.execQfence e m s
  | .qwait e n => Sys2Proof.Machine.execQwait e n s
  | .qwaitClr e n => Sys2Proof.Machine.execQwaitClr e n s
  | .launch e d a b => Sys2Proof.Machine.execLaunch e d a b s
  | .launchW e d a b => Sys2Proof.Machine.execLaunchW e d a b s
  | .gsig e d a => Sys2Proof.Machine.execGsig e d a s
  | .gcond e a b => Sys2Proof.Machine.execGcond e a b s
  | .sysrd e d i1 => Sys2Proof.Machine.execSysrd e d i1 s
  | .syswr e d i1 => Sys2Proof.Machine.execSyswr e d i1 s
  | .syswrVcfg e d => Sys2Proof.Machine.execSyswrVcfg e d s
  | .fqdone e d => Sys2Proof.Machine.execFqdone e d s
  | .trap e c => Sys2Proof.Machine.execTrap e c s
  | .eret e => Sys2Proof.Machine.execEret e s
  | .brk e c => Sys2Proof.Machine.execBrk e c s
  | .icinvAll e => Sys2Proof.Machine.execIcinvAll e s
  | .icinv e a b => Sys2Proof.Machine.execIcinv e a b s
  | .yield e => Sys2Proof.Machine.execYield e s
  | .nop e => Sys2Proof.Machine.execNop e s
  | .halt e => Sys2Proof.Machine.execHalt e s
  | .pwrhint e a k => Sys2Proof.Machine.execPwrhint e a k s

end Sys2Proof.Machine
end

