-- ==== Sys2Proof/Machine/Due.lean ====
section
/-! DEFINITION. The steps of the device that are due in a state, in a fixed order; which of them comes next is data of the state
(Step.lean). And the passing of time. Steps that carry a reading or an act of the outside world stand in `pending`. -/

namespace Sys2Proof.Machine

open Sys2Proof

def dies : List Nat := List.range 4

/-- An access of a party stands at an aperture without its answer. -/
def asking (s : State) (o : ExtOwner) : Bool := s.ext.any fun e => e.owner == o && e.got.isNone

/-! Walkers. -/

/-- A KERNEL node that waits for an entry finds one (R382). -/
def kernelDue (s : State) (ctx va : Nat) : Bool :=
  match peek s ctx (nodeWord s ctx va 4) .read true with
  | some pa => entryAvailable s (nodeDie s ctx va) (packetRcb s ctx (packetOf (physBytes s pa 128)))
  | none => true

/-- Nodes that wait and can go on. -/
def nodesDue (s : State) : List Instr :=
  s.waits.filterMap fun w => match bits (nodeWord s w.1 w.2 0) 60 4 with
    | 1 => if kernelDue s w.1 w.2 then some (.nodeKernel w.1 w.2) else none
    | 3 => if kernelExists s w.1 then none else some (.nodeWsload w.1 w.2)
    | _ => none

/-- WAIT nodes look at their words again. -/
def retests (s : State) : List Instr :=
  (s.waits.filter fun w => bits (nodeWord s w.1 w.2 0) 60 4 == 7 && !asking s (.node w.1 w.2)).map fun w => .waitNodeRetest w.1 w.2

/-! Checkpoints. -/

/-- The step of a checkpoint that can go on. -/
def ckptDue (s : State) (c : Ckpt) : Option Instr :=
  if asking s (.ckpt c.ctx c.va) then none
  else match c.phase with
  | .skim => if skimWaits s c then none else some (.ckptCut c.ctx c.va)
  | .cut =>
    if cutDone s c || (residentsBeneath s c.rcb).any fun b => b.res == .resident && !b.preempt then some (.ckptCut c.ctx c.va) else none
  | .drain => if queueAhead s c then none else some (.ckptDrain c.ctx c.va)
  | .commit => some (.ckptCommit c.ctx c.va)
  | .apply => some (.ckptApply c.ctx c.va)
  | .applyDone => some (.ckptApplyDone c.ctx c.va)
  | .restoreApply => some (.ckptRestore c.ctx c.va)
  | .restoreAccept =>
    if c.got.length < cutCount c.record &&
        !entryAvailable s c.die (packetRcb s c.ctx (cutLaunch s c c.got.length).packet) then none
    else some (.ckptRestore c.ctx c.va)

/-! Waits. -/

/-- A watched word lies in an aperture. -/
def wordFar (s : State) (w : Who) (a : Word) : Bool :=
  tagOf a == 0 && ((peek s (blockCtx s (getBlock s w.uid)) a.toNat .read true).any fun pa => isAperture s pa)

/-- The step that can end a wait, if its condition holds. -/
def waitDue (s : State) (w : Who) (x : Wait) : Option Instr :=
  if !mayGoOn s w then none
  else match x with
  | .word ext a old d =>
    if wordFar s w a then none
    else match (waitwOn ext a old d (focusOn w s)).2 with
    | .wait _ => none
    | _ => some (.waitwRecheck w)
  | _ => if waitOver s w x then some (.waitSatisfied w) else none

/-- Watched words in apertures are read again. -/
def pollDue (s : State) (w : Who) (x : Wait) : Option Instr :=
  match x with
  | .word _ a _ _ => if mayGoOn s w && wordFar s w a && !asking s (.path w) then some (.waitwPoll w) else none
  | _ => none

/-- Waiters without a slot that would find one (R66). -/
def slotsDue (s : State) : List Instr :=
  dies.flatMap fun d => (List.range (slotless s d).length).filterMap fun n =>
    let open_ : Bool := match anyRoot s with
      | some r => (freeSlot s (fqBase s r d)).isSome
      | none => false
    if open_ then some (.faultSlotWaitRecord d n) else none

/-! Copies and the matrix queue. -/

/-- Queues with a copy on them. -/
def queuesInUse (s : State) : List QKey := ((s.copies.filter fun c => !c.held).map (·.q)).eraseDups

def copyDue (s : State) (q : QKey) : Option Instr :=
  match onQueue s q with
  | [] => none
  | c :: _ => match c.run with
    | .queued => if behindDrain s c || asking s (.copy c.id) then none else some (.copyExecute q)
    | .performed => some (.copyComplete q)
    | _ => none

/-- The first write of an operation is held with the scratchpad that it goes to (R37). -/
def writeHeld (s : State) (o : MatOp) : Bool :=
  match o.writes with
  | (.spad u _, _) :: _ => (getBlock s u).transit
  | _ => false

def matqDue (s : State) : List Instr :=
  ((s.matq.map (·.pl)).eraseDups).filterMap fun pl => match s.matq.find? fun o => o.pl == pl with
    | some o => if asking s (.matq o.id) || writeHeld s o then none else some (.matrixQueueComplete pl)
    | none => none

/-! Blocks. -/

/-- A group of a block that is being pre-empted can be captured, or the block's save can end. -/
def captureDue (s : State) (b : Block) : List Instr :=
  if !b.preempt || b.transit then []
  else
    ((b.groups.filter fun g => uncaptured g && groupStopped s b.uid g).map fun g => .groupCapture b.uid g.gidx) ++
    if savesEnded b && !(stillOut s b.uid && !(s.matq.any fun o => o.uid == b.uid)) then [.groupCapture b.uid 0] else []

/-- Dies on which a launch waits for a place. -/
def placeDue (s : State) (d : Nat) : Bool :=
  (queued s d).any fun l => mayPlace s l && (!(heldBlocks s l.id).isEmpty || !noMoreBlocks l)

def roles : List Role := [.c, .m, .v]

/-- Issue slots with a ready group and no run. -/
def runsDue (s : State) : List Instr :=
  (((residents s).map fun b => corePlace b.place).eraseDups).flatMap fun core => roles.filterMap fun r =>
    if slotBusy s core r || (readyOn s core r).isEmpty then none else some (.runIssue core r)

/-! The device's own housekeeping. -/

def refreshDue (s : State) (d : Nat) : List Instr :=
  (match openWindow s d with
    | some bg => if vget s.refreshing d = some bg then [] else [.cellarRefreshStart d bg]
    | none => []) ++
  (match vget s.refreshing d with
    | some bg => if openWindow s d = some bg then [] else [.cellarRefreshEnd d bg]
    | none => [])

def restDue (s : State) (d : Nat) : List Instr :=
  if dieIdle s d then (if vget s.depth d ≠ restDepth s then [.restEnter d] else []) else if vget s.depth d ≠ 0 then [.restExit d] else []

def panDue (s : State) (p : Pan) : Option Instr :=
  if p.moving then some (.panTransferEnd p.die p.cl)
  else if panGivenUp s p then some (.panExchangeAbandon p.die p.cl)
  else if panStill s p && !panBlocked s p then some (.panExchange p.die p.cl) else none

def bandsDue (s : State) : List Instr :=
  s.bands.flatMap fun e => (members (e.2 &&& ~~~ bandsOf s e.1) 4).map fun i => .bandPowerOff e.1 i

def hintsDue (s : State) : List Instr :=
  (s.blocks.filter fun b => b.hint.any fun h => h.expires.any fun t => decide (t ≤ tickOf s b.place.die)).map fun b => .powerHintExpiry b.uid

/-- A context has work: a launch, a copy of a node, or a node under way. -/
def hasWork (s : State) (c : Nat) : Bool :=
  (s.launches.any fun l => l.ctx == c) || (s.copies.any fun x => x.node.isSome && x.ctx == c) || (s.waits.any fun w => w.1 == c) ||
  (s.passes.any fun x => x.1.1 == c) || (s.completing.any fun x => x.1.1 == c) || (s.ckpts.any fun k => k.ctx == c) ||
  (s.pending.filterMap stepNode).any fun n => n.1 == c && decide (bits (nodeWord s n.1 n.2 0) 58 2 < 2)

/-- A place that holds an uncorrectable error and belongs to work that a scrub would end (R432, R96). -/
def scrubFinds (s : State) (t : Target) : Bool :=
  match t with
  | .spad u _ => (findBlock s u).isSome
  | .obuf u _ => (findBlock s u).isSome
  | .tile u _ _ => (findBlock s u).isSome
  | t => (ownersOf s t).any (hasWork s)

/-- Tasks of R432, rotation points of R428, samples of R422 and R425 and classifications of R424 whose interval has passed; readings are
what the sensors read (log 13). A pass of a patrol scrub over a die starts at the first byte of its cellar (log 113). -/
def tasksDue (s : State) (d : Nat) : List Instr :=
  let past (kind n : Nat) : Bool := decide (lastTask s d kind + n ≤ tickOf s d)
  (if past 1 500000000 then [.dramCalibration d] else []) ++
  (((List.range 16).filter fun i => dieLink d i && (vget s.wires i).up && decide (vget s.linkCal i + 10000000000 ≤ tickOf s d)).map
    fun i => .linkCalibration i) ++
  (if past 3 ((vget s.panNow d).toNat * 1000000) then [.panRotation d ((List.range 160).map fun i => Config.freeNat (s.free + i))]
   else []) ++
  (if scrubDue s d then [.patrolScrub (.cellar d 0)] else []) ++
  (((List.range 24).filter fun m => domainDie m == d && past (8 + m) 50000).map fun m => .thermalSample m (Config.freeNat s.free)) ++
  (if d = 0 ∧ past 6 100000 then [.powerSample (Config.freeNat s.free)] else []) ++
  (if d = 0 ∧ past 5 100000 then [.boostClassify] else [])

/-- The steps that the state makes due. -/
def due (s : State) : List Instr :=
  nodesDue s ++ (s.launches.filter fun l => !l.checked).map (fun l => .launchPacketCheck l.id) ++
  s.ckpts.filterMap (ckptDue s) ++ (allWaits s).filterMap (fun x => waitDue s x.1 x.2) ++ slotsDue s ++
  (queuesInUse s).filterMap (copyDue s) ++ matqDue s ++
  s.blocks.flatMap (fun b => ((List.range b.latch.length).filter fun i => (b.latch[i]?).any (latchExpired b)).map fun i => .gangTimeout b.uid i) ++
  ((knownCtxs s).filter (watchdogDue s)).map (fun c => .watchdogFire c) ++
  s.blocks.flatMap (captureDue s) ++ (s.blocks.filter (blockDone s)).map (fun b => .blockRetire b.uid) ++ runsDue s ++
  (dies.filter (placeDue s)).map (fun d => .placementStep d (Config.freeNat (s.free + d))) ++
  s.pans.filterMap (panDue s) ++ dies.flatMap (refreshDue s) ++ dies.flatMap (restDue s) ++ bandsDue s ++ hintsDue s ++
  ((List.range 16).filter fun i => (vget s.wires i).rewidth.isSome).map (fun i => .linkRewidthEnd i) ++
  ((List.range 2).filter (beatsMissed s)).map (fun p => .hostFailed p) ++ dies.flatMap (tasksDue s) ++
  (if tickOf s 0 < lastTask s 0 4 + 100000 then [] else [.telemetry]) ++
  (allWaits s).filterMap (fun x => pollDue s x.1 x.2) ++ retests s ++ (s.bad.filter (scrubFinds s)).map .patrolScrub

/-! Time. -/

/-- Latch entries count, and the watchdogs (R184, R394). -/
def passCounts (n : Nat) (s : State) : State :=
  { s with
    blocks := s.blocks.map (fun b => { b with
      latch := b.latch.map fun e => if latchCounts b e then { e with elapsed := e.elapsed + n } else e }),
    watchdog := ((knownCtxs s).filter (watchdogCounts s)).map (fun c => (c, watchdogCount s c + n)) }

/-- The windows of the cellar calendar as they stand now (R85). -/
def openWindows (s : State) : State := { s with refreshing := Vector.ofFn fun d => openWindow s d.val }

/-- Service launches whose packet or look-up meets an uncorrectable error end the domain of their context (R53, R96). -/
def hurtNotices (s : State) : State :=
  s.notices.foldl (fun s n => match serviceLaunch n.1 n.2.1 n.2.2 s with
    | (_, .domain c a _) => endDomain n.1 n.2.1 c a { s with notices := s.notices.filter fun x => x != n }
    | _ => s) s

/-- Time passes by a free amount (log 5). -/
def passTime (s : State) : State :=
  let n := Config.stepNanos s.steps
  hurtNotices (openWindows (passCounts n { s with now := s.now + n, steps := s.steps + 1 }))

end Sys2Proof.Machine
end

