-- ==== Sys2Proof/Machine/Step.lean ====
section
/-! DEFINITION. One step of the device: the instruction that the head run issues, or a step of the device, a host or a peer that
is due. `sched` says which: k below the number of runs in progress is that run, and the others count on through the steps that
are pending and due. With no entry left the first pending step moves, else the head run, else the first step that is due. -/

namespace Sys2Proof.Machine

/-- The head run issues one instruction: fetched, decoded and executed (R228). -/
noncomputable def issueNext (s : State) : Host.Outcome State Fault Refusal :=
  match fetchInstr s with
  | (s, .ok w) =>
    match decode w with
    | .ok i => exec i s
    | .illegal => .next (trapPath (wordPath w s) 0x01 0 0 s)
    | .mbz => .next (trapPath (wordPath w s) 0x02 0 0 s)
  | (s, .trap c a k) => .next (trapPath (curWho s) c a k s)
  | (s, .fault ft lv a k) => .next (finish { e := false, major := 0 } false (s, .fault (exPath s) ft lv a k))
  | (s, .stall) => .next s
  | (s, .domain c a o) => .next (endBlockDomain (o.getD (cur s).who.uid) c a s)

/-- Run k of the runs in progress brought to the head. -/
def rotate (k : Nat) (s : State) : State :=
  match s.running[k]? with
  | some f => { s with running := f :: s.running.eraseIdx k }
  | none => s

/-- Event k of the pending and due steps executed; an event that was pending is used up. -/
noncomputable def eventStep (k0 : Nat) (s : State) : Host.Outcome State Fault Refusal :=
  let k := firstOfLane s k0
  match s.pending[k]? with
  | some i => exec i { s with pending := s.pending.eraseIdx k }
  | none =>
    match (due s)[k - s.pending.length]? with
    | some i => exec i s
    | none => .next s

noncomputable def step (s0 : State) : Host.Outcome State Fault Refusal :=
  let s := passTime s0
  match s.sched with
  | k :: l =>
    let s := { s with sched := l }
    if k < s.running.length then issueNext (rotate k s) else eventStep (k - s.running.length) s
  | [] =>
    if s.pending.isEmpty && !s.running.isEmpty then issueNext s else eventStep 0 s

/-- The state with an instruction stored where the next step fetches: `nbits` bits of `w` as the opcode table numbers them, the
bits above zero. -/
def State.withFetchWord (s : State) (nbits w : Nat) : State := placeWord s (w % 2 ^ nbits)

end Sys2Proof.Machine
end

