-- ==== Sys2Proof/WellFormed.lean ====
section
/-! DEFINITION. Well-formed instructions: the field values that a constructor can carry, beyond the widths of its fields. A word
decodes to well-formed instructions only, and each of them is what its own words decode to. -/

namespace Sys2Proof

def placeWf (p : Place) : Bool :=
  decide (p.die < 4) && decide (p.cl < 5) && decide (p.site < 32) && decide (p.part < 3) && (p.part == 0 || p.cl == 4)

def queueWf : QKey → Bool
  | .core p q => placeWf p && decide (q < 8)
  | .front d => decide (d < 4)

def targetWf : Target → Bool
  | .phys pa => decide (pa < 2 ^ 48)
  | .cellar d o => decide (d < 4) && decide (o < 0x30000000)
  | .spad _ o => decide (o < 2 ^ 20)
  | .obuf _ o => decide (o < 2 ^ 18)
  | .tile _ t i => decide (t < 4) && decide (i < 2 ^ 14)

/-- Is it an instruction? -/
def Dec.isOk : Dec → Bool
  | .ok _ => true
  | _ => false

/-- Does the short body of a long matrix form decode (R227, R351)? -/
noncomputable def bodyOk (xop : BitVec 4) (body : BitVec 24) : Bool :=
  (decodeShort ((0x60 + xop.toNat) * 2 ^ 24 + body.toNat)).isOk

/-- The checks of words. -/
noncomputable def wordWf : Instr → Bool
  | .saluLongImm _ _ _ fn _ _ => decide (fn.toNat ≤ 0x19)
  | .sadrLong _ _ _ fn _ _ => decide (fn.toNat / 8 ≤ 4)
  | .sadr _ _ _ _ _ => true
  | .vectorLongForm _ x =>
    decide (x.xop.toNat < 0x20) && !(x.xop == 0x18 && x.ef != 0)
  | .vfcvtBlockToF32 _ x => decide (0x10 ≤ x.ef.toNat) && decide (x.ef.toNat ≤ 0x17)
  | .vfcvtF32ToBlock _ x => decide (0x10 ≤ x.ef.toNat) && decide (x.ef.toNat ≤ 0x17)
  | .vldglLong _ x => decide (x.scope.toNat < 6) && x.ps == 0
  | .vstscLong _ x => decide (x.scope.toNat < 6)
  | .memLongControlForm _ x => decide (x.xop.toNat ≤ 0xA) && decide (x.scope.toNat < 6)
  | .memLongOffsetForm _ _ _ xop _ _ _ => decide (0xB ≤ xop.toNat)
  | .matrixLongForm _ xop body _ scope _ => decide (xop.toNat < 0xC) && decide (scope.toNat < 6) && bodyOk xop body
  | .cpyLong _ _ _ _ _ _ _ scope _ _ => decide (scope.toNat < 6)
  | .syswr _ _ i => i != 0x002 && i != 0x051
  | _ => true

/-- The checks of the steps of the device, the hosts and the peers: numbers of units that exist. -/
def stepWf : Instr → Bool
  | .faultSlotWaitRecord d _ => decide (d < 4)
  | .faultDoorbell p d n => decide (p < 2) && decide (d < 4) && decide (n < 4096)
  | .runIssue pl _ => placeWf pl && pl.part == 0
  | .copyExecute q => queueWf q
  | .copyComplete q => queueWf q
  | .matrixQueueComplete pl => placeWf pl
  | .placementStep d _ => decide (d < 4)
  | .submitDoorbell p d _ => decide (p < 2) && decide (d < 4)
  | .hostMemoryWrite p t _ => decide (p < 2) && targetWf t
  | .hostMemoryRead p pa _ => decide (p < 2) && decide (pa < 2 ^ 48 + 0x10000)
  | .heartbeat p => decide (p < 2)
  | .hostFailed p => decide (p < 2)
  | .hostLinkDown p => decide (p < 2)
  | .mailboxWrite p off _ => decide (p < 2) && decide (off < 0x10000)
  | .resync p => decide (p < 2)
  | .mailboxTlbinv p => decide (p < 2)
  | .setis p => decide (p < 2)
  | .handover p => decide (p < 2)
  | .attest p => decide (p < 2)
  | .setroute p => decide (p < 2)
  | .setwin p => decide (p < 2)
  | .peerAccess p pa _ _ => decide (p < 32) && decide (pa < 2 ^ 41)
  | .flitReplay l => decide (l < 16)
  | .pause l => decide (l < 16)
  | .resume l => decide (l < 16)
  | .linkRewidth l n => decide (l < 16) && (n == 2 || n == 4 || n == 8)
  | .linkRewidthEnd l => decide (l < 16)
  | .linkDown l => decide (l < 16)
  | .linkCalibration l => decide (l < 16)
  | .dramCalibration d => decide (d < 4)
  | .patrolScrub t => targetWf t
  | .thermalSample d _ => decide (d < 24)
  | .panRotation d _ => decide (d < 4)
  | .panExchange d c => decide (d < 4) && decide (c < 5)
  | .panExchangeAbandon d c => decide (d < 4) && decide (c < 5)
  | .panTransferEnd d c => decide (d < 4) && decide (c < 5)
  | .bandPowerOff pl b => placeWf pl && decide (b < 4)
  | .restEnter d => decide (d < 4)
  | .restExit d => decide (d < 4)
  | .cellarRefreshStart d g => decide (d < 4) && decide (g < 16)
  | .cellarRefreshEnd d g => decide (d < 4) && decide (g < 16)
  | _ => true

/-- A well-formed instruction. -/
noncomputable def Instr.wf (i : Instr) : Bool := wordWf i && stepWf i

end Sys2Proof
end

