-- ==== Sys2Proof/Safety.lean ====
section
/-! DEFINITION. What claims presuppose of a state, and the invariant of the machine. -/

namespace Sys2Proof.Machine

open Sys2Proof

/-- A group holds an issue slot, and its run is the one that issues next. -/
def Issues (s : State) : Prop := s.running ≠ []

/-- The path that a `Who` names is a live path of a group of a block of the device. -/
def Lives (s : State) (w : Who) : Prop :=
  ∃ b g p, findBlock s w.uid = some b ∧ findGroup b w.gidx = some g ∧ findPath g w.pidx = some p

/-- The executing path exists. -/
def Runs (s : State) : Prop := Issues s ∧ Lives s (curWho s)

/-- The executing path is in no repeat frame. -/
def NoFrame (s : State) : Prop := (curPath s).rpt = none

/-- The executing path stands in no melded region. -/
def Alone (s : State) : Prop := curMeld s = none

/-- The executing group has a role. -/
def InRole (r : Role) (s : State) : Prop := (curGroup s).role = r

/-- The executing group is in supervisor mode. -/
def Supervisor (s : State) : Prop := (curGroup s).sup = true

/-- The executing group is in user mode. -/
def User (s : State) : Prop := (curGroup s).sup = false

/-- The invariant of every step: physical memory and the weight stores stand in their canonical form. -/
def Inv (s : State) : Prop := Memory.wf s.mem = true ∧ ∀ d : Nat, swf (0 : Byte) (vget s.cellar d) = true

end Sys2Proof.Machine
end

