-- ==== Sys2Proof/Certificates/Slice0/Obligations.lean ====
section
/-! DEFINITION. The statements for the provers. The rule tables below say once more, from the spec's tables and in other words than
the machine's where the rule allows it, what the instructions of a family compute. -/

open Sys2Proof Sys2Proof.Machine

namespace Sys2Proof.Rules

/-! Encodings. -/

/-- Majors that R224 marks with a dash. -/
def reservedMajor (m : Nat) : Bool :=
  (decide (0x0B ≤ m) && decide (m ≤ 0x1F)) || (decide (0x2D ≤ m) && decide (m ≤ 0x2F)) ||
  (decide (0x74 ≤ m) && decide (m ≤ 0x77)) || decide (0x7C ≤ m)

/-- Instruction words and what they stand for: the five encodings that R234 gives in its worked example, and words laid out by
hand from the formats of R216 with the majors of R224. -/
noncomputable def writtenWords : List (Nat × Instr) :=
  [ (0x41101080, .vfmul false 4 1 2 0 0 0),
    (0x401400D4, .vfadd false 5 0 3 1 1 0),
    (0x01249FFF, .saddi false 9 9 0xFFF),
    (0x2127FFFD, .bnz false 9 0x3FFFD),
    (0xC0185048, .vfadd true 6 5 1 0 2 0),
    -- SR: D [23:18], A [17:12], B [11:6], FN [5:0]; ssub is FN 0x01, sfcvt FN 0x18 with dt, st in B
    (0x00 * 2 ^ 24 + 1 * 2 ^ 18 + 2 * 2 ^ 12 + 3 * 2 ^ 6 + 0x01, .ssub false 1 2 3),
    (2 ^ 31 + 0x0A * 2 ^ 24 + 1 * 2 ^ 18 + 2 * 2 ^ 12 + (1 * 8 + 0) * 2 ^ 6 + 0x18, .sfcvt true 1 2 1 0),
    -- SU: D [23:18], IMM18; BR: OFF24
    (0x07 * 2 ^ 24 + 9 * 2 ^ 18 + 0x3FFFF, .sli false 9 0x3FFFF),
    (0x20 * 2 ^ 24 + 0xFFFFFF, .br false 0xFFFFFF),
    -- VC: PD [23:20], CND [19:16], A [15:10], B [9:4], PM [3:2], LS [1:0]
    (0x3B * 2 ^ 24 + 2 * 2 ^ 20 + 5 * 2 ^ 16 + 6 * 2 ^ 10 + 7 * 2 ^ 4 + 1 * 2 ^ 2 + 0, .vcmp false 2 5 6 7 1 0),
    -- M: D [23:18], A [17:12], CLS [11:8], PM or width [7:6], OFF6 [5:0]
    (0x50 * 2 ^ 24 + 8 * 2 ^ 18 + 9 * 2 ^ 12 + 3 * 2 ^ 8 + 2 * 2 ^ 6 + 0x3F, .sld false 8 9 3 2 0x3F),
    -- SI: sysrd takes the system register's index as IMM12
    (0x70 * 2 ^ 24 + 4 * 2 ^ 18 + 0x010, .sysrd false 4 0x010),
    -- LX: the long constant, LK = 1 and IMM = 0x8000_0001; HINT 5
    (0x78 * 2 ^ 24 + 3 * 2 ^ 18 + 1 * 2 ^ 4 + 0x8 + 2 ^ 32 * (5 * 2 ^ 28 + 1), .sliLong false 3 0x80000001 5) ]

end Sys2Proof.Rules

open Sys2Proof.Rules

/-- R216, R224 to R227 with the encoding tables of every chapter: the bytes of a well-formed instruction, least significant first,
followed by anything, decode to that instruction and leave the rest. -/
def Obligations.DecodeOfEncodedBytesIsTheInstruction : Prop :=
  ∀ (i : Instr) (rest : List Byte), i.hasWord = true → i.wf = true →
    decodeBytes (bytesOf i.size (encode i) ++ rest) = some (.ok i, rest)

/-- The other direction: a word has one meaning. What decodes is well-formed and encodes back to the very bits it was read from. -/
def Obligations.EncodeOfDecodedWordIsTheWord : Prop :=
  ∀ (w : Nat) (i : Instr), w < 2 ^ 64 → decode w = .ok i →
    i.hasWord = true ∧ i.wf = true ∧ encode i = w % 2 ^ (8 * i.size)

/-- Words written out bit by bit from the spec's encodings decode to the instructions they stand for. -/
def Sys2Proof.Rules.WrittenOutWordsDecode : Prop :=
  ∀ x ∈ writtenWords, decode x.1 = .ok x.2

/-- R224: a reserved major is no instruction, whatever the other bits are. -/
def Sys2Proof.Rules.ReservedMajorsDecodeToNothing : Prop :=
  ∀ w : Nat, reservedMajor (w / 2 ^ 24 % 2 ^ 7) = true → decode w = .illegal

/-! The step. -/

namespace Sys2Proof.Rules

/-- The state in which the step issues an instruction: time has passed, and the run that moves stands at the head. -/
def chosenRun (s : State) : Option State :=
  let t := passTime s
  match t.sched with
  | k :: l => if k < t.running.length then some (rotate k { t with sched := l }) else none
  | [] => if t.pending = [] ∧ t.running ≠ [] then some t else none

end Sys2Proof.Rules

/-- A step runs the decoded instruction: when the words fetched at the program counter of the run that moves decode to an instruction,
the step is that instruction's execution, and nothing else but the passing of time and the choice of the run. A word that decodes to no
instruction traps with cause 0x01, a nonzero must-be-zero bit with cause 0x02 (R228). It rests on the model's readings or choices of
log 2 and 5. -/
def Obligations.StepRunsTheDecodedInstruction : Prop :=
  ∀ (s t u : State) (w : Nat), chosenRun s = some t → fetchInstr t = (u, .ok w) →
    (∀ i, decode w = .ok i → step s = exec i u) ∧
    (decode w = .illegal → step s = .next (trapPath (wordPath w u) 0x01 0 0 u)) ∧
    (decode w = .mbz → step s = .next (trapPath (wordPath w u) 0x02 0 0 u))

/-- The words that are fetched are those that memory holds at the PC: where the PC is a good global address, its translation
succeeds, DRAM holds it without an error and the decoded-operation cache has no entry for it, a one-word instruction is the word
at that physical address, and a long form the words at it and at the translation of PC + 4. -/
def Sys2Proof.Rules.FetchReadsTheWordsAtThePc : Prop :=
  ∀ (s t t' : State) (pa ilv pa' ilv' : Nat),
    let env := curEnv 0 1 s
    let pc := (curPath s).pc
    (s.decoded.all fun x => !(x.core == corePlace env.pl && x.ctx == env.ctx && x.va == pc.toNat)) = true →
    pc.toNat < 2 ^ 52 →
    translate env.side env.ctx pc.toNat .exec env.sup s = (t, .ok pa ilv) →
    isAperture t pa = false → badRange t .phys pa 4 = false →
    (isLong (physRead t pa 4) = false → (fetchInstr s).2 = .ok (physRead t pa 4)) ∧
    (isLong (physRead t pa 4) = true → (pc + 4).toNat < 2 ^ 52 →
      translate env.side env.ctx (pc + 4).toNat .exec env.sup t = (t', .ok pa' ilv') →
      isAperture t' pa' = false → badRange t' .phys pa' 4 = false →
      (fetchInstr s).2 = .ok (physRead t pa 4 + 2 ^ 32 * physRead t' pa' 4))

/-- A step of the device, a host or a peer, once time has passed: the pending step that the schedule picks, the first of its lane, runs on the state
without it; without pending steps and runs, the first step that is due runs; and with nothing to do time passes. -/
def Sys2Proof.Rules.StepRunsThePendingOrDueStep : Prop :=
  ∀ (s : State) (i : Instr) (l : List Instr),
    let p := passTime s
    (p.sched = [] → p.pending = i :: l → step s = exec i { p with pending := l }) ∧
    (∀ (k : Nat) (q : List Nat), p.sched = k :: q → p.running.length ≤ k →
      let t := { p with sched := q }
      ∀ j : Instr, t.pending[firstOfLane t (k - p.running.length)]? = some j →
        step s = exec j { t with pending := t.pending.eraseIdx (firstOfLane t (k - p.running.length)) }) ∧
    (p.sched = [] → p.pending = [] → p.running = [] → due p = i :: l → step s = exec i p) ∧
    (p.sched = [] → p.pending = [] → p.running = [] → due p = [] → step s = .next p)

/-- The invariant holds right after reset. It rests on the model's readings or choices of log 1. -/
def Obligations.ResetMeetsTheMemoryInvariant : Prop := Inv State.reset

/-- Every step keeps physical memory and the weight stores in their canonical form, so that equal memories are equal data. It rests on
the model's readings or choices of log 1. -/
def Obligations.EveryStepKeepsTheMemoryInvariant : Prop :=
  ∀ s s' : State, Inv s → step s = .next s' → Inv s'

/-! What every instruction of the scalar, matrix and copy families shares: sides, registers, the next PC. -/

/-- R173, R175: outside a melded region an instruction executes once; in one, once for side a and then for side b, each against its
own path; a side that has completed is not executed again; and a trap of side b leaves side a's effect in place. -/
def Sys2Proof.Rules.EachSideExecutesOnce : Prop :=
  ∀ (h : Head) (body : State → State × Act) (s : State),
    (Alone s → perSide h body s = finish h false (body s)) ∧
    (∀ (m : Meld) (sa sb : State), curMeld s = some m → m.doneA = false → m.doneB = false →
      body (setSide false s) = (sa, .next) → body (setSide true (setDone true false sa)) = (sb, .next) →
      perSide h body s = advance h none false false sb) ∧
    (∀ (m : Meld) (sb : State), curMeld s = some m → m.doneA = true → m.doneB = false →
      body (setSide true (setDone true false s)) = (sb, .next) → perSide h body s = advance h none false false sb) ∧
    (∀ (m : Meld) (sa sb : State) (c : Nat) (a : Word) (k : BitVec 4), curMeld s = some m → m.doneA = false → m.doneB = false →
      body (setSide false s) = (sa, .next) → body (setSide true (setDone true false sa)) = (sb, .trap c a k) →
      perSide h body s = trapPath (curWho sb) c a k sb)

/-- R165, R166, R242, R257: a scalar write reaches the one register that the field names (after the frame's advance and the
renaming of a melded region); s0 discards it; every other register of the path, every other path, and memory stand; each written
map that the path holds gets the register's bit; and register 0 reads zero. -/
def Sys2Proof.Rules.ScalarWriteReachesOneRegister : Prop :=
  ∀ (s : State) (f : BitVec 6) (v : Word), Runs s →
    let t := wrS f v s
    (∀ r : Nat, r < 64 → sregVal (pathOf t (curWho s)) r =
      if r = 0 then 0 else if r = sregOf s f then v else sregVal (pathOf s (curWho s)) r) ∧
    (∀ (k : Fin 16) (r : Fin 64), ((pathOf t (curWho s)).maps[k]).getLsbD r =
      (((pathOf s (curWho s)).maps[k]).getLsbD r ||
        ((pathOf s (curWho s)).tokens.getLsbD k && decide (sregOf s f = r.val) && decide (r.val ≠ 0)))) ∧
    pathOf t (curWho s) = { pathOf s (curWho s) with regs := (pathOf t (curWho s)).regs, maps := (pathOf t (curWho s)).maps } ∧
    (∀ w : Who, w ≠ curWho s → pathOf t w = pathOf s w) ∧
    t = { s with blocks := t.blocks }

/-- R221 (rows 1 to 3), R220: what completes an instruction of a path alone, outside a frame and with no loop ending at its next
PC: the PC moves on by its length, or to the target of its transfer; the run ends when E is set, when it was the 24th instruction,
when a transfer was taken or when the instruction itself ends it, and only then; and nothing of the path but the PC changes. At the
end of a run the records of paths beyond the eight on chip are written to the group's path-stack slot, when it holds one (R398): that they are
written then is the model's reading of log 104. -/
def Sys2Proof.Rules.PcAdvancesAndTheRunEnds : Prop :=
  ∀ (h : Head) (target : Option Word) (ends : Bool) (s : State), Runs s → Alone s → NoFrame s → (curPath s).loops = [] →
    let t := advance h target false ends s
    let p := curPath s
    let x := target.getD (p.pc + BitVec.ofNat 64 h.len)
    let ended := h.e || ends || target.isSome || decide (24 ≤ (curGroup s).issued + 1)
    pathOf t (curWho s) = { p with pc := x } ∧
    (∀ w : Who, w ≠ curWho s → pathOf t w = pathOf s w) ∧
    (ended = true → t.running = s.running.tail ∧ (getGroup t (cur s).who.uid (cur s).who.gidx).bp = [] ∧
      (getGroup t (cur s).who.uid (cur s).who.gidx).issued = 0) ∧
    (ended = false → t.running = (setSide false s).running ∧
      (getGroup t (cur s).who.uid (cur s).who.gidx).issued = (curGroup s).issued + 1) ∧
    ∃ u : State, u = { s with blocks := u.blocks, running := u.running } ∧
      t = if ended then writeStackSlot (cur s).who.uid (cur s).who.gidx u else u

/-- R256: the loop stack after an instruction of a path whose PC would go to x. An entry at the path's call depth whose end is x
takes its back-edge while its count is above one, and is popped on the last pass; a transfer out of the body pops the entry; any
other entry stands. -/
def Sys2Proof.Rules.LoopEntriesTurnOrLeave : Prop :=
  ∀ (depth : Nat) (jumped : Bool) (x : Word) (t : LoopEntry) (l : List LoopEntry),
    loopStep depth jumped x [] = ([], x, false) ∧
    (t.depth = depth → x = t.stop → 1 < t.left.toNat →
      loopStep depth jumped x (t :: l) = ({ t with left := t.left - 1 } :: l, t.start, true)) ∧
    (t.depth = depth → x = t.stop → t.left.toNat ≤ 1 → loopStep depth jumped x (t :: l) = loopStep depth jumped x l) ∧
    (t.depth = depth → x ≠ t.stop → jumped = true → (x.toNat < t.start.toNat ∨ t.stop.toNat < x.toNat) →
      loopStep depth jumped x (t :: l) = loopStep depth jumped x l) ∧
    (t.depth ≠ depth ∨ (x ≠ t.stop ∧ (jumped = false ∨ (t.start.toNat ≤ x.toNat ∧ x.toNat ≤ t.stop.toNat))) →
      loopStep depth jumped x (t :: l) = (t :: l, x, false))

/-- R257: a repeat frame of `len` instructions runs n times: inside a pass the next instruction follows; after the last of a pass
the frame starts again with the pass counted up, which adds the stride once more to every register field; after the last pass it
is gone. A replay does not end the run. -/
def Sys2Proof.Rules.RepeatFrameReplays : Prop :=
  ∀ (p : Path) (f : RptFrame) (len : Nat), p.rpt = some f → p.loops = [] →
    (f.pos + 1 < f.len → stepPath len none false p = ({ p with rpt := some { f with pos := f.pos + 1 }, pc := p.pc + BitVec.ofNat 64 len }, false)) ∧
    (f.len ≤ f.pos + 1 → f.pass + 1 < f.n →
      stepPath len none false p = ({ p with rpt := some { f with pass := f.pass + 1, pos := 0 }, pc := f.start }, false)) ∧
    (f.len ≤ f.pos + 1 → f.n ≤ f.pass + 1 →
      stepPath len none false p = ({ p with rpt := none, pc := p.pc + BitVec.ofNat 64 len }, false)) ∧
    (∀ (s : State) (x : BitVec 6), curPath s = p → Alone s → sregOf s x = (x.toNat + f.pass * f.stride) % 64)

/-! Scalar integer instructions, address forming and scalar floating point. -/

namespace Sys2Proof.Rules

/-- The SALU functions of R243 with R244's division, on the numbers that the words stand for. -/
def aluRule (fn : Nat) (a b : Word) : Word :=
  match fn with
  | 0x00 => BitVec.ofNat 64 (a.toNat + b.toNat)
  | 0x01 => BitVec.ofInt 64 (a.toInt - b.toInt)
  | 0x02 => a &&& b
  | 0x03 => a &&& ~~~b
  | 0x04 => a ||| b
  | 0x05 => a ^^^ b
  | 0x06 => BitVec.ofNat 64 (a.toNat * 2 ^ (b.toNat % 64))
  | 0x07 => BitVec.ofNat 64 (a.toNat / 2 ^ (b.toNat % 64))
  | 0x08 => BitVec.ofInt 64 (a.toInt / 2 ^ (b.toNat % 64))
  | 0x09 => BitVec.ofInt 64 (min a.toInt b.toInt)
  | 0x0A => BitVec.ofInt 64 (max a.toInt b.toInt)
  | 0x0B => BitVec.ofNat 64 (min a.toNat b.toNat)
  | 0x0C => BitVec.ofNat 64 (max a.toNat b.toNat)
  | 0x0D => BitVec.ofNat 64 (a.toNat * b.toNat)
  | 0x0E => BitVec.ofInt 64 (a.toInt * b.toInt / 2 ^ 64)
  | 0x0F => BitVec.ofNat 64 (a.toNat * b.toNat / 2 ^ 64)
  | 0x10 => if b.toNat = 0 then BitVec.ofNat 64 0xFFFFFFFFFFFFFFFF else BitVec.ofInt 64 (a.toInt.tdiv b.toInt)
  | 0x11 => if b.toNat = 0 then BitVec.ofNat 64 0xFFFFFFFFFFFFFFFF else BitVec.ofNat 64 (a.toNat / b.toNat)
  | 0x12 => if b.toNat = 0 then a else BitVec.ofInt 64 (a.toInt.tmod b.toInt)
  | 0x13 => if b.toNat = 0 then a else BitVec.ofNat 64 (a.toNat % b.toNat)
  | 0x14 => if a.toNat = b.toNat then 1 else 0
  | 0x15 => if a.toNat = b.toNat then 0 else 1
  | 0x16 => if a.toInt < b.toInt then 1 else 0
  | 0x17 => if a.toNat < b.toNat then 1 else 0
  | 0x18 => if a.toInt ≤ b.toInt then 1 else 0
  | _ => if a.toNat ≤ b.toNat then 1 else 0

/-- The result of sadr (R247): the sum modulo 2^64 with the tag in place of its bits [63:60]. -/
def sadrRule (mode sc : Nat) (a b pc : Word) : Word :=
  let sh := b.toNat * 2 ^ sc
  let withTag (tag sum : Nat) : Word := BitVec.ofNat 64 (tag * 2 ^ 60 + sum % 2 ^ 64 % 2 ^ 60)
  match mode with
  | 0 => withTag (a.toNat / 2 ^ 60) (a.toNat + sh)
  | 1 => withTag 0x0 (pc.toNat + sh)
  | 2 => withTag 0xE (a.toNat + sh)
  | 3 => withTag 0xD (a.toNat % 32 * 2 ^ 20 + sh)
  | _ => withTag 0xC (a.toNat + sh)

/-- A field sign-extended, as a register value. -/
def immRule (i : BitVec n) : Word := BitVec.ofInt 64 i.toInt

/-- What an instruction that writes one scalar register presupposes and does: its head, its destination field, and the value as a
function of the state it reads (R243 to R248). -/
inductive ScalarRow : Instr → Head → BitVec 6 → (State → Word) → Prop where
  | sadd (e : Bool) (d a b : BitVec 6) : ScalarRow (.sadd e d a b)
      { e := e, major := 0x00 } d (fun s => aluRule 0x00 (rdS a s) (rdS b s))
  | ssub (e : Bool) (d a b : BitVec 6) : ScalarRow (.ssub e d a b)
      { e := e, major := 0x00 } d (fun s => aluRule 0x01 (rdS a s) (rdS b s))
  | sand (e : Bool) (d a b : BitVec 6) : ScalarRow (.sand e d a b)
      { e := e, major := 0x00 } d (fun s => aluRule 0x02 (rdS a s) (rdS b s))
  | sandn (e : Bool) (d a b : BitVec 6) : ScalarRow (.sandn e d a b)
      { e := e, major := 0x00 } d (fun s => aluRule 0x03 (rdS a s) (rdS b s))
  | sor (e : Bool) (d a b : BitVec 6) : ScalarRow (.sor e d a b)
      { e := e, major := 0x00 } d (fun s => aluRule 0x04 (rdS a s) (rdS b s))
  | sxor (e : Bool) (d a b : BitVec 6) : ScalarRow (.sxor e d a b)
      { e := e, major := 0x00 } d (fun s => aluRule 0x05 (rdS a s) (rdS b s))
  | sshl (e : Bool) (d a b : BitVec 6) : ScalarRow (.sshl e d a b)
      { e := e, major := 0x00 } d (fun s => aluRule 0x06 (rdS a s) (rdS b s))
  | sshr (e : Bool) (d a b : BitVec 6) : ScalarRow (.sshr e d a b)
      { e := e, major := 0x00 } d (fun s => aluRule 0x07 (rdS a s) (rdS b s))
  | ssra (e : Bool) (d a b : BitVec 6) : ScalarRow (.ssra e d a b)
      { e := e, major := 0x00 } d (fun s => aluRule 0x08 (rdS a s) (rdS b s))
  | smin (e : Bool) (d a b : BitVec 6) : ScalarRow (.smin e d a b)
      { e := e, major := 0x00 } d (fun s => aluRule 0x09 (rdS a s) (rdS b s))
  | smax (e : Bool) (d a b : BitVec 6) : ScalarRow (.smax e d a b)
      { e := e, major := 0x00 } d (fun s => aluRule 0x0A (rdS a s) (rdS b s))
  | sminu (e : Bool) (d a b : BitVec 6) : ScalarRow (.sminu e d a b)
      { e := e, major := 0x00 } d (fun s => aluRule 0x0B (rdS a s) (rdS b s))
  | smaxu (e : Bool) (d a b : BitVec 6) : ScalarRow (.smaxu e d a b)
      { e := e, major := 0x00 } d (fun s => aluRule 0x0C (rdS a s) (rdS b s))
  | smul (e : Bool) (d a b : BitVec 6) : ScalarRow (.smul e d a b)
      { e := e, major := 0x00 } d (fun s => aluRule 0x0D (rdS a s) (rdS b s))
  | smulh (e : Bool) (d a b : BitVec 6) : ScalarRow (.smulh e d a b)
      { e := e, major := 0x00 } d (fun s => aluRule 0x0E (rdS a s) (rdS b s))
  | smulhu (e : Bool) (d a b : BitVec 6) : ScalarRow (.smulhu e d a b)
      { e := e, major := 0x00 } d (fun s => aluRule 0x0F (rdS a s) (rdS b s))
  | sdiv (e : Bool) (d a b : BitVec 6) : ScalarRow (.sdiv e d a b)
      { e := e, major := 0x00 } d (fun s => aluRule 0x10 (rdS a s) (rdS b s))
  | sdivu (e : Bool) (d a b : BitVec 6) : ScalarRow (.sdivu e d a b)
      { e := e, major := 0x00 } d (fun s => aluRule 0x11 (rdS a s) (rdS b s))
  | srem (e : Bool) (d a b : BitVec 6) : ScalarRow (.srem e d a b)
      { e := e, major := 0x00 } d (fun s => aluRule 0x12 (rdS a s) (rdS b s))
  | sremu (e : Bool) (d a b : BitVec 6) : ScalarRow (.sremu e d a b)
      { e := e, major := 0x00 } d (fun s => aluRule 0x13 (rdS a s) (rdS b s))
  | sseq (e : Bool) (d a b : BitVec 6) : ScalarRow (.sseq e d a b)
      { e := e, major := 0x00 } d (fun s => aluRule 0x14 (rdS a s) (rdS b s))
  | ssne (e : Bool) (d a b : BitVec 6) : ScalarRow (.ssne e d a b)
      { e := e, major := 0x00 } d (fun s => aluRule 0x15 (rdS a s) (rdS b s))
  | sslt (e : Bool) (d a b : BitVec 6) : ScalarRow (.sslt e d a b)
      { e := e, major := 0x00 } d (fun s => aluRule 0x16 (rdS a s) (rdS b s))
  | ssltu (e : Bool) (d a b : BitVec 6) : ScalarRow (.ssltu e d a b)
      { e := e, major := 0x00 } d (fun s => aluRule 0x17 (rdS a s) (rdS b s))
  | ssle (e : Bool) (d a b : BitVec 6) : ScalarRow (.ssle e d a b)
      { e := e, major := 0x00 } d (fun s => aluRule 0x18 (rdS a s) (rdS b s))
  | ssleu (e : Bool) (d a b : BitVec 6) : ScalarRow (.ssleu e d a b)
      { e := e, major := 0x00 } d (fun s => aluRule 0x19 (rdS a s) (rdS b s))
  | smov (e : Bool) (d a : BitVec 6) : ScalarRow (.smov e d a)
      { e := e, major := 0x00 } d (rdS a)
  | saddi (e : Bool) (d a : BitVec 6) (i : BitVec 12) : ScalarRow (.saddi e d a i)
      { e := e, major := 0x01 } d (fun s => aluRule 0x00 (rdS a s) (immRule i))
  | sandi (e : Bool) (d a : BitVec 6) (i : BitVec 12) : ScalarRow (.sandi e d a i)
      { e := e, major := 0x02 } d (fun s => aluRule 0x02 (rdS a s) (immRule i))
  | sori (e : Bool) (d a : BitVec 6) (i : BitVec 12) : ScalarRow (.sori e d a i)
      { e := e, major := 0x03 } d (fun s => aluRule 0x04 (rdS a s) (immRule i))
  | sxori (e : Bool) (d a : BitVec 6) (i : BitVec 12) : ScalarRow (.sxori e d a i)
      { e := e, major := 0x04 } d (fun s => aluRule 0x05 (rdS a s) (immRule i))
  | sshli (e : Bool) (d a n : BitVec 6) : ScalarRow (.sshli e d a n)
      { e := e, major := 0x05 } d (fun s => aluRule 0x06 (rdS a s) (BitVec.ofNat 64 n.toNat))
  | sshri (e : Bool) (d a n : BitVec 6) : ScalarRow (.sshri e d a n)
      { e := e, major := 0x05 } d (fun s => aluRule 0x07 (rdS a s) (BitVec.ofNat 64 n.toNat))
  | ssrai (e : Bool) (d a n : BitVec 6) : ScalarRow (.ssrai e d a n)
      { e := e, major := 0x05 } d (fun s => aluRule 0x08 (rdS a s) (BitVec.ofNat 64 n.toNat))
  | sslti (e : Bool) (d a : BitVec 6) (i : BitVec 11) : ScalarRow (.sslti e d a i)
      { e := e, major := 0x06 } d (fun s => aluRule 0x16 (rdS a s) (immRule i))
  | ssltui (e : Bool) (d a : BitVec 6) (i : BitVec 11) : ScalarRow (.ssltui e d a i)
      { e := e, major := 0x06 } d (fun s => aluRule 0x17 (rdS a s) (immRule i))
  | sli (e : Bool) (d : BitVec 6) (i : BitVec 18) : ScalarRow (.sli e d i)
      { e := e, major := 0x07 } d (fun _ => immRule i)
  | slhi (e : Bool) (d : BitVec 6) (i : BitVec 18) : ScalarRow (.slhi e d i)
      { e := e, major := 0x08 } d (fun s => BitVec.ofInt 64 (i.toInt * 2 ^ 18 + ((rdS d s).toNat % 2 ^ 18 : Nat)))
  | sadr (e : Bool) (d a b : BitVec 6) (c : BitVec 3) : ScalarRow (.sadr e d a b c)
      { e := e, major := 0x09 } d (fun s => sadrRule 0 c.toNat (rdS a s) (rdS b s) (curPath s).pc)
  | sadrPc (e : Bool) (d b : BitVec 6) (c : BitVec 3) : ScalarRow (.sadrPc e d b c)
      { e := e, major := 0x09 } d (fun s => sadrRule 1 c.toNat 0 (rdS b s) (curPath s).pc)
  | sadrLoc (e : Bool) (d a b : BitVec 6) (c : BitVec 3) : ScalarRow (.sadrLoc e d a b c)
      { e := e, major := 0x09 } d (fun s => sadrRule 2 c.toNat (rdS a s) (rdS b s) (curPath s).pc)
  | sadrCw (e : Bool) (d a b : BitVec 6) (c : BitVec 3) : ScalarRow (.sadrCw e d a b c)
      { e := e, major := 0x09 } d (fun s => sadrRule 3 c.toNat (rdS a s) (rdS b s) (curPath s).pc)
  | sadrWs (e : Bool) (d a b : BitVec 6) (c : BitVec 3) : ScalarRow (.sadrWs e d a b c)
      { e := e, major := 0x09 } d (fun s => sadrRule 4 c.toNat (rdS a s) (rdS b s) (curPath s).pc)
  | saluLongImm (e : Bool) (d a fn : BitVec 6) (i : BitVec 32) (x5 : BitVec 4) : fn.toNat ≤ 0x19 → ScalarRow (.saluLongImm e d a fn i x5)
      { e := e, major := 0x00, len := 8 } d (fun s => aluRule fn.toNat (rdS a s) (immRule i))
  | sliLong (e : Bool) (d : BitVec 6) (i : BitVec 32) (x3 : BitVec 4) : ScalarRow (.sliLong e d i x3)
      { e := e, major := 0x07, len := 8 } d (fun _ => immRule i)
  | slhiW (e : Bool) (d : BitVec 6) (i : BitVec 32) (x3 : BitVec 4) : ScalarRow (.slhiW e d i x3)
      { e := e, major := 0x08, len := 8 } d (fun s => BitVec.ofNat 64 (i.toNat * 2 ^ 32 + (rdS d s).toNat % 2 ^ 32))
  | sadrLong (e : Bool) (d a fn : BitVec 6) (i : BitVec 32) (x5 : BitVec 4) : fn.toNat / 8 ≤ 4 → (fn.toNat / 8 = 1 → a = 0) → ScalarRow (.sadrLong e d a fn i x5)
      { e := e, major := 0x09, len := 8 } d (fun s => sadrRule (fn.toNat / 8) (fn.toNat % 8) (rdS a s) (immRule i) (curPath s).pc)


end Sys2Proof.Rules

/-- R243 to R248: every scalar integer and address instruction, in every form that R248 and R247 do not reserve, completes whenever a
group issues: it writes the value of its rule to its destination, for each side, and goes on to the next instruction. Nothing else
changes. -/
def Sys2Proof.Rules.ScalarIntegerResults : Prop :=
  ∀ (i : Instr) (h : Head) (d : BitVec 6) (f : State → Word) (s : State),
    ScalarRow i h d f → Issues s →
    exec i s = .next (perSide h (fun u => (wrS d (f u) u, .next)) s)

/-- R243: the bit counts and extensions, by what they mean bit for bit: sclz and sctz name the first one bit from above and from below,
spopc adds the bits up, sbrev reverses them, ssext and szext keep the low w bits and fill with the top one of them or with zero.
A width code above 2 traps with cause 0x01. -/
def Sys2Proof.Rules.ScalarBitFunctions : Prop :=
  ∀ (e : Bool) (d a w : BitVec 6) (s : State), Issues s →
    let h : Head := { e := e, major := 0x00 }
    let n := 8 * 2 ^ w.toNat
    (∃ f : Word → Nat, exec (.sclz e d a) s = .next (perSide h (fun u => (wrS d (BitVec.ofNat 64 (f (rdS a u))) u, .next)) s) ∧
      f 0 = 64 ∧ ∀ x : Word, x ≠ 0 → f x < 64 ∧ x.getLsbD (63 - f x) = true ∧ ∀ j, j < f x → x.getLsbD (63 - j) = false) ∧
    (∃ f : Word → Nat, exec (.sctz e d a) s = .next (perSide h (fun u => (wrS d (BitVec.ofNat 64 (f (rdS a u))) u, .next)) s) ∧
      f 0 = 64 ∧ ∀ x : Word, x ≠ 0 → f x < 64 ∧ x.getLsbD (f x) = true ∧ ∀ j, j < f x → x.getLsbD j = false) ∧
    exec (.spopc e d a) s = .next (perSide h (fun u => (wrS d
      (BitVec.ofNat 64 (((List.range 64).map fun j => if (rdS a u).getLsbD j then 1 else 0).sum)) u, .next)) s) ∧
    (∃ f : Word → Word, exec (.sbrev e d a) s = .next (perSide h (fun u => (wrS d (f (rdS a u)) u, .next)) s) ∧
      ∀ (x : Word) (j : Nat), j < 64 → (f x).getLsbD j = x.getLsbD (63 - j)) ∧
    (w.toNat ≤ 2 →
      (∃ f : Word → Word, exec (.ssext e d a w) s = .next (perSide h (fun u => (wrS d (f (rdS a u)) u, .next)) s) ∧
        ∀ (x : Word) (j : Nat), j < 64 → (f x).getLsbD j = x.getLsbD (min j (n - 1))) ∧
      (∃ f : Word → Word, exec (.szext e d a w) s = .next (perSide h (fun u => (wrS d (f (rdS a u)) u, .next)) s) ∧
        ∀ (x : Word) (j : Nat), j < 64 → (f x).getLsbD j = (x.getLsbD j && decide (j < n)))) ∧
    (2 < w.toNat →
      exec (.ssext e d a w) s = .next (trapPath (curWho s) 0x01 0 0 s) ∧
      exec (.szext e d a w) s = .next (trapPath (curWho s) 0x01 0 0 s))

/-- R244, whole: division never traps, and its corners. -/
def Obligations.DivisionNeverTraps : Prop :=
  ∀ (e : Bool) (d a b : BitVec 6) (s : State), Issues s →
    let h : Head := { e := e, major := 0x00 }
    let minInt : Word := BitVec.ofNat 64 (2 ^ 63)
    ∃ q qu r ru : Word → Word → Word,
      exec (.sdiv e d a b) s = .next (perSide h (fun u => (wrS d (q (rdS a u) (rdS b u)) u, .next)) s) ∧
      exec (.sdivu e d a b) s = .next (perSide h (fun u => (wrS d (qu (rdS a u) (rdS b u)) u, .next)) s) ∧
      exec (.srem e d a b) s = .next (perSide h (fun u => (wrS d (r (rdS a u) (rdS b u)) u, .next)) s) ∧
      exec (.sremu e d a b) s = .next (perSide h (fun u => (wrS d (ru (rdS a u) (rdS b u)) u, .next)) s) ∧
      (∀ x, q x 0 = 0xFFFFFFFFFFFFFFFF ∧ qu x 0 = 0xFFFFFFFFFFFFFFFF ∧ r x 0 = x ∧ ru x 0 = x) ∧
      q minInt (-1) = minInt ∧ r minInt (-1) = 0

namespace Sys2Proof.Rules

/-- A source operand of a scalar floating instruction (R249, R117): the low bits of the register, flushed where FTZ is set. -/
def sfSource (t : BitVec 1) (a : BitVec 6) (s : State) : Nat :=
  let f := if t = 0 then fB32 else fB64
  ftzIn (fcsrFtz (curGroup s)) f ((rdS a s).toNat % 2 ^ (if t = 0 then 32 else 64))

/-- The result of a floating operation, with its flags, flushed where FTZ is set (R117). -/
def sfRule (t : BitVec 1) (op : Fmt → Rm → Nat × Flags) (s : State) : Nat × Flags :=
  let f := if t = 0 then fB32 else fB64
  ftzOut (fcsrFtz (curGroup s)) f (op f (fcsrRm (curGroup s)))

/-- A comparison: truth as 1 or 0 (R250). -/
def sfCompare (t : BitVec 1) (k : Nat) (a b : BitVec 6) (s : State) : Nat × Flags :=
  let f := if t = 0 then fB32 else fB64
  let r := fCmp k (fdecode f (sfSource t a s)) (fdecode f (sfSource t b s))
  (if r.1 then 1 else 0, r.2)

/-- R251: dt `x`, st `y`. -/
def convertRule (x y : Nat) (v : Word) (g : Group) : Nat × Flags :=
  let fmtOf (c : Nat) : Fmt := if c = 0 then fB32 else if c = 1 then fB64 else if c = 2 then fB16 else fBf16
  let source : Fv :=
    if y < 4 then fdecode (fmtOf y) (ftzIn (fcsrFtz g) (fmtOf y) (v.toNat % 2 ^ (Fmt_width (fmtOf y))))
    else if y = 4 then ofIntFv v.toInt
    else if y = 5 then ofIntFv v.toNat
    else if y = 6 then ofIntFv (v.truncate 32).toInt
    else ofIntFv (v.toNat % 2 ^ 32 : Nat)
  if x < 4 then ftzOut (fcsrFtz g) (fmtOf x) (toFmt (fmtOf x) (fcsrRm g) source)
  else
    let r := toIntSat (if x < 6 then 64 else 32) (x % 2 = 0) (fcsrRm g) source
    ((BitVec.ofInt 64 r.1).toNat, r.2)

/-- The value a scalar floating instruction writes and the flags it raises (R249, R250). -/
inductive ScalarFloatRow : Instr → Bool → BitVec 6 → (State → Nat × Flags) → Prop where
  | sfadd (e : Bool) (d a b : BitVec 6) (t : BitVec 1) : ScalarFloatRow (.sfadd e d a b t)
      e d (fun s => sfRule t (fun f rm => fAdd f rm (fdecode f (sfSource t a s)) (fdecode f (sfSource t b s))) s)
  | sfsub (e : Bool) (d a b : BitVec 6) (t : BitVec 1) : ScalarFloatRow (.sfsub e d a b t)
      e d (fun s => sfRule t (fun f rm => fAdd f rm (fdecode f (sfSource t a s)) (fNeg (fdecode f (sfSource t b s)))) s)
  | sfmul (e : Bool) (d a b : BitVec 6) (t : BitVec 1) : ScalarFloatRow (.sfmul e d a b t)
      e d (fun s => sfRule t (fun f rm => fMul f rm (fdecode f (sfSource t a s)) (fdecode f (sfSource t b s))) s)
  | sffma (e : Bool) (d a b : BitVec 6) (t : BitVec 1) : ScalarFloatRow (.sffma e d a b t)
      e d (fun s => sfRule t (fun f rm =>
      fFma f rm (fdecode f (sfSource t a s)) (fdecode f (sfSource t b s)) (fdecode f (sfSource t d s))) s)
  | sfdiv (e : Bool) (d a b : BitVec 6) (t : BitVec 1) : ScalarFloatRow (.sfdiv e d a b t)
      e d (fun s => sfRule t (fun f rm => fDiv f rm (fdecode f (sfSource t a s)) (fdecode f (sfSource t b s))) s)
  | sfsqrt (e : Bool) (d a : BitVec 6) (t : BitVec 1) : ScalarFloatRow (.sfsqrt e d a t)
      e d (fun s => sfRule t (fun f rm => fSqrt f rm (fdecode f (sfSource t a s))) s)
  | sfmin (e : Bool) (d a b : BitVec 6) (t : BitVec 1) : ScalarFloatRow (.sfmin e d a b t)
      e d (fun s => sfRule t (fun f _ => fMinMax f false (sfSource t a s) (sfSource t b s)) s)
  | sfmax (e : Bool) (d a b : BitVec 6) (t : BitVec 1) : ScalarFloatRow (.sfmax e d a b t)
      e d (fun s => sfRule t (fun f _ => fMinMax f true (sfSource t a s) (sfSource t b s)) s)
  | sfcmpEq (e : Bool) (d a b : BitVec 6) (t : BitVec 1) : ScalarFloatRow (.sfcmpEq e d a b t)
      e d (fun s => sfCompare t 0 a b s)
  | sfcmpLt (e : Bool) (d a b : BitVec 6) (t : BitVec 1) : ScalarFloatRow (.sfcmpLt e d a b t)
      e d (fun s => sfCompare t 1 a b s)
  | sfcmpLe (e : Bool) (d a b : BitVec 6) (t : BitVec 1) : ScalarFloatRow (.sfcmpLe e d a b t)
      e d (fun s => sfCompare t 2 a b s)
  | sfcmpUn (e : Bool) (d a b : BitVec 6) (t : BitVec 1) : ScalarFloatRow (.sfcmpUn e d a b t)
      e d (fun s => sfCompare t 3 a b s)
  | sfcvt (e : Bool) (d a : BitVec 6) (x y : BitVec 3) : x ≠ y → ¬(4 ≤ x.toNat ∧ 4 ≤ y.toNat) → ScalarFloatRow (.sfcvt e d a x y)
      e d (fun s => convertRule x.toNat y.toNat (rdS a s) (curGroup s))


end Sys2Proof.Rules

/-- R249 to R251: every scalar floating instruction, of both types and every pair of types that sfcvt has, completes whenever a group
issues: it writes the value, zero-extended, and raises the flags of its rule, for each side. A reserved pair of types traps with
cause 0x01. -/
def Sys2Proof.Rules.ScalarFloatResults : Prop :=
  ∀ (i : Instr) (e : Bool) (d : BitVec 6) (f : State → Nat × Flags) (s : State), Issues s →
    (ScalarFloatRow i e d f →
      exec i s = .next (perSide { e := e, major := 0x0A }
        (fun u => (raiseFlags (f u).2 (wrS d (BitVec.ofNat 64 (f u).1) u), .next)) s)) ∧
    (∀ (a : BitVec 6) (x y : BitVec 3), x = y ∨ (4 ≤ x.toNat ∧ 4 ≤ y.toNat) →
      exec (.sfcvt e d a x y) s = .next (trapPath (curWho s) 0x01 0 0 s))

/-- R115, R116: an exact value that a format holds rounds to its own pattern in every mode, and raises no flag. -/
def Sys2Proof.Rules.RepresentableValuesRoundExactly : Prop :=
  ∀ (f : Fmt) (rm : Rm) (x : Nat), f ∈ [fB64, fB32, fB16, fBf16, fE4m3, fE5m2, fE3m2, fE2m3, fE2m1] → x < 2 ^ Fmt_width f →
    ∀ (n : Bool) (m : Nat) (e : Int), fdecode f x = .fin n m e → fround f rm n m e false = (x, 0)

/-- R116: flags are sticky: raising them keeps every bit of fcsr that is set and changes nothing else of the machine. -/
def Sys2Proof.Rules.FlagsAccumulate : Prop :=
  ∀ (fl : Flags) (s : State), Runs s →
    let t := raiseFlags fl s
    (curGroup t).fcsr = (curGroup s).fcsr ||| BitVec.ofNat 32 fl.toNat ∧
    curGroup t = { curGroup s with fcsr := (curGroup t).fcsr } ∧
    (∀ u g : Nat, (u, g) ≠ ((cur s).who.uid, (cur s).who.gidx) → getGroup t u g = getGroup s u g) ∧
    t = { s with blocks := t.blocks }

/-! Control flow, divergence, melding, votes and vector configuration. -/

namespace Sys2Proof.Rules

/-- The target of a relative transfer: PC + 4 × the offset, sign-extended (R217), within the 52 bits of an address (R26). -/
def targetRule (o : BitVec n) (s : State) : Word := BitVec.ofInt 64 (((curPath s).pc.toInt + 4 * o.toInt) % 2 ^ 52)

/-- A trap at the executing path's own instruction: what the checks and the traps of R252 to R265 end in. -/
def trapsWith (cause : Nat) (s : State) : Host.Outcome State Fault Refusal := .next (trapPath (curWho s) cause 0 0 s)

/-- Is thread j a live thread of the executing path below vl whose bit of predicate m is set? -/
def takes (m : Nat) (s : State) (j : Nat) : Bool :=
  (curPath s).threads.getLsbD j && decide (j < (curGroup s).vl.toNat) && (rdP m s).getLsbD j

end Sys2Proof.Rules

/-- R228: the checks before an effect come in this order and the first that fails decides: an instruction that a repeat frame may
not hold (0x01), the instruction's own encoding, the role (0x1A), the melded region (0x17), the mode (0x03), the register count
(0x09). The instruction then traps at its own address with nothing else of it done; without a failure it has its effect. R214: a vector
instruction of a melded region traps on the path that holds the thread at vstart. The place of the repeat frame's check among the
others is the model's choice (log 109). -/
def Sys2Proof.Rules.ChecksComeInOrder : Prop :=
  (∀ s : State, (curMeld s = none → startPath s = curWho s) ∧ ∀ m, curMeld s = some m → (startPath s).pidx =
    if (getPath (curGroup s) m.b).threads.getLsbD (curGroup s).vstart.toNat then m.b else m.a) ∧
  ∀ (who : State → Who) (h : Head) (enc : Option Nat) (vbad : State → Bool) (body : State → State) (s : State), Issues s →
    let trapsWith (c : Nat) (s : State) : Host.Outcome State Fault Refusal := .next (trapPath (who s) c 0 0 s)
    let frameBad := (curPath s).rpt.isSome && !frameAllows h.major
    let roleBad := !roleAllows (curGroup s).role h.major || (h.mOnly && (curGroup s).role != .m)
    let meldBad := (curMeld s).isSome && (meldForbids h.major || h.noMeld)
    let modeBad := h.supOnly && !(curGroup s).sup
    issueBy who h enc vbad body s =
      if frameBad then trapsWith 0x01 s
      else if enc.isSome then trapsWith (enc.getD 0) s
      else if roleBad then trapsWith 0x1A s
      else if meldBad then trapsWith 0x17 s
      else if modeBad then trapsWith 0x03 s
      else if vbad s then trapsWith 0x09 s
      else .next (body s)

/-- R252, R254: br jumps; bnz branches when the register is not zero and bz when it is zero, else they fall through. -/
def Sys2Proof.Rules.BranchesTransfer : Prop :=
  ∀ (e : Bool) (o : BitVec 24) (q : BitVec 18) (r : BitVec 6) (s : State), Issues s → NoFrame s → Alone s →
    exec (.br e o) s = .next (advance { e := e, major := 0x20 } (some (targetRule o s)) false false s) ∧
    exec (.bnz e r q) s = .next (if rdS r s = 0 then advance { e := e, major := 0x21 } none false false s
      else advance { e := e, major := 0x21 } (some (targetRule q s)) false false s) ∧
    exec (.bz e r q) s = .next (if rdS r s = 0 then advance { e := e, major := 0x22 } (some (targetRule q s)) false false s
      else advance { e := e, major := 0x22 } none false false s)

/-- R252, R253, R256: calls push the address after them unless the depth is 255, which traps with cause 0x18; a register target is
checked first, with cause 0x07 above bit 51 and 0x04 for bits [1:0]; ret checks the address on top of its stack in the same way, pops it
and the loop entries of the depth it leaves, and traps with cause 0x18 at depth 0. -/
def Sys2Proof.Rules.CallsAndReturnsKeepTheStack : Prop :=
  ∀ (e : Bool) (o : BitVec 24) (a : BitVec 6) (s : State), Issues s → NoFrame s → Alone s →
    let p := curPath s
    let pushed := modP (fun q => { q with rets := (p.pc + 4) :: q.rets }) s
    let t := rdS a s
    (p.rets.length < 255 →
      exec (.call e o) s = .next (advance { e := e, major := 0x23 } (some (targetRule o s)) false false pushed)) ∧
    (255 ≤ p.rets.length → exec (.call e o) s = trapsWith 0x18 s) ∧
    (t.toNat < 2 ^ 52 → t.toNat % 4 = 0 →
      exec (.jr e a) s = .next (advance { e := e, major := 0x24 } (some t) false false s) ∧
      (p.rets.length < 255 → exec (.callr e a) s = .next (advance { e := e, major := 0x24 } (some t) false false pushed)) ∧
      (255 ≤ p.rets.length → exec (.callr e a) s = trapsWith 0x18 s)) ∧
    (2 ^ 52 ≤ t.toNat →
      exec (.jr e a) s = .next (trapPath (curWho s) 0x07 t (kindBits .exec) s) ∧
      exec (.callr e a) s = .next (trapPath (curWho s) 0x07 t (kindBits .exec) s)) ∧
    (t.toNat < 2 ^ 52 → t.toNat % 4 ≠ 0 →
      exec (.jr e a) s = .next (trapPath (curWho s) 0x04 t (kindBits .exec) s) ∧
      exec (.callr e a) s = .next (trapPath (curWho s) 0x04 t (kindBits .exec) s)) ∧
    (p.rets = [] → exec (.ret e) s = trapsWith 0x18 s) ∧
    (∀ (x : Word) (l : List Word), p.rets = x :: l →
      (2 ^ 52 ≤ x.toNat → exec (.ret e) s = .next (trapPath (curWho s) 0x07 x (kindBits .exec) s)) ∧
      (x.toNat < 2 ^ 52 → x.toNat % 4 ≠ 0 → exec (.ret e) s = .next (trapPath (curWho s) 0x04 x (kindBits .exec) s)) ∧
      (x.toNat < 2 ^ 52 → x.toNat % 4 = 0 →
        exec (.ret e) s = .next (advance { e := e, major := 0x24 } (some x) false false
          (modP (fun p => { p with rets := l, loops := p.loops.dropWhile fun k => k.depth == l.length + 1 }) s))))

/-- R255: loop pushes an entry for its body, jumps over it when the count is 0, traps with cause 0x18 when four entries are held
and with cause 0x01 when its offset is below 2. -/
def Sys2Proof.Rules.LoopPushesItsBody : Prop :=
  ∀ (e : Bool) (r : BitVec 6) (o : BitVec 18) (s : State), Issues s → NoFrame s → Alone s →
    let p := curPath s
    let h : Head := { e := e, major := 0x25 }
    (o.toInt < 2 → exec (.loop e r o) s = trapsWith 0x01 s) ∧
    (2 ≤ o.toInt → rdS r s = 0 → exec (.loop e r o) s = .next (advance h (some (targetRule o s)) false false s)) ∧
    (2 ≤ o.toInt → rdS r s ≠ 0 → 4 ≤ p.loops.length → exec (.loop e r o) s = trapsWith 0x18 s) ∧
    (2 ≤ o.toInt → rdS r s ≠ 0 → p.loops.length < 4 →
      exec (.loop e r o) s = .next (advance h none false false (modP (fun q => { q with
        loops := { start := p.pc + 4, stop := targetRule o s, left := rdS r s, depth := p.rets.length } :: q.loops }) s)))

/-- R257, R258: rpt starts a frame of l + 1 instructions that runs n times, for both paths of a melded region; 257 to 511 trap with
cause 0x01. With n = 0 the path goes on after the l + 1 instructions, whose lengths are read as it would fetch them, and no
transfer is counted (R221). -/
def Sys2Proof.Rules.RptStartsAFrame : Prop :=
  ∀ (e : Bool) (st : BitVec 6) (l : BitVec 4) (n : BitVec 9) (s : State), Issues s → NoFrame s →
    let h : Head := { e := e, major := 0x26 }
    let pc := (curPath s).pc
    (256 < n.toNat → exec (.rpt e st l n) s = trapsWith 0x01 s) ∧
    (1 ≤ n.toNat → n.toNat ≤ 256 → exec (.rpt e st l n) s = .next (advance h (some (pc + 4)) true false
      (modBoth (fun p => { p with
        rpt := some { start := pc + 4, len := l.toNat + 1, stride := st.toNat, n := n.toNat, pass := 0, pos := 0 } }) s))) ∧
    (∀ (t : State) (x : Word), n = 0 → skipInstrs (curEnv 0 1 s) (l.toNat + 1) (pc + 4) s = (t, .ok x) →
      exec (.rpt e st l n) s = .next (advance h (some x) true false t))

namespace Sys2Proof.Rules

/-- The instructions that a repeat frame may not hold (R258): every instruction outside majors 0x00 to 0x0A and 0x30 to 0x4F and their
long forms. The second part says whether it is a vector instruction (R214). -/
inductive FrameForbidden : Instr → Bool → Prop where
  | br (e : Bool) (o : BitVec 24) : FrameForbidden (.br e o) false
  | bnz (e : Bool) (s : BitVec 6) (o : BitVec 18) : FrameForbidden (.bnz e s o) false
  | bz (e : Bool) (s : BitVec 6) (o : BitVec 18) : FrameForbidden (.bz e s o) false
  | call (e : Bool) (o : BitVec 24) : FrameForbidden (.call e o) false
  | jr (e : Bool) (a : BitVec 6) : FrameForbidden (.jr e a) false
  | callr (e : Bool) (a : BitVec 6) : FrameForbidden (.callr e a) false
  | ret (e : Bool) : FrameForbidden (.ret e) false
  | loop (e : Bool) (s : BitVec 6) (o : BitVec 18) : FrameForbidden (.loop e s o) false
  | rpt (e : Bool) (s : BitVec 6) (l : BitVec 4) (n : BitVec 9) : FrameForbidden (.rpt e s l n) false
  | vbr (e : Bool) (p t : BitVec 4) (o : BitVec 16) : FrameForbidden (.vbr e p t o) false
  | vjoin (e : Bool) (t : BitVec 4) : FrameForbidden (.vjoin e t) false
  | vmeld (e : Bool) (t : BitVec 4) (o : BitVec 18) : FrameForbidden (.vmeld e t o) false
  | vunmeld (e : Bool) (t : BitVec 4) : FrameForbidden (.vunmeld e t) false
  | vexit (e : Bool) (p : BitVec 4) : FrameForbidden (.vexit e p) false
  | vbrk (e : Bool) (p : BitVec 4) : FrameForbidden (.vbrk e p) false
  | vany (e : Bool) (d : BitVec 6) (p m : BitVec 4) : FrameForbidden (.vany e d p m) false
  | vall (e : Bool) (d : BitVec 6) (p m : BitVec 4) : FrameForbidden (.vall e d p m) false
  | vnone (e : Bool) (d : BitVec 6) (p m : BitVec 4) : FrameForbidden (.vnone e d p m) false
  | vcfg (e : Bool) (d : BitVec 6) (n : BitVec 2) : FrameForbidden (.vcfg e d n) false
  | vgrant (e : Bool) (d a : BitVec 6) : FrameForbidden (.vgrant e d a) false
  | sld (e : Bool) (d a : BitVec 6) (c : BitVec 4) (w : BitVec 2) (o : BitVec 6) : FrameForbidden (.sld e d a c w o) false
  | sst (e : Bool) (d a : BitVec 6) (c : BitVec 4) (w : BitVec 2) (o : BitVec 6) : FrameForbidden (.sst e d a c w o) false
  | vld (e : Bool) (d a : BitVec 6) (c : BitVec 4) (m : BitVec 2) (o : BitVec 6) : FrameForbidden (.vld e d a c m o) true
  | vst (e : Bool) (d a : BitVec 6) (c : BitVec 4) (m : BitVec 2) (o : BitVec 6) : FrameForbidden (.vst e d a c m o) true
  | vlds (e : Bool) (d a b : BitVec 6) (c : BitVec 4) (m : BitVec 1) : FrameForbidden (.vlds e d a b c m) true
  | vsts (e : Bool) (d a b : BitVec 6) (c : BitVec 4) (m : BitVec 1) : FrameForbidden (.vsts e d a b c m) true
  | vldx (e : Bool) (d a b : BitVec 6) (c : BitVec 4) (m : BitVec 1) : FrameForbidden (.vldx e d a b c m) true
  | vstx (e : Bool) (d a b : BitVec 6) (c : BitVec 4) (m : BitVec 1) : FrameForbidden (.vstx e d a b c m) true
  | vldff (e : Bool) (d a : BitVec 6) (c : BitVec 4) (m : BitVec 2) (o : BitVec 6) : FrameForbidden (.vldff e d a c m o) true
  | vldw (e : Bool) (d a : BitVec 6) (z s : BitVec 1) (c : BitVec 4) (m : BitVec 1) : FrameForbidden (.vldw e d a z s c m) true
  | vstw (e : Bool) (d a : BitVec 6) (z : BitVec 1) (c : BitVec 4) (m : BitVec 1) : FrameForbidden (.vstw e d a z c m) true
  | vldbp (e : Bool) (d a : BitVec 6) (c : BitVec 4) (m : BitVec 2) (s r : BitVec 1) (k : BitVec 3) :
      FrameForbidden (.vldbp e d a c m s r k) true
  | vlseg (e : Bool) (d a : BitVec 6) (k f : BitVec 3) (c : BitVec 4) (m : BitVec 1) : FrameForbidden (.vlseg e d a k f c m) true
  | vsseg (e : Bool) (d a : BitVec 6) (k f : BitVec 3) (c : BitVec 4) (m : BitVec 1) : FrameForbidden (.vsseg e d a k f c m) true
  | vldgl (e : Bool) (d a b : BitVec 6) (c : BitVec 4) (m : BitVec 1) : FrameForbidden (.vldgl e d a b c m) true
  | vstsc (e : Bool) (d a b : BitVec 6) (c : BitVec 4) (m : BitVec 1) : FrameForbidden (.vstsc e d a b c m) true
  | vldglLong (e : Bool) (x : LinkLong) : FrameForbidden (.vldglLong e x) true
  | vstscLong (e : Bool) (x : LinkLong) : FrameForbidden (.vstscLong e x) true
  | sll (e : Bool) (d a : BitVec 6) (c : BitVec 4) (w : BitVec 1) : FrameForbidden (.sll e d a c w) false
  | ssc (e : Bool) (d a b : BitVec 6) (c : BitVec 4) (w : BitVec 1) : FrameForbidden (.ssc e d a b c w) false
  | memLongControlForm (e : Bool) (x : MemCtl) :
      FrameForbidden (.memLongControlForm e x) (decide (2 ≤ x.xop.toNat) && decide (x.xop.toNat ≤ 9))
  | memLongOffsetForm (e : Bool) (d a : BitVec 6) (xop sub : BitVec 4) (off : BitVec 32) (hint : BitVec 4) :
      0xB ≤ xop.toNat → FrameForbidden (.memLongOffsetForm e d a xop sub off hint) (decide (0xD ≤ xop.toNat))
  | fence (e : Bool) (s : BitVec 3) (m : BitVec 16) : FrameForbidden (.fence e s m) false
  | barinit (e : Bool) (a b : BitVec 6) : FrameForbidden (.barinit e a b) false
  | bararr (e : Bool) (d a b : BitVec 6) : FrameForbidden (.bararr e d a b) false
  | barwait (e : Bool) (a b : BitVec 6) : FrameForbidden (.barwait e a b) false
  | ipost (e : Bool) (a : BitVec 6) : FrameForbidden (.ipost e a) false
  | iwait (e : Bool) (a : BitVec 6) (d : BitVec 5) : FrameForbidden (.iwait e a d) false
  | stgpost (e : Bool) (a : BitVec 6) (r s : BitVec 3) : FrameForbidden (.stgpost e a r s) false
  | stgwait (e : Bool) (a : BitVec 6) (r : BitVec 3) (p : BitVec 1) (s : BitVec 3) : FrameForbidden (.stgwait e a r p s) false
  | claim (e : Bool) (d a : BitVec 6) : FrameForbidden (.claim e d a) false
  | waitw (e : Bool) (d a b : BitVec 6) : FrameForbidden (.waitw e d a b) false
  | waitwExt (e : Bool) (d a b : BitVec 6) : FrameForbidden (.waitwExt e d a b) false
  | tset (e : Bool) (d a : BitVec 6) (r : BitVec 1) (p : BitVec 4) (f : BitVec 5) : FrameForbidden (.tset e d a r p f) false
  | tget (e : Bool) (d : BitVec 6) : FrameForbidden (.tget e d) false
  | tbands (e : Bool) (d : BitVec 6) (b : BitVec 4) : FrameForbidden (.tbands e d b) false
  | obres (e : Bool) (h : BitVec 4) (a b : BitVec 6) : FrameForbidden (.obres e h a b) false
  | obrel (e : Bool) (h : BitVec 4) : FrameForbidden (.obrel e h) false
  | obfill (e : Bool) (c a b : BitVec 6) (h : BitVec 4) : FrameForbidden (.obfill e c a b h) false
  | obscale (e : Bool) (c a : BitVec 6) (k : BitVec 3) (h : BitVec 4) : FrameForbidden (.obscale e c a k h) false
  | mlds (e : Bool) (b a : BitVec 6) (p : BitVec 1) (h : BitVec 4) : FrameForbidden (.mlds e b a p h) false
  | mswap (e : Bool) : FrameForbidden (.mswap e) false
  | mrbnd (e : Bool) (a : BitVec 6) : FrameForbidden (.mrbnd e a) false
  | mtag (e : Bool) (a b : BitVec 6) : FrameForbidden (.mtag e a b) false
  | mma (e : Bool) (c : BitVec 2) (h : BitVec 4) (a : BitVec 6) (r p : BitVec 4) (z : BitVec 1) : FrameForbidden (.mma e c h a r p z) false
  | mmaG (e : Bool) (c : BitVec 2) (h : BitVec 4) (a : BitVec 6) (r p : BitVec 4) (z : BitVec 1) :
      FrameForbidden (.mmaG e c h a r p z) false
  | gangset (e : Bool) (a : BitVec 6) : FrameForbidden (.gangset e a) false
  | mguide (e : Bool) (d c u : BitVec 2) (s : BitVec 6) (p : BitVec 4) : FrameForbidden (.mguide e d c u s p) false
  | mzero (e : Bool) (c : BitVec 2) : FrameForbidden (.mzero e c) false
  | maccLd (e : Bool) (c : BitVec 2) (a : BitVec 6) : FrameForbidden (.maccLd e c a) false
  | maccSt (e : Bool) (c : BitVec 2) (a b : BitVec 6) : FrameForbidden (.maccSt e c a b) false
  | mrd (e : Bool) (v a b : BitVec 6) (c : BitVec 2) : FrameForbidden (.mrd e v a b c) false
  | mwr (e : Bool) (v a b : BitVec 6) (c : BitVec 2) : FrameForbidden (.mwr e v a b c) false
  | rcount (e : Bool) (a b : BitVec 6) : FrameForbidden (.rcount e a b) false
  | rcsnap (e : Bool) (d a : BitVec 6) : FrameForbidden (.rcsnap e d a) false
  | matrixLongForm (e : Bool) (xop : BitVec 4) (body : BitVec 24) (cls : BitVec 4) (scope : BitVec 3) (hint : BitVec 4) :
      FrameForbidden (.matrixLongForm e xop body cls scope hint) false
  | cpy (e : Bool) (q : BitVec 3) (p : BitVec 1) (a : BitVec 6) (r s : BitVec 3) (c : BitVec 4) : FrameForbidden (.cpy e q p a r s c) false
  | cpyLong (e : Bool) (q : BitVec 3) (p : BitVec 1) (a : BitVec 6) (r s : BitVec 3) (cls : BitVec 4) (scope : BitVec 3) (x : BitVec 6) (hint : BitVec 4) :
      FrameForbidden (.cpyLong e q p a r s cls scope x hint) false
  | qfence (e : Bool) (m : BitVec 9) : FrameForbidden (.qfence e m) false
  | qwait (e : Bool) (n : BitVec 4) : FrameForbidden (.qwait e n) false
  | qwaitClr (e : Bool) (n : BitVec 4) : FrameForbidden (.qwaitClr e n) false
  | launch (e : Bool) (d a b : BitVec 6) : FrameForbidden (.launch e d a b) false
  | launchW (e : Bool) (d a b : BitVec 6) : FrameForbidden (.launchW e d a b) false
  | gsig (e : Bool) (d a : BitVec 6) : FrameForbidden (.gsig e d a) false
  | gcond (e : Bool) (a b : BitVec 6) : FrameForbidden (.gcond e a b) false
  | sysrd (e : Bool) (d : BitVec 6) (i : BitVec 12) : FrameForbidden (.sysrd e d i) false
  | syswr (e : Bool) (d : BitVec 6) (i : BitVec 12) : FrameForbidden (.syswr e d i) false
  | syswrVcfg (e : Bool) (d : BitVec 6) : FrameForbidden (.syswrVcfg e d) false
  | fqdone (e : Bool) (d : BitVec 6) : FrameForbidden (.fqdone e d) false
  | trap (e : Bool) (c : BitVec 16) : FrameForbidden (.trap e c) false
  | eret (e : Bool) : FrameForbidden (.eret e) false
  | brk (e : Bool) (c : BitVec 16) : FrameForbidden (.brk e c) false
  | icinvAll (e : Bool) : FrameForbidden (.icinvAll e) false
  | icinv (e : Bool) (a b : BitVec 6) : FrameForbidden (.icinv e a b) false
  | yield (e : Bool) : FrameForbidden (.yield e) false
  | nop (e : Bool) : FrameForbidden (.nop e) false
  | halt (e : Bool) : FrameForbidden (.halt e) false
  | pwrhint (e : Bool) (a : BitVec 6) (k : BitVec 4) : FrameForbidden (.pwrhint e a k) false

end Sys2Proof.Rules

/-- R258: a repeat frame may hold majors 0x00 to 0x0A and 0x30 to 0x4F, and nothing else. Any other instruction, short or long, traps with
cause 0x01 when it is reached, whatever else stands against it: at the path that executes, a vector instruction at the one that holds the
thread at vstart (R214). -/
def Sys2Proof.Rules.FramesHoldOnlyTheirMajors : Prop :=
  (∀ m : Nat, frameAllows m = true ↔ m ≤ 0x0A ∨ (0x30 ≤ m ∧ m ≤ 0x4F)) ∧
  ∀ (i : Instr) (vector : Bool) (s : State), FrameForbidden i vector → Issues s → (curPath s).rpt.isSome = true →
    exec i s = .next (trapPath (if vector then startPath s else curWho s) 0x01 0 0 s)

namespace Sys2Proof.Rules

/-- Instructions that a melded region forbids by their major (R174), in a form without an encoding error. -/
inductive MeldForbidden : Instr → Prop where
  | br (e : Bool) (o : BitVec 24) : MeldForbidden (.br e o)
  | bnz (e : Bool) (s : BitVec 6) (o : BitVec 18) : MeldForbidden (.bnz e s o)
  | bz (e : Bool) (s : BitVec 6) (o : BitVec 18) : MeldForbidden (.bz e s o)
  | call (e : Bool) (o : BitVec 24) : MeldForbidden (.call e o)
  | jr (e : Bool) (a : BitVec 6) : MeldForbidden (.jr e a)
  | callr (e : Bool) (a : BitVec 6) : MeldForbidden (.callr e a)
  | ret (e : Bool) : MeldForbidden (.ret e)
  | loop (e : Bool) (s : BitVec 6) (o : BitVec 18) : 2 ≤ o.toInt → MeldForbidden (.loop e s o)
  | vbr (e : Bool) (p t : BitVec 4) (o : BitVec 16) : MeldForbidden (.vbr e p t o)
  | vjoin (e : Bool) (t : BitVec 4) : MeldForbidden (.vjoin e t)
  | vmeld (e : Bool) (t : BitVec 4) (o : BitVec 18) : MeldForbidden (.vmeld e t o)
  | vexit (e : Bool) (p : BitVec 4) : MeldForbidden (.vexit e p)
  | vbrk (e : Bool) (p : BitVec 4) : MeldForbidden (.vbrk e p)
  | vcfg (e : Bool) (d : BitVec 6) (n : BitVec 2) : MeldForbidden (.vcfg e d n)
  | halt (e : Bool) : MeldForbidden (.halt e)

/-- mma.g and gangset in their short and long forms; the long form without an encoding error (R351). -/
inductive GangInstr : Instr → Prop where
  | mmaG (e : Bool) (c : BitVec 2) (h : BitVec 4) (a : BitVec 6) (r p : BitVec 4) (z : BitVec 1) : GangInstr (.mmaG e c h a r p z)
  | gangset (e : Bool) (a : BitVec 6) : GangInstr (.gangset e a)
  | long (e : Bool) (body : BitVec 24) (hint : BitVec 4) : GangInstr (.matrixLongForm e 7 body 0 0 hint)

end Sys2Proof.Rules

/-- R174: inside a melded region a branch, a call, a return, a loop, a split, a join, a second meld, an exit, a breakpoint test, vcfg and
halt trap with cause 0x17, and so do mma.g and gangset of an M-role group (of another role they trap with cause 0x1A first, R228). rpt and
vunmeld, the votes and vgrant are not forbidden. -/
def Sys2Proof.Rules.MeldedRegionForbidsTransfers : Prop :=
  (∀ (i : Instr) (s : State), Issues s → NoFrame s → (curMeld s).isSome = true →
    (MeldForbidden i → exec i s = trapsWith 0x17 s) ∧ (GangInstr i → InRole .m s → exec i s = trapsWith 0x17 s)) ∧
  (∀ m ∈ [0x26, 0x29, 0x2B, 0x2C], meldForbids m = false)

/-- R259, R262, R263: the threads that a predicate of the path names are the path's live threads below vl with their bit set. -/
def Sys2Proof.Rules.TakenThreadsAreLiveAndBelowVl : Prop :=
  ∀ (m : Nat) (s : State) (j : Nat), j < 1024 → (takenSet m s).getLsbD j = takes m s j

/-- R168, R259: vbr. Without a taken thread the path falls through; with none left it branches; else it splits: the path keeps the
other threads and goes on, and a new path at the smallest free index above its own takes the taken ones to the label, with copies
of its registers, stacks and frame and no link; both are members of the token, with a clear written map where the path was no member
before. The run ends. With no free index, or with eight paths and no slot of the path stack, vbr traps with cause 0x16. -/
def Sys2Proof.Rules.VbrSplitsThePath : Prop :=
  ∀ (e : Bool) (i t : BitVec 4) (o : BitVec 16) (s : State), Runs s → NoFrame s → Alone s →
    let h : Head := { e := e, major := 0x27 }
    let p := curPath s
    let taken := takenSet i.toNat s
    let joined : Path := if p.tokens.getLsbD t.toNat then p
      else { p with tokens := putBit p.tokens t.toNat true, maps := vset p.maps t.toNat 0 }
    (taken = 0 → exec (.vbr e i t o) s = .next (advance h none false false s)) ∧
    (taken ≠ 0 → p.threads &&& ~~~taken = 0 →
      exec (.vbr e i t o) s = .next (advance h (some (targetRule o s)) false false s)) ∧
    (taken ≠ 0 → p.threads &&& ~~~taken ≠ 0 → (freeIndex (curGroup s) p.idx = none ∨ roomForPath s = none) →
      exec (.vbr e i t o) s = trapsWith 0x16 s) ∧
    (∀ (j : Nat) (slot : Option Nat), taken ≠ 0 → p.threads &&& ~~~taken ≠ 0 →
      freeIndex (curGroup s) p.idx = some j → roomForPath s = some slot →
      p.idx < j ∧ j < 64 ∧ findPath (curGroup s) j = none ∧ (∀ k, p.idx < k → k < j → (findPath (curGroup s) k).isSome = true) ∧
      ∃ u, exec (.vbr e i t o) s = .next (advance h none false true u) ∧
        findPath (curGroup u) p.idx = some { joined with threads := p.threads &&& ~~~taken } ∧
        findPath (curGroup u) j = some { joined with
          idx := j, threads := taken, run := .ready,
          loops := (loopStep p.rets.length true (targetRule o s) p.loops).1,
          pc := (loopStep p.rets.length true (targetRule o s) p.loops).2.1 } ∧
        (∀ k, k ≠ p.idx → k ≠ j → findPath (curGroup u) k = findPath (curGroup s) k) ∧
        (curGroup u).stackSlot = slot ∧
        u = { s with blocks := u.blocks, links := s.links.filter fun k => k.owner != .path { curWho s with pidx := j } })

/-- R260, R170: vjoin of a token that the path is no member of only goes on. A member parks at it: its run ends, and when no token of
the group resolves or is decided by that, nothing else happens. -/
def Sys2Proof.Rules.VjoinParksAMember : Prop :=
  ∀ (e : Bool) (t : BitVec 4) (s : State), Issues s → NoFrame s → Alone s →
    ((curPath s).tokens.getLsbD t.toNat = false → exec (.vjoin e t) s = .next (advance { e := e, major := 0x28 } none false false s)) ∧
    ((curPath s).tokens.getLsbD t.toNat = true →
      let u := endRun (modP (fun p => { p with run := .atJoin t.toNat }) s)
      exec (.vjoin e t) s = .next (settleTokens (curWho s) 64 u) ∧
      ((∀ k, k < 16 → canResolve (getGroup u (curWho s).uid (curWho s).gidx) k = false ∧
          canDecide (getGroup u (curWho s).uid (curWho s).gidx) k = false) → exec (.vjoin e t) s = .next u))

/-- R170, R171: when a token resolves and when it is decided. Every live member is parked, at a vjoin of any token or at a vmeld; it
resolves when one is parked at a vjoin of it and none at a vmeld of it, and is decided when one is parked at a vmeld of it. They happen
one by one, the lowest token first, which is the model's choice of log 22. A decision whose conditions fail traps the lowest member parked
at a vmeld of the token with cause 0x17: its two live members are not both parked at one vmeld of it at one depth. -/
def Sys2Proof.Rules.TokensResolveAndDecide : Prop :=
  (∀ (g : Group) (t : Nat),
    let all := ∀ p ∈ g.paths, p.tokens.getLsbD t = true → (∃ u, p.run = .atJoin u) ∨ ∃ u a, p.run = .atMeld u a
    let joins := ∃ p ∈ g.paths, p.tokens.getLsbD t = true ∧ p.run = .atJoin t
    let melds := ∃ p ∈ g.paths, p.tokens.getLsbD t = true ∧ ∃ a, p.run = .atMeld t a
    (canResolve g t = true ↔ all ∧ joins ∧ ¬ melds) ∧ (canDecide g t = true ↔ all ∧ melds)) ∧
  (∀ (w : Who) (n t : Nat) (s : State), t < 16 →
    let g := getGroup s w.uid w.gidx
    (∀ k < t, canResolve g k = false ∧ canDecide g k = false) →
    (canResolve g t = true → settleTokens w (n + 1) s =
      settleTokens w n (dropPathLinks w.uid w.gidx (modGroup w.uid w.gidx (resolveToken t) s))) ∧
    (canDecide g t = true → settleTokens w (n + 1) s = settleTokens w n (decideToken w t s)) ∧
    (∀ a rest, (g.paths.filter fun p => p.tokens.getLsbD t && atMeldOf t p) = a :: rest →
      (∀ b, rest = [b] → (g.paths.filter fun p => p.tokens.getLsbD t).length = 2 → a.pc = b.pc → a.rets.length ≠ b.rets.length) →
      decideToken w t s = trapPath { w with pidx := a.idx } 0x17 0 0 s))

/-- R170: what a merge keeps of the members of a class that are parked at one vjoin t with one PC and depth, `keep` the lowest: the
threads of all; each scalar register from the lowest member that wrote it since it joined the token; the tokens of all; and the
path goes on after the vjoin. -/
def Sys2Proof.Rules.MergeKeepsWhatMembersWrote : Prop :=
  ∀ (t : Nat) (keep : Path) (l : List Path), t < 16 →
    let c := keep :: l
    let k := mergeClass t c keep
    (∀ j, j < 1024 → k.threads.getLsbD j = c.any fun p => p.threads.getLsbD j) ∧
    (∀ j, j < 16 → k.tokens.getLsbD j = c.any fun p => p.tokens.getLsbD j) ∧
    (∀ (x : Nat) (m : Path), x < 64 → c.find? (fun p => (vget p.maps t).getLsbD x) = some m → vget k.regs x = vget m.regs x) ∧
    (∀ x : Nat, x < 64 → c.find? (fun p => (vget p.maps t).getLsbD x) = none → vget k.regs x = vget keep.regs x) ∧
    k.idx = keep.idx ∧ k.rets = keep.rets ∧ k.run = .ready ∧
    (keep.rpt = none → keep.loops = [] → k.pc = keep.pc + 4)

/-- R171, R172, R261: a member that executes vmeld parks at it with the address of its table; a path that is no member traps with
cause 0x17. When the token is decided by exactly two members parked at one vmeld at one depth, and the table is read and legal,
the region is entered: the lower path is side a, both go on after the vmeld. -/
def Sys2Proof.Rules.VmeldEntersARegion : Prop :=
  ∀ (e : Bool) (t : BitVec 4) (o : BitVec 18) (s : State), Issues s → NoFrame s → Alone s →
    ((curPath s).tokens.getLsbD t.toNat = false → exec (.vmeld e t o) s = trapsWith 0x17 s) ∧
    ((curPath s).tokens.getLsbD t.toNat = true → exec (.vmeld e t o) s =
      .next (settleTokens (curWho s) 64 (endRun (modP (fun p => { p with run := .atMeld t.toNat (targetRule o s) }) s)))) ∧
    (∀ (w : Who) (k : Nat) (a b : Path) (x y : Word) (u v : State) (l : List Byte),
      let g := getGroup s w.uid w.gidx
      let blk := getBlock s w.uid
      let env : Env :=
        { uid := w.uid, pl := blk.place, ctx := blockCtx s blk, sup := g.sup, scope := 4, cls := 0, noL1 := true,
          side := .core blk.place, core := some (corePlace blk.place), owner := .path { w with pidx := a.idx } }
      v = decideToken w k s → tokenMembers g k = [a, b] → a.run = .atMeld k x → b.run = .atMeld k y → a.pc = b.pc →
      a.rets.length = b.rets.length → readTable env x s = (u, .ok l) → tableOk (nrOf g.nrc) (BitVec.ofNat 512 (ofBytes l)) = true →
      g.paths.Pairwise (fun p q => p.idx < q.idx) → (getGroup u w.uid w.gidx).paths = g.paths →
      (getGroup u w.uid w.gidx).melds = g.melds → Lives u { w with pidx := a.idx } →
      a.rpt = none → a.loops = [] → b.loops = [] → b.rpt = none →
      (getGroup v w.uid w.gidx).melds = g.melds ++
        [{ tok := k, a := a.idx, b := b.idx, table := BitVec.ofNat 512 (ofBytes l), doneA := false, doneB := false,
           startB := none }] ∧
      findPath (getGroup v w.uid w.gidx) a.idx = some { a with run := .ready, pc := a.pc + 4 } ∧
      findPath (getGroup v w.uid w.gidx) b.idx = some { b with run := .ready, pc := b.pc + 4 })

/-- R261: vunmeld of the region's own token ends the region: both paths stand at the instruction after it, and the run goes on for
side a. Of another token, or outside a region, it traps with cause 0x17. -/
def Sys2Proof.Rules.VunmeldEndsTheRegion : Prop :=
  ∀ (e : Bool) (t : BitVec 4) (s : State), Runs s → NoFrame s →
    (Alone s → exec (.vunmeld e t) s = trapsWith 0x17 s) ∧
    (∀ m : Meld, curMeld s = some m → (cur s).side = false →
      (m.tok ≠ t.toNat → exec (.vunmeld e t) s = trapsWith 0x17 s) ∧
      (m.tok = t.toNat → (curGroup s).melds = [m] → m.a ≠ m.b → Lives s { curWho s with pidx := m.b } →
        (getPath (curGroup s) m.b).loops = [] → (getPath (curGroup s) m.b).rpt = none →
        ∃ u, exec (.vunmeld e t) s = .next (advance { e := e, major := 0x29 } none false false u) ∧ (curGroup u).melds = [] ∧
          findPath (curGroup u) m.a = findPath (curGroup s) m.a ∧
          (getPath (curGroup u) m.b).pc = (getPath (curGroup s) m.b).pc + 4 ∧
          (getPath (curGroup u) m.b).regs = (getPath (curGroup s) m.b).regs))

/-- R262: vexit takes the named threads out of the path and lists them as exited; p0 names every live thread, also those at or above
vl; a path without a thread ends. vbrk traps with cause 0x0E when a thread is named and does nothing else. -/
def Sys2Proof.Rules.VexitAndVbrk : Prop :=
  ∀ (e : Bool) (i : BitVec 4) (s : State), Issues s → NoFrame s → Alone s →
    let p := curPath s
    let gone := if i = 0 then p.threads else takenSet i.toNat s
    let u := modG (fun g => { modPathIn p.idx (fun q => { q with threads := q.threads &&& ~~~gone }) g with
      exited := g.exited ||| gone }) s
    (p.threads &&& ~~~gone ≠ 0 → exec (.vexit e i) s = .next (advance { e := e, major := 0x2A } none false false u)) ∧
    (p.threads &&& ~~~gone = 0 → exec (.vexit e i) s = .next (endPath (curWho u) u)) ∧
    ((List.range 1024).any (takes i.toNat s) = true → exec (.vbrk e i) s = trapsWith 0x0E s) ∧
    ((List.range 1024).any (takes i.toNat s) = false →
      exec (.vbrk e i) s = .next (advance { e := e, major := 0x2A } none false false s))

/-- R263: vany, vall and vnone, for each side, against the live threads below vl that the mask names. -/
def Sys2Proof.Rules.VotesOverLiveThreads : Prop :=
  ∀ (e : Bool) (d : BitVec 6) (p m : BitVec 4) (s : State), Issues s → NoFrame s →
    let h : Head := { e := e, major := 0x2B }
    let ask (f : State → Bool) := perSide h (fun u => (wrS d (if f u then 1 else 0) u, .next)) s
    exec (.vany e d p m) s =
      .next (ask fun u => (List.range 1024).any fun j => takes m.toNat u j && (rdP p.toNat u).getLsbD j) ∧
    exec (.vall e d p m) s =
      .next (ask fun u => (List.range 1024).all fun j => !takes m.toNat u j || (rdP p.toNat u).getLsbD j) ∧
    exec (.vnone e d p m) s =
      .next (ask fun u => (List.range 1024).all fun j => !(takes m.toNat u j && (rdP p.toNat u).getLsbD j))

/-- R264, R163: vcfg sets the register count, clears every vector register and p1 to p15, sets vl and its destination to the new
VLMAX, vstart and dirty to 0, keeps scale registers, validity masks, fcsr and the scalar files, and ends the run. With more than
one live path, or an exited thread, it traps with cause 0x09 and changes nothing. -/
def Sys2Proof.Rules.VcfgConfigures : Prop :=
  ∀ (e : Bool) (d : BitVec 6) (n : BitVec 2) (s : State), Issues s → NoFrame s → Alone s →
    let g := curGroup s
    let vm := (if (curBlock s).place.cl = 4 then 2048 else 8192) / (8 * 2 ^ n.toNat)
    ((g.paths.length ≠ 1 ∨ g.exited ≠ 0) → exec (.vcfg e d n) s = trapsWith 0x09 s) ∧
    (g.paths.length = 1 → g.exited = 0 →
      exec (.vcfg e d n) s = .next (advance { e := e, major := 0x2C } none false true
        (wrS d (BitVec.ofNat 64 vm) (modG (fun g => { g with
          nrc := n, v := [], p := (Vector.replicate 16 0).set 0 (BitVec.allOnes 1024), vl := BitVec.ofNat 32 vm, vstart := 0, dirty := 0,
          paths := g.paths.map fun p => { p with threads := BitVec.ofNat 1024 (2 ^ vm - 1) } }) s))))

/-- R265, whole: vgrant sets vl to the lesser of s[A], unsigned, and VLMAX, and writes it; vstart is unchanged; in a melded region it
executes once per side, so that side b's value stands. -/
def Sys2Proof.Rules.VgrantSetsVl : Prop :=
  ∀ (e : Bool) (d a : BitVec 6) (s : State), Issues s → NoFrame s →
    exec (.vgrant e d a) s = .next (perSide { e := e, major := 0x2C } (fun u =>
      let x := min (rdS a u).toNat (vlmaxOf (curBlock u).place (curGroup u).nrc)
      (wrS d (BitVec.ofNat 64 x) (modG (fun g => { g with vl := BitVec.ofNat 32 x }) u), .next)) s)

/-! Vector and predicate instructions, in their short and their long forms. -/

namespace Sys2Proof.Rules

/-- What a vector instruction's fields select beside its operands: the mnemonic of a paired major, a function, condition or code, a
second number, and the predicates it names. -/
structure Pick where
  x : Nat := 0
  fn : Nat := 0
  k : Nat := 0
  pd : Nat := 0
  pa : Nat := 0
  pb : Nat := 0

/-- The long form's own encoding conditions (R271 to R273): every field that the extended instruction gives no meaning is zero, the
function and the codes are assigned ones, and DW is set only where a 64-bit form exists. -/
def longOk (x : VecLong) : Bool :=
  let major := 0x30 + x.xop.toNat
  let fn := x.fsub.toNat
  let b := x.b.toNat
  let la := x.ls.getLsbD 0
  let lb := x.ls.getLsbD 1
  let paired := decide (major ≤ 0x3A) || (decide (0x3C ≤ major) && decide (major ≤ 0x3E)) ||
    (decide (0x40 ≤ major) && decide (major ≤ 0x44)) || major == 0x47 || major == 0x4C
  let vecB := decide (major ≤ 0x3B) || (major == 0x3C && x.x == 0) || (decide (0x40 ≤ major) && decide (major ≤ 0x45)) ||
    major == 0x47 || (major == 0x4B && fn == 0)
  let has64 := decide (major ≤ 0x3C) || (major == 0x3D && x.x == 0) || major == 0x3E ||
    (decide (0x40 ≤ major) && decide (major ≤ 0x45)) || (major == 0x46 && b != 3) || major == 0x47 ||
    (decide (0x4B ≤ major) && decide (major ≤ 0x4D)) || (major == 0x4E && fn == 0)
  let noB := b == 0 && !lb
  let scalarOut := x.nw == 0
  decide (x.xop.toNat < 0x20) &&
  x.ord == 0 && x.k == 0 && x.ef == 0 && x.pln == 0 && x.prnd == 0 &&
  (paired || x.x == 0) &&
  (x.sb == 0 || (vecB && !lb)) &&
  (x.dw == 0 || has64) &&
  (match major with
  | 0x3B => decide (fn ≤ 9) && decide (x.d.toNat < 16) && scalarOut
  | 0x3C => fn == 0 && (x.x == 0 || noB)
  | 0x3D => fn == 0 && noB && !la && (x.x == 0 || x.a == 0)
  | 0x3E => fn == 0 && !lb && x.pm4 == 0 && (if x.x == 0 then scalarOut else !la)
  | 0x3F => fn == 0 && decide (b ≤ 0x14) && !lb
  | 0x45 => decide (fn ≤ 7) && decide (x.d.toNat < 16) && scalarOut
  | 0x46 => fn == 0 && decide (b ≤ 13) && !lb
  | 0x48 => fn == 0 && decide (b / 8 ≤ 5) && decide (b % 8 ≤ 5) && b / 8 != b % 8 && !lb
  | 0x49 => decide (fn ≤ 5) && !la && !lb && scalarOut && decide (x.a.toNat < 16) && decide (x.d.toNat < 16) &&
      (if fn ≤ 3 then decide (b < 16) else b == 0)
  | 0x4A => decide (fn ≤ 5) && !la && noB && scalarOut && decide (x.a.toNat < 16) && (decide (3 ≤ fn) || decide (x.d.toNat < 16))
  | 0x4B => decide (fn ≤ 3) && (fn == 0 || !lb)
  | 0x4C => fn == 0 && noB
  | 0x4D => fn == 0 && decide (b ≤ 9) && !lb && scalarOut
  | 0x4E =>
    (fn == 0 && decide (b % 32 ≤ 6) && !lb) ||
    (fn == 1 && !la && !lb && scalarOut && x.pm4 == 0 && decide (x.a.toNat < 16)) ||
    (fn == 2 && !la && !lb && scalarOut && decide (x.a.toNat < 16) && decide (b < 3))
  | 0x4F =>
    (fn == 0 && decide (b / 8 ≤ 6) && !lb && scalarOut && x.d == 0) || (fn == 1 && decide (b / 8 ≤ 6) && !lb) ||
    (fn == 2 && decide (b < 8) && !lb)
  | _ => fn == 0)

/-- Where the long form holds what the short form selects (R272). -/
def longSel (x : VecLong) : Pick :=
  let b := x.b.toNat
  match 0x30 + x.xop.toNat with
  | 0x3B => { pd := x.d.toNat, fn := x.fsub.toNat }
  | 0x45 => { pd := x.d.toNat, fn := x.fsub.toNat }
  | 0x3F => { fn := b }
  | 0x46 => { fn := b }
  | 0x48 => { fn := b / 8, k := b % 8 }
  | 0x49 => { fn := x.fsub.toNat, pd := x.d.toNat, pa := x.a.toNat, pb := b }
  | 0x4A => { fn := x.fsub.toNat, pd := x.d.toNat, pa := x.a.toNat }
  | 0x4B => { fn := x.fsub.toNat }
  | 0x4D => { fn := b }
  | 0x4E =>
    if x.fsub.toNat = 0 then { fn := 0, k := b % 32, x := b / 32 }
    else { fn := x.fsub.toNat, k := b, pa := x.a.toNat }
  | 0x4F => { fn := x.fsub.toNat, x := b / 8, k := b % 8 }
  | _ => { x := x.x.toNat }

/-- The forms of the vector instructions: their operands as the short or the long word gives them, and what their fields select. -/
inductive VecForm : Instr → VArgs → Pick → Prop where
  | vadd (e : Bool) (d a b : BitVec 6) (m l : BitVec 2) (w : BitVec 1) : VecForm (.vadd e d a b m l w)
      (shortV e 0x30 d a b m l w) { x := 0 }
  | vsub (e : Bool) (d a b : BitVec 6) (m l : BitVec 2) (w : BitVec 1) : VecForm (.vsub e d a b m l w)
      (shortV e 0x30 d a b m l w) { x := 1 }
  | vmul (e : Bool) (d a b : BitVec 6) (m l : BitVec 2) (w : BitVec 1) : VecForm (.vmul e d a b m l w)
      (shortV e 0x31 d a b m l w) { x := 0 }
  | vmulh (e : Bool) (d a b : BitVec 6) (m l : BitVec 2) (w : BitVec 1) : VecForm (.vmulh e d a b m l w)
      (shortV e 0x31 d a b m l w) { x := 1 }
  | vmulhu (e : Bool) (d a b : BitVec 6) (m l : BitVec 2) (w : BitVec 1) : VecForm (.vmulhu e d a b m l w)
      (shortV e 0x32 d a b m l w) { x := 0 }
  | vmad (e : Bool) (d a b : BitVec 6) (m l : BitVec 2) (w : BitVec 1) : VecForm (.vmad e d a b m l w)
      (shortV e 0x32 d a b m l w) { x := 1 }
  | vand (e : Bool) (d a b : BitVec 6) (m l : BitVec 2) (w : BitVec 1) : VecForm (.vand e d a b m l w)
      (shortV e 0x33 d a b m l w) { x := 0 }
  | vor (e : Bool) (d a b : BitVec 6) (m l : BitVec 2) (w : BitVec 1) : VecForm (.vor e d a b m l w)
      (shortV e 0x33 d a b m l w) { x := 1 }
  | vxor (e : Bool) (d a b : BitVec 6) (m l : BitVec 2) (w : BitVec 1) : VecForm (.vxor e d a b m l w)
      (shortV e 0x34 d a b m l w) { x := 0 }
  | vandn (e : Bool) (d a b : BitVec 6) (m l : BitVec 2) (w : BitVec 1) : VecForm (.vandn e d a b m l w)
      (shortV e 0x34 d a b m l w) { x := 1 }
  | vshl (e : Bool) (d a b : BitVec 6) (m l : BitVec 2) (w : BitVec 1) : VecForm (.vshl e d a b m l w)
      (shortV e 0x35 d a b m l w) { x := 0 }
  | vshr (e : Bool) (d a b : BitVec 6) (m l : BitVec 2) (w : BitVec 1) : VecForm (.vshr e d a b m l w)
      (shortV e 0x35 d a b m l w) { x := 1 }
  | vsra (e : Bool) (d a b : BitVec 6) (m l : BitVec 2) (w : BitVec 1) : VecForm (.vsra e d a b m l w)
      (shortV e 0x36 d a b m l w) { x := 0 }
  | vrot (e : Bool) (d a b : BitVec 6) (m l : BitVec 2) (w : BitVec 1) : VecForm (.vrot e d a b m l w)
      (shortV e 0x36 d a b m l w) { x := 1 }
  | vmin (e : Bool) (d a b : BitVec 6) (m l : BitVec 2) (w : BitVec 1) : VecForm (.vmin e d a b m l w)
      (shortV e 0x37 d a b m l w) { x := 0 }
  | vmax (e : Bool) (d a b : BitVec 6) (m l : BitVec 2) (w : BitVec 1) : VecForm (.vmax e d a b m l w)
      (shortV e 0x37 d a b m l w) { x := 1 }
  | vminu (e : Bool) (d a b : BitVec 6) (m l : BitVec 2) (w : BitVec 1) : VecForm (.vminu e d a b m l w)
      (shortV e 0x38 d a b m l w) { x := 0 }
  | vmaxu (e : Bool) (d a b : BitVec 6) (m l : BitVec 2) (w : BitVec 1) : VecForm (.vmaxu e d a b m l w)
      (shortV e 0x38 d a b m l w) { x := 1 }
  | vadds (e : Bool) (d a b : BitVec 6) (m l : BitVec 2) (w : BitVec 1) : VecForm (.vadds e d a b m l w)
      (shortV e 0x39 d a b m l w) { x := 0 }
  | vsubs (e : Bool) (d a b : BitVec 6) (m l : BitVec 2) (w : BitVec 1) : VecForm (.vsubs e d a b m l w)
      (shortV e 0x39 d a b m l w) { x := 1 }
  | vaddsu (e : Bool) (d a b : BitVec 6) (m l : BitVec 2) (w : BitVec 1) : VecForm (.vaddsu e d a b m l w)
      (shortV e 0x3A d a b m l w) { x := 0 }
  | vsubsu (e : Bool) (d a b : BitVec 6) (m l : BitVec 2) (w : BitVec 1) : VecForm (.vsubsu e d a b m l w)
      (shortV e 0x3A d a b m l w) { x := 1 }
  | vfadd (e : Bool) (d a b : BitVec 6) (m l : BitVec 2) (w : BitVec 1) : VecForm (.vfadd e d a b m l w)
      (shortV e 0x40 d a b m l w) { x := 0 }
  | vfsub (e : Bool) (d a b : BitVec 6) (m l : BitVec 2) (w : BitVec 1) : VecForm (.vfsub e d a b m l w)
      (shortV e 0x40 d a b m l w) { x := 1 }
  | vfmul (e : Bool) (d a b : BitVec 6) (m l : BitVec 2) (w : BitVec 1) : VecForm (.vfmul e d a b m l w)
      (shortV e 0x41 d a b m l w) { x := 0 }
  | vfdiv (e : Bool) (d a b : BitVec 6) (m l : BitVec 2) (w : BitVec 1) : VecForm (.vfdiv e d a b m l w)
      (shortV e 0x41 d a b m l w) { x := 1 }
  | vffma (e : Bool) (d a b : BitVec 6) (m l : BitVec 2) (w : BitVec 1) : VecForm (.vffma e d a b m l w)
      (shortV e 0x42 d a b m l w) { x := 0 }
  | vffms (e : Bool) (d a b : BitVec 6) (m l : BitVec 2) (w : BitVec 1) : VecForm (.vffms e d a b m l w)
      (shortV e 0x42 d a b m l w) { x := 1 }
  | vfnma (e : Bool) (d a b : BitVec 6) (m l : BitVec 2) (w : BitVec 1) : VecForm (.vfnma e d a b m l w)
      (shortV e 0x43 d a b m l w) { x := 0 }
  | vfnms (e : Bool) (d a b : BitVec 6) (m l : BitVec 2) (w : BitVec 1) : VecForm (.vfnms e d a b m l w)
      (shortV e 0x43 d a b m l w) { x := 1 }
  | vfmin (e : Bool) (d a b : BitVec 6) (m l : BitVec 2) (w : BitVec 1) : VecForm (.vfmin e d a b m l w)
      (shortV e 0x44 d a b m l w) { x := 0 }
  | vfmax (e : Bool) (d a b : BitVec 6) (m l : BitVec 2) (w : BitVec 1) : VecForm (.vfmax e d a b m l w)
      (shortV e 0x44 d a b m l w) { x := 1 }
  | vfscaleb (e : Bool) (d a b : BitVec 6) (m l : BitVec 2) (w : BitVec 1) : VecForm (.vfscaleb e d a b m l w)
      (shortV e 0x47 d a b m l w) { x := 0 }
  | vfsgnj (e : Bool) (d a b : BitVec 6) (m l : BitVec 2) (w : BitVec 1) : VecForm (.vfsgnj e d a b m l w)
      (shortV e 0x47 d a b m l w) { x := 1 }
  | vcmp (e : Bool) (p c : BitVec 4) (a b : BitVec 6) (m l : BitVec 2) : c.toNat ≤ 9 → VecForm (.vcmp e p c a b m l)
      (shortV e 0x3B 0 a b m l 0) { pd := p.toNat, fn := c.toNat }
  | vsel (e : Bool) (d a b : BitVec 6) (m l : BitVec 2) (w : BitVec 1) : VecForm (.vsel e d a b m l w)
      (shortV e 0x3C d a b m l w) { x := 0 }
  | vmov (e : Bool) (d a : BitVec 6) (m : BitVec 2) (l w : BitVec 1) : VecForm (.vmov e d a m l w)
      (shortU e 0x3C d a m l w) { x := 1 }
  | vbcast (e : Bool) (d a : BitVec 6) (m : BitVec 2) (w : BitVec 1) : VecForm (.vbcast e d a m w)
      (shortU e 0x3D d a m 0 w) { x := 0 }
  | vid (e : Bool) (d : BitVec 6) (m : BitVec 2) (w : BitVec 1) : VecForm (.vid e d m w)
      (shortU e 0x3D d 0 m 0 w) { x := 1 }
  | vext (e : Bool) (d a b : BitVec 6) (l : BitVec 1) : VecForm (.vext e d a b l)
      ({ shortU e 0x3E d a 0 l 0 with b := b }) { x := 0 }
  | vins (e : Bool) (d a b : BitVec 6) (w : BitVec 1) : VecForm (.vins e d a b w)
      ({ shortU e 0x3E d a 0 0 w with b := b }) { x := 1 }
  | vcvt (e : Bool) (d a c : BitVec 6) (m : BitVec 2) (l w : BitVec 1) : c.toNat ≤ 0x14 → VecForm (.vcvt e d a c m l w)
      ({ shortU e 0x3F d a m l w with b := c }) { fn := c.toNat }
  | vfcmp (e : Bool) (p c : BitVec 4) (a b : BitVec 6) (m l : BitVec 2) : c.toNat ≤ 7 → VecForm (.vfcmp e p c a b m l)
      (shortV e 0x45 0 a b m l 0) { pd := p.toNat, fn := c.toNat }
  | vfsqrt (e : Bool) (d a : BitVec 6) (m : BitVec 2) (l w : BitVec 1) : VecForm (.vfsqrt e d a m l w)
      (shortU e 0x46 d a m l w) { fn := 0 }
  | vfrcp (e : Bool) (d a : BitVec 6) (m : BitVec 2) (l w : BitVec 1) : VecForm (.vfrcp e d a m l w)
      (shortU e 0x46 d a m l w) { fn := 1 }
  | vfrsq (e : Bool) (d a : BitVec 6) (m : BitVec 2) (l w : BitVec 1) : VecForm (.vfrsq e d a m l w)
      (shortU e 0x46 d a m l w) { fn := 2 }
  | vfexp2f (e : Bool) (d a : BitVec 6) (m : BitVec 2) (l w : BitVec 1) : VecForm (.vfexp2f e d a m l w)
      (shortU e 0x46 d a m l w) { fn := 3 }
  | vfgetexp (e : Bool) (d a : BitVec 6) (m : BitVec 2) (l w : BitVec 1) : VecForm (.vfgetexp e d a m l w)
      (shortU e 0x46 d a m l w) { fn := 4 }
  | vfgetman (e : Bool) (d a : BitVec 6) (m : BitVec 2) (l w : BitVec 1) : VecForm (.vfgetman e d a m l w)
      (shortU e 0x46 d a m l w) { fn := 5 }
  | vfclass (e : Bool) (d a : BitVec 6) (m : BitVec 2) (l w : BitVec 1) : VecForm (.vfclass e d a m l w)
      (shortU e 0x46 d a m l w) { fn := 6 }
  | vfabs (e : Bool) (d a : BitVec 6) (m : BitVec 2) (l w : BitVec 1) : VecForm (.vfabs e d a m l w)
      (shortU e 0x46 d a m l w) { fn := 7 }
  | vfneg (e : Bool) (d a : BitVec 6) (m : BitVec 2) (l w : BitVec 1) : VecForm (.vfneg e d a m l w)
      (shortU e 0x46 d a m l w) { fn := 8 }
  | vfround (e : Bool) (d a : BitVec 6) (m : BitVec 2) (l w : BitVec 1) : VecForm (.vfround e d a m l w)
      (shortU e 0x46 d a m l w) { fn := 9 }
  | vfroundRne (e : Bool) (d a : BitVec 6) (m : BitVec 2) (l w : BitVec 1) : VecForm (.vfroundRne e d a m l w)
      (shortU e 0x46 d a m l w) { fn := 10 }
  | vfroundRtz (e : Bool) (d a : BitVec 6) (m : BitVec 2) (l w : BitVec 1) : VecForm (.vfroundRtz e d a m l w)
      (shortU e 0x46 d a m l w) { fn := 11 }
  | vfroundRdn (e : Bool) (d a : BitVec 6) (m : BitVec 2) (l w : BitVec 1) : VecForm (.vfroundRdn e d a m l w)
      (shortU e 0x46 d a m l w) { fn := 12 }
  | vfroundRup (e : Bool) (d a : BitVec 6) (m : BitVec 2) (l w : BitVec 1) : VecForm (.vfroundRup e d a m l w)
      (shortU e 0x46 d a m l w) { fn := 13 }
  | vfcvt (e : Bool) (d a : BitVec 6) (x y : BitVec 3) (m : BitVec 2) (l w : BitVec 1) : x.toNat ≤ 5 → y.toNat ≤ 5 → x ≠ y → VecForm (.vfcvt e d a x y m l w)
      (shortU e 0x48 d a m l w) { fn := x.toNat, k := y.toNat }
  | pand (e : Bool) (d a b : BitVec 4) (m : BitVec 2) : VecForm (.pand e d a b m)
      (shortU e 0x49 0 0 m 0 0) { fn := 0, pd := d.toNat, pa := a.toNat, pb := b.toNat }
  | por (e : Bool) (d a b : BitVec 4) (m : BitVec 2) : VecForm (.por e d a b m)
      (shortU e 0x49 0 0 m 0 0) { fn := 1, pd := d.toNat, pa := a.toNat, pb := b.toNat }
  | pxor (e : Bool) (d a b : BitVec 4) (m : BitVec 2) : VecForm (.pxor e d a b m)
      (shortU e 0x49 0 0 m 0 0) { fn := 2, pd := d.toNat, pa := a.toNat, pb := b.toNat }
  | pandn (e : Bool) (d a b : BitVec 4) (m : BitVec 2) : VecForm (.pandn e d a b m)
      (shortU e 0x49 0 0 m 0 0) { fn := 3, pd := d.toNat, pa := a.toNat, pb := b.toNat }
  | pnot (e : Bool) (d a : BitVec 4) (m : BitVec 2) : VecForm (.pnot e d a m)
      (shortU e 0x49 0 0 m 0 0) { fn := 4, pd := d.toNat, pa := a.toNat }
  | pmov (e : Bool) (d a : BitVec 4) (m : BitVec 2) : VecForm (.pmov e d a m)
      (shortU e 0x49 0 0 m 0 0) { fn := 5, pd := d.toNat, pa := a.toNat }
  | psbf (e : Bool) (d a : BitVec 4) (m : BitVec 2) : VecForm (.psbf e d a m)
      (shortU e 0x4A 0 0 m 0 0) { fn := 0, pd := d.toNat, pa := a.toNat }
  | psif (e : Bool) (d a : BitVec 4) (m : BitVec 2) : VecForm (.psif e d a m)
      (shortU e 0x4A 0 0 m 0 0) { fn := 1, pd := d.toNat, pa := a.toNat }
  | psof (e : Bool) (d a : BitVec 4) (m : BitVec 2) : VecForm (.psof e d a m)
      (shortU e 0x4A 0 0 m 0 0) { fn := 2, pd := d.toNat, pa := a.toNat }
  | pfirst (e : Bool) (d : BitVec 6) (a : BitVec 4) (m : BitVec 2) : VecForm (.pfirst e d a m)
      (shortU e 0x4A d 0 m 0 0) { fn := 3, pa := a.toNat }
  | ppopc (e : Bool) (d : BitVec 6) (a : BitVec 4) (m : BitVec 2) : VecForm (.ppopc e d a m)
      (shortU e 0x4A d 0 m 0 0) { fn := 4, pa := a.toNat }
  | piota (e : Bool) (d : BitVec 6) (a : BitVec 4) (m : BitVec 2) : VecForm (.piota e d a m)
      (shortU e 0x4A d 0 m 0 0) { fn := 5, pa := a.toNat }
  | vshfl (e : Bool) (d a b : BitVec 6) (m l : BitVec 2) : VecForm (.vshfl e d a b m l)
      (shortV e 0x4B d a b m l 0) { fn := 0 }
  | vshflx (e : Bool) (d a b : BitVec 6) (m : BitVec 2) (l : BitVec 1) : VecForm (.vshflx e d a b m l)
      ({ shortU e 0x4B d a m l 0 with b := b }) { fn := 1 }
  | vlup (e : Bool) (d a b : BitVec 6) (m : BitVec 2) (l : BitVec 1) : VecForm (.vlup e d a b m l)
      ({ shortU e 0x4B d a m l 0 with b := b }) { fn := 2 }
  | vldn (e : Bool) (d a b : BitVec 6) (m : BitVec 2) (l : BitVec 1) : VecForm (.vldn e d a b m l)
      ({ shortU e 0x4B d a m l 0 with b := b }) { fn := 3 }
  | vcompress (e : Bool) (d a : BitVec 6) (m : BitVec 2) (l w : BitVec 1) : VecForm (.vcompress e d a m l w)
      (shortU e 0x4C d a m l w) { x := 0 }
  | vexpand (e : Bool) (d a : BitVec 6) (m : BitVec 2) (l w : BitVec 1) : VecForm (.vexpand e d a m l w)
      (shortU e 0x4C d a m l w) { x := 1 }
  | vredSum (e : Bool) (d a : BitVec 6) (m : BitVec 2) (l : BitVec 1) : VecForm (.vredSum e d a m l)
      (shortU e 0x4D d a m l 0) { fn := 0 }
  | vredMin (e : Bool) (d a : BitVec 6) (m : BitVec 2) (l : BitVec 1) : VecForm (.vredMin e d a m l)
      (shortU e 0x4D d a m l 0) { fn := 1 }
  | vredMax (e : Bool) (d a : BitVec 6) (m : BitVec 2) (l : BitVec 1) : VecForm (.vredMax e d a m l)
      (shortU e 0x4D d a m l 0) { fn := 2 }
  | vredAnd (e : Bool) (d a : BitVec 6) (m : BitVec 2) (l : BitVec 1) : VecForm (.vredAnd e d a m l)
      (shortU e 0x4D d a m l 0) { fn := 3 }
  | vredOr (e : Bool) (d a : BitVec 6) (m : BitVec 2) (l : BitVec 1) : VecForm (.vredOr e d a m l)
      (shortU e 0x4D d a m l 0) { fn := 4 }
  | vredXor (e : Bool) (d a : BitVec 6) (m : BitVec 2) (l : BitVec 1) : VecForm (.vredXor e d a m l)
      (shortU e 0x4D d a m l 0) { fn := 5 }
  | vredFsumO (e : Bool) (d a : BitVec 6) (m : BitVec 2) (l : BitVec 1) : VecForm (.vredFsumO e d a m l)
      (shortU e 0x4D d a m l 0) { fn := 6 }
  | vredFsumU (e : Bool) (d a : BitVec 6) (m : BitVec 2) (l : BitVec 1) : VecForm (.vredFsumU e d a m l)
      (shortU e 0x4D d a m l 0) { fn := 7 }
  | vredFmin (e : Bool) (d a : BitVec 6) (m : BitVec 2) (l : BitVec 1) : VecForm (.vredFmin e d a m l)
      (shortU e 0x4D d a m l 0) { fn := 8 }
  | vredFmax (e : Bool) (d a : BitVec 6) (m : BitVec 2) (l : BitVec 1) : VecForm (.vredFmax e d a m l)
      (shortU e 0x4D d a m l 0) { fn := 9 }
  | vscan (e : Bool) (d a : BitVec 6) (x : BitVec 1) (o : BitVec 5) (m : BitVec 2) (l : BitVec 1) : o.toNat ≤ 6 → VecForm (.vscan e d a x o m l)
      (shortU e 0x4E d a m l 0) { fn := 0, k := o.toNat, x := x.toNat }
  | vballot (e : Bool) (d : BitVec 6) (a : BitVec 4) (b : BitVec 6) : VecForm (.vballot e d a b)
      ({ shortU e 0x4E d 0 0 0 0 with b := b }) { fn := 1, pa := a.toNat }
  | vvoteAny (e : Bool) (d : BitVec 6) (a : BitVec 4) (m : BitVec 2) : VecForm (.vvoteAny e d a m)
      (shortU e 0x4E d 0 m 0 0) { fn := 2, k := 0, pa := a.toNat }
  | vvoteAll (e : Bool) (d : BitVec 6) (a : BitVec 4) (m : BitVec 2) : VecForm (.vvoteAll e d a m)
      (shortU e 0x4E d 0 m 0 0) { fn := 2, k := 1, pa := a.toNat }
  | vvoteCnt (e : Bool) (d : BitVec 6) (a : BitVec 4) (m : BitVec 2) : VecForm (.vvoteCnt e d a m)
      (shortU e 0x4E d 0 m 0 0) { fn := 2, k := 2, pa := a.toNat }
  | vmaxexp (e : Bool) (a : BitVec 6) (f k : BitVec 3) (m : BitVec 2) (l : BitVec 1) : f.toNat ≤ 6 → VecForm (.vmaxexp e a f k m l)
      (shortU e 0x4F 0 a m l 0) { fn := 0, x := f.toNat, k := k.toNat }
  | vquant (e : Bool) (d a : BitVec 6) (f k : BitVec 3) (m : BitVec 2) (l : BitVec 1) : f.toNat ≤ 6 → VecForm (.vquant e d a f k m l)
      (shortU e 0x4F d a m l 0) { fn := 1, x := f.toNat, k := k.toNat }
  | vdequant (e : Bool) (d a : BitVec 6) (k : BitVec 3) (m : BitVec 2) (l : BitVec 1) : VecForm (.vdequant e d a k m l)
      (shortU e 0x4F d a m l 0) { fn := 2, k := k.toNat }
  | vectorLongForm (e : Bool) (x : VecLong) : longOk x = true → VecForm (.vectorLongForm e x)
      (longV e x) (longSel x)


/-- A field that names a register or a latch is as R218, R228 and R273 demand: a pair is even, a latch is bp0 to bp3, and the register
that it names for each side that executes lies below NR. -/
def useOk (s : State) : VUse → Prop
  | .reg f wide => (wide = true → (f.toNat + bias s) % 2 = 0) ∧ ∀ b ∈ sidesOf s, vregOf s b f + b2n wide < nr s
  | .latch f wide => f.toNat < 4 ∧ (wide = true → f.toNat % 2 = 0)

/-- When a vector instruction of majors 0x30 to 0x4F executes: a V-role group issues, its sources are good, and its vector destination
of width `wd` is too; with NW = 1 the destination's number is not checked. -/
def VecReady (v : VArgs) (uses : List VUse) (dst : Option Bool) (s : State) : Prop :=
  Issues s ∧ InRole .v s ∧ (∀ u ∈ uses, useOk s u) ∧
  ∀ wd, dst = some wd → (wd = true → (v.d.toNat + bias s) % 2 = 0) ∧ (v.nw = false → useOk s (.reg v.d wd))

/-- The state after a vector instruction's body: once for the run, or once for each side, side b from the element at which the
instruction was issued (R269). -/
def runV (v : VArgs) (body : State → State × Act) (s : State) : State :=
  let h : Head := { e := v.e, major := v.major, len := v.len }
  if v.once then finish h false (body s) else perSide h (fromStart body) (keepStart s)

/-- Sources A and B of a form. -/
def sourceA (v : VArgs) : VUse := if v.la then .latch v.a v.wide else .reg v.a v.wide
def sourceB (v : VArgs) : List VUse := if v.sb then [] else [if v.lb then .latch v.b v.wide else .reg v.b v.wide]

/-- Signed reading of the low w bits, and reduction modulo 2^w. -/
def sgn (w x : Nat) : Int := if x % 2 ^ w < 2 ^ (w - 1) then ((x % 2 ^ w : Nat) : Int) else ((x % 2 ^ w : Nat) : Int) - ((2 ^ w : Nat) : Int)
def wrap (w : Nat) (x : Int) : Nat := (x % ((2 ^ w : Nat) : Int)).toNat
def limit (lo hi x : Int) : Int := max lo (min hi x)

def widthV (v : VArgs) : Nat := if v.wide then 64 else 32

/-- The integer results of R274 on w-bit numbers, d the old destination. -/
def intRule (w major x a b d : Nat) : Nat :=
  let n := b % w
  let m : Int := ((2 ^ (w - 1) : Nat) : Int)
  match major, x with
  | 0x30, 0 => wrap w ((a : Int) + b)
  | 0x30, _ => wrap w ((a : Int) - b)
  | 0x31, 0 => wrap w ((a : Int) * b)
  | 0x31, _ => wrap w (sgn w a * sgn w b / ((2 ^ w : Nat) : Int))
  | 0x32, 0 => a * b / 2 ^ w
  | 0x32, _ => (a * b + d) % 2 ^ w
  | 0x33, 0 => a &&& b
  | 0x33, _ => a ||| b
  | 0x34, 0 => a ^^^ b
  | 0x34, _ => a &&& (2 ^ w - 1 - b)
  | 0x35, 0 => a * 2 ^ n % 2 ^ w
  | 0x35, _ => a / 2 ^ n
  | 0x36, 0 => wrap w (sgn w a / ((2 ^ n : Nat) : Int))
  | 0x36, _ => a * 2 ^ n % 2 ^ w + a / 2 ^ (w - n)
  | 0x37, 0 => wrap w (min (sgn w a) (sgn w b))
  | 0x37, _ => wrap w (max (sgn w a) (sgn w b))
  | 0x38, 0 => min a b
  | 0x38, _ => max a b
  | 0x39, 0 => wrap w (limit (-m) (m - 1) (sgn w a + sgn w b))
  | 0x39, _ => wrap w (limit (-m) (m - 1) (sgn w a - sgn w b))
  | _, 0 => wrap w (limit 0 (2 * m - 1) ((a : Int) + b))
  | _, _ => wrap w (limit 0 (2 * m - 1) ((a : Int) - b))

/-- The conditions of R275. -/
def condRule (w cond a b : Nat) : Bool :=
  match cond with
  | 0 => decide (a = b)
  | 1 => decide (a ≠ b)
  | 2 => decide (sgn w a < sgn w b)
  | 3 => decide (sgn w a ≤ sgn w b)
  | 4 => decide (sgn w b < sgn w a)
  | 5 => decide (sgn w b ≤ sgn w a)
  | 6 => decide (a < b)
  | 7 => decide (a ≤ b)
  | 8 => decide (b < a)
  | _ => decide (b ≤ a)

/-- A source element as a number of the form's width. -/
def elA (v : VArgs) (s : State) (i : Nat) : Nat := srcA v s i % 2 ^ widthV v
def elB (v : VArgs) (s : State) (i : Nat) : Nat := srcB v s i % 2 ^ widthV v
def elD (v : VArgs) (s : State) (i : Nat) : Nat := srcD v s i % 2 ^ widthV v

end Sys2Proof.Rules

/-- R274 with R271: the integer instructions, short and long, complete for a V-role group with good operands: each active element of
the destination takes the result of its rule. It rests on the model's readings or choices of log 24, 25 (the old destination of vmad
with NW = 1 beyond NR), 26 and 63. -/
def Obligations.VectorIntegerResults : Prop :=
  ∀ (i : Instr) (v : VArgs) (q : Pick) (s : State), VecForm i v q → v.major ≤ 0x3A →
    VecReady v (sourceA v :: sourceB v) (some v.wide) s →
    exec i s = .next (runV v (vecMap v v.wide fun u k =>
      (intRule (widthV v) v.major q.x (elA v u k) (elB v u k) (elD v u k), 0)) s)

namespace Sys2Proof.Rules

/-- Does thread i take part in a vector instruction that executes once: a thread of the path, or in a melded region of either side (R173)? -/
def inRun (s : State) (i : Nat) : Bool :=
  match curMeld s with
  | some m => (getPath (curGroup s) m.a).threads.getLsbD i || (getPath (curGroup s) m.b).threads.getLsbD i
  | none => (curPath s).threads.getLsbD i

/-- Is element i active under predicate pm (R6)? -/
def isActive (pm : Nat) (s : State) (i : Nat) : Bool :=
  inRun s i && decide (i < (curGroup s).vl.toNat) && decide ((curGroup s).vstart.toNat ≤ i) && (rdP pm s).getLsbD i

end Sys2Proof.Rules

/-- R266, R201, R202, R219: what a vector result, of 32 or of 64 bits, does, for a path alone or in a melded region, where each thread
names registers as its side does (R173). Element i of the destination takes the low half of the result where thread i is active, of the
next register the high half of a 64-bit one; every other element of every register stands. The latch of the destination's number, and
the next for the high half, take each result, and elsewhere the register's element, or 0 with NW = 1; the other latches stand. The
dirty bit of a register is set when an element of it is written; flags accumulate; vstart is 0; nothing else changes. -/
def Sys2Proof.Rules.VectorResultsReachActiveElements : Prop :=
  ∀ (v : VArgs) (wd : Bool) (f : State → Nat → Nat × Flags) (s : State), Runs s → v.once = true →
    (curGroup s).vstart.toNat < (curGroup s).vl.toNat → swf (0 : Half) (curGroup s).v = true → swf (0 : Half) (curGroup s).bp = true →
    let g := curGroup s
    let t := (vecMap v wd f s).1
    let on := isActive v.pm s
    let D (i : Nat) : Nat := vregOf s (sideOf s i) v.d
    let half (h i : Nat) : Nat := (f s i).1 / 2 ^ (32 * h) % 2 ^ 32
    let latched (h i : Nat) : Nat := if on i then half h i else if v.nw then 0 else vel g (D i + h) i
    let n := advField s v.d
    (vecMap v wd f s).2 = .next ∧
    (∀ r i, i < 1024 → vel (curGroup t) r i =
      if on i && !v.nw && decide (r = D i) then half 0 i
      else if on i && !v.nw && wd && decide (r = D i + 1) then half 1 i else vel g r i) ∧
    (∀ k i, k < 4 → i < 1024 → bel (curGroup t) false k i =
      if decide (i < vlmax s) && decide (k = n % 4) then latched 0 i
      else if decide (i < vlmax s) && wd && decide (k = (n + 1) % 4) then latched 1 i else bel g false k i) ∧
    (∀ r, r < 64 → (curGroup t).dirty.getLsbD r =
      (g.dirty.getLsbD r || (List.range 1024).any fun i => on i && !v.nw && (decide (r = D i) || (wd && decide (r = D i + 1))))) ∧
    (∀ k, k < 5 → (curGroup t).fcsr.getLsbD k = (g.fcsr.getLsbD k || (List.range 1024).any fun i => on i && (f s i).2.getLsbD k)) ∧
    curGroup t = { g with
      v := (curGroup t).v, bp := (curGroup t).bp, dirty := (curGroup t).dirty, fcsr := (curGroup t).fcsr, vstart := 0 } ∧
    t = { s with blocks := t.blocks }

/-- R201: a vector instruction whose vstart has reached vl writes nothing but vstart := 0. -/
def Sys2Proof.Rules.NoElementWritesNothing : Prop :=
  ∀ (v : VArgs) (wd : Bool) (f : State → Nat → Nat × Flags) (c : State → Nat → Bool × Flags) (pd : Nat) (s : State),
    (curGroup s).vl.toNat ≤ (curGroup s).vstart.toNat →
    vecMap v wd f s = (modG (fun g => { g with vstart := 0 }) s, .next) ∧
    predMap v pd c s = (modG (fun g => { g with vstart := 0 }) s, .next)

/-- R275, R285: what a predicate result does, for a path alone or in a melded region: bit i of pd where thread i is active, no other bit,
no other predicate; p0 stands; flags accumulate. -/
def Sys2Proof.Rules.PredicateResultsReachActiveBits : Prop :=
  ∀ (v : VArgs) (pd : Nat) (c : State → Nat → Bool × Flags) (s : State), Runs s → v.once = true → pd < 16 →
    (curGroup s).vstart.toNat < (curGroup s).vl.toNat →
    let t := (predMap v pd c s).1
    let on := isActive v.pm s
    (∀ r i, r < 16 → i < 1024 →
      (rdP r t).getLsbD i = if decide (r = pd) && decide (pd ≠ 0) && on i then (c s i).1 else (rdP r s).getLsbD i) ∧
    (∀ k, k < 5 → (curGroup t).fcsr.getLsbD k =
      ((curGroup s).fcsr.getLsbD k || (List.range 1024).any fun i => on i && (c s i).2.getLsbD k)) ∧
    curGroup t = { curGroup s with p := (curGroup t).p, fcsr := (curGroup t).fcsr, vstart := 0 } ∧
    t = { s with blocks := t.blocks }

namespace Sys2Proof.Rules

/-- What vcvt converts between, by code (R277): destination, then source. -/
def cvtRows : List (CvtTy × CvtTy) :=
  [(.int 32 true, .int 8 true), (.int 32 true, .int 8 false), (.int 32 true, .int 16 true), (.int 32 true, .int 16 false),
   (.int 8 true, .int 32 true), (.int 8 false, .int 32 true), (.int 16 true, .int 32 true), (.int 16 false, .int 32 true),
   (.int 8 false, .int 32 false), (.int 16 false, .int 32 false), (.flt fB32, .int 32 true), (.flt fB32, .int 32 false),
   (.int 32 true, .flt fB32), (.int 32 false, .flt fB32), (.int 64 true, .int 32 true), (.int 64 true, .int 32 false),
   (.int 32 true, .int 64 true), (.flt fB64, .int 64 true), (.int 64 true, .flt fB64), (.flt fB64, .int 32 true),
   (.int 32 true, .flt fB64)]

/-- One conversion (R119, R120, R277): between integers it saturates without a flag. -/
def cvtRule (g : Group) (dst src : CvtTy) (x : Nat) : Nat × Flags :=
  let ftz := fcsrFtz g
  let fromFloat : Bool := match src with
    | .flt _ => true
    | .int _ _ => false
  let value : Fv := match src with
    | .int w true => ofIntFv (sgn w x)
    | .int w false => ofIntFv ((x % 2 ^ w : Nat) : Int)
    | .flt f => fdecode f (ftzIn ftz f (x % 2 ^ (1 + f.eb + f.mb)))
  match dst with
  | .flt f => ftzOut ftz f (toFmt f (fcsrRm g) value)
  | .int w signed =>
    let r := toIntSat w signed (fcsrRm g) value
    (wrap (if w = 64 then 64 else 32) r.1, if fromFloat then r.2 else 0)

def is64 : CvtTy → Bool
  | .int w _ => w == 64
  | .flt f => f.eb == 11

end Sys2Proof.Rules

/-- R275 to R277: compares, selections, moves, element access and conversions, short and long. It rests on the model's readings or
choices of log 24, 61 and 67 (where the vstart of vext and vins begins and ends). -/
def Obligations.VectorComparesMovesConversions : Prop :=
  ∀ (i : Instr) (v : VArgs) (q : Pick) (s : State), VecForm i v q →
    (v.major = 0x3B → VecReady v (sourceA v :: sourceB v) none s →
      exec i s = .next (runV v (predMap v q.pd fun u k => (condRule (widthV v) q.fn (elA v u k) (elB v u k), 0)) s)) ∧
    (v.major = 0x3C → q.x = 0 → VecReady v (sourceA v :: sourceB v) (some v.wide) s →
      exec i s = .next (runV v (vecMap { v with pm := 0 } v.wide fun u k =>
        (if (rdP v.pm u).getLsbD k then srcA v u k else srcB v u k, 0)) s)) ∧
    (v.major = 0x3C → q.x = 1 → VecReady v [sourceA v] (some v.wide) s →
      exec i s = .next (runV v (vecMap v v.wide fun u k => (srcA v u k, 0)) s)) ∧
    (v.major = 0x3D → q.x = 0 → VecReady v [] (some v.wide) s →
      exec i s = .next (runV v (vecMap v v.wide fun u k => ((scalarFor v u k v.a).toNat % 2 ^ widthV v, 0)) s)) ∧
    (v.major = 0x3D → q.x = 1 → VecReady v [] (some false) s →
      exec i s = .next (runV v (vecMap v false fun _ k => (k, 0)) s)) ∧
    (v.major = 0x3E → q.x = 0 → VecReady v [sourceA v] none s →
      let w := { v with once := false }
      exec i s = .next (runV w (fun u => (zeroStart (wrS v.d (BitVec.ofNat 64 (srcLane w u 0 (rdS v.b u).toNat)) u), .next)) s)) ∧
    (v.major = 0x3E → q.x = 1 → VecReady v [] (some v.wide) s →
      let w := { v with once := false }
      exec i s = .next (runV w (fun u =>
        let j := (rdS v.b u).toNat
        let on := decide (j < 1024) && (curPath u).threads.getLsbD j && decide (j < (curGroup u).vl.toNat) &&
          decide ((curGroup u).vstart.toNat ≤ j) && (rdP 0 u).getLsbD j
        if (curGroup u).vl.toNat ≤ (curGroup u).vstart.toNat then (zeroStart u, .next)
        else (zeroStart (putVec w v.wide (if on then [(j, (rdS v.a u).toNat % 2 ^ widthV v)] else []) u), .next)) s)) ∧
    (∀ c : CvtTy × CvtTy, v.major = 0x3F → cvtRows[q.fn]? = some c →
      let w := { v with wide := is64 c.2 }
      VecReady v [sourceA w] (some (is64 c.1)) s →
      exec i s = .next (runV v (vecMap w (is64 c.1) fun u k => cvtRule (curGroup u) c.1 c.2 (srcA w u k)) s))

namespace Sys2Proof.Rules

/-- The floating results of R278 and R279, d the old destination. -/
def floatRule (wide : Bool) (g : Group) (major x a b d : Nat) : Nat × Flags :=
  let f := if wide then fB64 else fB32
  let w := if wide then 64 else 32
  let rm := fcsrRm g
  let pat (y : Nat) : Nat := ftzIn (fcsrFtz g) f (y % 2 ^ w)
  let val (y : Nat) : Fv := fdecode f (pat y)
  let out := ftzOut (fcsrFtz g) f
  match major, x with
  | 0x40, 0 => out (fAdd f rm (val a) (val b))
  | 0x40, _ => out (fAdd f rm (val a) (fNeg (val b)))
  | 0x41, 0 => out (fMul f rm (val a) (val b))
  | 0x41, _ => out (fDiv f rm (val a) (val b))
  | 0x42, 0 => out (fFma f rm (val a) (val b) (val d))
  | 0x42, _ => out (fFma f rm (val a) (val b) (fNeg (val d)))
  | 0x43, 0 => out (fFma f rm (fNeg (val a)) (val b) (val d))
  | 0x43, _ => out (fFma f rm (fNeg (val a)) (val b) (fNeg (val d)))
  | 0x44, 0 => out (fMinMax f false (pat a) (pat b))
  | 0x44, _ => out (fMinMax f true (pat a) (pat b))
  | _, 0 => out (fScaleb f rm (val a) (sgn w b))
  | _, _ => (a % 2 ^ (w - 1) + b % 2 ^ w / 2 ^ (w - 1) * 2 ^ (w - 1), 0)

/-- The conditions of R280 with the flags they raise. -/
def floatCond (cond : Nat) (a b : Fv) : Bool × Flags :=
  let quiet : Flags := if isSnan a || isSnan b then flNV else 0
  let loud : Flags := if isNan a || isNan b then flNV else 0
  let ord := !isNan a && !isNan b
  match cond with
  | 0 => (fvEq a b, quiet)
  | 1 => (!fvEq a b, quiet)
  | 2 => (ord && fvLt a b, loud)
  | 3 => (ord && !fvLt b a, loud)
  | 4 => (ord && fvLt b a, loud)
  | 5 => (ord && !fvLt a b, loud)
  | 6 => (!ord, quiet)
  | _ => (ord, quiet)

/-- The functions of one source of R281 and R282. -/
def oneSource (wide : Bool) (g : Group) (fn a : Nat) : Nat × Flags :=
  let f := if wide then fB64 else fB32
  let w := if wide then 64 else 32
  let pat := ftzIn (fcsrFtz g) f (a % 2 ^ w)
  let val := fdecode f pat
  let out := ftzOut (fcsrFtz g) f
  match fn with
  | 0 => out (fSqrt f (fcsrRm g) val)
  | 1 => out (fRcp f (if wide then 4 else 0) pat)
  | 2 => out (fRsq f (if wide then 5 else 1) pat)
  | 3 => out (fExp2 pat)
  | 4 => fGetexp f (fcsrRm g) val
  | 5 => fGetman f (fcsrRm g) val
  | 6 => (fClass f a, 0)
  | 7 => (a % 2 ^ (w - 1), 0)
  | 8 => ((a + 2 ^ (w - 1)) % 2 ^ w, 0)
  | 9 => fRoundInt f (fcsrRm g) val
  | 10 => fRoundInt f .rne val
  | 11 => fRoundInt f .rtz val
  | 12 => fRoundInt f .rdn val
  | _ => fRoundInt f .rup val

def cvtFmtRule (c : Nat) : Fmt :=
  if c = 0 then fB32 else if c = 1 then fB64 else if c = 2 then fB16 else if c = 3 then fBf16 else if c = 4 then fE4m3 else fE5m2

end Sys2Proof.Rules

/-- R278 to R283: the floating instructions, short and long: arithmetic, compares, functions of one source and conversions. It rests on
the model's readings or choices of log 11, 20 and 25 (the old destination of an NW = 1 form beyond NR). -/
def Obligations.VectorFloatResults : Prop :=
  ∀ (i : Instr) (v : VArgs) (q : Pick) (s : State), VecForm i v q →
    ((0x40 ≤ v.major ∧ v.major ≤ 0x44) ∨ v.major = 0x47 →
      VecReady v (sourceA v :: sourceB v) (some v.wide) s →
      exec i s = .next (runV v (vecMap v v.wide fun u k =>
        floatRule v.wide (curGroup u) v.major q.x (elA v u k) (elB v u k) (elD v u k)) s)) ∧
    (v.major = 0x45 → VecReady v (sourceA v :: sourceB v) none s →
      let f := if v.wide then fB64 else fB32
      let val (u : State) (y : Nat) : Fv := fdecode f (ftzIn (fcsrFtz (curGroup u)) f y)
      exec i s = .next (runV v (predMap v q.pd fun u k => floatCond q.fn (val u (elA v u k)) (val u (elB v u k))) s)) ∧
    (v.major = 0x46 → VecReady v [sourceA v] (some v.wide) s →
      exec i s = .next (runV v (vecMap v v.wide fun u k => oneSource v.wide (curGroup u) q.fn (elA v u k)) s)) ∧
    (v.major = 0x48 →
      let w := { v with wide := q.k == 1 }
      VecReady v [sourceA w] (some (q.fn == 1)) s →
      exec i s = .next (runV v (vecMap w (q.fn == 1) fun u k =>
        cvtRule (curGroup u) (.flt (cvtFmtRule q.fn)) (.flt (cvtFmtRule q.k)) (srcA w u k)) s))

/-- R282: the corners of the fixed approximations, whatever the device's own values are: zeros, infinities and NaNs of vfrcp and vfrsq
in both formats, and vfexp2f at −1, −0, +0 and 1 and outside [−1, 1]. -/
def Sys2Proof.Rules.ApproximationCorners : Prop :=
  ∀ (f : Fmt) (k x : Nat), (f = fB32 ∨ f = fB64) →
    (∀ n e, fdecode f x = .fin n 0 e → fRcp f k x = (fInf f n, flDZ) ∧ fRsq f k x = (fInf f n, flDZ)) ∧
    (∀ n, fdecode f x = .inf n → fRcp f k x = (signBit f n, 0)) ∧
    (fdecode f x = .inf false → fRsq f k x = (0, 0)) ∧
    (fdecode f x = .inf true → fRsq f k x = (canonNan f, flNV)) ∧
    (∀ m e, fdecode f x = .fin true m e → m ≠ 0 → fRsq f k x = (canonNan f, flNV)) ∧
    (∀ sg, fdecode f x = .nan sg → fRcp f k x = (canonNan f, if sg then flNV else 0) ∧ fRsq f k x = (canonNan f, if sg then flNV else 0)) ∧
    fExp2 0xBF800000 = (0x3F000000, 0) ∧ fExp2 0x80000000 = (0x3F800000, 0) ∧ fExp2 0 = (0x3F800000, 0) ∧
    fExp2 0x3F800000 = (0x40000000, 0) ∧
    (∀ y, y < 2 ^ 32 → 0x3F800000 < y % 2 ^ 31 → y % 2 ^ 31 ≤ 0x7F800000 → fExp2 y = (canonNan fB32, flNV))

/-- R285, R286: predicate logic and the prefix functions, short and long. f is the lowest active thread with pa set. -/
def Sys2Proof.Rules.PredicateInstructions : Prop :=
  ∀ (i : Instr) (v : VArgs) (q : Pick) (s : State), VecForm i v q →
    let w := { v with once := false }
    let first (u : State) : Option Nat := (actives w u).find? fun k => (rdP q.pa u).getLsbD k
    (v.major = 0x49 → VecReady v [] none s →
      exec i s = .next (runV v (predMap v q.pd fun u k =>
        let a := (rdP q.pa u).getLsbD k
        let b := (rdP q.pb u).getLsbD k
        (if q.fn = 0 then a && b else if q.fn = 1 then a || b else if q.fn = 2 then a != b else if q.fn = 3 then a && !b
         else if q.fn = 4 then !a else a, 0)) s)) ∧
    (v.major = 0x4A → q.fn ≤ 2 → VecReady v [] none s →
      exec i s = .next (runV w (predMap w q.pd fun u k =>
        (match first u with
         | none => decide (q.fn ≤ 1)
         | some f => if q.fn = 0 then decide (k < f) else if q.fn = 1 then decide (k ≤ f) else decide (k = f), 0)) s)) ∧
    (v.major = 0x4A → q.fn = 3 → VecReady v [] none s →
      exec i s = .next (runV w (fun u => (zeroStart (wrS v.d (match first u with
        | some f => BitVec.ofNat 64 f
        | none => 0xFFFFFFFFFFFFFFFF) u), .next)) s)) ∧
    (v.major = 0x4A → q.fn = 4 → VecReady v [] none s →
      exec i s = .next (runV w (fun u => (zeroStart (wrS v.d
        (BitVec.ofNat 64 (((actives w u).filter fun k => (rdP q.pa u).getLsbD k).length)) u), .next)) s)) ∧
    (v.major = 0x4A → q.fn = 5 → VecReady v [] (some false) s →
      exec i s = .next (runV w (vecMap w false fun u k =>
        (((actives w u).filter fun j => (rdP q.pa u).getLsbD j && decide (j < k)).length, 0)) s))

/-- R267: what a thread reads of another thread's element: the element where that thread is live and below vl and VLMAX, else 0. -/
def Sys2Proof.Rules.OtherThreadsReadThroughSrc : Prop :=
  ∀ (v : VArgs) (s : State) (i j : Nat),
    srcLane v s i j =
      if j < 1024 ∧ (curGroup s).exited.getLsbD j = false ∧ j < (curGroup s).vl.toNat ∧ j < vlmax s
      then srcEl v s v.la v.wide v.a i j else 0

/-- R287, R288: shuffles, lane shifts, compress and expand, short and long, once for each side. A 64-bit scalar index of vshfl counts
modulo 2^32, which is the model's choice of log 105. compress and expand trap with cause 0x09
when vstart is not 0. -/
def Sys2Proof.Rules.LaneInstructions : Prop :=
  ∀ (i : Instr) (v : VArgs) (q : Pick) (s : State), VecForm i v q →
    let w := { v with once := false }
    let written (l : State → List (Nat × Nat)) (u : State) : State × Act :=
      if (curGroup u).vl.toNat ≤ (curGroup u).vstart.toNat then (zeroStart u, .next)
      else (zeroStart (putVec w v.wide (l u) u), .next)
    (v.major = 0x4B → q.fn = 0 → VecReady v (sourceA v :: (if v.sb then [] else [if v.lb then .latch v.b false else .reg v.b v.wide])) (some v.wide) s →
      exec i s = .next (runV w (vecMap w v.wide fun u k =>
        (srcLane w u k (if v.sb then (scalarFor w u k v.b).toNat % 2 ^ 32 else srcEl w u v.lb false v.b k k), 0)) s)) ∧
    (v.major = 0x4B → 1 ≤ q.fn → q.fn ≤ 3 → VecReady v [sourceA v] (some v.wide) s →
      exec i s = .next (runV w (written fun u => (actives w u).filterMap fun k =>
        let n := (rdS v.b u).toNat
        if q.fn = 1 then some (k, srcLane w u k (k ^^^ n))
        else if q.fn = 2 then (if n ≤ k then some (k, srcLane w u k (k - n)) else none)
        else some (k, srcLane w u k (k + n))) s)) ∧
    (v.major = 0x4C → VecReady v [sourceA v] (some v.wide) s →
      exec i s = .next (runV w (fun u =>
        if (curGroup u).vstart ≠ 0 then (u, .trapOn (startPath u).pidx 0x09 0 0)
        else written (fun u => (actives w u).zipIdx.map fun x =>
          if q.x = 0 then (x.2, srcEl w u v.la v.wide v.a x.1 x.1) else (x.1, srcEl w u v.la v.wide v.a x.1 x.2)) u) s))

namespace Sys2Proof.Rules

/-- One step of an integer reduction (R289). -/
def redStep (op : Nat) (a b : Word) : Word :=
  match op with
  | 0 => a + b
  | 1 => BitVec.ofInt 64 (min a.toInt b.toInt)
  | 2 => BitVec.ofInt 64 (max a.toInt b.toInt)
  | 3 => a &&& b
  | 4 => a ||| b
  | _ => a ^^^ b

/-- An element as a reduction takes it: sign-extended for sum, min and max, else zero-extended. -/
def redEl (op w x : Nat) : Word := if op ≤ 2 then BitVec.ofInt 64 (sgn w x) else BitVec.ofNat 64 (x % 2 ^ w)

/-- One step of a floating reduction: 0 sum, 1 min, 2 max (R250, R289). -/
def redFloat (k : Nat) (wide : Bool) (g : Group) (a b : Nat) : Nat × Flags :=
  let f := if wide then fB64 else fB32
  let w := if wide then 64 else 32
  let pat (y : Nat) : Nat := ftzIn (fcsrFtz g) f (y % 2 ^ w)
  ftzOut (fcsrFtz g) f (if k = 0 then fAdd f (fcsrRm g) (fdecode f (pat a)) (fdecode f (pat b)) else fMinMax f (k == 2) (pat a) (pat b))

/-- Node i of level k of the tree of fsum.u (R289), level 0 the elements: absent, or a value, with the flags raised beneath it. -/
def treeNode (add : Nat → Nat → Nat × Flags) (leaf : Nat → Option Nat) : Nat → Nat → Option Nat × Flags
  | 0, i => (leaf i, 0)
  | k + 1, i =>
    let x := treeNode add leaf k (2 * i)
    let y := treeNode add leaf k (2 * i + 1)
    match x.1, y.1 with
    | some a, some b => (some (add a b).1, x.2 ||| y.2 ||| (add a b).2)
    | some a, none => (some a, x.2 ||| y.2)
    | none, z => (z, x.2 ||| y.2)

/-- The result of vred over a nonempty list of active elements. -/
def redRule (op : Nat) (v : VArgs) (u : State) : Nat × Flags :=
  let w := if v.wide then 64 else 32
  let l := (actives v u).map fun k => srcA v u k
  let start := (rdS v.d u).toNat % 2 ^ w
  let ordered (k : Nat) : Nat × Flags :=
    l.foldl (fun (a : Nat × Flags) x => ((redFloat k v.wide (curGroup u) a.1 x).1, a.2 ||| (redFloat k v.wide (curGroup u) a.1 x).2)) (start, 0)
  if op ≤ 5 then ((l.foldl (fun a x => redStep op a (redEl op w x)) (rdS v.d u)).toNat, 0)
  else if op = 6 then ordered 0
  else if op = 7 then
    let p := Nat.clog 2 (max (curGroup u).vl.toNat 1)
    let node := treeNode (redFloat 0 v.wide (curGroup u))
      (fun k => if (actives v u).contains k then some (srcA v u k) else none) p 0
    match node.1 with
    | none => (start, 0)
    | some x => ((redFloat 0 v.wide (curGroup u) start x).1, node.2 ||| (redFloat 0 v.wide (curGroup u) start x).2)
  else ordered (op - 7)

end Sys2Proof.Rules

/-- R289: the reductions, short and long, once for each side: over the active elements, from s[D]; with none, s[D] keeps its value.
fsum.u adds in the order of its tree. -/
def Sys2Proof.Rules.ReductionResults : Prop :=
  ∀ (i : Instr) (v : VArgs) (q : Pick) (s : State), VecForm i v q → v.major = 0x4D → VecReady v [sourceA v] none s →
    let w := { v with once := false }
    exec i s = .next (runV w (fun u =>
      if actives w u = [] then (zeroStart u, .next)
      else (zeroStart (raiseFlags (redRule q.fn w u).2 (wrS v.d (BitVec.ofNat 64 (redRule q.fn w u).1) u)), .next)) s)

/-- R290: scans, short and long, once for each side: they trap with cause 0x09 when vstart is not 0; element by element each active
thread takes the combination of the active elements up to its own (inclusive) or before its own (exclusive, the identity first). The
first element of fsum is a source and a result of a floating instruction: flushed under FTZ, a NaN canonical (R113, R117). -/
def Sys2Proof.Rules.ScanResults : Prop :=
  ∀ (i : Instr) (v : VArgs) (q : Pick) (s : State), VecForm i v q → v.major = 0x4E → q.fn = 0 → VecReady v [sourceA v] (some v.wide) s →
    let w := { v with once := false }
    let n := if v.wide then 64 else 32
    let step (u : State) (a b : Nat) : Nat :=
      if q.k = 6 then (redFloat 0 v.wide (curGroup u) a b).1 else (redStep q.k (redEl q.k n a) (redEl q.k n b)).toNat % 2 ^ n
    let identity : Nat := if q.k = 1 then 2 ^ (n - 1) - 1 else if q.k = 2 then 2 ^ (n - 1) else if q.k = 3 then 2 ^ n - 1 else 0
    let first (u : State) (x : Nat) : Nat :=
      let f := if v.wide then fB64 else fB32
      let y := ftzIn (fcsrFtz (curGroup u)) f (x % 2 ^ n)
      if q.k ≠ 6 then x else if isNan (fdecode f y) then canonNan f else y
    let fold (u : State) : List Nat → Nat
      | [] => identity
      | x :: l => l.foldl (step u) (first u x)
    ∃ fl : State → Flags, (q.k ≠ 6 → ∀ u, fl u = 0) ∧
      exec i s = .next (runV w (fun u =>
        if (curGroup u).vstart ≠ 0 then (u, .trapOn (startPath u).pidx 0x09 0 0)
        else if (curGroup u).vl.toNat ≤ (curGroup u).vstart.toNat then (zeroStart u, .next)
        else
          let l := (actives w u).map fun k => srcA w u k
          (zeroStart (raiseFlags (fl u) (putVec w v.wide ((actives w u).zipIdx.map fun x =>
            (x.1, fold u (l.take (if q.x = 1 then x.2 else x.2 + 1)))) u)), .next)) s)

/-- R291, R292 with R267: ballots and votes, short and long, once for each side. A ballot's word w holds bits 64w to 64w + 63 of the
predicate over live threads below vl and VLMAX, and words from 16 on read 0; votes count the same threads, vvote.all tests the
active ones. -/
def Sys2Proof.Rules.BallotsAndVotes : Prop :=
  ∀ (i : Instr) (v : VArgs) (q : Pick) (s : State), VecForm i v q → v.major = 0x4E → 1 ≤ q.fn → VecReady v [] none s →
    let w := { v with once := false }
    let counted (u : State) (k : Nat) : Bool :=
      decide (k < 1024) && !(curGroup u).exited.getLsbD k && decide (k < (curGroup u).vl.toNat) && decide (k < vlmax u) &&
      (rdP q.pa u).getLsbD k
    ∃ val : State → Word, exec i s = .next (runV w (fun u => (zeroStart (wrS v.d (val u) u), .next)) s) ∧
      (q.fn = 1 → ∀ u k, k < 64 → (val u).getLsbD k = (decide ((rdS v.b u).toNat < 16) && counted u (64 * (rdS v.b u).toNat + k))) ∧
      (q.fn = 2 → q.k = 0 → ∀ u, val u = if (List.range 1024).any (counted u) then 1 else 0) ∧
      (q.fn = 2 → q.k = 1 → ∀ u, val u = if (actives w u).all fun k => (rdP q.pa u).getLsbD k then 1 else 0) ∧
      (q.fn = 2 → q.k = 2 → ∀ u, val u = BitVec.ofNat 64 (((List.range 1024).filter (counted u)).length))

/-- R293 with R124: the block-scale instructions, short and long. vmaxexp writes the scale bytes of the blocks of 32 that hold an active
element, vquant writes them and the element codes under them, vdequant multiplies by 2^(X8 − 127) and gives the canonical NaN for an
invalid block. -/
def Sys2Proof.Rules.BlockScaleResults : Prop :=
  ∀ (i : Instr) (v : VArgs) (q : Pick) (s : State), VecForm i v q → v.major = 0x4F →
    let w := { v with once := false }
    let code := if q.x = 6 then 0x17 else 0x10 + q.x
    let value (u : State) (x : Nat) : Fv := fdecode fB32 (ftzIn (fcsrFtz (curGroup u)) fB32 (x % 2 ^ 32))
    let blockOf (u : State) (b : Nat) : List Fv := ((actives w u).filter fun k => k / 32 == b).map fun k => value u (srcA w u k)
    let blocks (u : State) : List (Nat × Nat) := (((actives w u).map (· / 32)).eraseDups).map fun b => (b, scaleStep code (blockOf u b))
    (q.fn = 0 → VecReady v [sourceA v] none s →
      exec i s = .next (runV w (fun u =>
        (zeroStart (if (curGroup u).vl.toNat ≤ (curGroup u).vstart.toNat then u else putScales q.k (blocks u) u), .next)) s)) ∧
    (q.fn = 1 → VecReady v [sourceA v] (some false) s →
      exec i s = .next (runV w (fun u =>
        if (curGroup u).vl.toNat ≤ (curGroup u).vstart.toNat then (zeroStart u, .next)
        else
          let r := (actives w u).map fun k =>
            (k, elemStep code (scaleStep code (blockOf u (k / 32))) (fcsrRm (curGroup u)) (value u (srcA w u k)))
          (zeroStart (raiseFlags (flagsOf r) (putVec w false (r.map fun e => (e.1, e.2.1)) (putScales q.k (blocks u) u))), .next)) s)) ∧
    (q.fn = 2 → VecReady v [sourceA v] (some false) s →
      exec i s = .next (runV v (vecMap v false fun u k =>
        let x8 := vbits (vget (curGroup u).ks q.k) (8 * (k / 32)) 8
        if x8 = 0xFF then (0x7FC00000, 0)
        else ftzOut (fcsrFtz (curGroup u)) fB32 (fScaleb fB32 (fcsrRm (curGroup u)) (value u (srcA v u k)) ((x8 : Int) - 127))) s))

/-- R130, R293: a scale byte written to entry b of kn sets its validity bit, or clears it for 0xFF; every other entry stands. -/
def Sys2Proof.Rules.ScaleEntriesCarryValidity : Prop :=
  ∀ (n b x8 : Nat) (g : Group), n < 8 → b < 64 → x8 < 256 →
    (∀ m c, m < 8 → c < 64 → vbits (vget (putScale n b x8 g).ks m) (8 * c) 8 =
      if m = n ∧ c = b then x8 else vbits (vget g.ks m) (8 * c) 8) ∧
    (∀ m c, m < 8 → c < 64 → (vget (putScale n b x8 g).qs m).getLsbD c =
      if m = n ∧ c = b then decide (x8 ≠ 0xFF) else (vget g.qs m).getLsbD c) ∧
    putScale n b x8 g = { g with ks := (putScale n b x8 g).ks, qs := (putScale n b x8 g).qs }

/-- R284: the block forms of vfcvt, in both directions: under the scale byte of the block in kn, with PLN planes for a BPI source. -/
def Sys2Proof.Rules.BlockConversions : Prop :=
  ∀ (e : Bool) (x : BlockCvt) (s : State),
    let v : VArgs := { e := e, major := 0x48, len := 8, d := x.d, a := x.a, pm := x.pm4.toNat, la := x.la == 1, nw := x.nw == 1 }
    let code := x.ef.toNat
    let bpi := code = 0x16 ∨ code = 0x17
    let scale (u : State) (k : Nat) : Nat := vbits (vget (curGroup u).ks x.k.toNat) (8 * (k / 32)) 8
    0x10 ≤ code → code ≤ 0x17 → (code = 0x16 → x.k = 0) → VecReady v [sourceA v] (some false) s →
    ((if bpi then 2 ≤ x.pln.toNat ∧ x.pln.toNat ≤ 8 else x.pln = 0 ∧ x.prnd = 0) →
      exec (.vfcvtBlockToF32 e x) s = .next (runV v (vecMap v false fun u k =>
        match blockValue code (scale u k) (if bpi then x.pln.toNat else 8) (x.prnd == 1) (srcA v u k % 2 ^ elBits code) with
        | .nan _ => (0x7FC00000, 0)
        | y => ftzOut (fcsrFtz (curGroup u)) fB32 (toFmt fB32 (fcsrRm (curGroup u)) y)) s)) ∧
    (x.pln = 0 → x.prnd = 0 →
      exec (.vfcvtF32ToBlock e x) s = .next (runV v (vecMap v false fun u k =>
        elemStep code (scale u k) (fcsrRm (curGroup u)) (fdecode fB32 (ftzIn (fcsrFtz (curGroup u)) fB32 (srcA v u k % 2 ^ 32)))) s))

/-! Memory. -/

namespace Sys2Proof.Rules

/-- n bytes from address a of the executing block's own scratchpad within its allocation: the local tag, no bit set above the offset
(R22), aligned (R45), inside the allocation (R28), which is not in transit (R37) and holds no uncorrectable error there (R76). -/
def Local (s : State) (a : Int) (n align : Nat) : Prop :=
  0xE * 2 ^ 60 ≤ a ∧ a % 2 ^ 60 + n ≤ (curBlock s).spadSize ∧ a % 2 ^ 60 + n ≤ 2 ^ 20 ∧ a < 0xF * 2 ^ 60 ∧ a % (align : Int) = 0 ∧
  (curBlock s).transit = false ∧ badRange s (.spad (curBlock s).uid) (a % 2 ^ 60).toNat n = false

/-- The bytes there. -/
def localBytes (s : State) (a : Int) (n : Nat) : List Byte := sgetN 0 (curBlock s).spad (a % 2 ^ 60).toNat n

/-- A base register and an offset that may lead to the scratchpad: a sum never leaves the space of its base (R46). -/
def tagLocal (base : Word) : Prop := base.toNat / 2 ^ 60 = 0xE

/-- The L1 of the executing core empty (R89). -/
def l1Emptied (s : State) : State :=
  { s with
    l1 := s.l1.filter fun x => x.core != corePlace (curBlock s).place,
    stale := s.stale.filter fun x => x.core != corePlace (curBlock s).place }

/-- A fence of a release or acquire mark: later accesses of the parties, of every class, see what has been written (R142, R144), and the L1
of the core is empty when the scope is cluster or wider (R89). -/
def marked (b : Bool) (parties : List Nat) (scope : Nat) (s : State) : State :=
  if b then
    let t := modG (raiseFence parties [32] s.stamp) s
    if 2 ≤ scope then l1Emptied t else t
  else s

/-- The executing path as a party of the order of accesses (R135). -/
def byPath (s : State) : List Nat := [pathParty (exPath s)]

/-- A fence over the classes of a mask: nothing for an empty one (R141). -/
def fenced (m : BitVec 16) (scope : Nat) (s : State) : State :=
  if m = 0 then s
  else
    let t := modG (raiseFence (byPath s) (((List.range 16).filter fun i => m.getLsbD i).map (16 + ·)) s.stamp) s
    if 2 ≤ scope then l1Emptied t else t

/-- Every write that has performed is ordered before a scalar access of a class by the executing path (R140): a read gives what memory
holds. -/
def Ordered (s : State) (cls : Nat) : Prop := upToDate s (curWho s) .scalar cls = true

/-- Memory has been read as it stands now: no later write takes a place before that in the order of all writes (R146). -/
def looked (s : State) : State := { s with settled := max s.settled s.stamp }

/-- The same where a read has been made. -/
def lookedIf (b : Bool) (s : State) : State := if b then looked s else s

/-- A scalar access as an instruction's fields give it. -/
structure ScalarMem where
  h : Head
  store : Bool
  d : BitVec 6
  a : BitVec 6
  off : Int
  w : Nat
  signed : Bool
  m : MemArgs

/-- The scalar loads and stores in all their forms (R298, R307, R308), and gcond, which stores s[B], releasing, at system scope (R366). -/
inductive ScalarAccess : Instr → ScalarMem → Prop where
  | sld (e : Bool) (d a : BitVec 6) (c : BitVec 4) (w : BitVec 2) (o : BitVec 6) : ScalarAccess (.sld e d a c w o)
      { h := { e := e, major := 0x50 }, store := false, d := d, a := a, off := o.toInt * (2 ^ w.toNat : Nat), w := 2 ^ w.toNat,
        signed := false, m := { cls := c.toNat, scope := 1, rel := false, acq := false } }
  | sst (e : Bool) (d a : BitVec 6) (c : BitVec 4) (w : BitVec 2) (o : BitVec 6) : ScalarAccess (.sst e d a c w o)
      { h := { e := e, major := 0x51 }, store := true, d := d, a := a, off := o.toInt * (2 ^ w.toNat : Nat), w := 2 ^ w.toNat,
        signed := false, m := { cls := c.toNat, scope := 1, rel := false, acq := false } }
  | loadCtl (e : Bool) (x : MemCtl) : x.xop = 0 → (x.ra = 0 ∨ x.ra = 2) → x.dw = 0 → x.pm4 = 0 →
      ScalarAccess (.memLongControlForm e x)
      { h := { e := e, major := 0x50, len := 8 }, store := false, d := x.d, a := x.a, off := x.low.toInt, w := 2 ^ x.f.toNat,
        signed := x.s == 1, m := { cls := x.cls.toNat, scope := x.scope.toNat, rel := false, acq := x.ra == 2 } }
  | storeCtl (e : Bool) (x : MemCtl) : x.xop = 1 → (x.ra = 0 ∨ x.ra = 1) → x.dw = 0 → x.pm4 = 0 → x.s = 0 →
      ScalarAccess (.memLongControlForm e x)
      { h := { e := e, major := 0x51, len := 8 }, store := true, d := x.d, a := x.a, off := x.low.toInt, w := 2 ^ x.f.toNat,
        signed := false, m := { cls := x.cls.toNat, scope := x.scope.toNat, rel := x.ra == 1, acq := false } }
  | loadOff (e : Bool) (d a : BitVec 6) (sub : BitVec 4) (off : BitVec 32) (hint : BitVec 4) : sub.getLsbD 0 = false →
      ScalarAccess (.memLongOffsetForm e d a 0xB sub off hint)
      { h := { e := e, major := 0x50, len := 8 }, store := false, d := d, a := a, off := off.toInt, w := 2 ^ (sub.toNat / 4),
        signed := sub.getLsbD 1, m := { cls := 0, scope := 1, rel := false, acq := false } }
  | gcond (e : Bool) (a b : BitVec 6) : ScalarAccess (.gcond e a b)
      { h := { e := e, major := 0x6F }, store := true, d := b, a := a, off := 0, w := 8, signed := false,
        m := { cls := 15, scope := 5, rel := true, acq := false } }
  | storeOff (e : Bool) (d a : BitVec 6) (sub : BitVec 4) (off : BitVec 32) (hint : BitVec 4) : sub.toNat % 4 = 0 →
      ScalarAccess (.memLongOffsetForm e d a 0xC sub off hint)
      { h := { e := e, major := 0x51, len := 8 }, store := true, d := d, a := a, off := off.toInt, w := 2 ^ (sub.toNat / 4),
        signed := false, m := { cls := 0, scope := 1, rel := false, acq := false } }

/-- The address of a scalar access. -/
def scalarAddr (q : ScalarMem) (s : State) : Int := ((rdS q.a s).toNat : Int) + q.off

/-- What a scalar load gives. -/
def loaded (q : ScalarMem) (l : List Byte) : Word :=
  if q.signed then BitVec.ofInt 64 (sgn (8 * q.w) (ofBytes l)) else BitVec.ofNat 64 (ofBytes l)

/-- When a scalar, matrix or copy instruction that executes once for the path may execute: a path issues, outside a melded region and
outside a repeat frame. -/
def Ready (s : State) : Prop := Runs s ∧ Alone s ∧ NoFrame s

/-- The state t differs from s in the scratchpad of the executing block only, in the links that its stores break, and in what is
recorded of the order of accesses (R140); each byte that one of the elements in l covers is the byte that one
of them stores there, and every other byte stands. -/
def Stored (s t : State) (l : List Nat) (off : Nat → Nat) (data : Nat → List Byte) : Prop :=
  (∀ x, (∃ j ∈ l, off j ≤ x ∧ x < off j + (data j).length) →
    ∃ j ∈ l, off j ≤ x ∧ x < off j + (data j).length ∧ some (sget 0 (curBlock t).spad x) = (data j)[x - off j]?) ∧
  (∀ x, (∀ j ∈ l, x < off j ∨ off j + (data j).length ≤ x) → sget 0 (curBlock t).spad x = sget 0 (curBlock s).spad x) ∧
  (∃ floors, curBlock t = { curBlock (modG (fun g => { g with floors := floors }) s) with spad := (curBlock t).spad }) ∧
  (∀ u, u ≠ (cur s).who.uid → getBlock t u = getBlock s u) ∧
  t = { s with blocks := t.blocks, links := t.links, past := t.past, stamp := t.stamp, free := t.free }

/-- Bytes that a scalar read of the executing block's scratchpad at `off` may return: all as they stood at one stamp t, that is, at each
place what stands there or what stood there before a write at t or later. t is now, or does not lie before what orders a read of the
class by the path (R136, R140). -/
def Readable (s : State) (cls off : Nat) (l : List Byte) : Prop :=
  ∃ t, (t = s.stamp ∨ classFloor (curGroup s) (exPath s) .scalar cls ≤ t) ∧
    ∀ i, i < l.length → l[i]? = some (byteAsOf s t (.spad (curBlock s).uid (off + i)) (sget 0 (curBlock s).spad (off + i)))

end Sys2Proof.Rules

/-- R3, R143, R157: reading after writing, and what a write leaves alone. A store that is checked and translated changes, in a
scratchpad or in DRAM, the bytes at its place and no other byte of any storage; what it wrote is what is read
there. Bytes lie least significant first. Beside them it breaks links, marks stale L1 bytes, wakes a resting home die, and takes its
place in the order of all writes (R140). It rests on the model's reading of log 3. -/
def Sys2Proof.Rules.StoresReachTheirBytesOnly : Prop :=
  (∀ (n x : Nat), ofBytes (toBytes n x) = x % 256 ^ n ∧ ∀ k < n, (toBytes n x)[k]? = some (BitVec.ofNat 8 (x / 256 ^ k))) ∧
  ∀ (env : Env) (a : Word) (align : Nat) (d : List Byte) (s t : State), d ≠ [] →
    (∀ u off, decodeAddr s env a d.length align true = .ok (.spad u off) → storeAt env a align d s = (t, .ok ()) →
      (findBlock s u).isSome → swf (0 : Byte) (getBlock s u).spad = true →
      (∀ x, sget 0 (getBlock t u).spad x = if off ≤ x ∧ x < off + d.length then d.getD (x - off) 0 else sget 0 (getBlock s u).spad x) ∧
      (∀ v, { getBlock t v with groups := [], spad := if v = u then [] else (getBlock t v).spad } =
        { getBlock s v with groups := [], spad := if v = u then [] else (getBlock s v).spad }) ∧
      (∀ v g, getGroup t v g = { getGroup s v g with floors := (getGroup t v g).floors }) ∧
      t = { s with blocks := t.blocks, links := t.links, past := t.past, stamp := s.stamp + stampGap, free := t.free }) ∧
    (∀ va pa ilv t', decodeAddr s env a d.length align true = .ok (.glob va) → va % 65536 + d.length ≤ 65536 →
      keptPa env va s = none → translate env.side env.ctx va .write env.sup s = (t', .ok pa ilv) → isAperture t' pa = false →
      badRange t' .phys pa d.length = false → Memory.wf t'.mem = true →
      ∃ t, storeAt env a align d s = (t, .ok ()) ∧
        (∀ x, sget 0 t.mem x = if pa ≤ x ∧ x < pa + d.length then d.getD (x - pa) 0 else sget 0 t'.mem x) ∧
        (∀ v, { getBlock t v with groups := [] } = { getBlock t' v with groups := [] }) ∧
        (∀ v g, getGroup t v g = { getGroup t' v g with floors := (getGroup t v g).floors }) ∧
        t = { wakeHomes [(pa, d.length, ilv)] t' with
          mem := t.mem, stale := t.stale, links := t.links, blocks := t.blocks, past := t.past, stamp := t'.stamp + stampGap,
          free := t.free })

/-- R44, R52, R88, R137, R140: one load from DRAM after its address checks and its translation. At cluster scope or wider, by a party
without an L1, on an uncached page, or when no stale byte stands in an L1, it gives the bytes that memory holds, once every
write is ordered before it. Without that order a read by a path or a thread gives all its bytes as they stood at one stamp, now or not
before what orders it (R136), and no later write takes a place before that (R146). A read by an engine, such as a queue, gives what
memory holds (R154). It rests on the model's reading of log 3. -/
def Sys2Proof.Rules.LoadsReadWhatMemoryHolds : Prop :=
  ∀ (env : Env) (a : Word) (n align va pa ilv : Nat) (s t : State),
    decodeAddr s env a n align false = .ok (.glob va) → va % 65536 + n ≤ 65536 →
    keptPa env va s = none →
    translate env.side env.ctx va .read env.sup s = (t, .ok pa ilv) → isAperture t pa = false → badRange t .phys pa n = false →
    ((∀ w, env.owner = .path w → env.actor ≠ .engine → upToDate t w env.actor env.cls = true) →
     2 ≤ env.scope ∨ env.core = none ∨ env.noL1 = true ∨ ilv / 8 % 2 = 1 ∨ t.stale = [] →
      ∃ u, loadAt env a n align s = (u, .ok (physBytes t pa n)) ∧
        u = { wakeHomes [(pa, n, ilv)] t with l1 := u.l1, stale := u.stale, free := u.free, settled := max t.settled t.stamp }) ∧
    ∀ (v : State) (u off : Nat) (l : List Byte) (w : Who), env.owner = .path w →
      let r := pastRead env .read (.spad u off) l v
      (env.actor = .engine → r = (looked v, l)) ∧
      ∃ x, (x = v.stamp ∨ classFloor (getGroup v w.uid w.gidx) w.pidx env.actor env.cls ≤ x) ∧
        (env.actor ≠ .engine → upToDate v w env.actor env.cls = false → r.2.length = l.length ∧ r.1.settled = max v.settled x ∧
          ∀ i, i < l.length → r.2[i]? = some (byteAsOf v x (.spad u (off + i)) (l.getD i 0)))

/-- R28, R32, R37, R40, R42, R44, R60, R87: a load from a scratchpad that its address leads to, the block's own or that of another tenant of
the cluster, and from the weight store, gives the bytes that stand there once every write is ordered before it; one from an allocation in
transit or from a refreshing bank group waits. An address that fails its checks traps with their cause, a translation that fails is a fault
of its type, level and address, and neither reads or writes anything. It rests on the model's reading of log 3. -/
def Sys2Proof.Rules.AccessesReachWhereTheirAddressLeads : Prop :=
  ∀ (env : Env) (a : Word) (n align : Nat) (d : List Byte) (s : State),
    (∀ c, decodeAddr s env a n align false = .error c → loadAt env a n align s = (s, .trap c a 8)) ∧
    (∀ c, decodeAddr s env a d.length align true = .error c → storeAt env a align d s = (s, .trap c a 4)) ∧
    (∀ va, va % 65536 + n ≤ 65536 → decodeAddr s env a n align false = .ok (.glob va) → keptPa env va s = none →
      ∀ t ft lv, translate env.side env.ctx va .read env.sup s = (t, .fault ft lv) →
        loadAt env a n align s = (t, .fault ft lv (BitVec.ofNat 64 va) 8)) ∧
    (∀ va, va % 65536 + d.length ≤ 65536 → decodeAddr s env a d.length align true = .ok (.glob va) → keptPa env va s = none →
      ∀ t ft lv, translate env.side env.ctx va .write env.sup s = (t, .fault ft lv) →
        storeAt env a align d s = (t, .fault ft lv (BitVec.ofNat 64 va) 4)) ∧
    ((∀ w, env.owner = .path w → env.actor ≠ .engine → upToDate s w env.actor env.cls = true) →
      (∀ u off, decodeAddr s env a n align false = .ok (.spad u off) → (getBlock s u).transit = false →
        badRange s (.spad u) off n = false → loadAt env a n align s = (looked s, .ok (sgetN 0 (getBlock s u).spad off n))) ∧
      (∀ die off, decodeAddr s env a n align false = .ok (.cellar die off) → (∀ i < n, inRefresh s die (off + i) = false) →
        badRange s (.cellar die) off n = false → loadAt env a n align s = (looked s, .ok (sgetN 0 (vget s.cellar die) off n)))) ∧
    (∀ u off, decodeAddr s env a n align false = .ok (.spad u off) → (getBlock s u).transit = true →
      loadAt env a n align s = (holdAccess env (.transit u) s, .stall)) ∧
    (∀ die off, decodeAddr s env a n align false = .ok (.cellar die off) → (∃ i < n, inRefresh s die (off + i) = true) →
      ∃ bg, loadAt env a n align s = (holdAccess env (.window die bg) s, .stall))

/-- R140, R141, R146, R147: the order of accesses. A fence orders later accesses of its parties, in the classes that its slots name, behind
its stamp, and lowers nothing; in supervisor mode it is a fence of the whole group. A write takes the place now, or, a plain store to memory of
the device, an earlier one: not before what has been read, what orders it, or an earlier write of the same bytes, and no place that is
taken. It rests on the model's reading of log 3. -/
def Sys2Proof.Rules.FencesAndPlacesOrderAccesses : Prop :=
  (∀ (g : Group) (parties slots : List Nat) (t pidx cls : Nat) (a : Actor), swf (0 : Nat) g.floors = true → (∀ x ∈ slots, x < 64) →
    let h := raiseFence parties slots t g
    h = { g with floors := h.floors } ∧ classFloor g pidx a cls ≤ classFloor h pidx a cls ∧
    ((g.sup = true ∧ parties ≠ []) ∨ (∃ p ∈ parties, follows g pidx a p = true) → (∃ x ∈ slots, slotOrders cls x = true) →
      t ≤ classFloor h pidx a cls)) ∧
  (∀ (env : Env) (k : Kind) (d : Dest) (n t : Nat) (s u : State), writePlace env k d n s = (u, t) →
    u = { s with free := u.free } ∧ (t = s.stamp ∨ (t < s.stamp ∧ k = .write ∧ viaAperture s d = false ∧ s.settled ≤ t ∧
      ∃ w, env.owner = .path w ∧ env.actor ≠ .engine ∧ classFloor (getGroup s w.uid w.gidx) w.pidx env.actor env.cls ≤ t ∧
        (∀ x ∈ s.past, x.at_ ∈ destPlaces n d → x.stamp < t) ∧ ∀ x ∈ s.past, x.stamp ≠ t)))

/-- R298, R307, R308, R28: a scalar load or store at an address of the block's own scratchpad, in every form. The load puts the bytes,
zero-extended or sign-extended, into s[D]; the store puts the low bytes of s[D] there. Nothing else changes but the PC, the run,
links on the bytes stored, what orders reads after writes (R140) and, with an acquire or release mark at cluster scope or wider, the
L1. A load that every write is ordered before gives the bytes that stand there; another one completes too, with bytes that it may see.
It rests on the model's reading of log 3. -/
def Sys2Proof.Rules.ScalarLoadsAndStores : Prop :=
  ∀ (i : Instr) (q : ScalarMem) (s : State), ScalarAccess i q → Ready s → tagLocal (rdS q.a s) → Local s (scalarAddr q s) q.w q.w →
    (q.store = false → Ordered s q.m.cls → exec i s =
      .next (advance q.h none false false (marked q.m.acq (byPath s) q.m.scope
        (wrS q.d (loaded q (localBytes s (scalarAddr q s) q.w)) (looked s))))) ∧
    (q.store = false → ∃ l floors n x, l.length = q.w ∧ Readable s q.m.cls (scalarAddr q s % 2 ^ 60).toNat l ∧
      let u := modG (fun g => { g with floors := floors }) { s with free := n, settled := x }
      exec i s = .next (advance q.h none false false (marked q.m.acq (byPath s) q.m.scope (wrS q.d (loaded q l) u)))) ∧
    (q.store = true → swf (0 : Byte) (curBlock s).spad = true → ∃ t, exec i s = .next (advance q.h none false false t) ∧
      Stored (marked q.m.rel (byPath s) q.m.scope s) t [0] (fun _ => (scalarAddr q s % 2 ^ 60).toNat)
        (fun _ => toBytes q.w (rdS q.d s).toNat))

/-- R298, R307, R308, R366, R60, R37, R87: a scalar load or store at any address of the space of its base, in every form: in DRAM, in a
scratchpad of the cluster, in the weight store. A load whose access gives bytes puts them, extended, into s[D]; a store whose access succeeds
leaves what it stored; one whose translation fails puts its path into fault-wait at its instruction with vstart 0; one that waits is begun
again, the run staying. What the access gives is said by StoresReachTheirBytesOnly, LoadsReadWhatMemoryHolds and
AccessesReachWhereTheirAddressLeads. It rests on the model's reading of log 29 (vstart at a scalar access that faults). -/
def Sys2Proof.Rules.ScalarAccessesReachEverySpace : Prop :=
  ∀ (i : Instr) (q : ScalarMem) (s t : State), ScalarAccess i q → Ready s →
    let x := scalarAddr q s
    let a := BitVec.ofInt 64 x
    let s1 := marked q.m.rel (byPath s) q.m.scope s
    let faulted (ft : FaultType) (lv : Nat) (va : Word) (k : BitVec 4) : Host.Outcome State Fault Refusal :=
      .next (endRun (enterFaultWait (curWho t) q.h.len ft lv va k (setSide false (modG (fun g => { g with vstart := 0 }) t))))
    0 ≤ x → x < 2 ^ 64 → a.toNat / 2 ^ 60 = (rdS q.a s).toNat / 2 ^ 60 → curWho t = curWho s → exPath t = exPath s →
    (q.store = false →
      (∀ l, loadAt (curEnv q.m.cls q.m.scope s) a q.w q.w s = (t, .ok l) →
        exec i s = .next (advance q.h none false false (marked q.m.acq (byPath s) q.m.scope (wrS q.d (loaded q l) t)))) ∧
      (∀ ft lv va k, loadAt (curEnv q.m.cls q.m.scope s) a q.w q.w s = (t, .fault ft lv va k) → exec i s = faulted ft lv va k) ∧
      (loadAt (curEnv q.m.cls q.m.scope s) a q.w q.w s = (t, .stall) → exec i s = .next (setSide false t))) ∧
    (q.store = true →
      let stored := storeAt (curEnv q.m.cls q.m.scope s1) a q.w (toBytes q.w (rdS q.d s).toNat) s1
      (stored = (t, .ok ()) → exec i s = .next (advance q.h none false false t)) ∧
      (∀ ft lv va k, stored = (t, .fault ft lv va k) → exec i s = faulted ft lv va k) ∧
      (stored = (t, .stall) → exec i s = .next (setSide false t)))

/-- R24, R22, R23, R28, R39, R40, R46: the address checks of a scalar access, in their order, before any translation: the access
traps with the cause of the first that fails, eaddr the address and the kind bits those of a read or a write, and vstart 0. -/
def Sys2Proof.Rules.ScalarAccessesCheckTheirAddress : Prop :=
  ∀ (i : Instr) (q : ScalarMem) (s : State), ScalarAccess i q → Ready s →
    let x := scalarAddr q s
    let a := BitVec.ofInt 64 x
    let s1 := marked q.m.rel (byPath s) q.m.scope s
    let traps (c : Nat) : Host.Outcome State Fault Refusal :=
      .next (trapPath (curWho s) c a (if q.store then 4 else 8) (modG (fun g => { g with vstart := 0 }) s1))
    let tag := a.toNat / 2 ^ 60
    let rest := a.toNat % 2 ^ 60
    let inField := 0 ≤ x ∧ x < 2 ^ 64 ∧ tag = (rdS q.a s).toNat / 2 ^ 60
    let clean := (tag = 0 ∧ rest < 2 ^ 52) ∨ (tag = 0xC ∧ rest < 2 ^ 30) ∨ (tag = 0xD ∧ rest < 2 ^ 25) ∨ (tag = 0xE ∧ rest < 2 ^ 20)
    (¬ inField ∨ ¬ clean → exec i s = traps 0x07) ∧
    (inField → clean → q.store = true → tag = 0xC → exec i s = traps 0x08) ∧
    (inField → clean → (q.store = false ∨ tag ≠ 0xC) → a.toNat % q.w ≠ 0 → exec i s = traps 0x04) ∧
    (inField → clean → a.toNat % q.w = 0 → tag = 0xE → (curBlock s).spadSize < rest + q.w → exec i s = traps 0x06) ∧
    (inField → clean → a.toNat % q.w = 0 → tag = 0xD → tenantBlock s (curBlock s).place (curCtx s) (rest / 2 ^ 20) = none →
      exec i s = traps 0x06) ∧
    (inField → clean → q.store = false → a.toNat % q.w = 0 → tag = 0xC → rest + q.w > 0x30000000 → exec i s = traps 0x06)

namespace Sys2Proof.Rules

/-- A vector access as an instruction's fields give it: load (0), store (1) or fault-only-first load (2); element size; address of
element i, its exact value; whether each element's space is decoded on its own (R46); how a loaded element is extended; and the index
register that it reads. -/
structure VecMem where
  kind : Nat
  w : Nat
  addr : State → Nat → Int
  ix : Bool := false
  ext : Nat → Nat := id
  m : MemArgs
  uses : List VUse := []

def plain (c : BitVec 4) : MemArgs := { cls := c.toNat, scope := 1, rel := false, acq := false }
def ctlArgs (x : MemCtl) : MemArgs := { cls := x.cls.toNat, scope := x.scope.toNat, rel := x.ra == 1, acq := x.ra == 2 }

/-- Addresses of R299. -/
def unit (v : VArgs) (off : Int) (w : Nat) (s : State) (i : Nat) : Int := ((scalarFor v s i v.a).toNat : Int) + off + (w * i : Nat)
def strided (v : VArgs) (s : State) (i : Nat) : Int := ((scalarFor v s i v.a).toNat : Int) + i * (scalarFor v s i v.b).toInt
def indexed (v : VArgs) (pair : Bool) (s : State) (i : Nat) : Int :=
  ((scalarFor v s i v.a).toNat : Int) + (srcEl v s false pair v.b i i : Nat)

/-- A narrow element, zero- or sign-extended to 32 bits. -/
def narrow (w : Nat) (signed : Bool) (x : Nat) : Nat := if signed then wrap 32 (sgn (8 * w) x) else x

def memOps (e : Bool) (major : Nat) (d a b : BitVec 6) (pm : Nat) : VArgs :=
  { e := e, major := major, d := d, a := a, b := b, pm := pm }

/-- The operands of the control form: B lies in bits [18:13]. -/
def ctlOps (e : Bool) (x : MemCtl) (major : Nat) : VArgs :=
  { e := e, major := major, len := 8, d := x.d, a := x.a, b := BitVec.ofNat 6 (x.low.toNat / 2 ^ 13), pm := x.pm4.toNat, wide := x.dw == 1 }

def bytesOfW (v : VArgs) : Nat := if v.wide then 8 else 4

/-- The vector loads and stores in all their forms (R299, R301, R307, R308). -/
inductive VecAccess : Instr → VArgs → VecMem → Prop where
  | vld (e : Bool) (d a : BitVec 6) (c : BitVec 4) (m : BitVec 2) (o : BitVec 6) :
      ∀ v : VArgs, v = memOps e 0x52 d a 0 m.toNat →
      VecAccess (.vld e d a c m o) v { kind := 0, w := 4, addr := unit v (o.toInt * 4) 4, m := plain c }
  | vst (e : Bool) (d a : BitVec 6) (c : BitVec 4) (m : BitVec 2) (o : BitVec 6) :
      ∀ v : VArgs, v = memOps e 0x53 d a 0 m.toNat →
      VecAccess (.vst e d a c m o) v { kind := 1, w := 4, addr := unit v (o.toInt * 4) 4, m := plain c }
  | vlds (e : Bool) (d a b : BitVec 6) (c : BitVec 4) (m : BitVec 1) :
      ∀ v : VArgs, v = memOps e 0x54 d a b m.toNat →
      VecAccess (.vlds e d a b c m) v { kind := 0, w := 4, addr := strided v, m := plain c }
  | vsts (e : Bool) (d a b : BitVec 6) (c : BitVec 4) (m : BitVec 1) :
      ∀ v : VArgs, v = memOps e 0x54 d a b m.toNat →
      VecAccess (.vsts e d a b c m) v { kind := 1, w := 4, addr := strided v, m := plain c }
  | vldx (e : Bool) (d a b : BitVec 6) (c : BitVec 4) (m : BitVec 1) :
      ∀ v : VArgs, v = memOps e 0x55 d a b m.toNat →
      VecAccess (.vldx e d a b c m) v { kind := 0, w := 4, addr := indexed v false, ix := true, m := plain c, uses := [.reg b false] }
  | vstx (e : Bool) (d a b : BitVec 6) (c : BitVec 4) (m : BitVec 1) :
      ∀ v : VArgs, v = memOps e 0x55 d a b m.toNat →
      VecAccess (.vstx e d a b c m) v { kind := 1, w := 4, addr := indexed v false, ix := true, m := plain c, uses := [.reg b false] }
  | vldff (e : Bool) (d a : BitVec 6) (c : BitVec 4) (m : BitVec 2) (o : BitVec 6) :
      ∀ v : VArgs, v = memOps e 0x56 d a 0 m.toNat →
      VecAccess (.vldff e d a c m o) v { kind := 2, w := 4, addr := unit v (o.toInt * 4) 4, m := plain c }
  | vldw (e : Bool) (d a : BitVec 6) (z g : BitVec 1) (c : BitVec 4) (m : BitVec 1) :
      ∀ v : VArgs, v = memOps e 0x57 d a 0 m.toNat →
      ∀ w : Nat, w = (if z = 1 then 2 else 1) →
      VecAccess (.vldw e d a z g c m) v { kind := 0, w := w, addr := unit v 0 w, ext := narrow w (g == 1), m := plain c }
  | vstw (e : Bool) (d a : BitVec 6) (z : BitVec 1) (c : BitVec 4) (m : BitVec 1) :
      ∀ v : VArgs, v = memOps e 0x57 d a 0 m.toNat →
      ∀ w : Nat, w = (if z = 1 then 2 else 1) →
      VecAccess (.vstw e d a z c m) v { kind := 1, w := w, addr := unit v 0 w, m := plain c }
  | vldCtl (e : Bool) (x : MemCtl) : x.xop = 2 → (x.ra = 0 ∨ x.ra = 2) → x.f = 0 → x.s = 0 →
      ∀ v : VArgs, v = ctlOps e x 0x52 →
      VecAccess (.memLongControlForm e x) v { kind := 0, w := bytesOfW v, addr := unit v x.low.toInt (bytesOfW v), m := ctlArgs x }
  | vstCtl (e : Bool) (x : MemCtl) : x.xop = 3 → (x.ra = 0 ∨ x.ra = 1) → x.f = 0 → x.s = 0 →
      ∀ v : VArgs, v = ctlOps e x 0x53 →
      VecAccess (.memLongControlForm e x) v { kind := 1, w := bytesOfW v, addr := unit v x.low.toInt (bytesOfW v), m := ctlArgs x }
  | strideCtl (e : Bool) (x : MemCtl) : x.xop = 4 → x.ra = 0 → x.f.toNat < 2 → x.s = 0 → x.low.toNat % 2 ^ 13 = 0 →
      ∀ v : VArgs, v = ctlOps e x 0x54 →
      VecAccess (.memLongControlForm e x) v { kind := x.f.toNat, w := bytesOfW v, addr := strided v, m := ctlArgs x }
  | indexCtl (e : Bool) (x : MemCtl) : x.xop = 5 → x.ra = 0 → x.f.toNat < 2 → x.s = 0 → x.low.toNat % 2 ^ 9 = 0 →
      x.low.toNat / 2 ^ 10 % 8 = 0 →
      ∀ v : VArgs, v = ctlOps e x 0x55 →
      ∀ pair : Bool, pair = x.low.getLsbD 9 →
      VecAccess (.memLongControlForm e x) v
        { kind := x.f.toNat, w := bytesOfW v, addr := indexed v pair, ix := true, m := ctlArgs x, uses := [.reg v.b pair] }
  | vldffCtl (e : Bool) (x : MemCtl) : x.xop = 6 → x.ra = 0 → x.f = 0 → x.s = 0 →
      ∀ v : VArgs, v = ctlOps e x 0x56 →
      VecAccess (.memLongControlForm e x) v { kind := 2, w := bytesOfW v, addr := unit v x.low.toInt (bytesOfW v), m := ctlArgs x }
  | narrowCtl (e : Bool) (x : MemCtl) : x.xop = 7 → x.ra = 0 → x.f.toNat < 2 → x.s = 0 → x.dw = 0 → x.low.toNat % 2 ^ 13 = 0 →
      x.low.toNat / 2 ^ 15 = 0 → (x.f = 1 → x.low.getLsbD 13 = false) →
      ∀ v : VArgs, v = ctlOps e x 0x57 →
      ∀ w : Nat, w = (if x.low.getLsbD 14 then 2 else 1) →
      VecAccess (.memLongControlForm e x) v
        { kind := x.f.toNat, w := w, addr := unit v 0 w, ext := narrow w (x.low.getLsbD 13), m := ctlArgs x }
  | vldOff (e : Bool) (d a : BitVec 6) (sub : BitVec 4) (off : BitVec 32) (hint : BitVec 4) :
      ∀ v : VArgs, v = { memOps e 0x52 d a 0 0 with len := 8 } →
      VecAccess (.memLongOffsetForm e d a 0xD sub off hint) v { kind := 0, w := 4, addr := unit v off.toInt 4, m := plain sub }
  | vstOff (e : Bool) (d a : BitVec 6) (sub : BitVec 4) (off : BitVec 32) (hint : BitVec 4) :
      ∀ v : VArgs, v = { memOps e 0x53 d a 0 0 with len := 8 } →
      VecAccess (.memLongOffsetForm e d a 0xE sub off hint) v { kind := 1, w := 4, addr := unit v off.toInt 4, m := plain sub }
  | vldffOff (e : Bool) (d a : BitVec 6) (sub : BitVec 4) (off : BitVec 32) (hint : BitVec 4) :
      ∀ v : VArgs, v = { memOps e 0x56 d a 0 0 with len := 8 } →
      VecAccess (.memLongOffsetForm e d a 0xF sub off hint) v { kind := 2, w := 4, addr := unit v off.toInt 4, m := plain sub }

/-- The active elements: threads of the executing path or paths below vl, at or above vstart, under the mask (R6). -/
def activeEls (v : VArgs) (s : State) : List Nat :=
  (List.range 1024).filter fun i =>
    (execThreads v s).getLsbD i && decide (i < (curGroup s).vl.toNat) && decide ((curGroup s).vstart.toNat ≤ i) && (rdP v.pm s).getLsbD i

/-- Every write that has performed is ordered before an access of a class by thread i (R140). -/
def OrderedEl (v : VArgs) (s : State) (cls i : Nat) : Prop :=
  upToDate s { (cur s).who with pidx := pathAt v s i } (.elems i 1) cls = true

/-- The same for the threads of segment b, which make one access. -/
def OrderedSeg (v : VArgs) (s : State) (cls b : Nat) : Prop :=
  upToDate s { (cur s).who with pidx := pathAt v s (32 * b) } (.elems (32 * b) 32) cls = true

/-- A vector access may begin: a V-role group issues, outside a repeat frame, its registers are good and no pre-emption stands; and the
reads of a load come after every write (R140), each by its thread. -/
def VecMemReady (v : VArgs) (q : VecMem) (s : State) : Prop :=
  Runs s ∧ NoFrame s ∧ (curBlock s).preempt = false ∧ (q.kind ≠ 1 → ∀ i ∈ activeEls v s, OrderedEl v s q.m.cls i) ∧
  (if q.kind = 1 then VecReady v (.reg v.d v.wide :: q.uses) none s else VecReady v q.uses (some v.wide) s)

/-- Element i lies in the block's scratchpad. -/
def ElLocal (v : VArgs) (q : VecMem) (s : State) (i : Nat) : Prop :=
  (q.ix = true ∨ tagLocal (scalarFor v s i v.a)) ∧ Local s (q.addr s i) q.w q.w

/-- Element i lies in the scratchpad but is not aligned. -/
def ElAskew (v : VArgs) (q : VecMem) (s : State) (i : Nat) : Prop :=
  (q.ix = true ∨ tagLocal (scalarFor v s i v.a)) ∧ 0xE * 2 ^ 60 ≤ q.addr s i ∧ q.addr s i < 0xE * 2 ^ 60 + 2 ^ 20 ∧
  q.addr s i % (q.w : Int) ≠ 0

/-- The loads of the elements of l done. -/
def loadsDone (v : VArgs) (q : VecMem) (l : List Nat) (s : State) : State :=
  putRegs v v.wide (l.map fun i => (i, q.ext (ofBytes (localBytes s (q.addr s i) q.w)))) (lookedIf (!l.isEmpty) s)

def headOf (v : VArgs) : Head := { e := v.e, major := v.major, len := v.len }

/-- The path that runs thread i. -/
def whoOf (v : VArgs) (s : State) (i : Nat) : Who := { curWho s with pidx := pathAt v s i }

end Sys2Proof.Rules

/-- R294, R299, R301, R28: a vector load or store whose active elements all lie in the block's own scratchpad completes, in every form:
each active element is loaded into the register that its thread names, or stored, and vstart is 0. A store leaves at each byte what
one of its elements stores there (R150), and every byte that no element covers as it was. -/
def Sys2Proof.Rules.VectorLoadsAndStores : Prop :=
  ∀ (i : Instr) (v : VArgs) (q : VecMem) (s : State), VecAccess i v q → VecMemReady v q s →
    (curGroup s).vl.toNat ≤ 1024 → (∀ k ∈ activeEls v s, ElLocal v q s k) →
    (q.kind = 0 → exec i s = .next (advance (headOf v) none false false
      (marked q.m.acq (activeEls v s) q.m.scope (zeroStart (loadsDone v q (activeEls v s) s))))) ∧
    (q.kind = 2 → exec i s = .next (advance (headOf v) none false false
      (zeroStart (modG (fun g => { g with ffGo := false }) (loadsDone v q (activeEls v s) s))))) ∧
    (q.kind = 1 → swf (0 : Byte) (curBlock s).spad = true →
      ∃ t, exec i s = .next (advance (headOf v) none false false (zeroStart t)) ∧
        Stored (marked q.m.rel (activeEls v s) q.m.scope s) t (activeEls v s) (fun k => (q.addr s k % 2 ^ 60).toNat)
          (fun k => toBytes q.w (srcEl v s false (q.w == 8) v.d k k)))

/-- R294, R299, R301, R307, R308, R68, R60: a vector load at any addresses that its elements lead to, in DRAM, in a scratchpad of the cluster
or in the weight store, in every form. `ss` are the states between its elements' accesses and `bytes` what these give. When each of them
gives bytes, each active element is loaded and vstart is 0; when the translation of one fails, those below it are loaded, vstart holds it,
and the path of its thread goes into fault-wait. A store with one active element leaves what that element's access stored. What an access
gives is said by StoresReachTheirBytesOnly, LoadsReadWhatMemoryHolds and AccessesReachWhereTheirAddressLeads. -/
def Sys2Proof.Rules.VectorAccessesReachEverySpace : Prop :=
  ∀ (i : Instr) (v : VArgs) (q : VecMem) (s : State) (ss : Nat → State) (bytes : Nat → List Byte), VecAccess i v q →
    Runs s → NoFrame s → (curBlock s).preempt = false →
    (if q.kind = 1 then VecReady v (.reg v.d v.wide :: q.uses) none s else VecReady v q.uses (some v.wide) s) →
    let els := activeEls v s
    let inField (t : State) (e : Nat) : Prop := 0 ≤ q.addr t e ∧ q.addr t e < 2 ^ 64 ∧
      (q.ix = true ∨ q.addr t e / 2 ^ 60 = ((scalarFor v t e v.a).toNat / 2 ^ 60 : Nat))
    let load (t : State) (e : Nat) : State × Got (List Byte) := loadAt (envAt v q.m t e 1) (BitVec.ofInt 64 (q.addr t e)) q.w q.w t
    let good (n : Nat) : Prop := ss 0 = s ∧ ∀ k < n, ∀ e, els[k]? = some e → inField (ss k) e ∧ load (ss k) e = (ss (k + 1), .ok (bytes k))
    let put (n : Nat) (t : State) : State :=
      putRegs v v.wide ((els.take n).zipIdx.map fun x => (x.1, q.ext (ofBytes (bytes x.2)))) t
    (curGroup s).vl.toNat ≤ 1024 →
    (q.kind = 0 → good els.length → exec i s = .next (advance (headOf v) none false false
      (marked q.m.acq els q.m.scope (zeroStart (put els.length (ss els.length)))))) ∧
    (q.kind = 0 → ∀ k e t ft lv va kd, good k → els[k]? = some e → inField (ss k) e → load (ss k) e = (t, .fault ft lv va kd) →
      let u := put k t
      let w : Who := { (cur u).who with pidx := pathAt v u e }
      exec i s = .next (endRun (enterFaultWait w v.len ft lv va kd (setSide false (modG (fun g => { g with vstart := BitVec.ofNat 32 e }) u))))) ∧
    (q.kind = 1 → ∀ e t, els = [e] → inField s e →
      let s1 := marked q.m.rel els q.m.scope s
      storeAt (envAt v q.m s1 e 1) (BitVec.ofInt 64 (q.addr s e)) q.w (toBytes q.w (srcEl v s false (q.w == 8) v.d e e)) s1 = (t, .ok ()) →
      exec i s = .next (advance (headOf v) none false false (zeroStart t)))

/-- R294, R202, R219: what the loads of elements do to a group of a path alone: element i of the destination (and of the register above
it, for 64-bit elements) takes the value loaded; every other element, every latch and every other piece of state stands; the dirty
bits of the written registers are set. -/
def Sys2Proof.Rules.LoadedElementsReachTheirRegister : Prop :=
  ∀ (v : VArgs) (wide : Bool) (l : Vals) (s : State), Runs s → Alone s → swf (0 : Half) (curGroup s).v = true →
    (l.map (·.1)).Nodup → (∀ x ∈ l, x.1 < 1024) →
    let t := putRegs v wide l s
    let D := vregOf s false v.d
    (∀ r i, i < 1024 → vel (curGroup t) r i =
      match l.lookup i with
      | some x => if r = D then x % 2 ^ 32 else if wide && decide (r = D + 1) then x / 2 ^ 32 % 2 ^ 32 else vel (curGroup s) r i
      | none => vel (curGroup s) r i) ∧
    (∀ r, r < 64 → (curGroup t).dirty.getLsbD r =
      ((curGroup s).dirty.getLsbD r || (!l.isEmpty && (decide (r = D) || (wide && decide (r = D + 1)))))) ∧
    curGroup t = { curGroup s with v := (curGroup t).v, dirty := (curGroup t).dirty } ∧
    t = { s with blocks := t.blocks }

/-- R68, R152, R23, R72: a vector access is precise at one element. When element e is not aligned and every active element below it is
good, the elements below are loaded or stored, no element at or above e is, vstart holds e, and the path of its thread traps with cause
0x04 and the element's address. A fault-only-first load traps so only at its first active element; at a later one it ends there: vl
becomes e and the instruction completes. It rests on the model's readings or choices of log 7. -/
def Obligations.VectorAccessesArePreciseAtOneElement : Prop :=
  ∀ (i : Instr) (v : VArgs) (q : VecMem) (s : State) (e : Nat), VecAccess i v q → VecMemReady v q s →
    (curGroup s).vl.toNat ≤ 1024 → e ∈ activeEls v s → (∀ k ∈ activeEls v s, k < e → ElLocal v q s k) → ElAskew v q s e →
    let low := (activeEls v s).filter fun k => decide (k < e)
    let at_ (t : State) : State := modG (fun g => { g with vstart := BitVec.ofNat 32 e }) t
    (q.kind = 0 ∨ (q.kind = 2 ∧ low = [] ∧ (curGroup s).ffGo = false) →
      exec i s = .next (trapPath (whoOf v s e) 0x04 (BitVec.ofInt 64 (q.addr s e)) 8 (at_ (loadsDone v q low s)))) ∧
    (q.kind = 2 → (low ≠ [] ∨ (curGroup s).ffGo = true) →
      exec i s = .next (advance (headOf v) none false false (zeroStart (modG (fun g => { g with vl := BitVec.ofNat 32 e, ffGo := false })
        (loadsDone v q low s))))) ∧
    (q.kind = 1 → swf (0 : Byte) (curBlock s).spad = true →
      ∃ t, exec i s = .next (trapPath (whoOf v s e) 0x04 (BitVec.ofInt 64 (q.addr s e)) 4 (at_ t)) ∧
        Stored (marked q.m.rel (activeEls v s) q.m.scope s) t low (fun k => (q.addr s k % 2 ^ 60).toNat)
          (fun k => toBytes q.w (srcEl v s false (q.w == 8) v.d k k)))

namespace Sys2Proof.Rules

/-- A segment access as an instruction's fields give it: its format by EF3 (7 for unscaled BPI), the planes that it reads of a BPI
segment, rounding, and the scale register. -/
structure SegMem where
  store : Bool
  f : Nat
  planes : Nat := 8
  rnd : Bool := false
  k : Nat
  cls : Nat
  bp : Bool := false     -- a bit-plane load: its values are signed numbers of `planes` planes

/-- The segment instructions in all their forms (R302, R303, R307). -/
inductive SegAccess : Instr → VArgs → SegMem → Prop where
  | vldbp (e : Bool) (d a : BitVec 6) (c : BitVec 4) (m : BitVec 2) (sc r : BitVec 1) (k : BitVec 3) : k.toNat ≤ 6 →
      SegAccess (.vldbp e d a c m sc r k) (memOps e 0x58 d a 0 m.toNat)
        { store := false, f := if sc = 1 then 6 else 7, planes := k.toNat + 2, rnd := r == 1, k := 0, cls := c.toNat, bp := true }
  | vlseg (e : Bool) (d a : BitVec 6) (k f : BitVec 3) (c : BitVec 4) (m : BitVec 1) : (f = 7 → k = 0) →
      SegAccess (.vlseg e d a k f c m) (memOps e 0x59 d a 0 m.toNat) { store := false, f := f.toNat, k := k.toNat, cls := c.toNat }
  | vsseg (e : Bool) (d a : BitVec 6) (k f : BitVec 3) (c : BitVec 4) (m : BitVec 1) : (f = 7 → k = 0) →
      SegAccess (.vsseg e d a k f c m) (memOps e 0x59 d a 0 m.toNat) { store := true, f := f.toNat, k := k.toNat, cls := c.toNat }
  | planesCtl (e : Bool) (x : MemCtl) : x.xop = 8 → x.ra = 0 → x.dw = 0 → x.f = 0 → x.s = 0 → x.low.toNat % 2 ^ 10 = 0 →
      x.low.getLsbD 18 = false → x.low.toNat / 2 ^ 13 % 8 ≤ 6 →
      SegAccess (.memLongControlForm e x) (ctlOps e x 0x58)
        { store := false, f := if x.low.getLsbD 17 then 6 else 7, planes := x.low.toNat / 2 ^ 13 % 8 + 2, rnd := x.low.getLsbD 16,
          k := x.low.toNat / 2 ^ 10 % 8, cls := x.cls.toNat, bp := true }
  | segCtl (e : Bool) (x : MemCtl) : x.xop = 9 → x.ra = 0 → x.dw = 0 → x.f.toNat < 2 → x.s = 0 → x.low.toNat % 2 ^ 10 = 0 →
      x.low.toNat / 2 ^ 16 = 0 →
      SegAccess (.memLongControlForm e x) (ctlOps e x 0x59)
        { store := x.f == 1, f := x.low.toNat / 2 ^ 13 % 8, k := x.low.toNat / 2 ^ 10 % 8, cls := x.cls.toNat }

/-- Bits of an element of a block format: MXFP8 twice, MXFP6 twice, MXFP4, MXINT8, BPI with and without a scale (R79). -/
def efBits (f : Nat) : Nat := [8, 8, 6, 6, 4, 8, 8, 8].getD f 8

/-- Bytes of the head and of a whole segment. -/
def headBytes (f : Nat) : Nat := if f = 7 then 0 else 4
def segSize (f : Nat) : Nat := headBytes f + 4 * efBits f

/-- Bytes that an access reads of a segment. -/
def readBytes (q : SegMem) : Nat :=
  if q.bp then headBytes q.f + 4 * (q.planes + if q.rnd ∧ q.planes < 8 then 1 else 0) else segSize q.f

/-- Bit p (from the sign down) of element j of a BPI payload; and code j of any payload. -/
def planeBit (n p j : Nat) : Nat := n / 2 ^ (32 * p + j) % 2
def codeOf (f n j : Nat) : Nat :=
  if 6 ≤ f then ((List.range 8).map fun p => planeBit n p j * 2 ^ (7 - p)).sum else n / 2 ^ (efBits f * j) % 2 ^ efBits f

/-- What a load of a segment with payload n puts into the register of thread j of the segment (R127, R303). -/
def segValue (q : SegMem) (n j : Nat) : Nat :=
  if q.bp then
    wrap 32 (sgn q.planes (((List.range q.planes).map fun p => planeBit n p j * 2 ^ (q.planes - 1 - p)).sum) +
      (if q.rnd ∧ q.planes < 8 then (planeBit n q.planes j : Int) else 0))
  else codeOf q.f n j

/-- Thread i takes part; segment b is taken. -/
def segActive (v : VArgs) (s : State) (i : Nat) : Bool :=
  (curPath s).threads.getLsbD i && decide (i < (curGroup s).vl.toNat) && (rdP v.pm s).getLsbD i
def segTakes (v : VArgs) (s : State) (b : Nat) : Bool :=
  decide ((curGroup s).vstart.toNat ≤ b) && (List.range 32).any fun j => segActive v s (32 * b + j)

/-- The address of segment b. -/
def segAddr (v : VArgs) (q : SegMem) (s : State) (b : Nat) : Int := ((rdS v.a s).toNat : Int) + (b * segSize q.f : Nat)

/-- The payload of the bytes of a segment. -/
def payload (f : Nat) (l : List Byte) : Nat := ofBytes (l.drop (headBytes f))

end Sys2Proof.Rules

/-- R302, R303, R126, R127, R130, R131: the segment instructions in all their forms, over the block's own scratchpad, for a path alone. A
load puts each active thread's element into its register and each taken segment's scale byte into the scale register, with its validity
bit; a store writes every byte of each taken segment. Untaken segments and inactive threads keep what they have. It rests on the model's
readings or choices of log 3 and 28. -/
def Obligations.SegmentLoadsAndStores : Prop :=
  ∀ (i : Instr) (v : VArgs) (q : SegMem) (s : State), SegAccess i v q → Ready s → (curBlock s).preempt = false →
    (curGroup s).vl.toNat ≤ 1024 →
    (if q.store then VecReady v [.reg v.d false] none s else VecReady v [] (some false) s) → tagLocal (rdS v.a s) →
    (∀ b, b < 32 → segTakes v s b = true → Local s (segAddr v q s b) (segSize q.f) 4) → (q.store = false → ∀ b, b < 32 → segTakes v s b = true → OrderedSeg v s q.cls b) →
    let D := vregOf s false v.d
    let g := curGroup s
    let off (b : Nat) : Nat := (segAddr v q s b % 2 ^ 60).toNat
    (q.store = false → swf (0 : Half) g.v = true → ∃ t, exec i s = .next (advance (headOf v) none false false t) ∧
      (∀ r k, k < 1024 → vel (curGroup t) r k =
        if r = D ∧ segActive v s k = true ∧ segTakes v s (k / 32) = true then
          segValue q (payload q.f (localBytes s (segAddr v q s (k / 32)) (readBytes q))) (k % 32)
        else vel g r k) ∧
      (∀ m b, m < 8 → b < 64 → vbits (vget (curGroup t).ks m) (8 * b) 8 =
        if m = q.k ∧ q.f ≠ 7 ∧ b < 32 ∧ segTakes v s b = true then (sget 0 (curBlock s).spad (off b)).toNat
        else vbits (vget g.ks m) (8 * b) 8) ∧
      (∀ m b, m < 8 → b < 64 → (vget (curGroup t).qs m).getLsbD b =
        if m = q.k ∧ q.f ≠ 7 ∧ b < 32 ∧ segTakes v s b = true then decide (sget 0 (curBlock s).spad (off b) ≠ 0xFF)
        else (vget g.qs m).getLsbD b) ∧
      (∀ r, r < 64 → (curGroup t).dirty.getLsbD r =
        (g.dirty.getLsbD r || (decide (r = D) && (List.range 32).any (segTakes v s)))) ∧
      curGroup t = { g with
        v := (curGroup t).v, ks := (curGroup t).ks, qs := (curGroup t).qs, dirty := (curGroup t).dirty, vstart := 0 } ∧
      t = { lookedIf ((List.range 32).any (segTakes v s)) s with blocks := t.blocks }) ∧
    (q.store = true → swf (0 : Byte) (curBlock s).spad = true →
      ∃ t, exec i s = .next (advance (headOf v) none false false (zeroStart t)) ∧
      (∀ b, b < 32 → segTakes v s b = true →
        let ok := decide (q.f = 7) || ((vget g.qs q.k).getLsbD b && decide (vbits (vget g.ks q.k) (8 * b) 8 ≠ 0xFF))
        let l := sgetN 0 (curBlock t).spad (off b) (segSize q.f)
        (q.f ≠ 7 → l.take 4 = [if ok then BitVec.ofNat 8 (vbits (vget g.ks q.k) (8 * b) 8) else 0xFF, 0, 0, 0]) ∧
        ∀ j, j < 32 → codeOf q.f (payload q.f l) j =
          if ok && segActive v s (32 * b + j) then vel g D (32 * b + j) % 2 ^ efBits q.f else 0) ∧
      (∀ x, (∀ b, b < 32 → segTakes v s b = true → x < off b ∨ off b + segSize q.f ≤ x) →
        sget 0 (curBlock t).spad x = sget 0 (curBlock s).spad x) ∧
      (∃ floors, curBlock t = { curBlock (modG (fun g => { g with floors := floors }) s) with spad := (curBlock t).spad }) ∧
      (∀ u, u ≠ (cur s).who.uid → getBlock t u = getBlock s u) ∧
      t = { s with blocks := t.blocks, links := t.links, past := t.past, stamp := t.stamp, free := t.free })

/-! Link-tag atomics. -/

/-- R305, R156 to R158: the scalar linked pair on the block's own scratchpad. sll loads, zero-extended, and sets the path's link on the
64-byte line, in place of the one it had. ssc writes the low bytes of s[B] and gives 1 when the path's link names the line, and else
writes nothing and gives 0; its link is cleared in both cases. -/
def Sys2Proof.Rules.ScalarLinkedPair : Prop :=
  ∀ (e : Bool) (d a b : BitVec 6) (c : BitVec 4) (w : BitVec 1) (x : MemCtl) (s : State), Ready s →
    let own := LinkOwner.path (curWho s)
    let goes (i : Instr) (h : Head) (cls : Nat) (store : Bool) (d a b : BitVec 6) (n : Nat) : Prop :=
      let A : Int := ((rdS a s).toNat : Int)
      let line := LinkLine.spad (curBlock s).uid ((A % 2 ^ 60).toNat / 64)
      Local s A n n →
      (store = false → Ordered s cls →
        ∃ t, exec i s = .next (advance h none false false (wrS d (BitVec.ofNat 64 (ofBytes (localBytes s A n))) t)) ∧
        t = { looked s with links := t.links } ∧ linkOf t own = some line ∧ (t.links.filter fun k => k.owner == own).length = 1 ∧
        (s.links.length < 32 → ∀ o, o ≠ own → linkOf t o = linkOf s o)) ∧
      (store = true → linkOf s own = some line → swf (0 : Byte) (curBlock s).spad = true →
        ∃ t, exec i s = .next (advance h none false false (wrS d 1 t)) ∧
        Stored s t [0] (fun _ => (A % 2 ^ 60).toNat) (fun _ => toBytes n (rdS b s).toNat) ∧ linkOf t own = none) ∧
      (store = true → linkOf s own ≠ some line →
        exec i s = .next (advance h none false false (wrS d 0 { s with links := s.links.filter fun k => k.owner != own })))
    goes (.sll e d a c w) { e := e, major := 0x5B } c.toNat false d a 0 (if w = 1 then 4 else 8) ∧
    goes (.ssc e d a b c w) { e := e, major := 0x5B } c.toNat true d a b (if w = 1 then 4 else 8) ∧
    (x.xop = 0xA → x.ra = 0 → x.dw = 0 → x.s = 0 → x.pm4 = 0 → x.low.toNat % 2 ^ 13 = 0 → (x.f.getLsbD 0 = false → x.low = 0) →
      goes (.memLongControlForm e x) { e := e, major := 0x5B, len := 8 } x.cls.toNat (x.f.getLsbD 0) x.d x.a (BitVec.ofNat 6 (x.low.toNat / 2 ^ 13))
        (if x.f.getLsbD 1 then 4 else 8))

namespace Sys2Proof.Rules

/-- The vector linked pair in both forms: whether it stores, its operands, the success predicate, and the class (R304, R309). -/
inductive LinkAccess : Instr → Bool → VArgs → Nat → Nat → Prop where
  | vldgl (e : Bool) (d a b : BitVec 6) (c : BitVec 4) (m : BitVec 1) :
      LinkAccess (.vldgl e d a b c m) false (memOps e 0x5A d a b m.toNat) 0 c.toNat
  | vstsc (e : Bool) (d a b : BitVec 6) (c : BitVec 4) (m : BitVec 1) :
      LinkAccess (.vstsc e d a b c m) true (memOps e 0x5A d a b m.toNat) 2 c.toNat
  | vldglLong (e : Bool) (x : LinkLong) :
      LinkAccess (.vldglLong e x) false { memOps e 0x5A x.d x.a x.b x.pm4.toNat with len := 8, wide := x.dw == 1 } 0 x.cls.toNat
  | vstscLong (e : Bool) (x : LinkLong) :
      LinkAccess (.vstscLong e x) true { memOps e 0x5A x.d x.a x.b x.pm4.toNat with len := 8, wide := x.dw == 1 } x.ps.toNat x.cls.toNat

end Sys2Proof.Rules

/-- R304, R156 to R158: the vector linked pair on the block's own scratchpad, short and long. A linked load puts each active element
into its register and sets the thread's link on its line. Element i of the conditional store writes, and sets its bit of the success
predicate, exactly when thread i's link names the line of its address and no lower active element holds a link on that line, by the
links as they stand at issue; each attempt clears its thread's link. -/
def Sys2Proof.Rules.VectorLinkedPair : Prop :=
  ∀ (i : Instr) (store : Bool) (v : VArgs) (ps cls : Nat) (s : State), LinkAccess i store v ps cls → Runs s → NoFrame s →
    (curBlock s).preempt = false → (curGroup s).vl.toNat ≤ 1024 →
    (if store then VecReady v [.reg v.d v.wide, .reg v.b false] none s else VecReady v [.reg v.b false] (some v.wide) s) →
    let w := bytesOfW v
    let addr (k : Nat) : Int := indexed v false s k
    let own (k : Nat) : LinkOwner := .thread (cur s).who.uid (cur s).who.gidx k
    let line (k : Nat) : LinkLine := .spad (curBlock s).uid ((addr k % 2 ^ 60).toNat / 64)
    (∀ k ∈ activeEls v s, Local s (addr k) w w) →
    (store = false → (∀ k ∈ activeEls v s, OrderedEl v s cls k) → s.links.length + (activeEls v s).length ≤ 32 →
      ∃ t, exec i s = .next (advance (headOf v) none false false
          (zeroStart (putRegs v v.wide ((activeEls v s).map fun k => (k, ofBytes (localBytes s (addr k) w))) t))) ∧
        t = { lookedIf (!(activeEls v s).isEmpty) s with links := t.links } ∧ (∀ k ∈ activeEls v s, linkOf t (own k) = some (line k)) ∧
        (∀ o, (∀ k ∈ activeEls v s, o ≠ own k) → linkOf t o = linkOf s o)) ∧
    (store = true → swf (0 : Byte) (curBlock s).spad = true →
      let wins (k : Nat) : Bool := decide (linkOf s (own k) = some (line k)) &&
        (activeEls v s).all fun j => !(decide (j < k) && decide (linkOf s (own j) = some (line k)))
      ∃ t u, exec i s = .next (advance (headOf v) none false false (zeroStart (wrP ps u t))) ∧
        Stored s t ((activeEls v s).filter wins) (fun k => (addr k % 2 ^ 60).toNat)
          (fun k => toBytes w (srcEl v s false v.wide v.d k k)) ∧
        (∀ k, k < 1024 → u.getLsbD k = if (activeEls v s).contains k then wins k else (rdP ps s).getLsbD k) ∧
        ∀ k ∈ activeEls v s, linkOf t (own k) = none)

/-! Synchronisation. -/

namespace Sys2Proof.Rules

/-- The path waits: it keeps its PC, its run ends, and it is woken when the condition holds (R192, R193). -/
def waitsFor (x : Wait) (len : Nat) (s : State) : Host.Outcome State Fault Refusal :=
  .next (endRun (modP (fun p => { p with run := .waiting x len }) (setSide false s)))

/-- Phases complete (R312): GEN counts the phases that the arrivals fill, COUNT keeps the rest. Without an expectation none completes. -/
def barPhase (x : Barrier) : Barrier :=
  if x.expect = 0 then x
  else { expect := x.expect, count := BitVec.ofNat 16 (x.count.toNat % x.expect.toNat),
         gen := x.gen + BitVec.ofNat 32 (x.count.toNat / x.expect.toNat) }

/-- Where barrier k of the executing block is held: its own for k below 48, else the set's (R311). -/
def barHolder (k : BitVec 6) (s : State) : Option Nat :=
  if k.toNat < 48 then some (cur s).who.uid else barrierHolder s (cur s).who.uid k.toNat

/-- Barrier k of block u put to x, with its phases; for a set barrier each completed phase enters the arrival history (R313, R423). -/
def barPut (u : Nat) (k : BitVec 6) (x : Barrier) (s t : State) : Prop :=
  t = { modBlock u (fun b => { b with bars := vset b.bars k.toNat (barPhase x) }) s with arrivals := t.arrivals } ∧
  (k.toNat < 48 ∨ x.expect = 0 → t.arrivals = s.arrivals) ∧
  (48 ≤ k.toNat → x.expect ≠ 0 → t.arrivals.length = s.arrivals.length + x.count.toNat / x.expect.toNat)

/-- Where barrier k of a block held pre-empted stands in its save frame (R398, R411). -/
def barAt (u : Nat) (k : BitVec 6) (s : State) : Nat :=
  frameBase s (blockCtx s (getBlock s u)) ((getBlock s u).frame.getD 0) + 0x400100 + 8 * k.toNat

/-- The barrier is changed in a block that holds it on its core, or in a save frame that can be written (R315, R319). -/
def BarReachable (u : Nat) (k : BitVec 6) (s : State) : Prop :=
  (getBlock s u).res = .held → ∃ l, walk s (blockCtx s (getBlock s u)) (barAt u k s) .write true = .ok l

/-- The barrier of a block held pre-empted written to its save frame as well. -/
def barSaved (u : Nat) (k : BitVec 6) (s : State) : State :=
  let x := vget (getBlock s u).bars k.toNat
  if (getBlock s u).res = .held then
    putWord (blockCtx s (getBlock s u)) (barAt u k s) (x.expect.toNat + x.count.toNat * 2 ^ 16 + x.gen.toNat * 2 ^ 32) s
  else s

end Sys2Proof.Rules

/-- R141, R142, R89, R311 to R313, R310: a fence puts what has been written before the later reads of its classes, and one at cluster
scope or wider empties the core's L1; a scope above 5 traps. It rests on the model's reading of log 3. barinit, bararr and barwait on a
barrier: an expectation or a weight above 65,535 and a count past 65,535 trap, as a set barrier outside a set does; an arrival gives the
GEN it found; a wait returns when GEN differs from the low 32 bits of s[A], else the path waits. A barrier of a block held pre-empted is
changed in its save frame too. -/
def Sys2Proof.Rules.FencesAndNamedBarriers : Prop :=
  ∀ (e : Bool) (c : BitVec 3) (m : BitVec 16) (d a k : BitVec 6) (s : State), Ready s →
    (c.toNat < 6 → exec (.fence e c m) s = .next (advance { e := e, major := 0x5C } none false false (fenced m c.toNat s))) ∧
    (6 ≤ c.toNat → exec (.fence e c m) s = trapsWith 0x01 s) ∧
    let h : Head := { e := e, major := 0x5D }
    let v := (rdS a s).toNat
    let n := if a = 0 then 1 else v
    (barHolder k s = none → exec (.barinit e a k) s = trapsWith 0x01 s ∧ exec (.bararr e d a k) s = trapsWith 0x01 s ∧
      exec (.barwait e a k) s = trapsWith 0x01 s) ∧
    (∀ u, barHolder k s = some u →
      let x := vget (getBlock s u).bars k.toNat
      (65535 < v → exec (.barinit e a k) s = trapsWith 0x01 s) ∧
      (v ≤ 65535 → BarReachable u k s → ∃ t, exec (.barinit e a k) s = .next (advance h none false false (barSaved u k t)) ∧
        barPut u k { x with expect := BitVec.ofNat 16 v } s t) ∧
      (65535 < n ∨ 65535 < x.count.toNat + n → exec (.bararr e d a k) s = trapsWith 0x01 s) ∧
      (x.count.toNat + n ≤ 65535 → BarReachable u k s → ∃ t,
        exec (.bararr e d a k) s = .next (advance h none false false (wrS d (BitVec.ofNat 64 x.gen.toNat) (barSaved u k t))) ∧
        barPut u k { x with count := BitVec.ofNat 16 (x.count.toNat + n) } s t) ∧
      (x.gen.toNat ≠ v % 2 ^ 32 →
        exec (.barwait e a k) s = .next (advance h none false false (marked true (byPath s) (if 48 ≤ k.toNat then 2 else 1) s))) ∧
      (x.gen.toNat = v % 2 ^ 32 → exec (.barwait e a k) s = waitsFor (.bar k.toNat x.gen) 4 s))

/-- R314 to R318, R181, R189: ipost raises ITER to s[A] and never lowers it; iwait returns when the iteration number of the block that
stands DIST before this one in the set, which counts as 2^64 − 1 once that block has retired, has reached s[A], and waits otherwise; a
distance of 0 and a block outside a set trap. stgpost toggles the phase bit of a slot, stgwait returns when it is the one of the item,
and both trap without declared rings. claim takes the least of s[A], VLMAX and what is left of the index range; a launch with no further
block to place, and none held pre-empted, leaves the ready queues (R388). waitw returns a word
that differs from s[B], and waits while it does not. -/
def Sys2Proof.Rules.PostsRingsClaimsAndWatchedWords : Prop :=
  ∀ (e ext : Bool) (d a b : BitVec 6) (dist : BitVec 5) (r c : BitVec 3) (ph : BitVec 1) (s : State), Ready s →
    let h (m : Nat) : Head := { e := e, major := m }
    let v := rdS a s
    let slots := curSlots s
    let item := c.toNat + v.toNat
    exec (.ipost e a) s = .next (advance (h 0x5E) none false false
      (modB (fun x => { x with iter := if x.iter.toNat < v.toNat then v else x.iter }) s)) ∧
    (dist = 0 → exec (.iwait e a dist) s = trapsWith 0x01 s) ∧
    (dist ≠ 0 → iterAt s (cur s).who.uid dist.toNat = none → exec (.iwait e a dist) s = trapsWith 0x01 s) ∧
    (∀ x, dist ≠ 0 → iterAt s (cur s).who.uid dist.toNat = some x →
      exec (.iwait e a dist) s =
        if x.toNat < v.toNat then waitsFor (.iter dist.toNat v) 4 s else .next (advance (h 0x5E) none false false (marked true (byPath s) 2 s))) ∧
    (slots = 0 → exec (.stgpost e a r c) s = trapsWith 0x01 s ∧ exec (.stgwait e a r ph c) s = trapsWith 0x01 s) ∧
    (slots ≠ 0 →
      (∃ t, exec (.stgpost e a r c) s = .next (advance (h 0x5E) none false false t) ∧
        (∀ q j, q < 8 → j < 8 → (vget (curBlock t).rings q).getLsbD j =
          ((vget (curBlock s).rings q).getLsbD j != (decide (q = r.toNat) && decide (j = item % slots) ))) ∧
        curBlock t = { curBlock s with rings := (curBlock t).rings, postScope := (curBlock t).postScope } ∧ t = { s with blocks := t.blocks }) ∧
      (let bit := (vget (curBlock s).rings r.toNat).getLsbD (item % slots)
       let want := (ph == 1) != decide (item / slots % 2 = 1)
       exec (.stgwait e a r ph c) s =
        if bit = want then .next (advance (h 0x5E) none false false
          (marked true (byPath s) (sget 1 (curBlock s).postScope (r.toNat * 8 + item % slots)) s))
        else waitsFor (.ring r.toNat (item % slots) want) 4 s)) ∧
    (∀ l, launchOf s (curBlock s) = some l →
      let g := min (min v.toNat (vlmax s)) (pkWord l 1 - l.counter.toNat)
      exec (.claim e d a) s = .next (advance (h 0x5F) none false false
        (let u := wrS d l.counter (modG (fun x => { x with vl := BitVec.ofNat 32 g })
          (modLaunch l.id (fun x => { x with counter := x.counter + BitVec.ofNat 64 g }) s))
         let spent := (pkWord l 1 ≤ (l.counter + BitVec.ofNat 64 g).toNat ∨ (numBlk l ≠ 0 ∧ numBlk l ≤ l.placed)) ∧
           ∀ x ∈ s.blocks, x.launch = l.id → x.res ≠ .held
         { u with queue := if spent then u.queue.map fun q => q.filter fun x => x != l.id else u.queue }))) ∧
    (Local s (v.toNat : Int) 8 8 →
      let i : Instr := if ext then .waitwExt e d a b else .waitw e d a b
      let x := BitVec.ofNat 64 (ofBytes (localBytes s (v.toNat : Int) 8))
      exec i s = if x = rdS b s then waitsFor (.word ext v (rdS b s) (sregOf s d)) 4 (looked s)
        else .next (advance (h 0x5F) none false false (marked true (byPath s) 5 (wrS d x (looked s)))))

namespace Sys2Proof.Rules

/-! The matrix family. -/

/-- A matrix instruction's operation with its fields. -/
inductive MOp where
  | tset (d a : BitVec 6) (r : BitVec 1) (p : BitVec 4) (f : BitVec 5)
  | tget (d : BitVec 6)
  | tbands (d : BitVec 6) (b : BitVec 4)
  | obres (h : BitVec 4) (a b : BitVec 6)
  | obrel (h : BitVec 4)
  | obfill (c a b : BitVec 6) (h : BitVec 4)
  | obscale (c a : BitVec 6) (k : BitVec 3) (h : BitVec 4)
  | mlds (b a : BitVec 6) (p : BitVec 1) (h : BitVec 4)
  | mswap
  | mrbnd (a : BitVec 6)
  | mtag (a b : BitVec 6)
  | mma (c : BitVec 2) (h : BitVec 4) (a : BitVec 6) (r p : BitVec 4) (z : BitVec 1)
  | mmaG (c : BitVec 2) (h : BitVec 4) (a : BitVec 6) (r p : BitVec 4) (z : BitVec 1)
  | gangset (a : BitVec 6)
  | mguide (d c u : BitVec 2) (x : BitVec 6) (p : BitVec 4)
  | mzero (c : BitVec 2)
  | maccLd (c : BitVec 2) (a : BitVec 6)
  | maccSt (c : BitVec 2) (a b : BitVec 6)
  | mrd (v a b : BitVec 6) (c : BitVec 2)
  | mwr (v a b : BitVec 6) (c : BitVec 2)
  | rcount (a b : BitVec 6)
  | rcsnap (d a : BitVec 6)

/-- The short forms with their majors (R224). -/
inductive ShortMat : Instr → Bool → Nat → MOp → Prop where
  | tset (e : Bool) (d a : BitVec 6) (r : BitVec 1) (p : BitVec 4) (f : BitVec 5) : ShortMat (.tset e d a r p f) e 0x60 (.tset d a r p f)
  | tget (e : Bool) (d : BitVec 6) : ShortMat (.tget e d) e 0x60 (.tget d)
  | tbands (e : Bool) (d : BitVec 6) (b : BitVec 4) : ShortMat (.tbands e d b) e 0x61 (.tbands d b)
  | obres (e : Bool) (h : BitVec 4) (a b : BitVec 6) : ShortMat (.obres e h a b) e 0x62 (.obres h a b)
  | obrel (e : Bool) (h : BitVec 4) : ShortMat (.obrel e h) e 0x62 (.obrel h)
  | obfill (e : Bool) (c a b : BitVec 6) (h : BitVec 4) : ShortMat (.obfill e c a b h) e 0x63 (.obfill c a b h)
  | obscale (e : Bool) (c a : BitVec 6) (k : BitVec 3) (h : BitVec 4) : ShortMat (.obscale e c a k h) e 0x63 (.obscale c a k h)
  | mlds (e : Bool) (b a : BitVec 6) (p : BitVec 1) (h : BitVec 4) : ShortMat (.mlds e b a p h) e 0x64 (.mlds b a p h)
  | mswap (e : Bool) : ShortMat (.mswap e) e 0x64 .mswap
  | mrbnd (e : Bool) (a : BitVec 6) : ShortMat (.mrbnd e a) e 0x65 (.mrbnd a)
  | mtag (e : Bool) (a b : BitVec 6) : ShortMat (.mtag e a b) e 0x65 (.mtag a b)
  | mma (e : Bool) (c : BitVec 2) (h : BitVec 4) (a : BitVec 6) (r p : BitVec 4) (z : BitVec 1) :
      ShortMat (.mma e c h a r p z) e 0x66 (.mma c h a r p z)
  | mmaG (e : Bool) (c : BitVec 2) (h : BitVec 4) (a : BitVec 6) (r p : BitVec 4) (z : BitVec 1) :
      ShortMat (.mmaG e c h a r p z) e 0x67 (.mmaG c h a r p z)
  | gangset (e : Bool) (a : BitVec 6) : ShortMat (.gangset e a) e 0x67 (.gangset a)
  | mguide (e : Bool) (d c u : BitVec 2) (x : BitVec 6) (p : BitVec 4) : ShortMat (.mguide e d c u x p) e 0x68 (.mguide d c u x p)
  | mzero (e : Bool) (c : BitVec 2) : ShortMat (.mzero e c) e 0x69 (.mzero c)
  | maccLd (e : Bool) (c : BitVec 2) (a : BitVec 6) : ShortMat (.maccLd e c a) e 0x69 (.maccLd c a)
  | maccSt (e : Bool) (c : BitVec 2) (a b : BitVec 6) : ShortMat (.maccSt e c a b) e 0x69 (.maccSt c a b)
  | mrd (e : Bool) (v a b : BitVec 6) (c : BitVec 2) : ShortMat (.mrd e v a b c) e 0x6A (.mrd v a b c)
  | mwr (e : Bool) (v a b : BitVec 6) (c : BitVec 2) : ShortMat (.mwr e v a b c) e 0x6A (.mwr v a b c)
  | rcount (e : Bool) (a b : BitVec 6) : ShortMat (.rcount e a b) e 0x6B (.rcount a b)
  | rcsnap (e : Bool) (d a : BitVec 6) : ShortMat (.rcsnap e d a) e 0x6B (.rcsnap d a)

/-- Operations to which class and scope have a meaning (R351). -/
def takesClass : MOp → Bool
  | .obfill _ _ _ _ => true
  | .mtag _ _ => true
  | .maccLd _ _ => true
  | .maccSt _ _ _ => true
  | .rcount _ _ => true
  | .rcsnap _ _ => true
  | _ => false

/-- The matrix instructions, short and long: a long form holds bits [23:0] of the short word that it extends (R351). -/
inductive MatInstr : Instr → Head → MemArgs → MOp → Prop where
  | short (i : Instr) (e : Bool) (m : Nat) (o : MOp) : ShortMat i e m o →
      MatInstr i { e := e, major := m } { cls := 0, scope := 1, rel := false, acq := false } o
  | long (i : Instr) (e : Bool) (m : Nat) (o : MOp) (xop : BitVec 4) (body : BitVec 24) (cls : BitVec 4) (scope : BitVec 3)
      (hint : BitVec 4) : ShortMat i e m o → m = 0x60 + xop.toNat → encode i % 2 ^ 24 = body.toNat →
      (takesClass o = true ∨ (cls = 0 ∧ scope = 0)) →
      MatInstr (.matrixLongForm e xop body cls scope hint) { e := e, major := m, len := 8 }
        { cls := cls.toNat, scope := scope.toNat, rel := false, acq := false } o

/-- A matrix instruction may execute: a path outside a melded region issues, of a group of role M; tget may be issued by any role. -/
def MatReady (o : MOp) (s : State) : Prop :=
  Ready s ∧ ((∃ d, o = .tget d) ∨ InRole .m s)

/-- Limits of M, N and K of a core (R207, R321): 256, 16 or 8 rows; the usable columns and the K of the enabled bands in eights. -/
def maxRows (p : Place) : Nat := if p.cl ≠ 4 then 256 else if p.part = 0 then 16 else 8
def maxCols (p : Place) (faulty : Nat) : Nat := ncolOf p faulty / 8 * 8
def bandK (p : Place) (ben : BitVec 4) : Nat :=
  let n := b2n (ben.getLsbD 0) + b2n (ben.getLsbD 1) + b2n (ben.getLsbD 2) + b2n (ben.getLsbD 3)
  if p.cl ≠ 4 then 32 * n else if p.part = 0 then 4 * n else min 8 (4 * n)
def maxK (p : Place) (ben : BitVec 4) : Nat := bandK p ben / 8 * 8

/-- The least multiple of eight that holds q, at least eight, limited. -/
def granted (q lim : Nat) : Nat := min lim (max 8 ((q + 7) / 8 * 8))

/-- The grant as tset and tget give it. -/
def grantWord (b : Block) : Word :=
  BitVec.ofNat 64 (b.gm.toNat + 0x10000 * b.gn.toNat + 0x100000000 * b.gk.toNat + 0x1000000000000 * b.tfmt.toNat)

/-- The format field of tset (R320): a format of the array, planes 2 to 8 for BPI, and neither planes nor rounding for another. -/
def tfmtOk (r : BitVec 1) (p : BitVec 4) (f : BitVec 5) : Prop :=
  ((2 ≤ f.toNat ∧ f.toNat ≤ 6) ∨ (0x10 ≤ f.toNat ∧ f.toNat ≤ 0x17)) ∧
  (if f = 0x16 ∨ f = 0x17 then 2 ≤ p.toNat ∧ p.toNat ≤ 8 else p = 0 ∧ r = 0)

/-- No uncorrectable error stands in the operand buffer or the accumulators of the executing block (R76). -/
def Unhurt (s : State) : Prop :=
  ∀ x ∈ s.bad, match x with
    | .obuf u _ => u ≠ (curBlock s).uid
    | .tile u _ _ => u ≠ (curBlock s).uid
    | _ => True

/-- Nothing stands in the matrix queue of the executing core, through which the reads of a matrix instruction go (R153, R154). -/
def MatqIdle (s : State) : Prop := ∀ o ∈ s.matq, o.pl ≠ corePlace (curBlock s).place

/-- The change of the executing block alone. -/
def blockTo (f : Block → Block) (s : State) : State := modBlock (cur s).who.uid f s

/-- Traps of a matrix instruction with eaddr x. -/
def trapsAt (cause : Nat) (x : Word) (s : State) : Host.Outcome State Fault Refusal := .next (trapPath (curWho s) cause x 0 s)

end Sys2Proof.Rules

/-- R207, R320 to R323, R176: tset grants what its request asks for within the limits of the core, writes GRANT and TFMT and gives the
packed grant; a format that the array has not traps with 0x01, a request with a nonzero high part or a core without a grant to give
with 0x0A. tget gives the packed grant to any role. tbands enables bands of the core and powers them; an empty set and one outside the
core's bands trap. It rests on the model's readings or choices of log 10. -/
def Obligations.GrantsAndBands : Prop :=
  ∀ (i : Instr) (h : Head) (m : MemArgs) (o : MOp) (s : State), MatInstr i h m o → MatReady o s →
    let p := (curBlock s).place
    let ben := (curBlock s).ben
    let cols := maxCols p (curBlock s).faulty
    (∀ d a r q f, o = .tset d a r q f →
      let x := (rdS a s).toNat
      let t := blockTo (fun b => { b with
        gm := BitVec.ofNat 32 (granted (x % 65536) (maxRows p)),
        gn := BitVec.ofNat 32 (granted (x / 65536 % 65536) cols),
        gk := BitVec.ofNat 32 (granted (x / 4294967296 % 65536) (maxK p ben)),
        tfmt := BitVec.ofNat 32 (f.toNat + 0x100 * q.toNat + 0x1000 * r.toNat) }) s
      let good := x / 2 ^ 48 = 0 ∧ maxRows p ≠ 0 ∧ cols ≠ 0 ∧ maxK p ben ≠ 0
      (tfmtOk r q f → good → exec i s = .next (advance h none false false (wrS d (grantWord (curBlock t)) t))) ∧
      (tfmtOk r q f → ¬ good → exec i s = trapsAt 0x0A (rdS a s) s) ∧
      (¬ tfmtOk r q f → exec i s = trapsWith 0x01 s)) ∧
    (∀ d, o = .tget d → exec i s = .next (advance h none false false (wrS d (grantWord (curBlock s)) s))) ∧
    (∀ d x, o = .tbands d x →
      let good := x ≠ 0 ∧ ∀ k, k < 4 → x.getLsbD k = true → (availOf p).getLsbD k = true
      (good → exec i s = .next (advance h none false false (wrS d (BitVec.ofNat 64 (bandK p x))
        { blockTo (fun b => { b with ben := x }) s with
          bands := kset (corePlace p) (kget 0 s.bands (corePlace p) ||| x) s.bands }))) ∧
      (¬ good → exec i s = trapsAt 0x0A (BitVec.ofNat 64 x.toNat) s))

namespace Sys2Proof.Rules

/-- Bytes of a row of e elements of a format in memory: segments for a block format, elements side by side else. -/
def rowSize (f e : Nat) : Nat := if isBlockFmt f then e / 32 * segBytes f else e * elBytes f

/-- The 16-bit number at address a of the scratchpad. -/
def localHalf (s : State) (a : Int) : Nat := ofBytes (localBytes s a 2)

end Sys2Proof.Rules

/-- R78, R80, R324, R327, R329: obres stores a legal record under a free handle, in use; a record that is not legal or a handle in use
traps with 0x0B; obrel frees the handle and nothing else. obfill copies rows from the block's scratchpad into the rows of the
reservation, those from vstart on, and leaves vstart 0, which is all it does with no elements; obscale writes scale bytes of kN, 0xFF where the entry is invalid. It rests on
the model's readings or choices of log 68 and 71. -/
def Obligations.ReservationsAndFills : Prop :=
  ∀ (i : Instr) (h : Head) (m : MemArgs) (o : MOp) (s : State), MatInstr i h m o → MatReady o s →
    let b := curBlock s
    (∀ n x y, o = .obres n x y →
      let r : BitVec 128 := BitVec.ofNat 128 ((rdS x s).toNat + 2 ^ 64 * (rdS y s).toNat) ||| BitVec.ofNat 128 (2 ^ 63)
      let good := (vget b.recs n.toNat).getLsbD 63 = false ∧ recLegal b.obSize r = true
      (good → exec i s = .next (advance h none false false (blockTo (fun b => { b with recs := vset b.recs n.toNat r }) s))) ∧
      (¬ good → exec i s = trapsWith 0x0B s)) ∧
    (∀ n, o = .obrel n → ∃ t, exec i s = .next (advance h none false false t) ∧
      (∀ k j, k < 16 → j < 128 → (vget (curBlock t).recs k).getLsbD j =
        ((vget b.recs k).getLsbD j && !(decide (k = n.toNat) && decide (j = 63)))) ∧
      curBlock t = { b with recs := (curBlock t).recs } ∧ t = { s with blocks := t.blocks }) ∧
    (∀ c x y n, o = .obfill c x y n →
      let r := vget b.recs n.toNat
      let f := vbits r 56 5
      let pitch := (rdS y s).toNat % 2 ^ 32
      let rows := (rdS y s).toNat / 2 ^ 32 % 2 ^ 16
      let ne := (rdS c s).toNat % 2 ^ 16
      let first := (rdS c s).toNat / 2 ^ 16 % 2 ^ 16
      let addr (k : Nat) : Int := ((rdS x s).toNat : Int) + (k * pitch : Nat)
      let good := (rdS y s).toNat / 2 ^ 48 = 0 ∧ (rdS c s).toNat / 2 ^ 32 = 0 ∧ r.getLsbD 63 = true ∧
        (isBlockFmt f = true → ne % 32 = 0) ∧ ∀ k < rows, rowPresent r ne (first + k) = true
      (¬ good → exec i s = trapsWith 0x0B s) ∧
      (good → ne = 0 → exec i s = .next (advance h none false false (zeroStart s))) ∧
      (good → ne ≠ 0 → tagLocal (rdS x s) → MatqIdle s → Unhurt s →
        (∀ k, (curGroup s).vstart.toNat ≤ k → k < rows → Local s (addr k) (rowSize f ne) (if isBlockFmt f then 4 else elBytes f)) →
        exec i s = .next (advance h none false false (zeroStart (blockTo (fun b =>
          ((List.range rows).filter fun k => decide ((curGroup s).vstart.toNat ≤ k)).foldl
            (fun b k => putRow r (first + k) ne (localBytes s (addr k) (rowSize f ne)) b) b)
          (lookedIf (decide ((curGroup s).vstart.toNat < rows)) s)))))) ∧
    (∀ c x k n, o = .obscale c x k n →
      let r := vget b.recs n.toNat
      let first := (rdS x s).toNat
      let cnt := (rdS c s).toNat
      let at_ := 64 * (vbits r 16 12 + vbits r 96 12) + first
      let good := r.getLsbD 63 = true ∧ vbits r 44 8 ≠ 0 ∧ cnt ≤ 64 ∧ (cnt = 0 ∨ first + cnt ≤ scaleBytes r)
      (¬ good → exec i s = trapsWith 0x0B s) ∧
      (good → Unhurt s → swf (0 : Byte) b.ob = true → ∃ t, exec i s = .next (advance h none false false t) ∧
        (∀ j, sget 0 (curBlock t).ob j = if at_ ≤ j ∧ j < at_ + cnt then
            (if (vget (curGroup s).qs k.toNat).getLsbD (j - at_) then
              BitVec.ofNat 8 (vbits (vget (curGroup s).ks k.toNat) (8 * (j - at_)) 8) else 0xFF)
          else sget 0 b.ob j) ∧
        curBlock t = { b with ob := (curBlock t).ob } ∧ t = { s with blocks := t.blocks }))

namespace Sys2Proof.Rules

/-- The value with which a grant traps, none when it serves: 0 when a dimension or the format is 0, else the first dimension above what the
core gives now (R331; with M in R335). -/
def grantTrap (b : Block) (withM : Bool) : Option Word :=
  if b.gm.toNat = 0 ∨ b.gn.toNat = 0 ∨ b.gk.toNat = 0 ∨ b.tfmt.toNat = 0 then some 0
  else if withM = true ∧ maxRows b.place < b.gm.toNat then some (BitVec.ofNat 64 b.gm.toNat)
  else if maxCols b.place b.faulty < b.gn.toNat then some (BitVec.ofNat 64 b.gn.toNat)
  else if maxK b.place b.ben < b.gk.toNat then some (BitVec.ofNat 64 b.gk.toNat)
  else none

/-- Does the record check pass (R328): in use, of the format of tfmt and for BPI of its planes, every row present with e elements? -/
def recordServes (b : Block) (r : BitVec 128) (rows : List Nat) (e : Nat) : Bool :=
  let f := vbits r 56 5
  let area := if vbits r 44 8 = 32 then 64 * vbits r 96 12 else 64 * vbits r 0 13
  let size := if isBlockFmt f then (e + 31) / 32 * blockBytes f else e * elBytes f
  r.getLsbD 63 && decide (f = b.tfmt.toNat % 32) && (decide (f ≠ 0x16 ∧ f ≠ 0x17) || decide (vbits r 52 4 = b.tfmt.toNat / 256 % 16)) &&
  rows.all fun j => decide (64 * j * vbits r 64 12 + size ≤ area)

/-- Does plane p hold what the grant asks for (R335)? -/
def planeServes (b : Block) (p : Nat) : Bool :=
  let x := vget b.planes p
  x.valid && decide (x.k = b.gk.toNat ∧ x.n = b.gn.toNat ∧ x.fmt.toNat = b.tfmt.toNat % 32 ∧ x.pln.toNat = b.tfmt.toNat / 256 % 16) &&
  x.rnd == b.tfmt.getLsbD 12

/-- Element k of row j of a record, and its block's scale byte, where the operand buffer holds them (R80, R328). -/
def recordElement (b : Block) (r : BitVec 128) (j k : Nat) : Nat :=
  let f := vbits r 56 5
  let row := 64 * vbits r 16 12 + 64 * j * vbits r 64 12
  if isBlockFmt f then (unpackEls f (sgetN 0 b.ob (row + k / 32 * blockBytes f) (blockBytes f))).getD (k % 32) 0
  else ofBytes (sgetN 0 b.ob (row + k * elBytes f) (elBytes f))
def recordScale (b : Block) (r : BitVec 128) (j q : Nat) : Byte :=
  let f := vbits r 56 5
  sget 0 b.ob (64 * vbits r 16 12 + (64 * vbits r 96 12 + (64 * j * vbits r 64 12 + q * blockBytes f) / blockBytes f))

end Sys2Proof.Rules

/-- R331 to R333: mlds makes plane P valid with GK, GN and the format of tfmt, the identifier of s[B], element k of record row s[A] + n as
its element (k, n), and the scale bytes of those rows when the record has them; the other plane stands; a missing grant, one above what
the core gives now, and a record that does not fit trap. mswap exchanges the planes. mrbnd sets the row bound, at most 256. mtag loads the
tag table from the block's scratchpad and turns it on; a count of 0 turns it off; a count above 256 traps. And R332: with tags on a row
selects the plane whose identifier its tag names, plane 0 before plane 1, and no plane for 0xFFFF or an unknown tag; with tags off rows
below the bound select plane 0, the others plane 1. It rests on the model's readings or choices of log 71. -/
def Obligations.PlanesAndRowSelection : Prop :=
  (∀ (i : Instr) (h : Head) (m : MemArgs) (o : MOp) (s : State), MatInstr i h m o → MatReady o s →
    let b := curBlock s
    (∀ y x p n, o = .mlds y x p n →
      let j0 := (rdS x s).toNat
      let r := vget b.recs n.toNat
      let fits := recordServes b r ((List.range b.gn.toNat).map (j0 + ·)) b.gk.toNat
      (∀ v, grantTrap b false = some v → exec i s = trapsAt 0x0A v s) ∧
      (grantTrap b false = none → fits = false → exec i s = trapsAt 0x0B (BitVec.ofNat 64 n.toNat) s) ∧
      (grantTrap b false = none → fits = true → Unhurt s → ∃ t q, exec i s = .next (advance h none false false t) ∧
        vget (curBlock t).planes p.toNat = q ∧ q.valid = true ∧ q.k = b.gk.toNat ∧ q.n = b.gn.toNat ∧
        q.fmt.toNat = b.tfmt.toNat % 32 ∧ q.pln.toNat = b.tfmt.toNat / 256 % 16 ∧ q.rnd = b.tfmt.getLsbD 12 ∧
        q.id.toNat = (rdS y s).toNat % 2 ^ 16 ∧
        (∀ c k, c < b.gn.toNat → k < b.gk.toNat →
          sget 0 q.w (c * 128 + k) = BitVec.ofNat 16 (recordElement b r (j0 + c) k) ∧
          sget 0 q.sc (c * 4 + k / 32) = if vbits r 44 8 = 32 then recordScale b r (j0 + c) (k / 32) else 0) ∧
        (∀ k, k < 2 → k ≠ p.toNat → vget (curBlock t).planes k = vget b.planes k) ∧
        curBlock t = { b with planes := (curBlock t).planes } ∧ t = { s with blocks := t.blocks })) ∧
    (o = .mswap → ∃ t, exec i s = .next (advance h none false false t) ∧
      vget (curBlock t).planes 0 = vget b.planes 1 ∧ vget (curBlock t).planes 1 = vget b.planes 0 ∧
      curBlock t = { b with planes := (curBlock t).planes } ∧ t = { s with blocks := t.blocks }) ∧
    (∀ x, o = .mrbnd x →
      ((rdS x s).toNat ≤ 256 → exec i s =
        .next (advance h none false false (blockTo (fun b => { b with rbnd := BitVec.ofNat 32 (rdS x s).toNat }) s))) ∧
      (256 < (rdS x s).toNat → exec i s = trapsWith 0x02 s)) ∧
    (∀ x y, o = .mtag x y →
      let n := (rdS y s).toNat
      let addr (k : Nat) : Int := ((rdS x s).toNat : Int) + (2 * k : Nat)
      (n = 0 → exec i s = .next (advance h none false false (zeroStart (blockTo (fun b => { b with tagOn := false }) s)))) ∧
      (256 < n → exec i s = trapsAt 0x0A (rdS y s) s) ∧
      (n ≠ 0 → n ≤ 256 → (curGroup s).vstart = 0 → tagLocal (rdS x s) → (∀ k < n, Local s (addr k) 2 2) → MatqIdle s →
        ∃ t, exec i s = .next (advance h none false false (zeroStart t)) ∧
          (∀ k, sget 0xFFFF (curBlock t).tags k = if k < n then BitVec.ofNat 16 (localHalf s (addr k)) else 0xFFFF) ∧
          curBlock t = { b with tags := (curBlock t).tags, pendTags := [], tagOn := true } ∧
          t = { looked s with blocks := t.blocks }))) ∧
  (∀ (b : Block) (m : Nat),
    let t := sget 0xFFFF b.tags m
    (b.tagOn = false → selectRow b m = if m < b.rbnd.toNat then .plane 0 else .plane 1) ∧
    (b.tagOn = true → t ≠ 0xFFFF → t = (vget b.planes 0).id → selectRow b m = .plane 0) ∧
    (b.tagOn = true → t ≠ 0xFFFF → t ≠ (vget b.planes 0).id → t = (vget b.planes 1).id → selectRow b m = .plane 1) ∧
    (b.tagOn = true → t = 0xFFFF ∨ (t ≠ (vget b.planes 0).id ∧ t ≠ (vget b.planes 1).id) → selectRow b m = .defer))

namespace Sys2Proof.Rules

/-- The operands that an mma captures (R335, R339). -/
def captured (h : Head) (c : BitVec 2) (n : BitVec 4) (a : BitVec 6) (r p : BitVec 4) (z : BitVec 1) (s : State) : LatchMember :=
  { gidx := (curGroup s).gidx, pidx := (curWho s).pidx, len := h.len, tile := c.toNat, handle := n.toNat, z := z == 1, pd := p.toNat,
    vl := (curGroup s).vl.toNat, vstart := (curGroup s).vstart.toNat, j0 := rdS a s, prbits := (rdP r.toNat s).truncate 256,
    ben := (curBlock s).ben }

/-- The rows that a member takes: below GM and vl, from vstart on, under PR (R326). -/
def takenRow (b : Block) (m : LatchMember) (r : Nat) : Bool :=
  decide (r < b.gm.toNat) && decide (m.vstart ≤ r) && decide (r < m.vl) && m.prbits.getLsbD r

/-- Element (r, n) that a member gives on plane p: products summed exactly in groups of sixteen, each sum rounded to binary32 and added
to the accumulator with one rounding (R132). -/
def mmaElement (b : Block) (m : LatchMember) (p r n : Nat) : Nat :=
  let rec_ := vget b.recs m.handle
  let j := m.j0.toNat + r
  let x := operandValues (recFmt rec_) (planesRead b.tfmt) (tfmtRnd b.tfmt) (rowCodes b rec_ j b.gk.toNat)
    (rowScales b rec_ j b.gk.toNat)
  let y := planeColumn (vget b.planes p) n
  let z := x.zip y
  (List.range ((x.length + 15) / 16)).foldl (fun acc g =>
      let l := (z.drop (16 * g)).take 16
      if l.isEmpty then acc
      else (fAdd fB32 .rne (fdecode fB32 acc) (fdecode fB32 (toFmt fB32 .rne (l.foldl (fun s q => exactAdd s (exactMul q.1 q.2))
        (.fin false 0 0))).1)).1)
    (if m.z then 0 else (sget 0 (vget b.tiles m.tile) (r * 64 + n)).toNat)

/-- The checks of R335 in their order: the grant, the record for every active row, and the planes that the active rows select. -/
def mmaTrap (b : Block) (m : LatchMember) : Option (Nat × Word) :=
  let rows := (List.range b.gm.toNat).filter (takenRow b m)
  let misses (p : Nat) : Bool := (rows.any fun r => selectRow b r == .plane p) && !planeServes b p
  match grantTrap b true with
  | some v => some (0x0A, v)
  | none =>
    if recordServes b (vget b.recs m.handle) (rows.map fun r => m.j0.toNat + r) b.gk.toNat = false then
      some (0x0B, BitVec.ofNat 64 m.handle)
    else if misses 0 = true then some (0x0A, 0) else if misses 1 = true then some (0x0A, 1) else none

/-- What the rows of a member do to a block: a taken row with a plane is computed, its presence bit set and its deferral bit cleared; a
taken row without one is deferred; nothing else changes. -/
def rowsDone (m : LatchMember) (b c : Block) : Prop :=
  (∀ t r n, t < 4 → r < 256 → n < 64 → sget 0 (vget c.tiles t) (r * 64 + n) =
    match selectRow b r with
    | .plane p => if t = m.tile ∧ takenRow b m r = true ∧ n < b.gn.toNat then BitVec.ofNat 32 (mmaElement b m p r n)
      else sget 0 (vget b.tiles t) (r * 64 + n)
    | .defer => sget 0 (vget b.tiles t) (r * 64 + n)) ∧
  (∀ t r, t < 4 → r < 256 → (vget c.pres t).getLsbD r =
    ((vget b.pres t).getLsbD r || (decide (t = m.tile) && takenRow b m r && decide (selectRow b r ≠ .defer)))) ∧
  (∀ g, g ≠ m.gidx → findGroup c g = findGroup b g) ∧
  (∀ g, findGroup b m.gidx = some g → ∃ g', findGroup c m.gidx = some g' ∧ g' = { g with p := g'.p } ∧
    ∀ k r, k < 16 → r < 1024 → (vget g'.p k).getLsbD r =
      if k = m.pd ∧ m.pd ≠ 0 ∧ takenRow b m r = true then decide (selectRow b r = .defer) else (vget g.p k).getLsbD r) ∧
  c = { b with tiles := c.tiles, pres := c.pres, groups := c.groups }

end Sys2Proof.Rules

/-- R326, R332, R335, R336: mma with a grant, a record and planes that fit computes its rows, each on the plane that the row selects,
and completes with vstart 0; its checks trap in the order of R335 with the cause and the first failing value: the grant's dimensions, the handle, or the plane that an
active row selects and that does not hold what the grant asks for; an uncorrectable error
in the rows that it touches ends the fault domain with 0x14 (R76). It rests on the model's
readings or choices of log 71. -/
def Obligations.MultiplyComputesItsRows : Prop :=
  (∀ (i : Instr) (h : Head) (m : MemArgs) (c : BitVec 2) (n : BitVec 4) (a : BitVec 6) (r p : BitVec 4) (z : BitVec 1) (s : State),
    MatInstr i h m (.mma c n a r p z) → MatReady (.mma c n a r p z) s →
    let x := captured h c n a r p z s
    (∀ k v, mmaTrap (curBlock s) x = some (k, v) → exec i s = trapsAt k v s) ∧
    (∀ q, mmaTrap (curBlock s) x = none → mmaHurt s (curBlock s) x = some q →
      exec i s = .next (setSide false (endBlockDomain (cur s).who.uid 0x14 (BitVec.ofNat 64 q) s))) ∧
    (mmaTrap (curBlock s) x = none → Unhurt s → (curBlock s).preempt = false →
      (∀ t, t < 4 → swf (0 : Half) (vget (curBlock s).tiles t) = true) → (curBlock s).gn.toNat ≤ 64 → (curBlock s).gm.toNat ≤ 256 →
      ∃ f : Block → Block, exec i s = .next (advance h none false false (zeroStart (blockTo f s))) ∧
        rowsDone x (curBlock s) (f (curBlock s)))) ∧
  (∀ (b : Block) (m : LatchMember), mmaFault b m = mmaTrap b m)

/-- R182 to R184, R338 to R340: gangset stores a legal gang value, with its reserved fields zero, and traps on another. A member of a gang
that is not the last to arrive waits in the latch with its operands, as the last does while a pre-emption stands (R401); the last computes
the rows of all, in rising GIDX, after which every member's vstart is 0, its SEQ is one on, the entry is gone and the waiting members go
on behind their instruction. Without a gang mma.g traps with 0x01, and its own checks trap first. It rests on the model's readings or
choices of log 31, 33 and 39. -/
def Obligations.GangsMeetInTheLatch : Prop :=
  ∀ (i : Instr) (h : Head) (m : MemArgs) (o : MOp) (s : State), MatInstr i h m o → MatReady o s →
    let g := curGroup s
    let b := curBlock s
    (∀ a, o = .gangset a →
      (gangValid b g.gidx (rdS a s) = true → ∃ t, exec i s = .next (advance h none false false t) ∧
        (∀ k, k < 64 → (curGroup t).gang.getLsbD k =
          ((rdS a s).getLsbD k && !(decide (17 ≤ k) && decide (k < 32)) && !(decide (40 ≤ k) && decide (k < 48)))) ∧
        curGroup t = { g with gang := (curGroup t).gang } ∧ t = { s with blocks := t.blocks }) ∧
      (gangValid b g.gidx (rdS a s) = false → exec i s = trapsWith 0x01 s)) ∧
    (∀ c n a r p z, o = .mmaG c n a r p z →
      let x := captured h c n a r p z s
      let mem : BitVec 16 := BitVec.ofNat 16 g.gang.toNat
      let seq : BitVec 8 := BitVec.ofNat 8 (g.gang.toNat / 2 ^ 32)
      let pair := g.gang.getLsbD 16
      let tmo := g.gang.toNat / 2 ^ 48
      let entry := (b.latch.find? fun e => e.seq == seq && e.members == mem && e.pair == pair).getD
        { seq := seq, pair := pair, members := mem, tmo := tmo, elapsed := 0, arrived := [] }
      (mem = 0 → exec i s = trapsWith 0x01 s) ∧
      (∀ k v, mem ≠ 0 → mmaTrap b x = some (k, v) → exec i s = trapsAt k v s) ∧
      (mem ≠ 0 → mmaTrap b x = none → (entry.arrived.any fun y => y.gidx == g.gidx) = false →
        entry.arrived.length + 1 < popcount mem ∨ b.preempt = true ∨ b.res ≠ .resident → ∃ t, exec i s = waitsFor .latch h.len t ∧
          (curBlock t).latch.getLast? = some { entry with arrived := entry.arrived ++ [x] } ∧
          curBlock t = { b with latch := (curBlock t).latch } ∧ t = { s with blocks := t.blocks }) ∧
      (mem ≠ 0 → mmaTrap b x = none → (entry.arrived.any fun y => y.gidx == g.gidx) = false →
        entry.arrived.length + 1 = popcount mem → b.preempt = false → b.res = .resident →
        let all := byGidx (x :: entry.arrived)
        (pair = true → (∀ y ∈ all, ∀ w ∈ all, y.tile = w.tile) → exec i s = trapsAt 0x01 0 (failLatch (cur s).who.uid entry 0x01 0 s)) ∧
        ((pair = false ∨ ∃ y ∈ all, ∃ w ∈ all, y.tile ≠ w.tile) → (∀ y ∈ all, mmaTrap b y = none) → Unhurt s →
          exec i s = .next (advance h none false false
            (entry.arrived.foldl (fun s y => passWait { uid := (cur s).who.uid, gidx := y.gidx, pidx := y.pidx } y.len s)
              (blockTo (fun b =>
                let c := all.foldl (fun b y => runRows y (rowsOf b y) b) b
                { c with
                  latch := c.latch.filter fun e => !(e.seq == seq && e.members == mem && e.pair == pair),
                  groups := c.groups.map fun q => if all.any fun y => y.gidx == q.gidx then
                    { q with vstart := 0, gang := putBits q.gang 32 8 (q.gang.toNat / 2 ^ 32 % 2 ^ 8 + 1) } else q }) s))))))

/-- R341, R343 to R347: mzero empties a tile; mguide writes rows present in both tiles with u + x(c − u), rounded once, copies a row that
only one holds, leaves a row that neither holds, and records the misses in p; mrd and mwr move a row of a tile to and from a vector
register of a V-role group of the block. -/
def Obligations.TilesRowsAndGuides : Prop :=
  ∀ (i : Instr) (h : Head) (m : MemArgs) (o : MOp) (s : State), MatInstr i h m o → MatReady o s →
    let b := curBlock s
    (∀ c, o = .mzero c → exec i s = .next (advance h none false false
      (blockTo (fun b => { b with tiles := vset b.tiles c.toNat [], pres := vset b.pres c.toNat 0 }) s))) ∧
    (∀ d c u x p, o = .mguide d c u x p → (∀ t, t < 4 → swf (0 : Half) (vget b.tiles t) = true) →
      let el (t : BitVec 2) (r n : Nat) : Nat := (sget 0 (vget b.tiles t.toNat) (r * 64 + n)).toNat
      let has (t : BitVec 2) (r : Nat) : Bool := (vget b.pres t.toNat).getLsbD r
      let X := (rdS x s).toNat % 2 ^ 32
      (b.gm = 0 ∨ b.gn = 0 → exec i s = trapsWith 0x0A s) ∧
      (b.gm ≠ 0 → b.gn ≠ 0 → b.gm.toNat ≤ 256 → b.gn.toNat ≤ 64 → Unhurt s → ∃ t, exec i s = .next (advance h none false false t) ∧
        (∀ r n, r < b.gm.toNat → n < b.gn.toNat → (sget 0 (vget (curBlock t).tiles d.toNat) (r * 64 + n)).toNat =
          if has c r && has u r then
            (match exactAdd (fdecode fB32 (el u r n)) (exactMul (fdecode fB32 X)
                (exactAdd (fdecode fB32 (el c r n)) (fNeg (fdecode fB32 (el u r n))))) with
              | .fin _ 0 _ => 0
              | v => (toFmt fB32 .rne v).1) % 2 ^ 32
          else if has c r then el c r n else if has u r then el u r n else el d r n) ∧
        (∀ r, r < 256 → (vget (curBlock t).pres d.toNat).getLsbD r =
          (has d r || (decide (r < b.gm.toNat) && (has c r || has u r)))) ∧
        (∀ r, r < 1024 → p ≠ 0 → (rdP p.toNat t).getLsbD r =
          if r < b.gm.toNat then (has c r != has u r) else (rdP p.toNat s).getLsbD r) ∧
        (∀ k, k ≠ d.toNat → vget (curBlock t).tiles k = vget b.tiles k ∨ 4 ≤ k))) ∧
    (∀ v x y c, (o = .mrd v x y c ∨ o = .mwr v x y c) →
      let row := (rdS x s).toNat
      let target := (findGroup b (rdS y s).toNat).filter fun g => g.role == .v && !g.retired
      (target = none → exec i s = trapsWith 0x1A s) ∧
      (∀ g, target = some g →
        (nrOf g.nrc ≤ v.toNat → exec i s = trapsWith 0x09 s) ∧
        (v.toNat < nrOf g.nrc → b.gn = 0 → exec i s = trapsAt 0x0A 0 s) ∧
        (v.toNat < nrOf g.nrc → b.gn ≠ 0 → maxRows b.place ≤ row → exec i s = trapsAt 0x0A (rdS x s) s) ∧
        (v.toNat < nrOf g.nrc → b.gn ≠ 0 → row < maxRows b.place → b.gn.toNat ≤ 64 → Unhurt s →
          (o = .mrd v x y c → exec i s = .next (advance h none false false
            (modGroup (cur s).who.uid g.gidx (fun g => { g with
              v := ssetN 0 (v.toNat * 1024) (sgetN 0 (vget b.tiles c.toNat) (row * 64) b.gn.toNat) g.v,
              dirty := putBit g.dirty v.toNat true }) s))) ∧
          (o = .mwr v x y c → exec i s = .next (advance h none false false
            (blockTo (fun b => { b with
              tiles := vset b.tiles c.toNat
                (ssetN 0 (row * 64) (sgetN 0 g.v (v.toNat * 1024) b.gn.toNat) (vget b.tiles c.toNat)),
              pres := vset b.pres c.toNat (putBit (vget b.pres c.toNat) row true) }) s))))))

namespace Sys2Proof.Rules

/-- Bytes of an accumulator image, and of its units of 64. -/
def imageSize (rows cols : Nat) : Nat := 64 + 4 * rows * cols
def unitSize (n u : Nat) : Nat := min 64 (n - 64 * u)

/-- The writes that an instruction leaves in its core's matrix queue (R345, R350). -/
def queued (m : MemArgs) (a : Word) (w : List (Target × List Byte)) (s t : State) : Prop :=
  t.matq = s.matq ++ [
    { id := s.uids, pl := corePlace (curBlock s).place, uid := (curBlock s).uid, gidx := (cur s).who.gidx,
      cls := m.cls, scope := m.scope, addr := a, writes := w }] ∧ t.uids = s.uids + 1 ∧
  curGroup t = { curGroup s with qwide := (curGroup t).qwide } ∧
  (∀ k, k < 9 → (curGroup t).qwide.getLsbD k = ((curGroup s).qwide.getLsbD k || (decide (k = 8) && decide (2 ≤ m.scope)))) ∧
  t = { s with matq := t.matq, uids := t.uids, blocks := t.blocks }

/-- The bytes of an operation of a matrix queue at their places, the home dies of those in DRAM awake (R431). -/
def matWritten (pl : Place) (l : List (Target × List Byte)) (s : State) : State :=
  l.foldl (fun s x => match x.1 with
    | .spad u off => spadWrite u off x.2 s
    | .phys pa => physWrite (some pl) pa x.2 (wakeDie (homeDie s pa) s)
    | _ => s) s

/-- A place that a matrix queue can write now: DRAM, or the scratchpad of a block that is there and stands still (R37). -/
def MatOpen (s : State) (x : Target × List Byte) : Prop :=
  (∃ pa, x.1 = .phys pa ∧ isAperture s pa = false) ∨ ∃ u off, x.1 = .spad u off ∧ (findBlock s u).isSome = true ∧ (getBlock s u).transit = false

end Sys2Proof.Rules

/-- R344 to R346: an accumulator image begins with its magic number, version and shape, and holds element (r, c) at 64 + 4 (r × cols +
c). macc.st of a legal shape to the block's scratchpad leaves the image as one write a unit in the matrix queue; a shape beyond the
core traps. macc.ld of an image in the scratchpad puts its elements and presence bits into the tile, everything else of the tile zero;
a head that the core does not accept traps with 0x15, a base with a reserved tag with 0x07, and another one that is not a multiple of 64
with 0x04 (R24). While a write stands in the core's matrix queue, the oldest is done and the load does not execute yet (R154). It rests
on the model's readings or choices of log 32 and 114. -/
def Obligations.AccumulatorImages : Prop :=
  (∀ (b : Block) (t rows cols prog : Nat), rows ≤ 256 → cols ≤ 64 → tfmtCode b.tfmt < 256 →
    let l := imageBytes b t rows cols prog
    l.length = imageSize rows cols ∧ ofBytes (l.take 4) = 0x4343414B ∧ ofBytes ((l.drop 4).take 2) = 1 ∧
    ofBytes ((l.drop 6).take 2) = rows ∧ ofBytes ((l.drop 8).take 2) = cols ∧
    ∀ r c, r < rows → c < cols → ofBytes ((l.drop (64 + 4 * (r * cols + c))).take 4) = (sget 0 (vget b.tiles t) (r * 64 + c)).toNat) ∧
  ∀ (i : Instr) (h : Head) (m : MemArgs) (o : MOp) (s : State), MatInstr i h m o → MatReady o s →
    let b := curBlock s
    (∀ c a x, o = .maccSt c a x →
      let rows := (rdS x s).toNat % 65536
      let cols := (rdS x s).toNat / 65536 % 65536
      let A : Int := ((rdS a s).toNat : Int)
      let good := (rdS x s).toNat / 2 ^ 32 = 0 ∧ rows ≠ 0 ∧ cols ≠ 0 ∧ rows ≤ maxRows b.place ∧ cols ≤ maxCols b.place b.faulty
      let n := imageSize rows cols
      (¬ good → exec i s = trapsAt 0x0A (rdS x s) s) ∧
      (good → Local s A n 64 → Unhurt s → (curGroup s).kept = [] → ∃ t, exec i s = .next (advance h none false false t) ∧
        queued m (rdS a s) ((List.range ((n + 63) / 64)).map fun u =>
          (.spad b.uid ((A % 2 ^ 60).toNat + 64 * u),
            ((imageBytes b c.toNat rows cols (curGroup s).vstart.toNat).drop (64 * u)).take (unitSize n u))) s t)) ∧
    (∀ c a, o = .maccLd c a →
      let A : Int := ((rdS a s).toNat : Int)
      let head := localBytes s A 64
      let rows := ofBytes ((head.drop 6).take 2)
      let cols := ofBytes ((head.drop 8).take 2)
      (badTag (rdS a s) = true ∨ (rdS a s).toNat % 64 ≠ 0 →
        exec i s = .next (trapPath (curWho s) (if badTag (rdS a s) then 0x07 else 0x04) (rdS a s) 8 s)) ∧
      (∀ q, badTag (rdS a s) = false → (rdS a s).toNat % 64 = 0 → s.matq.find? (fun q => q.pl == corePlace b.place) = some q → (∀ y ∈ q.writes, MatOpen s y) →
        exec i s = .next (setSide false
          { matWritten (corePlace b.place) q.writes s with matq := s.matq.filter fun y => y.id != q.id })) ∧
      (Local s A 64 64 → MatqIdle s → headFits b head = false → exec i s = trapsAt 0x15 (rdS a s) (looked s)) ∧
      (Local s A 64 64 → MatqIdle s → headFits b head = true → Local s A (imageSize rows cols) 64 → Unhurt s →
        (curGroup s).vstart = 0 →
        swf (0 : Half) (vget b.tiles c.toNat) = true → ∃ t, exec i s = .next (advance h none false false (zeroStart t)) ∧
        (∀ r n, n < 64 → (sget 0 (vget (curBlock t).tiles c.toNat) (r * 64 + n)).toNat =
          if r < rows ∧ n < cols then ofBytes (localBytes s (A + 64 + 4 * (r * cols + n)) 4) else 0) ∧
        (vget (curBlock t).pres c.toNat).toNat = ofBytes ((head.drop 16).take 32) ∧
        (∀ k, k < 4 → k ≠ c.toNat → vget (curBlock t).tiles k = vget b.tiles k ∧ vget (curBlock t).pres k = vget b.pres k) ∧
        curBlock t = { b with tiles := (curBlock t).tiles, pres := (curBlock t).pres } ∧ t = { looked s with blocks := t.blocks }))

/-- R348 to R350: both instructions trap with 0x06 while another context holds the counters of the cluster; else they take free ones,
which are their context's from then on. rcount traps with 0x0A for a count above 4,096 and with 0x04 at a misaligned list; else it adds one
to the counter of each listed entry from the block's scratchpad, saturating; an entry with bit 15 counts nothing. rcsnap traps at a
destination with a reserved tag (0x07), in the weight stores (0x08) or misaligned (0x04), in this order (R24); else it leaves the 256
counters as one write in the matrix queue, gives their sum and clears them. It rests on the model's readings or choices of log 71. -/
def Obligations.RoutingCounters : Prop :=
  ∀ (i : Instr) (h : Head) (m : MemArgs) (o : MOp) (s : State), MatInstr i h m o → MatReady o s →
    let b := curBlock s
    let mine (r : RouteSet) : Bool := r.die == b.place.die && r.cl == b.place.cl
    let counts : Sparse Half := ((s.routing.find? mine).map (·.counts)).getD []
    let free := ∀ r, s.routing.find? mine = some r → r.ctx = curCtx s
    let taken : State := if (s.routing.find? mine).isSome then s
      else { s with routing := { die := b.place.die, cl := b.place.cl, ctx := curCtx s, counts := [] } :: s.routing }
    let held (c : Sparse Half) (t : State) : Prop :=
      t.routing.find? mine = some { die := b.place.die, cl := b.place.cl, ctx := curCtx s, counts := c } ∧
      (t.routing.filter fun r => !mine r) = s.routing.filter fun r => !mine r
    (∀ x y, o = .rcount x y →
      let n := (rdS y s).toNat
      let addr (k : Nat) : Int := ((rdS x s).toNat : Int) + (2 * k : Nat)
      (¬ free → exec i s = trapsWith 0x06 s) ∧
      (free → 4096 < n → exec i s = trapsAt 0x0A (rdS y s) taken) ∧
      (free → n ≤ 4096 → n ≠ 0 → (curGroup s).vstart = 0 → MatqIdle s → badTag (rdS x s) = false →
        (rdS x s).toNat % 2 = 1 → exec i s = .next (trapPath (curWho s) 0x04 (rdS x s) 8 (zeroStart taken))) ∧
      (free → n ≤ 4096 → (curGroup s).vstart = 0 → tagLocal (rdS x s) → (∀ k < n, Local s (addr k) 2 2) → swf (0 : Half) counts = true →
        MatqIdle s → ∃ t c, exec i s = .next (advance h none false false (zeroStart t)) ∧ held c t ∧
          (∀ e, e < 256 → (sget 0 c e).toNat = min (2 ^ 32 - 1) ((sget 0 counts e).toNat +
            ((List.range n).filter fun k => decide (localHalf s (addr k) < 2 ^ 15) && decide (localHalf s (addr k) % 256 = e)).length)) ∧
          t = { lookedIf (decide (0 < n)) s with routing := t.routing })) ∧
    (∀ d x, o = .rcsnap d x →
      let A : Int := ((rdS x s).toNat : Int)
      let traps (c : Nat) : Prop := exec i s = .next (trapPath (curWho s) c (rdS x s) 4 taken)
      (¬ free → exec i s = trapsWith 0x06 s) ∧
      (free → badTag (rdS x s) = true → traps 0x07) ∧
      (free → badTag (rdS x s) = false → tagOf (rdS x s) = 0xC → traps 0x08) ∧
      (free → badTag (rdS x s) = false → tagOf (rdS x s) ≠ 0xC → (rdS x s).toNat % 1024 ≠ 0 → traps 0x04) ∧
      (free → Local s A 1024 1024 → ∃ t u, exec i s = .next (advance h none false false t) ∧ held [] u ∧
        u = { s with routing := u.routing } ∧
        queued m (rdS x s) [(.spad b.uid (A % 2 ^ 60).toNat, (sgetN 0 counts 0 256).flatMap fun c => toBytes 4 c.toNat)]
          (wrS d (BitVec.ofNat 64 (((sgetN 0 counts 0 256).map (·.toNat)).sum)) u) t))

/-! Copies, launches and graph signals. -/

namespace Sys2Proof.Rules

/-- The copy instructions, short and long: form, queue, the ring and slot that are posted, descriptor register, class and scope. -/
inductive CopyInstr : Instr → Head → Nat → (State → Option (Nat × Nat)) → BitVec 6 → Nat → Nat → Prop where
  | cpy (e : Bool) (q : BitVec 3) (p : BitVec 1) (a : BitVec 6) (r c : BitVec 3) (k : BitVec 4) : (p = 0 → r = 0 ∧ c = 0) →
      CopyInstr (.cpy e q p a r c k) { e := e, major := 0x6C } q.toNat (fun _ => if p = 1 then some (r.toNat, c.toNat) else none) a
        k.toNat 1
  | cpyLong (e : Bool) (q : BitVec 3) (p : BitVec 1) (a : BitVec 6) (r c : BitVec 3) (cls : BitVec 4) (scope : BitVec 3)
      (x : BitVec 6) (hint : BitVec 4) : scope.toNat < 6 → (p = 0 → r = 0 ∧ c = 0 ∧ x = 0) →
      CopyInstr (.cpyLong e q p a r c cls scope x hint) { e := e, major := 0x6C, len := 8 } q.toNat
        (fun s => if p = 1 then some (r.toNat, c.toNat + (rdS x s).toNat) else none) a cls.toNat scope.toNat

/-- The words of a descriptor in the block's scratchpad: eight, and four for each of its dimensions (R97 to R99). -/
def descWords (s : State) (a : Int) : List Nat :=
  let w (k : Nat) : Nat := ofBytes (localBytes s (a + 8 * k) 8)
  let n := w 0 / 2 ^ 56 % 16
  (List.range (8 + if n = 0 ∨ 10 < n then 0 else 4 * n)).map w

/-- The queues of the executing block's place. -/
def myQueue (q : Nat) (s : State) : QKey := .core (curBlock s).place q

end Sys2Proof.Rules

/-- R103 with R97 to R100: the checks of a descriptor in the order of the table, each with its cause: a reserved field (a HANDLE without
DOB among them, log 111); a value that no descriptor may hold; a misaligned base, offset or resolved stride; a grant register that holds 0;
a reservation that is not in use, is of another format or is left by a written byte (an unscaled block format has the whole range as its
element area, log 34); a destination in the weight stores. Without one of them the descriptor is good. -/
def Sys2Proof.Rules.DescriptorChecksComeInOrder : Prop :=
  ∀ (l : List Nat) (b : Block),
    let w (k : Nat) : Nat := l.getD k 0
    let word (d k : Nat) : Nat := l.getD (8 + 4 * d + k) 0
    let n := w 0 / 2 ^ 56 % 16
    let sf := w 0 / 2 ^ 51 % 32
    let df := w 0 / 2 ^ 46 % 32
    let dob := (w 0).testBit 42
    let rec_ := vget b.recs (w 0 / 2 ^ 38 % 16)
    let sel (d : Nat) : Nat := word d 3 / 2 ^ 62 % 4
    let extent (d : Nat) : Nat := word d 0 / 2 ^ 32 % 2 ^ 32
    let start (d : Nat) : Nat := word d 0 % 2 ^ 32
    let box (d : Nat) : Nat := ((dimsOf l b).map (·.box)).getD d 0
    let dstr (d : Nat) : Int := ((dimsOf l b).map (·.dstr)).getD d 0
    let aligned (f : Nat) : Nat := if isBlockFmt f then 4 else elBytes f
    let step (f : Nat) : Int := if isBlockFmt f then 0 else (elBytes f : Int)
    let reserved := w 0 % 2 ^ 36 ≠ 0 ∨ (dob = false ∧ w 0 / 2 ^ 38 % 16 ≠ 0) ∨ (∃ k, 3 ≤ k ∧ k ≤ 7 ∧ w k ≠ 0) ∨
      ∃ d < n, word d 3 / 2 ^ 32 % 2 ^ 30 ≠ 0
    let pair := (1 ≤ sf ∧ sf ≤ 0x15 ∧ 1 ≤ df ∧ df ≤ 0x15) ∨ sf = 0x16 ∨ sf = 0x17 ∨ ((df = 0x16 ∨ df = 0x17) ∧ sf = 0x06)
    let illegal := w 0 / 2 ^ 60 % 16 ≠ 1 ∨ n = 0 ∨ 10 < n ∨ isFmt sf = false ∨ isFmt df = false ∨ 5 ≤ w 0 / 2 ^ 43 % 8 ∨
      (∃ d < n, extent d = 0 ∨ word d 3 % 2 ^ 32 = 0) ∨ ¬ pair ∨ sgn 64 (word 0 1) ≠ step sf ∨
      ((w 0).testBit 37 = false ∧ sgn 64 (word 0 2) ≠ step df) ∨
      ((isBlockFmt sf = true ∨ isBlockFmt df = true) ∧ (start 0 % 32 ≠ 0 ∨ extent 0 % 32 ≠ 0 ∨ box 0 % 32 ≠ 0))
    let crooked := w 1 % aligned sf ≠ 0 ∨ w 2 % aligned df ≠ 0 ∨
      ∃ d < n, sgn 64 (word d 1) % (aligned sf : Int) ≠ 0 ∨ dstr d % (aligned df : Int) ≠ 0
    let noGrant := ∃ d < n, (sel d = 1 ∧ b.gm = 0) ∨ (sel d = 2 ∧ b.gn = 0) ∨ (sel d = 3 ∧ b.gk = 0)
    let first (d : Nat) : Nat := if (w 0).testBit 36 then start d else 0
    let past (d : Nat) : Nat := if (w 0).testBit 36 then min (start d + box d) (extent d) else box d
    let at_ (d i : Nat) : Int := if d = 0 ∧ isBlockFmt df = true then ((i / 32 * blockBytes df : Nat) : Int) else i * dstr d
    let low : Int := w 2 + ((List.range n).map fun d => min (at_ d (first d)) (at_ d (past d - 1))).sum
    let high : Int := w 2 + ((List.range n).map fun d => max (at_ d (first d)) (at_ d (past d - 1))).sum
    let range : Int := (64 * vbits rec_ 0 13 : Nat)
    let scales : Int := (64 * vbits rec_ 96 12 : Nat)
    let leaves := if isBlockFmt df then
        low < 0 ∨ (if vbits rec_ 44 8 = 32 then scales else range) < high + blockBytes df ∨
          (vbits rec_ 44 8 = 32 ∧ range < scales + high / blockBytes df + 1)
      else low < 0 ∨ range < high + elBytes df
    let outside := dob = true ∧ (rec_.getLsbD 63 = false ∨ vbits rec_ 56 5 ≠ df ∨ ((∀ d < n, first d < past d) ∧ leaves))
    let toStores := dob = false ∧ w 2 / 2 ^ 60 % 16 = 0xC
    (reserved → descFault l b false = some 0x02) ∧
    (¬ reserved → illegal → descFault l b false = some 0x01) ∧
    (¬ reserved → ¬ illegal → crooked → descFault l b false = some 0x04) ∧
    (¬ reserved → ¬ illegal → ¬ crooked → noGrant → descFault l b false = some 0x0A) ∧
    (¬ reserved → ¬ illegal → ¬ crooked → ¬ noGrant → outside → descFault l b false = some 0x0B) ∧
    (¬ reserved → ¬ illegal → ¬ crooked → ¬ noGrant → ¬ outside → toStores → descFault l b false = some 0x08) ∧
    (¬ reserved → ¬ illegal → ¬ crooked → ¬ noGrant → ¬ outside → ¬ toStores → descFault l b false = none)

/-- R103, R353 to R355, R372: cpy makes its tests in order: a post without declared rings, the queue's error record, a full queue (it
waits), the descriptor's address (its tag, then its alignment, R24), the descriptor. A good descriptor is enqueued with class, scope, mode and ring slot, resolved with
the grants as they stand; the queue is marked as used by the block, and as wide by the group when the scope is cluster or wider. -/
def Sys2Proof.Rules.CopiesAreCheckedAndEnqueued : Prop :=
  ∀ (i : Instr) (h : Head) (q : Nat) (post : State → Option (Nat × Nat)) (a : BitVec 6) (cls scope : Nat) (s : State),
    CopyInstr i h q post a cls scope → Ready s → InRole .c s →
    let A := (rdS a s).toNat
    let b := curBlock s
    let slots := curSlots s
    let key := myQueue q s
    let there := s.copies.filter fun c => c.q == key && !c.held
    let l := descWords s (A : Int)
    let start := (post s).isSome = false ∨ slots ≠ 0
    ((post s).isSome = true → slots = 0 → exec i s = trapsWith 0x01 s) ∧
    (start → ∀ r, s.qerrs.find? (fun r => r.q == key) = some r → exec i s = .next (trapPath (curWho s) r.cause r.addr r.kind s)) ∧
    (start → s.qerrs.find? (fun r => r.q == key) = none →
      (32 ≤ there.length → exec i s = waitsFor (.queueFull q (post s) (rdS a s) cls scope) h.len s) ∧
      (there.length < 32 → badTag (rdS a s) = true ∨ A % 64 ≠ 0 →
        exec i s = .next (trapPath (curWho s) (if badTag (rdS a s) then 0x07 else 0x04) (rdS a s) 8 s)) ∧
      (there.length < 32 → Local s (A : Int) (8 * l.length) 64 → Ordered s cls →
        (∀ c, descFault l b false = some c →
          exec i s = .next (trapPath (curWho s) c (rdS a s) (if c = 0x04 then 8 else if c = 0x08 then 4 else 0) (looked s))) ∧
        (descFault l b false = none → ∃ t, exec i s = .next (advance h none false false t) ∧
          t.copies = s.copies ++ [{
            id := s.uids, seed := s.uids, q := key, uid := b.uid, gidx := (curGroup s).gidx, ctx := curCtx s, sup := (curGroup s).sup,
            cls := cls, scope := scope, post := (post s).map fun x => (x.1, x.2 % slots),
            desc := descOf l b (vbits (curGroup s).fcsr 5 2), next := 0, run := .queued, node := none, wsload := false, held := false,
            late := [], staged := [], hold := none, lost := [], pages := [] }] ∧
          t.uids = s.uids + 1 ∧
          (∀ k, k < 8 → (curBlock t).issuedQ.getLsbD k = (b.issuedQ.getLsbD k || decide (k = q))) ∧
          (∀ k, k < 9 → (curGroup t).qwide.getLsbD k = ((curGroup s).qwide.getLsbD k || (decide (k = q) && decide (2 ≤ scope)))) ∧
          curGroup t = { curGroup s with qwide := (curGroup t).qwide } ∧
          curBlock t = { b with issuedQ := (curBlock t).issuedQ, groups := (curBlock t).groups } ∧
          t = { looked s with copies := t.copies, uids := t.uids, blocks := t.blocks })))

namespace Sys2Proof.Rules

/-- A unit of a copy between equal plain formats, both sides in the issuing block's own scratchpad, which stands still: X and Y are the
exact addresses of its element at the source and at the destination (R100, R101), `out` says whether a tensor index reaches its EXTENT. -/
def LocalUnit (s : State) (c : Copy) (t : Nat) (X Y : Int) (out : Bool) : Prop :=
  let d := c.desc
  let n := elBytes d.sfmt
  let rel := unitRel d t
  let sp := getBlock s c.uid
  let idx (k : Nat) : Int := (((d.dims.map (·.start)).getD k 0 + rel.getD k 0 : Nat) : Int)
  let srcOff : Int := ((List.range d.dims.length).map fun k =>
    (if d.bnd then (rel.getD k 0 : Int) else idx k) * (d.dims.map (·.sstr)).getD k 0).sum
  let dstOff : Int := ((List.range d.dims.length).map fun k =>
    (if d.bnd then idx k else (rel.getD k 0 : Int)) * (d.dims.map (·.dstr)).getD k 0).sum
  let ok (a : Int) : Prop := 0xE * 2 ^ 60 ≤ a ∧ a < 0xF * 2 ^ 60 ∧ a % 2 ^ 60 + n ≤ sp.spadSize ∧ a % 2 ^ 60 + n ≤ 2 ^ 20 ∧
    a % (n : Int) = 0 ∧ badRange s (.spad sp.uid) (a % 2 ^ 60).toNat n = false
  (isBlockFmt d.sfmt = false ∧ d.dfmt = d.sfmt ∧ d.dob = false) ∧
  ((findBlock s c.uid).isSome = true ∧ sp.transit = false ∧ swf (0 : Byte) sp.spad = true) ∧
  rel.length = d.dims.length ∧ tagLocal d.src ∧ tagLocal d.dst ∧ X = (d.src.toNat : Int) + srcOff ∧ Y = (d.dst.toNat : Int) + dstOff ∧
  ok Y ∧ out = (List.range d.dims.length).any (fun k => decide (((d.dims.map (·.extent)).getD k 0 : Int) ≤ idx k)) ∧ (out = false → ok X)

end Sys2Proof.Rules

/-- R100, R101: the box and the strides that a copy resolves, and one element of a copy between equal plain formats within the block's
scratchpad: START bounds and EXTENT pad the source with zeros (BND 0) or keep the destination (BND 1). -/
def Sys2Proof.Rules.CopiesMoveElements : Prop :=
  (∀ (l : List Nat) (b : Block) (d : Nat), d < bits (l.getD 0 0) 56 4 →
    let word (d k : Nat) : Nat := l.getD (8 + 4 * d + k) 0
    let box (d : Nat) : Nat := word d 3 % 2 ^ 32 *
      (match word d 3 / 2 ^ 62 % 4 with
        | 0 => 1
        | 1 => b.gm.toNat
        | 2 => b.gn.toNat
        | _ => b.gk.toNat)
    ∃ x, (dimsOf l b)[d]? = some x ∧ x.box = box d ∧ x.extent = word d 0 / 2 ^ 32 % 2 ^ 32 ∧ x.start = word d 0 % 2 ^ 32 ∧
      x.sstr = sgn 64 (word d 1) ∧ (bitAt (l.getD 0 0) 37 = false → x.dstr = sgn 64 (word d 2)) ∧
      (bitAt (l.getD 0 0) 37 = true →
        let f := bits (l.getD 0 0) 46 5
        (d = 0 → x.dstr = if isBlockFmt f then 0 else (elBytes f : Int)) ∧
        (∀ k, d = k + 1 → ∀ y, (dimsOf l b)[k]? = some y →
          x.dstr = if k = 0 ∧ isBlockFmt f = true then
            ((box 0 / 32 * (if bitAt (l.getD 0 0) 42 then blockBytes f else segBytes f) : Nat) : Int) else y.dstr * (box k : Nat)))) ∧
  (∀ (s : State) (c : Copy) (pl : Place) (q t : Nat) (X Y : Int) (out : Bool), c.q = .core pl q → LocalUnit s c t X Y out →
    let n := elBytes c.desc.sfmt
    let written (u : State) (l : List Byte) : Prop := ∃ p, moveUnit (copyEnv s c) false c.desc t s =
      ({ spadWrite c.uid (Y % 2 ^ 60).toNat l u with past := p }, .ok ())
    (out = true → c.desc.bnd = true → moveUnit (copyEnv s c) false c.desc t s = (s, .ok ())) ∧
    (out = true → c.desc.bnd = false → written s (List.replicate n 0)) ∧
    (out = false → written (looked s) (sgetN 0 (getBlock s c.uid).spad (X % 2 ^ 60).toNat n)))

/-- R154, R357, R101: a step of a copy queue moves units of its oldest copy in an order of the device. With all of them moved the copy
has performed; a unit that traps stops the copy in error: it and every copy behind it leave the queue, their groups are marked, and
the queue holds the record. A queue with nothing to do changes nothing. -/
def Sys2Proof.Rules.QueuesRunTheirOldestOperation : Prop :=
  (∀ (q : QKey) (s : State), onQueue s q = [] →
    exec (.copyExecute q) s = .next s ∧ exec (.copyComplete q) s = .next s) ∧
  (∀ (q : QKey) (s : State) (c : Copy) (l : List Copy), onQueue s q = c :: l → (s.copies.filter fun x => x.id == c.id) = [c] →
    let order := unitOrder c
    let u := { s with free := s.free + 1 }
    (c.run ≠ .queued → exec (.copyExecute q) s = .next s) ∧
    (c.run ≠ .performed → exec (.copyComplete q) s = .next s) ∧
    (c.run = .queued → behindDrain s c = false → c.lost = [] → c.late = [] →
      (unitCount c.desc ≤ c.next → exec (.copyExecute q) s = .next (modCopy c.id (fun c => { c with run := .performed }) u)) ∧
      (∀ t k a x, order[c.next]? = some t →
        moveUnit (copyEnv u c) c.wsload c.desc t u = (u, .trap k a x) → c.node = none →
        ∃ v, exec (.copyExecute q) s = .next v ∧ v.qerrs = { q := q, cause := k, addr := a, kind := x, uid := c.uid } :: s.qerrs.filter (fun e => e.q != q) ∧
          (∀ y ∈ c :: l, ∀ z ∈ v.copies, z.id ≠ y.id)))) ∧
  (∀ (pl : Place) (s : State), (s.matq.find? fun o => o.pl == pl) = none → exec (.matrixQueueComplete pl) s = .next s)

namespace Sys2Proof.Rules

/-- The operations of the executing group on the queues of a mask (R361). -/
def awaiting (m : BitVec 9) (s : State) : List Nat :=
  (s.copies.filter fun c => c.uid == (cur s).who.uid && c.gidx == (cur s).who.gidx &&
    match c.q with
    | .core _ q => m.getLsbD q
    | .front _ => false).map (·.id) ++
  (s.matq.filter fun o => m.getLsbD 8 && o.uid == (cur s).who.uid && o.gidx == (cur s).who.gidx).map (·.id)

/-- A queue of a mask on which a copy of the executing group ended in error, with the queue's record (R361). -/
def Reports (m : BitVec 9) (q : Nat) (s : State) : Prop :=
  q < 8 ∧ m.getLsbD q = true ∧ (curGroup s).qbad.getLsbD q = true ∧ (s.qerrs.find? fun r => r.q == myQueue q s).isSome = true

/-- What a wait on the queues of a mask leaves that has nothing to wait for: nothing for an empty mask, else a fence, at cluster scope when
an operation at cluster scope or wider was among those awaited (R361). -/
def queuesFenced (m : BitVec 9) (s : State) : State :=
  if m = 0 then s else marked true (byPath s) (if (curGroup s).qwide &&& m = 0 then 1 else 2) s

end Sys2Proof.Rules

/-- R360 to R362: qfence and qwait wait while an operation of the group stands on a named queue; once they are done a queue on which a
copy of the group ended in error is reported from its record, the lowest first. A number above 8 traps, and qwait.clr from user mode. -/
def Sys2Proof.Rules.QueueWaits : Prop :=
  ∀ (e : Bool) (m : BitVec 9) (n : BitVec 4) (s : State), Ready s →
    let waits (i : Instr) (m : BitVec 9) : Prop :=
      (m ≠ 0 → awaiting m s ≠ [] → exec i s = waitsFor (.queues m (awaiting m s)) 4 s) ∧
      (m ≠ 0 → awaiting m s = [] → ∀ q r, Reports m q s → (∀ k < q, ¬ Reports m k s) →
        s.qerrs.find? (fun r => r.q == myQueue q s) = some r →
        exec i s = .next (trapPath (curWho s) r.cause r.addr r.kind s))
    waits (.qfence e m) m ∧
    (n.toNat ≤ 8 → waits (.qwait e n) (BitVec.ofNat 9 (2 ^ n.toNat))) ∧
    (8 < n.toNat → exec (.qwait e n) s = trapsWith 0x01 s ∧ exec (.qwaitClr e n) s = trapsWith 0x01 s) ∧
    (n.toNat ≤ 8 → User s → exec (.qwaitClr e n) s = trapsWith 0x03 s)

/-- R363 to R365, R186: launch of a packet in the block's scratchpad. With an entry available the packet is captured in one, under the
next number of the die, s[D] is 0 and s[B] the launch id; without one launch gives 1, and launch.w waits. A packet that is not aligned
to 128 bytes traps, with vstart 0 (log 29), and an uncorrectable error in the walk to its RCB ends the fault domain (R53). -/
def Sys2Proof.Rules.LaunchesTakeAnEntry : Prop :=
  ∀ (e wait : Bool) (d a b : BitVec 6) (s : State), Ready s →
    let i : Instr := if wait then .launchW e d a b else .launch e d a b
    let h : Head := { e := e, major := 0x6E }
    let A := (rdS a s).toNat
    let die := (curBlock s).place.die
    let s1 := marked true (byPath s) 4 (looked s)
    let packet : Vector Word 16 := Vector.ofFn fun k => BitVec.ofNat 64 (ofBytes (localBytes s ((A + 8 * k.val : Nat) : Int) 8))
    let rcb := packetRcb s (curCtx s) packet
    let n := vget s.accepted die + 1
    let id := die * 2 ^ 62 + n % 2 ^ 62
    (A % 128 ≠ 0 → exec i s = .next (trapPath (curWho s) 0x04 (rdS a s) 8 (modG (fun g => { g with vstart := 0 }) s))) ∧
    (Local s (A : Int) 128 128 → Ordered s 15 → ∀ x, peekBad s (curCtx s) (vget packet 3).toNat .read true = some x →
      exec i s = .next (setSide false (endBlockDomain (cur s).who.uid 0x14 (addrWord x) s1))) ∧
    (Local s (A : Int) 128 128 → Ordered s 15 → peekBad s (curCtx s) (vget packet 3).toNat .read true = none →
      (entryAvailable s die rcb = true →
        let l : Launch :=
          { id := id, shown := id, die := die, packet := packet, addr := rdS a s, ctx := curCtx s, rcb := rcb.getD 0, counter := 0, placed := 0,
            prio := 0, dies := 0, checked := false, node := none, service := false }
        exec i s = .next (advance h none false false (wrReg (sregOf s b) (BitVec.ofNat 64 id) (wrReg (sregOf s d) 0
          (writeUsages (rcb.getD 0) { s1 with accepted := vset s.accepted die n, launches := s.launches ++ [l] }))))) ∧
      (entryAvailable s die rcb = false → wait = false → exec i s = .next (advance h none false false (wrS d 1 s1))) ∧
      (entryAvailable s die rcb = false → wait = true →
        exec i s = waitsFor (.space (localBytes s (A : Int) 128) (rdS a s) (sregOf s d) (sregOf s b)) 4 s1))

/-- R366, R381: gsig of a node whose words 0 and 3 have been read: a SIGNAL node of the context that is armed or active completes now,
behind a fence at package scope, and gives 0; one that is done or failed gives 1; any other node gives 2 and an EVENT 3 entry in the
context's log. An address with a reserved tag traps with 0x07, and another one that is not a multiple of 64 with 0x04 (R24), with vstart 0
(log 29). An uncorrectable error met in the walk to the node's RCB ends the fault domain (R53). -/
def Sys2Proof.Rules.GraphSignals : Prop :=
  ∀ (e : Bool) (d a : BitVec 6) (s s1 s2 : State) (l0 l3 : List Byte), Ready s →
    let h : Head := { e := e, major := 0x6F }
    let p := rdS a s
    let w0 := ofBytes l0
    let w3 := ofBytes l3
    (badTag p = true ∨ p.toNat % 64 ≠ 0 → exec (.gsig e d a) s =
      .next (trapPath (curWho s) (if badTag p then 0x07 else 0x04) p 8 (modG (fun g => { g with vstart := 0 }) s))) ∧
    (badTag p = false → p.toNat % 64 = 0 → loadAt { curEnv 15 4 s with actor := .engine } p 8 8 s = (s1, .ok l0) →
      loadAt { curEnv 15 4 s1 with actor := .engine } (p + 24) 8 8 s1 = (s2, .ok l3) →
      (∀ x, peekBad s2 (curCtx s) w3 .read true = some x →
        exec (.gsig e d a) s = .next (setSide false (endBlockDomain (cur s).who.uid 0x14 (addrWord x) s2))) ∧
      (peekBad s2 (curCtx s) w3 .read true = none →
      let here := w0 / 2 ^ 60 % 16 = 6 ∧ nodeHome s2 (curCtx s) p = true ∧ rcbMine s2 (curCtx s) w3 = true
      (¬ here → exec (.gsig e d a) s = .next (advance h none false false
        (logError (curDie s2) 3 0 0 p.toNat (curCtx s) (wrS d 2 s2)))) ∧
      (here → 2 ≤ w0 / 2 ^ 58 % 4 → exec (.gsig e d a) s = .next (advance h none false false (wrS d 1 s2))) ∧
      (here → w0 / 2 ^ 58 % 4 < 2 →
        let t := wrS d 0 s2
        let t := fenceAt 4 t
        let u := completeNode (curCtx s) p.toNat
          { t with waits := t.waits.filter (· != (curCtx s, p.toNat)), signalled := (curCtx s, p.toNat) :: t.signalled }
        (findBlock u (cur u).who.uid).isSome = true → exec (.gsig e d a) s = .next (advance h none false false u))))

/-! System registers, traps and returns. -/

namespace Sys2Proof.Rules

/-- The value that a system register reads (R198 to R214). -/
def sysValue (i : Nat) (s : State) : Option Nat :=
  let g := curGroup s
  let b := curBlock s
  let p := b.place
  let ec := decide (p.cl = 4)
  let side := b2n (cur s).side
  match i with
  | 0x000 => some g.vl.toNat
  | 0x001 => some g.vstart.toNat
  | 0x002 => some ((if ec then 2048 else 8192) / (8 * 2 ^ g.nrc.toNat) * 2 ^ 16 + g.nrc.toNat)
  | 0x003 => some g.fcsr.toNat
  | 0x004 => some g.dirty.toNat
  | 0x005 => some (if (curMeld s).isSome then side * 128 + 64 + (curWho s).pidx else (curWho s).pidx)
  | 0x006 => some g.gang.toNat
  | 0x007 => some ((match g.role with
      | .c => 0
      | .m => 1
      | .v => 2) * 2 ^ 14 + b.groups.length * 2 ^ 4 + g.gidx)
  | 0x010 => some b.gm.toNat
  | 0x011 => some b.gn.toNat
  | 0x012 => some b.gk.toNat
  | 0x013 => some b.tfmt.toNat
  | 0x014 => some (ncolOf p b.faulty * 2 ^ 16 + (if p.part = 1 then 3 else if p.part = 2 then 12 else 15) * 2 ^ 4 + b.ben.toNat)
  | 0x015 => some b.rbnd.toNat
  | 0x020 => some p.site
  | 0x021 => some b.tenant
  | 0x022 => some b.blockid.toNat
  | 0x023 => some b.launch
  | 0x024 => some (((launchOf s b).map fun l => (vget l.packet 3).toNat).getD 0)
  | 0x025 => some (2 ^ 56 + p.die * 2 ^ 14 + p.cl * 2 ^ 11 + b2n ec * 2 ^ 10 + b2n (decide (p.part ≠ 0)) * 2 ^ 9 +
      b2n (decide (p.part = 2)) * 2 ^ 8 + if ec then 0 else b.faulty)
  | 0x026 => some (wscal s p.die)
  | 0x027 => some (tickOf s p.die)
  | 0x030 => some (skewOf s p).toNat
  | 0x040 => some g.epc.toNat
  | 0x041 => some g.ecause.toNat
  | 0x042 => some g.eaddr.toNat
  | 0x044 => some (vget g.ssave 0).toNat
  | 0x045 => some (vget g.ssave 1).toNat
  | 0x046 => some (vget g.ssave 2).toNat
  | 0x047 => some (vget g.ssave 3).toNat
  | _ => none

/-- Registers that only the supervisor reads, and those that any mode and only the supervisor writes (R198). -/
def supReads (i : Nat) : Bool := (0x040 ≤ i && i ≤ 0x042) || (0x044 ≤ i && i ≤ 0x047)
def anyWrites (i : Nat) : Bool := [0x000, 0x001, 0x003, 0x004, 0x006].contains i
def supWrites (i : Nat) : Bool := (0x010 ≤ i && i ≤ 0x015) || i == 0x030 || supReads i || i == 0x050
def writeOnly (i : Nat) : Bool := i == 0x050 || i == 0x051
def groupTo (f : Group → Group) (s : State) : State := modGroup (cur s).who.uid (cur s).who.gidx f s

/-- The change that a write of x makes to a system register whose value is legal (R199 to R213). -/
inductive SysWrite (s : State) (x : Word) : Nat → State → Prop where
  | vl : x.toNat % 2 ^ 32 ≤ vlmax s → SysWrite s x 0x000 (groupTo (fun g => { g with vl := BitVec.ofNat 32 x.toNat }) s)
  | vstart : x.toNat % 2 ^ 32 < vlmax s → SysWrite s x 0x001 (groupTo (fun g => { g with vstart := BitVec.ofNat 32 x.toNat }) s)
  | fcsr : SysWrite s x 0x003 (groupTo (fun g => { g with fcsr := BitVec.ofNat 32 x.toNat &&& 0x17F }) s)
  | dirty : SysWrite s x 0x004 (groupTo (fun g => { g with dirty := BitVec.ofNat 64 (x.toNat % 2 ^ (8 * 2 ^ g.nrc.toNat)) }) s)
  | gang : gangValid (curBlock s) (curGroup s).gidx x = true →
      SysWrite s x 0x006 (groupTo (fun g => { g with gang := x &&& 0xFFFF00FF0001FFFF }) s)
  | gm : x.toNat % 512 = 0 ∨ (x.toNat % 512 % 8 = 0 ∧ x.toNat % 512 ≤ maxRows (curBlock s).place) →
      SysWrite s x 0x010 (blockTo (fun b => { b with gm := BitVec.ofNat 32 (x.toNat % 512) }) s)
  | gn : x.toNat % 512 = 0 ∨ (x.toNat % 512 % 8 = 0 ∧ x.toNat % 512 ≤ maxCols (curBlock s).place (curBlock s).faulty) →
      SysWrite s x 0x011 (blockTo (fun b => { b with gn := BitVec.ofNat 32 (x.toNat % 512) }) s)
  | gk : x.toNat % 512 = 0 ∨ (x.toNat % 512 % 8 = 0 ∧ x.toNat % 512 ≤ maxK (curBlock s).place (curBlock s).ben) →
      SysWrite s x 0x012 (blockTo (fun b => { b with gk := BitVec.ofNat 32 (x.toNat % 512) }) s)
  | tfmt : (let f := x.toNat % 32
      let n := x.toNat / 2 ^ 8 % 16
      (f = 0 ∨ isFmt f = true) ∧ (if f = 0x16 ∨ f = 0x17 then 2 ≤ n ∧ n ≤ 8 else n = 0)) →
      SysWrite s x 0x013 (blockTo (fun b => { b with tfmt := BitVec.ofNat 32 x.toNat &&& 0x1F1F }) s)
  | ashape : BitVec.ofNat 4 x.toNat ≠ 0 → BitVec.ofNat 4 x.toNat &&& ~~~ availOf (curBlock s).place = 0 →
      SysWrite s x 0x014 (
        let p := corePlace (curBlock s).place
        { blockTo (fun b => { b with ben := BitVec.ofNat 4 x.toNat }) s with
          bands := kset p (kget 0 s.bands p ||| BitVec.ofNat 4 x.toNat) s.bands })
  | rbnd : x.toNat % 512 ≤ 256 → SysWrite s x 0x015 (blockTo (fun b => { b with rbnd := BitVec.ofNat 32 (x.toNat % 512) }) s)
  | skew : SysWrite s x 0x030 { s with skews := kset (curBlock s).place (BitVec.ofNat 4 x.toNat) s.skews }
  | epc : SysWrite s x 0x040 (groupTo (fun g => { g with epc := x }) s)
  | ecause : SysWrite s x 0x041 (groupTo (fun g => { g with ecause := x &&& 0x0FF0FFFF }) s)
  | eaddr : SysWrite s x 0x042 (groupTo (fun g => { g with eaddr := x }) s)
  | ssave (k : Nat) : k < 4 → SysWrite s x (0x044 + k) (groupTo (fun g => { g with ssave := vset g.ssave k x }) s)

/-- The traps of a write whose value is not legal: cause and eaddr. -/
inductive SysRefuse (s : State) (x : Word) : Nat → Nat → Word → Prop where
  | vl : vlmax s < x.toNat % 2 ^ 32 → SysRefuse s x 0x000 0x09 0
  | vstart : vlmax s ≤ x.toNat % 2 ^ 32 → SysRefuse s x 0x001 0x09 0
  | gang : gangValid (curBlock s) (curGroup s).gidx x = false → SysRefuse s x 0x006 0x01 0
  | gm : x.toNat % 512 ≠ 0 → (x.toNat % 8 ≠ 0 ∨ maxRows (curBlock s).place < x.toNat % 512) →
      SysRefuse s x 0x010 0x0A (BitVec.ofNat 64 (x.toNat % 512))
  | gn : x.toNat % 512 ≠ 0 → (x.toNat % 8 ≠ 0 ∨ maxCols (curBlock s).place (curBlock s).faulty < x.toNat % 512) →
      SysRefuse s x 0x011 0x0A (BitVec.ofNat 64 (x.toNat % 512))
  | gk : x.toNat % 512 ≠ 0 → (x.toNat % 8 ≠ 0 ∨ maxK (curBlock s).place (curBlock s).ben < x.toNat % 512) →
      SysRefuse s x 0x012 0x0A (BitVec.ofNat 64 (x.toNat % 512))
  | ashape : (BitVec.ofNat 4 x.toNat = 0 ∨ BitVec.ofNat 4 x.toNat &&& ~~~ availOf (curBlock s).place ≠ 0) →
      SysRefuse s x 0x014 0x0A (BitVec.ofNat 64 (x.toNat % 16))
  | tfmt : (let f := x.toNat % 32
      let n := x.toNat / 2 ^ 8 % 16
      ¬ ((f = 0 ∨ isFmt f = true) ∧ (if f = 0x16 ∨ f = 0x17 then 2 ≤ n ∧ n ≤ 8 else n = 0))) →
      SysRefuse s x 0x013 0x0A (BitVec.ofNat 64 (BitVec.ofNat 32 x.toNat &&& 0x1F1F : Half).toNat)
  | rbnd : 256 < x.toNat % 512 → SysRefuse s x 0x015 0x02 0

end Sys2Proof.Rules

/-- R198, R204 to R214, R367: sysrd gives the register's value and syswr writes the bits that the register holds; the number is checked
first, then the access rights: a number outside the map traps with 0x01, an access without the right with 0x03, and a value that the
register cannot hold with the cause of its rule, nothing written. A write of tlbinv begins an invalidation and waits for it. -/
def Sys2Proof.Rules.SystemRegisters : Prop :=
  ∀ (e : Bool) (d : BitVec 6) (i : BitVec 12) (s : State), Ready s →
    let h : Head := { e := e, major := 0x70 }
    let n := i.toNat
    let x := rdS d s
    let known := (sysValue n s).isSome = true ∨ writeOnly n = true
    let mayWriteIt := anyWrites n = true ∨ (supWrites n = true ∧ Supervisor s)
    (¬ known → exec (.sysrd e d i) s = trapsWith 0x01 s ∧ exec (.syswr e d i) s = trapsWith 0x01 s) ∧
    (writeOnly n = true ∨ (supReads n = true ∧ User s) → exec (.sysrd e d i) s = trapsWith 0x03 s) ∧
    (∀ v, sysValue n s = some v → (supReads n = false ∨ Supervisor s) →
      exec (.sysrd e d i) s = .next (advance h none false false (wrS d (BitVec.ofNat 64 v) s))) ∧
    (known → ¬ mayWriteIt → n ≠ 0x002 → n ≠ 0x051 → exec (.syswr e d i) s = trapsWith 0x03 s) ∧
    (∀ t, mayWriteIt → SysWrite s x n t → exec (.syswr e d i) s = .next (advance h none false false t)) ∧
    (∀ c a, mayWriteIt → SysRefuse s x n c a → exec (.syswr e d i) s = trapsAt c a s) ∧
    (n = 0x050 → Supervisor s →
      let kind := x.toNat / 2 ^ 62
      let bad := kind = 3 ∨ x.toNat / 2 ^ 36 % 2 ^ 10 ≠ 0
      let asid : BitVec 16 := BitVec.ofNat 16 (x.toNat / 2 ^ 46)
      let inv : Instr := if kind = 0 then .tlbinvAll (some (curWho s)) else if kind = 1 then .tlbinvAsid (some (curWho s)) asid
        else .tlbinvPage (some (curWho s)) asid (BitVec.ofNat 36 x.toNat)
      (bad → exec (.syswr e d i) s = trapsWith 0x02 s) ∧
      (¬ bad → exec (.syswr e d i) s = waitsFor (.tlb s.uids) 4 { s with pending := s.pending ++ [inv], uids := s.uids + 1 }))

/-- R200, R163: the supervisor's write of vcfg sets NR, gives vl := VLMAX and vstart := 0 and ends the run; a write of the NR that
stands changes no register, predicate or thread; from user mode it traps with 0x03. Under another NR, elements of threads below both
VLMAXes of registers below both counts are kept, every other element reads zero, and predicates keep the bits below both. -/
def Sys2Proof.Rules.SupervisorWritesVcfg : Prop :=
  ∀ (e : Bool) (d : BitVec 6) (s : State), Ready s →
    let g := curGroup s
    let n : BitVec 2 := BitVec.ofNat 2 (rdS d s).toNat
    let old := vlmax s
    let new := vlmaxOf (curBlock s).place n
    (User s → exec (.syswrVcfg e d) s = trapsWith 0x03 s) ∧
    (Supervisor s → n = g.nrc → (curGroup s).paths ≠ [] →
      exec (.syswrVcfg e d) s = .next (advance { e := e, major := 0x70, supOnly := true } none false true
        (groupTo (fun g => { g with vl := BitVec.ofNat 32 new, vstart := 0, dirty := g.dirty &&& ones 64 (8 * 2 ^ n.toNat) }) s))) ∧
    (Supervisor s → n ≠ g.nrc → swf (0 : Half) g.v = true → (∀ p ∈ g.paths, p.threads &&& ones 1024 new ≠ 0) →
      ∃ t, exec (.syswrVcfg e d) s = .next (advance { e := e, major := 0x70, supOnly := true } none false true t) ∧
        (curGroup t).nrc = n ∧ (curGroup t).vl.toNat = new ∧ (curGroup t).vstart = 0 ∧
        (∀ r k, k < 1024 → vel (curGroup t) r k =
          if k < min old new ∧ r < 8 * 2 ^ g.nrc.toNat ∧ r < 8 * 2 ^ n.toNat then vel g r k else 0) ∧
        (∀ m k, 0 < m → m < 16 → k < 1024 → (vget (curGroup t).p m).getLsbD k =
          ((vget g.p m).getLsbD k && decide (k < min old new))) ∧
        (∀ k, k < 1024 → (curGroup t).exited.getLsbD k = (g.exited.getLsbD k && decide (k < min old new))) ∧
        (curGroup t).dirty = g.dirty &&& ones 64 (8 * 2 ^ n.toNat) ∧ t = { s with blocks := t.blocks })

namespace Sys2Proof.Rules

/-- The supervisor may be entered: its entry is a good address and the group has not entered it nine times in a row (R399); and the path's
index is one of the 64 (R167). -/
def entryGood (s : State) : Prop :=
  let entry := svEntry s (curCtx s)
  entry.toNat < 2 ^ 52 ∧ entry.toNat % 4 = 0 ∧ (Supervisor s → (curGroup s).nest < 8) ∧ (curWho s).pidx < 64

/-- What trap entry leaves (R197, R214, R399): the trap registers, supervisor mode at SVENTRY on the path that trapped, its run ended,
the latches and the group's links lost, every other path of the group out of fault-wait (log 127), and nothing else changed. -/
def Entered (s t : State) (cause : Nat) (addr : Word) (kind : BitVec 4) : Prop :=
  let g := curGroup s
  let w := curWho s
  let u := getGroup t w.uid w.gidx
  let m := if g.sup then none else g.melds.find? fun m => m.a == w.pidx || m.b == w.pidx
  u.epc = (curPath s).pc ∧ u.eaddr = addr ∧ u.sup = true ∧
  u.ecause.toNat = cause + w.pidx % 64 * 2 ^ 8 + b2n ((m.map (·.doneA)).getD false) * 2 ^ 20 + b2n ((m.map (·.doneB)).getD false) * 2 ^ 21 +
    b2n m.isSome * 2 ^ 22 + b2n g.sup * 2 ^ 23 + kind.toNat * 2 ^ 24 ∧
  (pathOf t w).pc = svEntry s (curCtx s) ∧ (pathOf t w).run = .ready ∧ (pathOf t w).rpt = none ∧
  (∀ p, p ≠ w.pidx → pathOf t { w with pidx := p } =
    let q := pathOf s { w with pidx := p }
    if faultWaiting q.run then { q with run := .ready } else q) ∧
  pathOf t w = { curPath s with pc := svEntry s (curCtx s), run := .ready, rpt := none } ∧
  u.svPaths.getLsbD w.pidx = true ∧ u.bp = [] ∧ u.issued = 0 ∧ u.nest = (if g.sup then g.nest + 1 else 0) ∧
  u.frames = (curPath s).rpt :: g.frames ∧
  u = { g with
    epc := u.epc, ecause := u.ecause, eaddr := addr, sup := true, svPaths := u.svPaths, nest := u.nest, bp := [], issued := 0,
    last := w.pidx, ffGo := false, kept := [], frames := u.frames, paths := u.paths } ∧
  t.running = (s.running.filter fun f => !(f.who.uid == w.uid && f.who.gidx == w.gidx)) ∧
  (inFaultWait g = false → t.links = (s.links.filter fun k => !ownedBy w.uid w.gidx k.owner) ∧
    t = { s with blocks := t.blocks, running := t.running, links := t.links })

end Sys2Proof.Rules

/-- R368, R214, R399, R197, R192: trap and brk enter the supervisor with causes 0x0F and 0x0E, epc the instruction's own address and
eaddr 0, in any mode; from a melded region once, with SDONE 0. Every trap of a path enters it so, with its cause, address and kind. A
bad SVENTRY ends the fault domain with 0x07 or 0x04, and so does the ninth entry in a row from supervisor mode, with its own cause. -/
def Sys2Proof.Rules.TrapsEnterTheSupervisor : Prop :=
  (∀ (e : Bool) (c : BitVec 16) (s : State), Runs s → NoFrame s → entryGood s → Alone s →
    (∃ t, exec (.trap e c) s = .next t ∧ Entered s t 0x0F 0 0) ∧ (∃ t, exec (.brk e c) s = .next t ∧ Entered s t 0x0E 0 0)) ∧
  (∀ (e : Bool) (c : BitVec 16) (s : State), Runs s → NoFrame s → exec (.trap e c) s = .next (trapPath (curWho (setDone false false s)) 0x0F 0 0 (setDone false false s)) ∧
    exec (.brk e c) s = .next (trapPath (curWho (setDone false false s)) 0x0E 0 0 (setDone false false s))) ∧
  (∀ (s : State) (cause : Nat) (addr : Word) (kind : BitVec 4), Runs s → entryGood s → cause < 256 →
    Entered s (trapPath (curWho s) cause addr kind s) cause addr kind) ∧
  (∀ (s : State) (cause : Nat) (addr : Word) (kind : BitVec 4), Runs s →
    let w := curWho s
    let entry := svEntry s (curCtx s)
    let s1 := leaveFaults w.uid w.gidx (breakGroup w.uid w.gidx (stopRuns w.uid w.gidx s))
    (Supervisor s → 8 ≤ (curGroup s).nest → trapPath w cause addr kind s = endBlockDomain w.uid cause addr s1) ∧
    ((User s ∨ (curGroup s).nest < 8) → 2 ^ 52 ≤ entry.toNat → trapPath w cause addr kind s = endBlockDomain w.uid 0x07 entry s1) ∧
    ((User s ∨ (curGroup s).nest < 8) → entry.toNat < 2 ^ 52 → entry.toNat % 4 ≠ 0 →
      trapPath w cause addr kind s = endBlockDomain w.uid 0x04 entry s1))

/-- R369, R400, R197: eret of a path alone outside a repeat frame goes on at epc in the mode that PMODE names, ends the run and clears
the count of entries (the records of paths beyond eight go to the group's path-stack slot); an epc that is no code address traps; a cause of 0x80 or above ends the fault domain with its low bits; the
causes 0x11 and 0x12 end the group's part of a save or a restore; from user mode eret traps with 0x03. -/
def Sys2Proof.Rules.EretReturns : Prop :=
  ∀ (e : Bool) (s : State), Runs s → NoFrame s → Alone s →
    let g := curGroup s
    let w := curWho s
    let cause := g.ecause.toNat % 256
    let saving := g.part = .running ∧ (curBlock s).res = .saving
    let restoring := g.part = .running ∧ (curBlock s).res = .restoring
    (User s → exec (.eret e) s = trapsWith 0x03 s) ∧
    (Supervisor s → 0x80 ≤ cause → exec (.eret e) s = .next (endBlockDomain w.uid (cause - 0x80) g.eaddr s)) ∧
    (Supervisor s → cause = 0x11 → saving → exec (.eret e) s = .next (endSavePart w.uid w.gidx s)) ∧
    (Supervisor s → cause = 0x12 → restoring → exec (.eret e) s = .next (endRestorePart w.uid w.gidx s)) ∧
    (Supervisor s → cause < 0x80 → ¬ (cause = 0x11 ∧ saving) → ¬ (cause = 0x12 ∧ restoring) →
      (2 ^ 52 ≤ g.epc.toNat → exec (.eret e) s = .next (trapPath w 0x07 g.epc 2 s)) ∧
      (g.epc.toNat < 2 ^ 52 → g.epc.toNat % 4 ≠ 0 → exec (.eret e) s = .next (trapPath w 0x04 g.epc 2 s)) ∧
      (g.epc.toNat < 2 ^ 52 → g.epc.toNat % 4 = 0 → g.frames.headD none = none →
        (g.ecause.getLsbD 23 = true ∨ (g.melds = [] ∧ ∀ p ∈ g.paths, p.tokens = 0)) →
        ∃ t, exec (.eret e) s = .next t ∧ (pathOf t w).pc = g.epc ∧
          (getGroup t w.uid w.gidx).sup = g.ecause.getLsbD 23 ∧ (getGroup t w.uid w.gidx).nest = 0 ∧
          (getGroup t w.uid w.gidx).bp = [] ∧ t.running = s.running.tail ∧
          getGroup t w.uid w.gidx = { g with
            sup := g.ecause.getLsbD 23, svPaths := if g.ecause.getLsbD 23 then g.svPaths else 0, nest := 0,
            frames := if g.ecause.getLsbD 23 then g.frames.tail else [], bp := [], issued := 0, last := w.pidx, ffGo := false,
            again := (w.pidx, g.epc, s.stamp) :: g.again.filter (fun x => x.1 != w.pidx), paths := (getGroup t w.uid w.gidx).paths } ∧
          pathOf t w = { curPath s with pc := g.epc, rpt := none } ∧
          (∀ p, p ≠ w.pidx → pathOf t { w with pidx := p } = pathOf s { w with pidx := p }) ∧
          t = { s with
            blocks := t.blocks, running := t.running, mem := t.mem, stale := t.stale, links := t.links, past := t.past, stamp := t.stamp } ∧
          (g.stackSlot = none → t = { s with blocks := t.blocks, running := t.running })))

/-- R370, R371, R64, R190: nop only moves on; yield also ends the run; icinv discards the core's decoded operations, all of them or those
of the context whose words lie in the range; pwrhint leaves the block's hint; fqdone rings a die's fault doorbell; halt retires the
group: its paths are gone, its run is over and its links are broken. -/
def Obligations.HintsCodeCacheAndHalt : Prop :=
  ∀ (e : Bool) (a b d : BitVec 6) (k : BitVec 4) (s : State), Ready s →
    let h (m : Nat) : Head := { e := e, major := m }
    let core := corePlace (curBlock s).place
    let lo := (rdS a s).toNat
    let hi := min (lo + (rdS b s).toNat) (2 ^ 52)
    let inside (x : Nat) : Bool := decide (lo ≤ x) && decide (x < hi)
    let n := (rdS a s).toNat
    exec (.nop e) s = .next (advance (h 0x72) none false false s) ∧
    exec (.yield e) s = .next (advance (h 0x72) none false true s) ∧
    exec (.icinvAll e) s = .next (advance (h 0x72) none false false { s with decoded := s.decoded.filter fun x => x.core != core }) ∧
    exec (.icinv e a b) s = .next (advance (h 0x72) none false false
      { s with decoded := s.decoded.filter fun x => !(x.core == core && x.ctx == curCtx s &&
          (inside x.va || (isLong (x.words % 2 ^ 32) && inside (x.va + 4)))) }) ∧
    (4 ≤ k.toNat → exec (.pwrhint e a k) s = trapsWith 0x01 s) ∧
    (k.toNat < 4 → exec (.pwrhint e a k) s = .next (advance (h 0x73) none false false (blockTo (fun x => { x with
      hint := if k = 0 then none else some
        { kind := k, expires := if n = 0 then none else some (tickOf s (curBlock s).place.die + 1000 * n) } }) s))) ∧
    (User s → exec (.fqdone e d) s = trapsWith 0x03 s) ∧
    (Supervisor s → exec (.fqdone e d) s = .next (doorbell (rcbRoot s (curCtx s)) (curCtx s) ((rdS d s).toNat / 2 ^ 12 % 4)
      ((rdS d s).toNat % 2 ^ 12) (advance { h 0x70 with supOnly := true } none false false s))) ∧
    ((∀ x ∈ (curBlock s).latch, x.members.getLsbD (cur s).who.gidx = false) → ∃ t, exec (.halt e) s = .next t ∧
      let g' := getGroup t (cur s).who.uid (cur s).who.gidx
      g' = { curGroup s with paths := [], melds := [], retired := true, stackSlot := none, bp := [], issued := 0, sup := false } ∧
      t.running = (s.running.filter fun f => !(f.who.uid == (cur s).who.uid && f.who.gidx == (cur s).who.gidx)) ∧
      t.links = (s.links.filter fun x => !ownedBy (cur s).who.uid (cur s).who.gidx x.owner) ∧
      t = { s with blocks := t.blocks, running := t.running, links := t.links })

namespace Sys2Proof.Rules

/-- Instructions of the vector, matrix and copy majors, which only their own role may issue (R176), with register fields that R228 lets
pass: even numbers where a form may want a pair, and no latches. -/
inductive RoleBound : Instr → Role → Prop where
  | vector (i : Instr) (v : VArgs) (q : Pick) : VecForm i v q → v.la = false → v.lb = false → v.a.toNat % 2 = 0 → v.b.toNat % 2 = 0 →
      v.d.toNat % 2 = 0 → RoleBound i .v
  | memory (i : Instr) (v : VArgs) (q : VecMem) : VecAccess i v q → v.b.toNat % 2 = 0 → v.d.toNat % 2 = 0 → RoleBound i .v
  | segment (i : Instr) (v : VArgs) (q : SegMem) : SegAccess i v q → RoleBound i .v
  | link (i : Instr) (st : Bool) (v : VArgs) (ps cls : Nat) : LinkAccess i st v ps cls → v.d.toNat % 2 = 0 → RoleBound i .v
  | matrix (i : Instr) (h : Head) (m : MemArgs) (o : MOp) : MatInstr i h m o → (∀ d, o ≠ .tget d) → RoleBound i .m
  | copy (i : Instr) (h : Head) (q : Nat) (post : State → Option (Nat × Nat)) (a : BitVec 6) (cls scope : Nat) :
      CopyInstr i h q post a cls scope → RoleBound i .c

end Sys2Proof.Rules

/-- R176, R228: an instruction of another role's major traps with cause 0x1A and has no other effect. -/
def Sys2Proof.Rules.RolesBindTheirMajors : Prop :=
  ∀ (i : Instr) (r : Role) (s : State), RoleBound i r → Runs s → NoFrame s → (curGroup s).role ≠ r →
    exec i s = if r = .v then .next (trapPath (startPath s) 0x1A 0 0 s) else trapsWith 0x1A s

/-! The device's own steps, the hosts and the peers. -/

namespace Sys2Proof.Rules

/-- The L1 of a core without lines: what a fence at cluster scope or wider leaves (R89, R142). -/
def emptyL1 (core : Place) (s : State) : State :=
  { s with l1 := s.l1.filter fun x => x.core != core, stale := s.stale.filter fun x => x.core != core }

/-- A fence over all classes at a scope, for a path that waits: its later accesses come after all that has been written, and one at
cluster scope or wider empties the L1 of its core (R142, R144). -/
def fenceOf (w : Who) (scope : Nat) (s : State) : State :=
  let t := modGroup w.uid w.gidx (raiseFence [pathParty w.pidx] [32] s.stamp) s
  if 2 ≤ scope then emptyL1 (corePlace (getBlock s w.uid).place) t else t

/-- The path issues its instruction again. -/
def again (w : Who) (s : State) : State := modPath w (fun p => { p with run := .ready }) s

/-- A path that was in fault-wait issues its instruction again, before its siblings, and reads what stands now or later (R65, R105). -/
def resumed (w : Who) (s : State) : State :=
  modGroup w.uid w.gidx (fun g => { g with
    again := (w.pidx, (pathOf s w).pc, s.stamp) :: g.again.filter (fun x => x.1 != w.pidx),
    last := (((g.melds.find? fun m => m.b == w.pidx).map (·.a)).getD w.pidx + 63) % 64 }) (again w s)

/-- The path goes on behind an instruction of `len` bytes. -/
def behind (w : Who) (len : Nat) (s : State) : State :=
  modPath w (fun p => (stepPath len none false { p with run := .ready }).1) s

/-- Waits whose end completes the instruction with a fence, and the scope of that fence (R193, R313, R314, R316). -/
def waitFence (s : State) (w : Who) (x : Wait) (scope : Nat) : Prop :=
  match x with
  | .bar k gen => k < 64 ∧ (∃ u, barrierHolder s w.uid k = some u ∧ (vget (getBlock s u).bars k).gen ≠ gen) ∧ scope = if k < 48 then 1 else 2
  | .iter d v => (∃ y, iterAt s w.uid d = some y ∧ v.toNat ≤ y.toNat) ∧ scope = 2
  | .ring r j want => (vget (getBlock s w.uid).rings r).getLsbD j = want ∧ scope = sget 1 (getBlock s w.uid).postScope (r * 8 + j)
  | _ => False

/-- Paths that wait on a slot of a die's fault queue, with the type, address and access kind that each met. -/
def onSlot (s : State) (die slot : Nat) : List (Who × FaultType × Word × BitVec 4) :=
  s.blocks.flatMap fun b => b.groups.flatMap fun g => g.paths.filterMap fun p => match p.run with
    | .waiting (.fault d i ft ea k) _ =>
      if d = die ∧ i = slot then some (({ uid := b.uid, gidx := g.gidx, pidx := p.idx } : Who), ft, ea, k) else none
    | _ => none

/-- Copies that wait on a slot. -/
def copiesOnSlot (s : State) (die slot : Nat) : List Copy :=
  s.copies.filter fun c => match c.run with
    | .fault d i _ _ _ => d == die && i == slot
    | _ => false

/-- The cause of a waiter whose slot is resolved with FAIL (R65). -/
def slotCause : FaultType → Nat
  | .notPresent => 0x05
  | .malformed => 0x05
  | .protection => 0x06
  | .noMemory => 0x06

end Sys2Proof.Rules

/-- R193, R319, R175, R221, R361, R363, R318, R184, R394, R395, R401: a wait that is over ends with its instruction done, so that the
path goes on behind it: barwait, iwait and stgwait with the fence that each is on return; a queue wait with its fence, or with the trap
that reports the queue's error; launch.w with its entry; a cpy that waited for room is enqueued, or traps with the queue's error; waitw
returns the word that has changed. A member whose latch entry is gone issues its instruction again. A path that may not go on, among
them one that a pre-emption keeps stopped, is left as it is. The timeout of a latch entry traps every member that has arrived with
cause 0x0C. The watchdog's period traps an internal wait with cause 0x10, with an EVENT 6 record, and its count restarts. It rests on
the model's readings or choices of log 78, 79 and 94. -/
def Obligations.WaitsEndAndTimersFire : Prop :=
  (∀ (s : State) (w : Who), mayGoOn s w = false → exec (.waitSatisfied w) s = .next s ∧ exec (.waitwRecheck w) s = .next s) ∧
  (∀ (s : State) (w : Who), (getBlock s w.uid).preempt = true → (getGroup s w.uid w.gidx).sup = false → mayGoOn s w = false) ∧
  (∀ (s : State) (w : Who) (x : Wait) (len : Nat), (pathOf s w).run = .waiting x len → mayGoOn s w = true →
    let g := getGroup s w.uid w.gidx
    let b := getBlock s w.uid
    let alone := meldOf g w.pidx = none
    (x = .latch → (∀ e ∈ b.latch, ∀ m ∈ e.arrived, m.gidx ≠ w.gidx) → exec (.waitSatisfied w) s = .next (again w s)) ∧
    (∀ scope, alone → waitFence s w x scope → exec (.waitSatisfied w) s = .next (behind w len (fenceOf w scope s))) ∧
    (∀ mask ids, x = .queues mask ids → (∀ k ∈ ids, (∀ c ∈ s.copies, c.id ≠ k) ∧ ∀ o ∈ s.matq, o.id ≠ k) → alone →
      let bad (q : Nat) : Prop := q < 8 ∧ mask.getLsbD q = true ∧ g.qbad.getLsbD q = true ∧
        (s.qerrs.find? fun r => r.q == .core b.place q).isSome = true
      ((∀ q, ¬ bad q) → exec (.waitSatisfied w) s =
        .next (behind w len (fenceOf w (if g.qwide &&& mask = 0 then 1 else 2) s))) ∧
      (∀ q r, bad q → (∀ k < q, ¬ bad k) → s.qerrs.find? (fun r => r.q == .core b.place q) = some r →
        exec (.waitSatisfied w) s = .next (trapPath w r.cause r.addr r.kind s))) ∧
    (∀ q post a cls scope, x = .queueFull q post a cls scope → alone →
      let key : QKey := .core b.place q
      let full := 32 ≤ (s.copies.filter fun c => c.q == key && !c.held).length
      (∀ r, s.qerrs.find? (fun r => r.q == key) = some r → (post = none ∨ curSlots (focusOn w s) ≠ 0) →
        exec (.waitSatisfied w) s = .next (trapPath w r.cause r.addr r.kind s)) ∧
      (full → s.qerrs.find? (fun r => r.q == key) = none → exec (.waitSatisfied w) s = .next s) ∧
      (¬ full → ∀ t, cpyOn q post a cls scope (focusOn w s) = (t, .next) →
        exec (.waitSatisfied w) s = .next (behind w len (unfocus t)))) ∧
    (∀ packet addr d k, x = .space packet addr d k → alone →
      let p := packetOf packet
      let die := b.place.die
      let rcb := packetRcb s (blockCtx s b) p
      let n := vget s.accepted die + 1
      let id := die * 2 ^ 62 + n % 2 ^ 62
      entryAvailable s die rcb = true → peekBad s (blockCtx s b) (vget p 3).toNat .read true = none →
        exec (.waitSatisfied w) s = .next (behind w len (modPath w (fun q => putSreg k (BitVec.ofNat 64 id) (putSreg d 0 q))
          (writeUsages (rcb.getD 0) { s with
            accepted := vset s.accepted die n,
            launches := s.launches ++ [{
              id := id, shown := id, die := die, packet := p, addr := addr, ctx := blockCtx s b, rcb := rcb.getD 0,
              counter := 0, placed := 0, prio := 0, dies := 0, checked := false, node := none, service := false }] })))) ∧
    (∀ ext a old d, x = .word ext a old d → alone → a.toNat / 2 ^ 60 = 0xE → a.toNat % 2 ^ 60 + 8 ≤ b.spadSize →
      a.toNat % 2 ^ 60 + 8 ≤ 2 ^ 20 → a.toNat % 8 = 0 → badRange s (.spad w.uid) (a.toNat % 2 ^ 60) 8 = false → b.uid = w.uid →
      let v := BitVec.ofNat 64 (ofBytes (sgetN 0 b.spad (a.toNat % 2 ^ 60) 8))
      ∀ i, i = Instr.waitwRecheck w ∨ i = Instr.waitwPoll w →
        (v = old → exec i s = .next (looked s)) ∧
        (v ≠ old → exec i s = .next (behind w len (fenceOf w 5 (modPath w (putSreg d v) (looked s))))))) ∧
  (∀ (s : State) (uid i : Nat) (e : LatchEntry), (getBlock s uid).latch[i]? = some e → e.tmo ≠ 0 → e.tmo * 1000 ≤ e.elapsed →
    ((getBlock s uid).res = .resident → (getBlock s uid).preempt = false → exec (.gangTimeout uid i) s = .next (e.arrived.foldl
      (fun s m => trapPath { uid := uid, gidx := m.gidx, pidx := m.pidx } 0x0C 0 0 s)
      (modBlock uid (fun b => { b with
        latch := b.latch.filter fun x => !(x.seq == e.seq && x.members == e.members && x.pair == e.pair) }) s))) ∧
    ((getBlock s uid).preempt = true → exec (.gangTimeout uid i) s = .next s)) ∧
  (∀ (s : State) (ctx : Nat) (b : Block) (g : Group) (p : Path) (x : Wait) (len : Nat),
    effWdms s ctx * 1000000 ≤ kget 0 s.watchdog ctx → watchdogCounts s ctx = true →
    (s.blocks.filter fun b => b.res != .held && blockCtx s b == ctx) = [b] → findBlock s b.uid = some b → b.groups = [g] → g.paths = [p] →
    p.run = .waiting x len → (∀ d i ft ea k, x ≠ .fault d i ft ea k) → x ≠ .latch → (∀ c ∈ s.copies, copyInternal s ctx c = false) →
    internalWait s ctx p.run = true → (b.preempt = false ∨ g.sup = true) →
    let w : Who := { uid := b.uid, gidx := g.gidx, pidx := p.idx }
    let t := trapPath w 0x10 0 0 (modPath w (fun p => { p with run := .ready })
      { s with holds := s.holds.filter fun y => y.1 ≠ w, ext := s.ext.filter fun y => y.owner ≠ .path w })
    exec (.watchdogFire ctx) s = .next (logError b.place.die 6 0x10 0 ctx ctx { t with watchdog := kset ctx 0 t.watchdog }))

/-- R58, R59, R55, R240, R345: an invalidation, from a syswr or from a mailbox, waits while an access of a selected page is in flight: one
sent through an aperture and not answered, a copy or an access that keeps its translation while it stalls (R70), a write to memory that
stands on a matrix queue, a macc.st that keeps one. Then every entry that its operand selects is gone from all TLBs, so is every table
entry of the walkers that it selects, and so is every decoded operation with a word in the selected pages. The writing path goes on behind
its syswr, which is a fence at package scope. A mailbox that waits keeps the operand that it read when it started (R450). It rests on the
model's readings or choices of log 83. -/
def Obligations.TranslationsAreInvalidated : Prop :=
  ∀ (s : State) (asid : BitVec 16) (vpn : BitVec 36),
    let va := vpn.toNat * 65536
    let holds (e : TlbEntry) (a : Nat) : Prop := e.asid = asid ∧ e.vpn = a / pageBytes e.page
    let hit (kind : Nat) (of_ : BitVec 16) (a : Nat) : Prop := kind = 0 ∨
      (of_ = asid ∧ (kind = 1 ∨ a / 65536 = va / 65536 ∨ ∃ e ∈ s.tlb, holds e va ∧ holds e a))
    let busy (kind : Nat) : Prop := (∃ e ∈ s.ext, e.got = none ∨ ∃ x ∈ e.kept, hit kind asid x.1) ∨
      (∃ c ∈ s.copies, ∃ x ∈ c.pages, hit kind asid x.1) ∨ (∃ o ∈ s.matq, ∃ x ∈ o.writes, ∃ pa, x.1 = .phys pa) ∨
      ∃ b ∈ s.blocks, ∃ g ∈ b.groups, ∃ x ∈ g.kept, x.2 ≠ none ∧ hit kind (ctxAsid s (blockCtx s b)) (x.1 % 2 ^ 52)
    let rest (t : State) : Prop := t = { s with tlb := t.tlb, walker := t.walker, decoded := t.decoded }
    let all (t : State) : Prop := rest t ∧ t.tlb = [] ∧ t.walker = [] ∧ t.decoded = []
    let one (t : State) : Prop := rest t ∧ t.tlb = (s.tlb.filter fun e => e.asid != asid) ∧
      t.walker = (s.walker.filter fun e => e.asid != asid) ∧ t.decoded = s.decoded.filter fun d => ctxAsid s d.ctx != asid
    let word (page : Nat) (a : Nat) : Prop := a / pageBytes page = va / pageBytes page
    let page (t : State) : Prop := rest t ∧
      (∀ e, e ∈ t.tlb ↔ e ∈ s.tlb ∧ ¬ holds e va) ∧
      (∀ e, e ∈ t.walker ↔ e ∈ s.walker ∧ ¬ (e.asid = asid ∧ e.path = va / 2 ^ (43 - 9 * e.level))) ∧
      (∀ d, d ∈ t.decoded ↔ d ∈ s.decoded ∧
        ¬ (ctxAsid s d.ctx = asid ∧ (word d.page d.va ∨ ∃ q, d.page2 = some q ∧ word q (d.va + 4))))
    let does (kind : Nat) (i : Option Who → Instr) (p : State → Prop) : Prop :=
      (busy kind → exec (i none) s = .next { s with pending := s.pending ++ [i none] }) ∧
      (¬ busy kind → ∃ t, exec (i none) s = .next t ∧ p t) ∧
      ∀ (w : Who) (n len : Nat), (pathOf s w).run = .waiting (.tlb n) len →
        (busy kind → exec (i (some w)) s = .next { s with pending := s.pending ++ [i (some w)] }) ∧
        (¬ busy kind → ∃ t, exec (i (some w)) s = .next (behind w len (fenceOf w 4 t)) ∧ p t)
    does 0 (.tlbinvAll ·) all ∧ does 1 (.tlbinvAsid · asid) one ∧ does 2 (.tlbinvPage · asid vpn) page ∧
    (∀ port, (vget s.ports port).busy = true →
      let p := vget s.ports port
      let x := p.taken.getD p.arg0
      let kind := x.toNat / 2 ^ 62
      let i := Instr.mailboxTlbinv port
      (kind = 3 ∨ x.toNat / 2 ^ 36 % 2 ^ 10 ≠ 0 →
        exec i s = .next { s with ports := vset s.ports port { p with busy := false, result := 2 } }) ∧
      (kind ≠ 3 → x.toNat / 2 ^ 36 % 2 ^ 10 = 0 → x.toNat / 2 ^ 46 % 2 ^ 16 = asid.toNat → x.toNat % 2 ^ 36 = vpn.toNat →
        (busy kind → exec i s = .next (pendLane i { s with ports := vset s.ports port { p with taken := some x } })) ∧
        (¬ busy kind → ∃ t, exec i s = .next
            { t with ports := vset s.ports port { p with busy := false, result := 0, taken := none } } ∧
          (kind = 0 → all t) ∧ (kind = 1 → one t) ∧ (kind = 2 → page t))))

/-- R60 to R63, R66, R377: a failing translation of a path is recorded at its access, in the fault queue of its die. It coalesces into an
occupied slot of its ASID and 64 KiB granule that has no response: KIND and WAITERS follow, every other field and byte stands and nobody
is told; the path waits on the slot with the type that it met itself. Else it takes a free slot and fills every field, the number of
waiters 1; the host that serves the context is told, or its service kernel is launched, with the slot for ARG0 and the die for ARG1, at once
when an entry is free. Without a slot the path waits for one, and nothing else happens. A waiter without a slot is recorded like that once its
step is due. It rests on the model's readings or choices of log 18, 65 and 103. -/
def Sys2Proof.Rules.FaultsAreRecorded : Prop :=
  (∀ (s : State) (base va : Nat) (asid : BitVec 16), Memory.wf s.mem = true →
    let hit (i : Nat) : Prop := slotWord s base i 0 / 2 ^ 60 ≠ 0 ∧ slotWord s base i 0 / 2 ^ 16 % 2 ^ 36 = va / 65536 ∧
      slotWord s base i 1 / 2 ^ 48 = asid.toNat ∧ slotWord s base i 3 / 2 ^ 56 = 0
    (∀ i, coalesce s base asid va = some i → i < 4096 ∧ hit i) ∧ (coalesce s base asid va = none → ∀ i < 4096, ¬ hit i) ∧
    (∀ i, freeSlot s base = some i → i < 4096 ∧ slotWord s base i 0 / 2 ^ 60 = 0) ∧
    (freeSlot s base = none → ∀ i < 4096, slotWord s base i 0 / 2 ^ 60 ≠ 0)) ∧
  (∀ (s : State) (len i lv : Nat) (w : Who) (ft : FaultType) (ea : Word) (k : BitVec 4),
    let b := getBlock s w.uid
    let g := getGroup s w.uid w.gidx
    let ctx := blockCtx s b
    let base := queueBase s ctx b.place.die
    let code : Nat := match ft with
      | .notPresent => 1
      | .protection => 2
      | .malformed => 3
      | .noMemory => 4
    let t := enterFaultWait w len ft lv ea k s
    let waits (r : Wait) : Prop := pathOf t w = { pathOf s w with run := .waiting r len }
    let outside : Prop := ∀ a, a < base + 32 * i ∨ base + 32 * i + 32 ≤ a → sget 0 t.mem a = sget 0 s.mem a
    Lives s w → Memory.wf s.mem = true → lv < 4 → b.place.cl < 5 → b.tenant < 32 → ctx < 2 ^ 52 →
    (ctx + 128 ≤ base + 32 * i ∨ base + 32 * i + 32 ≤ ctx) →
    (coalesce s base (ctxAsid s ctx) (ea.toNat % 2 ^ 52) = some i → slotWord s base i 1 / 2 ^ 36 % 2 ^ 12 < 4095 →
      let kinds := slotWord s base i 0 / 2 ^ 56 % 16
      slotWord t base i 0 = slotWord s base i 0 - kinds * 2 ^ 56 + (kinds ||| k.toNat) * 2 ^ 56 ∧
      slotWord t base i 1 = slotWord s base i 1 + 2 ^ 36 ∧ slotWord t base i 2 = slotWord s base i 2 ∧
      slotWord t base i 3 = slotWord s base i 3 ∧ outside ∧ t.sent = s.sent ∧ t.seq = s.seq ∧ t.launches = s.launches ∧
      waits (.fault b.place.die i ft ea k)) ∧
    (coalesce s base (ctxAsid s ctx) (ea.toNat % 2 ^ 52) = none → freeSlot s base = some i → rcbWord s ctx 9 = 0 →
      slotWord t base i 0 = code * 2 ^ 60 + k.toNat * 2 ^ 56 + ea.toNat % 2 ^ 52 ∧
      slotWord t base i 1 = (ctxAsid s ctx).toNat * 2 ^ 48 + 2 ^ 36 + lv * 2 ^ 34 + (vget s.seq b.place.die + 1).toNat ∧
      slotWord t base i 2 = ctx ∧ slotWord t base i 3 = b.place.cl * 2 ^ 11 + b.tenant * 2 ^ 6 + g.slot % 16 ∧ outside ∧
      t.seq = vset s.seq b.place.die (vget s.seq b.place.die + 1) ∧ t.sent = .irq (ctxHost s ctx) b.place.die 0 i :: s.sent ∧
      waits (.fault b.place.die i ft ea k)) ∧
    (coalesce s base (ctxAsid s ctx) (ea.toNat % 2 ^ 52) = none → freeSlot s base = none →
      t = modPath w (fun p => { p with run := .waiting (.noSlot b.place.die ft lv ea k) len }) s)) ∧
  (∀ (s : State) (die n len lv d : Nat) (w : Who) (ft : FaultType) (ea : Word) (k : BitVec 4),
    (slotless s die)[n]? = some (.path w) → (pathOf s w).run = .waiting (.noSlot d ft lv ea k) len →
      exec (.faultSlotWaitRecord die n) s = .next (enterFaultWait w len ft lv ea k s)) ∧
  (∀ (s t : State) (ctx die slot : Nat) (l : List Byte), rcbWord s ctx 9 ≠ 0 →
    restart (loadAt (noticeEnv ctx die slot) (BitVec.ofNat 64 (rcbWord s ctx 9)) 128 1) s = (t, .ok l) →
    let p := vset (vset (packetOf l) 4 (BitVec.ofNat 64 slot)) 5 (BitVec.ofNat 64 die)
    let n := vget t.accepted die + 1
    let id := die * 2 ^ 62 + n % 2 ^ 62
    peekBad t ctx (vget p 3).toNat .read true = none →
    (entryAvailable t die (packetRcb t ctx p) = true → ∃ u, notifyServicer ctx die slot s = u ∧ u.launches = t.launches ++ [{
      id := id, shown := id, die := die, packet := p, addr := BitVec.ofNat 64 (rcbWord s ctx 9), ctx := ctx,
      rcb := (packetRcb t ctx p).getD 0, counter := 0, placed := 0, prio := 0, dies := 0, checked := false, node := none, service := true }] ∧
      u.notices = t.notices ∧ u.sent = t.sent) ∧
    (entryAvailable t die (packetRcb t ctx p) = false → ∃ u, notifyServicer ctx die slot s = u ∧ u.launches = t.launches ∧
      u.notices = t.notices ++ [(ctx, die, slot)]))

/-- R60 to R66, R451: a failing translation is recorded, coalesces, or waits for a slot. The doorbell of a slot with a response frees it and
wakes its waiters: RETRY makes them issue again, FAIL traps them with the cause of the type that each met. A doorbell for a free slot or one
without a response is counted as EVENT 7, and one from a port that does not own the context is ignored. It rests on the model's readings or choices of log 18, 23, 65, 91, 103 and 127. -/
def Obligations.FaultSlotsAreFilledAndResolved : Prop :=
  Rules.FaultsAreRecorded ∧
  (∀ (s : State) (port die slot root : Nat), anyRoot s = some root → s.booted = true →
    let base := fqBase s root die
    let type := slotWord s base slot 0 / 2 ^ 60 % 16
    let resp := slotWord s base slot 3 / 2 ^ 56 % 256
    let ctx := slotWord s base slot 2
    let i := Instr.faultDoorbell port die slot
    (type ≠ 0 → ctxHost s ctx ≠ port → exec i s = .next { s with ignored := s.ignored + 1 }) ∧
    (vget s.depth die = 0 →
      (type = 0 → exec i s = .next (logError die 7 0 slot root root s)) ∧
      (type ≠ 0 → ctxHost s ctx = port → resp = 0 → exec i s = .next (logError die 7 0 slot ctx ctx s)) ∧
      (type ≠ 0 → ctxHost s ctx = port → copiesOnSlot s die slot = [] →
        let free (t : State) : State := physPut none (base + 32 * slot) 8 (slotWord s base slot 0 % 2 ^ 60) t
        (onSlot s die slot = [] → resp ≠ 0 → exec i s = .next (free s)) ∧
        (∀ w ft ea k, onSlot s die slot = [(w, ft, ea, k)] →
          (resp = 1 ∨ (resp ≠ 0 ∧ mayTrap s w = false) → exec i s = .next (free (resumed w s))) ∧
          (resp ≠ 0 → resp ≠ 1 → mayTrap s w = true → exec i s = .next (free (trapPath w (slotCause ft) ea k (resumed w s)))))) ∧
      (type ≠ 0 → ctxHost s ctx = port → onSlot s die slot = [] → resp = 1 → ∀ c, copiesOnSlot s die slot = [c] →
        exec i s = .next (physPut none (base + 32 * slot) 8 (slotWord s base slot 0 % 2 ^ 60)
          { s with copies := modFirst (fun x => x.id == c.id) (fun x => { x with run := .queued }) s.copies }))) ∧
    (vget s.depth die ≠ 0 → (type = 0 ∨ ctxHost s ctx = port) →
      exec i s = .next { s with pending := (if s.pending.contains (.restExit die) then [i] else [.restExit die, i]) ++ s.pending }))

namespace Sys2Proof.Rules

/-- The RCB of a launch, when it lies beneath the issuing context (R363). -/
def ownRcb (s : State) (l : Launch) : Option Nat := (packetRcb s l.ctx l.packet).filter fun r => rcbCtx s r == l.ctx

/-- What the front end asks of a packet (R187, R390, R26, R363): its RCB is one of the context, no reserved field, 1 to 16 groups, 256 units of
scratchpad and 64 of operand buffer at most, a permitted class that the block fits, an entry that may be a target, and for a
co-resident set a number of blocks, a die and cores that hold it. -/
def PacketGood (s : State) (l : Launch) : Prop :=
  (ownRcb s l).isSome = true ∧
  let shape := (vget l.packet 2).toNat
  let groups := shape / 2 ^ 59 + shape / 2 ^ 54 % 32 + shape / 2 ^ 49 % 32
  let spu := shape / 2 ^ 27 % 512
  let obu := shape / 2 ^ 20 % 128
  let fits (c : Nat) : Prop := (shape / 2 ^ (43 + c)) % 2 = 1 ∧ groups ≤ groupLimit c ∧ spu * 4096 ≤ spadLimit c ∧ obu * 4096 ≤ obLimit c
  shape % 16 = 0 ∧ 1 ≤ groups ∧ groups ≤ 16 ∧ spu ≤ 256 ∧ obu ≤ 64 ∧ (fits 0 ∨ fits 1 ∨ fits 2) ∧
  (vget l.packet 0).toNat < 2 ^ 52 ∧ (vget l.packet 0).toNat % 4 = 0 ∧
  (shape / 2 ^ 46 % 2 = 1 → shape / 16 % 65536 ≠ 0 ∧ ∀ r, ownRcb s l = some r → effDies s r ≠ 0 ∧ setFits l = true)

/-- A group at its start (R188): its role, one path at ENTRY that holds every thread, vl at VLMAX, and the scalar file s1 = N, s2 the
launch id, s3 the packet's address, s4 to s15 the arguments, and 0 elsewhere. -/
def Started (l : Launch) (p : Place) (k : Nat) (g : Group) : Prop :=
  let shape := (vget l.packet 2).toNat
  let nc := shape / 2 ^ 49 % 32
  let nm := shape / 2 ^ 54 % 32
  let vm := (if p.cl = 4 then 2048 else 8192) / (8 * 2 ^ (shape / 2 ^ 47 % 4))
  g.gidx = k ∧ g.role = (if k < nc then .c else if k < nc + nm then .m else .v) ∧ g.nrc.toNat = shape / 2 ^ 47 % 4 ∧
  g.vl.toNat = vm ∧ g.vstart = 0 ∧ g.sup = false ∧ g.retired = false ∧ g.fcsr = 0 ∧ g.dirty = 0 ∧ g.v = [] ∧ g.melds = [] ∧
  ∃ q, g.paths = [q] ∧ q.idx = 0 ∧ q.pc = vget l.packet 0 ∧ q.run = .ready ∧ q.rets = [] ∧ q.loops = [] ∧ q.tokens = 0 ∧ q.rpt = none ∧
    (∀ i, q.threads.getLsbD i = decide (i < vm)) ∧
    ∀ r < 64, vget q.regs r =
      if r = 1 then vget l.packet 1 else if r = 2 then BitVec.ofNat 64 l.shown else if r = 3 then l.addr
      else if 4 ≤ r ∧ r ≤ 15 then vget l.packet r else 0

/-- How far slot x lies after slot `last` in cyclic order; `last` itself is the farthest. -/
def afterLast (last x : Nat) : Nat := (x + 15 - last) % 16

end Sys2Proof.Rules

/-- R187, R388, R390, R377: a launch whose packet passes its checks takes the smaller of its priority and the ceiling of its RCB, and
enters the ready queue of every die of its mask, in order of acceptance. One that fails is rejected with an EVENT 1 record, and its
entry is released; an uncorrectable error in the walk to its RCB ends the context's domain (R53). R389, R391, R188: a placement step with one launch in the queues, no set among them and room for its block places
that block, with its groups at their start. R393: an issue slot without a run gives one to the ready group of highest priority that
follows the last one of that priority in cyclic slot order. R401 to R404: a stopped group of a block that is being pre-empted is
captured and enters the supervisor on its save path with cause 0x11. R190: a block whose groups have retired and whose copies have
completed is gone. It rests on the model's readings or choices of log 45, 46, 79, 80 and 99. -/
def Obligations.LaunchesArePlacedAndRun : Prop :=
  (∀ (s : State) (id : Nat) (l : Launch), findLaunch s id = some l → l.checked = false →
    (∀ a, peekBad s l.ctx (pkWord l 3) .read true = some a →
      exec (.launchPacketCheck id) s = .next (endDomain l.ctx l.die 0x14 (addrWord a) s)) ∧
    (PacketGood s l → peekBad s l.ctx (pkWord l 3) .read true = none → l.counter.toNat < (vget l.packet 1).toNat →
      ((vget l.packet 2).toNat / 16 % 65536 = 0 ∨ l.placed < (vget l.packet 2).toNat / 16 % 65536) →
      let dies := effDies s l.rcb
      exec (.launchPacketCheck id) s = .next { s with
        launches := modFirst (fun x => x.id == id) (fun x => { x with
          checked := true, dies := dies,
          prio := if x.service then 15 else min ((vget l.packet 2).toNat / 2 ^ 39 % 16) (effPrio s x.rcb) }) s.launches,
        queue := Vector.ofFn fun d => if dies.getLsbD d.val
          then (s.launches.map (·.id)).filter fun i => i == id || s.queue[d].contains i else s.queue[d] }) ∧
    (¬ PacketGood s l → peekBad s l.ctx (pkWord l 3) .read true = none → l.node = none → (∀ b ∈ s.blocks, b.launch ≠ id) →
      ∃ c a, exec (.launchPacketCheck id) s =
        .next (releaseLaunch id (logError l.die 1 c a l.addr.toNat ((ownRcb s l).getD l.ctx) s)))) ∧
  (∀ (s : State) (die pick : Nat) (l : Launch) (p : Place) (t : Nat), die < 4 → queued s die = [l] → mayPlace s l = true →
    findLaunch s l.id = some l → coresBit l = false → blocksOf s l.id = [] → noMoreBlocks l = false → vget s.reserve die = none →
    choosePlace die pick (roomAt s [] l) = some p → pickTenant s [] l.ctx p none = some t →
    let shape := (vget l.packet 2).toNat
    ∃ u b, exec (.placementStep die pick) s = .next u ∧ u.blocks = s.blocks ++ [b] ∧ b.uid = s.uids ∧ b.launch = l.id ∧
      b.blockid = BitVec.ofNat 32 l.placed ∧ b.tenant = t ∧ b.place = p ∧ b.spadSize = shape / 2 ^ 27 % 512 * 4096 ∧
      b.obSize = shape / 2 ^ 20 % 128 * 4096 ∧ b.res = .resident ∧ b.spad = [] ∧ b.ob = [] ∧
      b.groups.length = shape / 2 ^ 59 + shape / 2 ^ 54 % 32 + shape / 2 ^ 49 % 32 ∧
      (∀ (k : Nat) g, b.groups[k]? = some g → Started l p k g) ∧
      findLaunch u l.id = some { l with placed := l.placed + 1 }) ∧
  (∀ (s : State) (core : Place) (r : Role) (b : Block) (g : Group) (n : Nat),
    slotBusy s core r = false → (b, g) ∈ readyOn s core r → (∀ x ∈ readyOn s core r, x.2.slot < 16 ∧ blockPrio s x.1 ≤ blockPrio s b) →
    let prio := blockPrio s b
    let last := kget 0 s.last (core, r, prio)
    last < 16 → nextPath g = some n →
    (∀ x ∈ readyOn s core r, blockPrio s x.1 = prio → x ≠ (b, g) → afterLast last g.slot < afterLast last x.2.slot) →
    exec (.runIssue core r) s = .next { modGroup b.uid g.gidx (fun g => { g with bp := [], issued := 0 }) s with
      running := s.running ++ [{ who := { uid := b.uid, gidx := g.gidx, pidx := n }, side := false }],
      last := kset (core, r, prio) g.slot s.last }) ∧
  (∀ (s u : State) (uid gidx : Nat),
    let b := getBlock s uid
    let g := getGroup s uid gidx
    let entry := svEntry u (blockCtx u b)
    (findBlock s uid).isSome = true → (findGroup b gidx).isSome = true → b.preempt = true → b.transit = false →
    groupStopped s uid g = true → g.retired = false → g.part = .none →
    frameStores (frameEnv s b) (captureWrites s b g) s = (u, none) → entry.toNat < 2 ^ 52 → entry.toNat % 4 = 0 →
    let frame := saveVa u (blockCtx u b) + b.frame.getD 0 * 0x480000
    frame + 0x480000 < 2 ^ 52 →
    ∃ t, exec (.groupCapture uid gidx) s = .next t ∧ (getBlock t uid).res = .saving ∧
      let h := getGroup t uid gidx
      h.sup = true ∧ h.part = .running ∧ h.epc = (getPath g (savedNext g)).pc ∧ h.eaddr = 0 ∧
      h.ecause.toNat = savedNext g % 64 * 256 + 0x11 ∧ h.vstart = 0 ∧ h.exited = 0 ∧
      ∃ q, h.paths = [q] ∧ q.idx = 0 ∧ q.pc = entry ∧ q.rets = [] ∧ q.loops = [] ∧ q.tokens = 0 ∧
        (∀ i, q.threads.getLsbD i = decide (i < vlmaxOf b.place g.nrc)) ∧
        ∀ r < 64, (vget q.regs r).toNat =
          if r = 1 then frame else if r = 2 then frame + gidx * 0x40000 else if r = 3 then frame + 0x400000 else 0) ∧
  (∀ (s : State) (uid : Nat),
    let b := getBlock s uid
    (findBlock s uid).isSome = true → b.res = .resident → b.preempt = false → b.transit = false → (∀ g ∈ b.groups, g.retired = true) →
    (∀ c ∈ s.copies, c.uid ≠ uid ∨ c.node.isSome = true) → (∀ o ∈ s.matq, o.uid ≠ uid) →
    ∃ t, exec (.blockRetire uid) s = .next t ∧ findBlock t uid = none ∧ (∀ l ∈ t.links, match l.owner with
      | .path w => w.uid ≠ uid
      | .thread v _ _ => v ≠ uid) ∧
      (setOfBlock s b = none → ∀ v, v ≠ uid → findBlock t v = findBlock s v))

namespace Sys2Proof.Rules

/-- A node of a type is under the walker: it has been read, it is armed or active and not completing, no checkpoint holds its RCB, and it
passes the checks of its fields, lists and RCB (R378, R379, R385, R437). -/
def NodeTaken (ctx va type : Nat) (s s1 : State) (w : List Nat) : Prop :=
  readNode ctx va s = (s1, .ok w) ∧ w.getD 0 0 / 2 ^ 60 % 16 = type ∧ w.getD 0 0 / 2 ^ 58 % 4 < 2 ∧ s1.completing.lookup (ctx, va) = none ∧
  held s1 (nodeRcb s1 ctx va) = false ∧ peekBad s1 ctx (w.getD 3 0) .read true = none ∧ nodeFault s1 ctx va w = none

/-- STATE of a node set to active. -/
def active (ctx va : Nat) (s : State) : State := setNodeState ctx va 1 s

/-- Nodes of a type that wait. -/
def waitsOn (ctx va : Nat) (s : State) : State := if (ctx, va) ∈ s.waits then s else { s with waits := s.waits ++ [(ctx, va)] }

/-- The step of the walker for a node type (R380). -/
def stepFor (type ctx va : Nat) : Option Instr :=
  match type with
  | 1 => some (.nodeKernel ctx va)
  | 2 => some (.nodeCopy ctx va)
  | 3 => some (.nodeWsload ctx va)
  | 4 => some (.nodeCond ctx va)
  | 5 => some (.nodeLoop ctx va)
  | 6 => some (.nodeSignal ctx va)
  | 7 => some (.nodeWait ctx va)
  | 9 => some (.nodeEnd ctx va)
  | _ => none

/-- The condition of a WAIT node (R379): equal, not equal, or at least. -/
def waitHolds (w : List Nat) (x : Nat) : Bool :=
  if w.getD 6 0 = 0 then decide (x = w.getD 5 0) else if w.getD 6 0 = 1 then decide (x ≠ w.getD 5 0) else decide (w.getD 5 0 ≤ x)

end Sys2Proof.Rules

/-- R386, R451: the submit doorbell takes SUBMIT of an RCB of the owner's, leaves 0 there, and makes the root node ready; a zero does
nothing, and a port that does not own the context is ignored. R380: a ready node that is armed gets its walker's step, and so does an
active LOOP that a decrement from its body has made ready; any other node in a STATE other than armed fails. -/
def Sys2Proof.Rules.SubmissionMakesTheRootReady : Prop :=
  (∀ (s : State) (port die rcb : Nat),
    let i := Instr.submitDoorbell port die rcb
    let ctx := rcbCtx s rcb
    let root := rcbWord s rcb 3
    (s.booted = false ∨ ctxHost s ctx ≠ port → exec i s = .next { s with ignored := s.ignored + 1 }) ∧
    (s.booted = true → ctxHost s ctx = port →
      (vget s.depth die ≠ 0 → exec i s =
        .next { s with pending := (if s.pending.contains (.restExit die) then [i] else [.restExit die, i]) ++ s.pending }) ∧
      (vget s.depth die = 0 → held s rcb = true → exec i s = .next (pendLane i s)) ∧
      (vget s.depth die = 0 → held s rcb = false → rcbKind s rcb = 1 ∨ rcbKind s rcb = 2 →
        (root = 0 → exec i s = .next s) ∧
        (root ≠ 0 → exec i s = .next (makeReady false ctx root { physPut none (rcb + 24) 8 0 s with
          ctxs := if ctx ∈ s.ctxs then s.ctxs else s.ctxs ++ [ctx] }))))) ∧
  (∀ (s s1 : State) (ctx va : Nat) (w : List Nat) (byBody : Bool), readNode ctx va s = (s1, .ok w) →
    let type := w.getD 0 0 / 2 ^ 60 % 16
    let st := w.getD 0 0 / 2 ^ 58 % 4
    let die := w.getD 0 0 / 2 ^ 56 % 4
    let mayGo := st = 0 ∨ (byBody = true ∧ type = 5 ∧ st = 1)
    (mayGo → ∀ i, stepFor type ctx va = some i → makeReady byBody ctx va s = { s1 with pending := s1.pending ++ [i] }) ∧
    (¬ mayGo → makeReady byBody ctx va s = failNode ctx va die 0 va s1))

/-- R382, R383, R378 to R381, R385, R366, R106, R108, R41: what the walker does with a node of each type. KERNEL has its packet accepted
when an entry is available, its launch id in word 7, and waits otherwise; COPY and WSLOAD put a copy on the front-end queue of the node's
die, a WSLOAD waiting while a kernel of its context exists; COND completes with the list of the entry that its selector names, the last
one for a larger selector; LOOP counts its pass, then looks at its word, arms its body again while another pass is due, and completes
after the last; SIGNAL
completes with its count at 0 and else waits for gsig; WAIT completes when its condition holds and else looks again; END stores its word
and completes. A node whose checks fail, fails with their cause; a checkpoint that holds its RCB holds it back, but not a COPY or WSLOAD
under way; one whose completion is under way goes on with that; an uncorrectable error in the walk to its RCB ends the context's domain. -/
def Sys2Proof.Rules.WalkerTakesNodes : Prop :=
  ∀ (ctx va : Nat) (s s1 : State) (w : List Nat),
    let word (k : Nat) : Nat := w.getD k 0
    let die := word 0 / 2 ^ 56 % 4
    let takes (type : Nat) : Prop := NodeTaken ctx va type s s1 w
    let on := active ctx va s1
    let off (t : State) (i : Instr) (g : Got (List Byte)) : Prop := ∀ c a k, g = .trap c a k → exec i s = .next (failNode ctx va (nodeDie t ctx va) c a.toNat t)
    (∀ i type, stepFor type ctx va = some i → readNode ctx va s = (s1, .ok w) → word 0 / 2 ^ 60 % 16 = type → word 0 / 2 ^ 58 % 4 < 2 →
      (∀ a n, s1.completing.lookup (ctx, va) = some (a, n) → exec i s = .next (completeWith ctx va a n s1)) ∧
      (s1.completing.lookup (ctx, va) = none →
        let back := held s1 (nodeRcb s1 ctx va) = true ∧ ¬ (word 0 / 2 ^ 58 % 4 = 1 ∧ (type = 2 ∨ type = 3))
        (back → exec i s = .next { s1 with pending := s1.pending ++ [i] }) ∧
        (¬ back → (∀ a, peekBad s1 ctx (word 3) .read true = some a → exec i s = .next (endDomain ctx die 0x14 (addrWord a) s1)) ∧
          (peekBad s1 ctx (word 3) .read true = none → ∀ c a, nodeFault s1 ctx va w = some (c, a) →
            exec i s = .next (failNode ctx va die c a s1))))) ∧
    -- KERNEL
    (takes 1 → ∀ s2 g, nodeRead ctx va (word 4) 128 128 on = (s2, g) → off s2 (.nodeKernel ctx va) g ∧
      ∀ l, g = .ok l →
        let p := packetOf l
        let rcb := packetRcb s2 ctx p
        let n := vget s2.accepted die + 1
        let id := die * 2 ^ 62 + n % 2 ^ 62
        (∀ x, peekBad s2 ctx (vget p 3).toNat .read true = some x →
          exec (.nodeKernel ctx va) s = .next (endDomain ctx die 0x14 (addrWord x) s2)) ∧
        (peekBad s2 ctx (vget p 3).toNat .read true = none → entryAvailable s2 die rcb = false →
          exec (.nodeKernel ctx va) s = .next (waitsOn ctx va s2)) ∧
        (peekBad s2 ctx (vget p 3).toNat .read true = none → entryAvailable s2 die rcb = true →
          ∃ t, exec (.nodeKernel ctx va) s = .next (putWord ctx (va + 56) id t) ∧ t = { s2 with
            mem := t.mem, past := t.past, stamp := t.stamp, stale := t.stale, links := t.links,
            waits := s2.waits.filter (· != (ctx, va)), accepted := vset s2.accepted die n,
            launches := s2.launches ++ [{
              id := id, shown := id, die := die, packet := p, addr := addrWord (word 4), ctx := ctx,
              rcb := rcb.getD 0, counter := 0, placed := 0, prio := 0, dies := 0, checked := false, node := some va,
              service := false }] })) ∧
    -- COPY and WSLOAD
    (∀ ws : Bool,
      let i : Instr := if ws then .nodeWsload ctx va else .nodeCopy ctx va
      takes (if ws then 3 else 2) →
      (ws = true → (∃ l ∈ on.launches, l.ctx = ctx) → exec i s = .next (waitsOn ctx va on)) ∧
      ((ws = true → ∀ l ∈ on.launches, l.ctx ≠ ctx) →
        (badTag (addrWord (word 4)) = true → exec i s = .next (failNode ctx va die 0x07 (word 4) on)) ∧
        (badTag (addrWord (word 4)) = false → word 4 % 64 ≠ 0 → exec i s = .next (failNode ctx va die 0x04 (word 4) on)) ∧
        (badTag (addrWord (word 4)) = false → word 4 % 64 = 0 → ∀ s2 d, readDesc { nodeEnv on ctx va with sup := false } (addrWord (word 4)) on = (s2, .ok d) →
          (∀ c, nodeDescFault d ws = some c → exec i s = .next (failNode ctx va die c (word 4) s2)) ∧
          (nodeDescFault d ws = none → exec i s = .next { s2 with
            waits := s2.waits.filter (· != (ctx, va)), uids := s2.uids + 1,
            copies := s2.copies ++ [{
              id := s2.uids, seed := s2.uids, q := .front die, uid := 0, gidx := 0, ctx := ctx, sup := false,
              cls := 15, scope := 4, post := none, desc := descOf d blankBlock 0, next := 0, run := .queued, node := some va, wsload := ws,
              held := false, late := [], staged := [], hold := none, lost := [], pages := [] }] })))) ∧
    -- COND
    (takes 4 → ∀ s2 g, nodeRead ctx va (word 4) 8 8 on = (s2, g) → off s2 (.nodeCond ctx va) g ∧
      ∀ l, g = .ok l → ∀ s3 list, readList ctx va (word 5 + 16 * min (ofBytes l) (word 6 % 65536 - 1)) 2 s2 = (s3, .ok list) →
        exec (.nodeCond ctx va) s = .next (completeWith ctx va (list.getD 0 0) (list.getD 1 0) s3)) ∧
    -- LOOP
    (takes 5 →
      let n := word 6
      let mode := word 5 / 2 ^ 16 % 4
      let iter := if word 0 / 2 ^ 58 % 4 = 0 then 0 else kget 0 s1.passes (ctx, va) + 1
      let s2 := putWord ctx (va + 8) (word 1 / 2 ^ 32 % 2 ^ 32 * 2 ^ 32 + iter % 2 ^ 32)
        (active ctx va { s1 with passes := kset (ctx, va) iter s1.passes })
      (∀ e ∈ s1.ext, e.owner ≠ .node ctx va) →
      (∀ s3 g, mode = 1 → nodeRead ctx va (word 7) 8 8 s2 = (s3, g) → off s3 (.nodeLoop ctx va) g) ∧
      ∀ s3 x, (mode = 0 ∧ s3 = s2 ∧ x = 1) ∨ (mode = 1 ∧ ∃ l, nodeRead ctx va (word 7) 8 8 s2 = (s3, .ok l) ∧ x = ofBytes l) →
        let goes := (mode = 0 ∧ iter < n) ∨ (mode = 1 ∧ x ≠ 0 ∧ (n = 0 ∨ iter < n))
        (¬ goes → exec (.nodeLoop ctx va) s = .next (completeNode ctx va { s3 with passes := s3.passes.filter fun e => e.1 != (ctx, va) })) ∧
        (goes → ∀ s4 body s5 ws, readList ctx va (word 4) (word 5 % 65536) s3 = (s4, .ok body) →
          readAll (readNode ctx) body s4 = (s5, .ok ws) →
          ((∃ b ∈ body, nodeWord s5 ctx b 0 / 2 ^ 58 % 4 = 1) → exec (.nodeLoop ctx va) s = .next (failNode ctx va die 0 va s5)) ∧
          ((∀ b ∈ body, nodeWord s5 ctx b 0 / 2 ^ 58 % 4 ≠ 1) →
            let s6 := body.foldl (fun s b => rearm ctx b s) { s5 with ext := s5.ext.filter fun e => e.owner != .node ctx va }
            let c := nodeWord s6 ctx va 0
            let s7 := putWord ctx va (c - c % 2 ^ 32 + 1) s6
            exec (.nodeLoop ctx va) s = .next ((body.filter fun b => nodeWord s7 ctx b 1 / 2 ^ 32 % 2 ^ 32 = 0).foldl
              (fun s b => makeReady false ctx b s) s7)))) ∧
    -- SIGNAL
    (takes 6 →
      (word 0 % 2 ^ 32 = 0 → exec (.nodeSignal ctx va) s =
        .next (completeNode ctx va { s1 with signalled := s1.signalled.filter (· != (ctx, va)) })) ∧
      (word 0 % 2 ^ 32 ≠ 0 → exec (.nodeSignal ctx va) s = .next (waitsOn ctx va on))) ∧
    -- WAIT
    (∀ i, (i = Instr.nodeWait ctx va ∧ takes 7) ∨ (i = Instr.waitNodeRetest ctx va ∧ (ctx, va) ∈ s.waits) →
      let t := if i = Instr.nodeWait ctx va then waitsOn ctx va on else s
      ∀ s2 g, nodeRead ctx va (nodeWord t ctx va 4) 8 8 t = (s2, g) → off s2 i g ∧
        ∀ l, g = .ok l →
          let now := [0, 0, 0, 0, 0, nodeWord t ctx va 5, nodeWord t ctx va 6]
          exec i s = .next (if waitHolds now (ofBytes l) then completeNode ctx va s2 else s2)) ∧
    -- END
    (takes 9 →
      (word 4 = 0 → exec (.nodeEnd ctx va) s = .next (completeNode ctx va on)) ∧
      (word 4 ≠ 0 → word 4 < 2 ^ 52 → ∀ s2, storeAt { nodeEnv on ctx va with scope := 5 } (addrWord (word 4)) 8 (toBytes 8 (word 5)) on = (s2, .ok ()) →
        exec (.nodeEnd ctx va) s = .next (completeNode ctx va s2)))

namespace Sys2Proof.Rules

/-- The checkpoint of a node stands in a phase. -/
def InPhase (s : State) (ctx va : Nat) (p : CkptPhase) (c : Ckpt) : Prop :=
  s.ckpts.find? (fun c => c.ctx == ctx && c.va == va && c.phase == p) = some c

def setCkpt (c : Ckpt) (f : Ckpt → Ckpt) (s : State) : State :=
  { s with ckpts := s.ckpts.map fun x => if x.ctx = c.ctx ∧ x.va = c.va then f x else x }

/-- What follows an access of a phase: it waits for its answer; the answer is counted; a failure ends the checkpoint with cause 0x13. -/
def Accesses (i : Instr) (c : Ckpt) (o : CkOp) (s : State) : Prop :=
  ∀ u, (ckAccess c o s = (u, .stall) → exec i s = .next u) ∧
    (∀ l, ckAccess c o s = (u, .ok l) →
      exec i s = .next (setCkpt c (fun x => { x with got := x.got ++ [match o with
        | .read _ _ => l
        | .write _ _ => []] }) u)) ∧
    (∀ k a b, ckAccess c o s = (u, .trap k a b) →
      exec i s = .next (failCkpt c (if ckLost s c then 3 else 4) 0x13 (0x400000000000 + ckPeer c.desc * 2 ^ 41 + c.desc.getD 3 0) u))

/-- The skim has ended (R438): the records stand in the reserve, the cut record first, each with what memory holds, or with what has
been read where a page lies in an aperture; D of every copied page is clear and its translation gone; the drain follows under the next
number. -/
def Skimmed (c : Ckpt) (s : State) (t : Host.Outcome State Fault Refusal) : Prop :=
  let cut := cutRecord s c
  let rs := skimRecords s c
  let total := 64 + pad64 cut.length + (rs.map fun r => 64 + pad64 r.2.2.2).sum
  let u := (skimLeaves s c).foldl (fun s x => cleanLeaf c x s) (writeRecords (c.desc.getD 1 0) ((3, c.gen, cut) :: skimData s rs c.got) s)
  ∀ v, ckptStatus c 3 0 u = (v, none) → v.notices = [] →
    t = .next { v with
      uids := v.uids + 1,
      ckpts := v.ckpts.map fun x => if x.ctx = c.ctx ∧ x.va = c.va
        then { c with phase := .drain, bytes := total, id := v.uids, got := [] } else x }

/-- A phase ends and another follows. -/
def toPhase (c : Ckpt) (p : CkptPhase) (s : State) : State := setCkpt c (fun x => { x with phase := p, got := [] }) s

end Sys2Proof.Rules

/-- R435 to R442: a CKPT node starts with a good descriptor: PHASE 1, and a pre-emption request for every block beneath its RCB;
without enough frames it fails with REASON 1. The cut is skimmed once nothing runs: PHASE 2 and 3, the records in the reserve, pages in
apertures read one access each, D cleared; a reserve that is too small fails with REASON 2. The drain waits for the copies ahead, applies an earlier log, writes the log;
the commit writes GEN, the length and 1 to its head; the mirror is written; the head is marked 2; then GEN and PHASE 4 are written and
the node completes. An access without an answer waits, and one that is rejected or lost fails the checkpoint. A restore copies its
pieces, refuses a cut record that is not one with REASON 2, accepts the launches, and completes the node that wrote the checkpoint and
its own. It rests on the model's readings or choices of log 48, 49, 80 and 84. -/
def Obligations.CheckpointsCutDrainAndRestore : Prop :=
  (∀ (ctx va : Nat) (s s1 s2 : State) (w : List Nat) (l : List Byte) (restore : Bool),
    let a := w.getD 4 0
    let die := w.getD 0 0 / 2 ^ 56 % 4
    let i : Instr := if restore then .ckptRestore ctx va else .ckptStart ctx va
    NodeTaken ctx va 8 s s1 w → (restore = true → ∀ c ∈ s.ckpts, c.ctx = ctx ∧ c.va = va → c.phase ≠ .restoreApply ∧ c.phase ≠ .restoreAccept) →
    homeRead ctx va a 192 64 s1 = (s2, .ok l) →
    let d := (List.range 24).map fun k => ofBytes ((l.drop (8 * k)).take 8)
    (∀ k x, ckptFault s2 ctx a d = some (k, x) → exec i s = .next (failNode ctx va die k x s2)) ∧
    (ckptFault s2 ctx a d = none →
      ((∃ c ∈ s2.ckpts, c.ctx = ctx ∧ c.addr = a) → exec i s = .next { s2 with pending := s2.pending ++ [i] }) ∧
      ((∀ c ∈ s2.ckpts, ¬ (c.ctx = ctx ∧ c.addr = a)) →
        let rcb := nodeRcb s2 ctx va
        let on := active ctx va s2
        let c (p : CkptPhase) : Ckpt :=
          { ctx := ctx, va := va, die := die, rcb := rcb, addr := a, desc := d, id := 0, gen := d.getD 7 0 + 1, phase := p, bytes := 0,
            got := [], record := [] }
        (d.getD 0 0 / 2 ^ 59 % 2 = 1 → exec i s = .next { on with ckpts := on.ckpts ++ [c .restoreApply] }) ∧
        (d.getD 0 0 / 2 ^ 59 % 2 = 0 → ∀ s3, ckptStatus (c .cut) 1 0 on = (s3, none) →
          let free := numFrames s3 ctx -
            ((s3.blocks.filter fun b => sameSpill s3 (blockCtx s3 b) ctx).flatMap fun b => b.frame.toList ++ b.nextFrame.toList).length
          (free < (residentsBeneath s3 rcb).length → exec i s = .next (failCkpt (c .cut) 1 0x0A a s3)) ∧
          ((residentsBeneath s3 rcb).length ≤ free → exec i s = .next (requestAll rcb { s3 with ckpts := s3.ckpts ++ [c .cut] })))))) ∧
  (∀ (ctx va : Nat) (s : State) (c : Ckpt), InPhase s ctx va .cut c → (∀ x ∈ s.ckpts, x.ctx = ctx ∧ x.va = va → x = c) → c.got = [] →
    (cutDone s c = false → exec (.ckptCut ctx va) s = .next (requestAll c.rcb s)) ∧
    (cutDone s c = true → ∀ s1, ckptStatus c 2 0 s = (s1, none) →
      let n := (cutRecord s1 c).length
      let total := 64 + pad64 n + ((skimRecords s1 c).map fun r => 64 + pad64 r.2.2.2).sum
      let small := c.desc.getD 2 0 < total ∨ c.desc.getD 4 0 - 64 < total ∨ 65536 < n
      (small → exec (.ckptCut ctx va) s = .next (failCkpt c 2 0x0A c.addr s1)) ∧
      (¬ small → exec (.ckptCut ctx va) s = exec (.ckptCut ctx va) (setCkpt c (fun x => { x with phase := .skim, got := [] }) s1)))) ∧
  (∀ (ctx va : Nat) (s : State) (c : Ckpt), InPhase s ctx va .skim c →
    let i := Instr.ckptCut ctx va
    let rs := skimRecords s c
    let far := rs.filter fun r => isAperture s r.2.2.1
    (∀ r, far[c.got.length]? = some r → ∀ u g, apertureAccess (ckEnv c) (addrWord r.2.1) r.2.2.1 r.2.2.2 none .read s = (u, g) →
      (g = .stall → exec i s = .next u) ∧
      (∀ l, g = .ok l → exec i s = .next (setCkpt c (fun x => { x with got := x.got ++ [l] }) u)) ∧
      (∀ k a b, g = .trap k a b → exec i s = .next (failCkpt c 5 k r.2.1 u))) ∧
    (far.length ≤ c.got.length →
      (∀ r, rs.find? (fun r => badIn s r.2.2.1 r.2.2.2) = some r → exec i s = .next (endDomain c.ctx c.die 0x14 (addrWord r.2.1) s)) ∧
      ((∀ r ∈ rs, badIn s r.2.2.1 r.2.2.2 = false) →
        ((∃ x ∈ skimLeaves s c, inFlight 2 (ctxAsid s c.ctx) x.2.1 s = true) → exec i s = .next s) ∧
        ((∀ x ∈ skimLeaves s c, inFlight 2 (ctxAsid s c.ctx) x.2.1 s = false) → Skimmed c s (exec i s))))) ∧
  (∀ (ctx va : Nat) (s : State) (c : Ckpt),
    (InPhase s ctx va .drain c →
      ((∃ x ∈ s.copies, x.q = .front c.die ∧ x.id < c.id) → exec (.ckptDrain ctx va) s = .next s) ∧
      ((∀ x ∈ s.copies, ¬ (x.q = .front c.die ∧ x.id < c.id)) →
        (drainOp s c = none → exec (.ckptDrain ctx va) s = .next (toPhase c .commit s)) ∧
        (∀ o, drainOp s c = some o → Accesses (.ckptDrain ctx va) c o s))) ∧
    (InPhase s ctx va .commit c →
      (c.got = [] → Accesses (.ckptCommit ctx va) c (.write 0 (toBytes 8 c.gen ++ toBytes 8 c.bytes ++ toBytes 8 1)) s) ∧
      (c.got ≠ [] → exec (.ckptCommit ctx va) s = .next (toPhase c .apply s))) ∧
    (InPhase s ctx va .apply c →
      (mirrorOp s c c.got.length = none → exec (.ckptApply ctx va) s = .next (toPhase c .applyDone s)) ∧
      (∀ o, mirrorOp s c c.got.length = some o → Accesses (.ckptApply ctx va) c o s)) ∧
    (InPhase s ctx va .applyDone c →
      (c.got = [] → Accesses (.ckptApplyDone ctx va) c (.write 16 (toBytes 8 2)) s) ∧
      (c.got ≠ [] → ∀ a, peekBad s c.ctx (c.addr + 56) .read true = some a →
        exec (.ckptApplyDone ctx va) s = .next (endDomain c.ctx c.die 0x14 (addrWord a) s)) ∧
      (c.got ≠ [] → peekBad s c.ctx (c.addr + 56) .read true = none → ∀ s1, ckptStatus c 4 0 (putWord c.ctx (c.addr + 56) c.gen (dropCkpt c s)) = (s1, none) →
        exec (.ckptApplyDone ctx va) s = .next (completeNode c.ctx c.va s1))) ∧
    (InPhase s ctx va .restoreApply c →
      let i := Instr.ckptRestore ctx va
      (∀ o, oldApply c.desc c.got = .inl o → Accesses i c o s) ∧
      (oldApply c.desc c.got = .inr [] → Accesses i c (.read (c.desc.getD 4 0) 65536) s) ∧
      (∀ l rest, oldApply c.desc c.got = .inr (l :: rest) →
        (ofBytes (l.take 8) ≠ 0x53484B43 → exec i s = .next (failCkpt c 2 0x0A c.addr s)) ∧
        (cutBad s c.ctx l = false →
          let k := (rest.filter (·.isEmpty)).length
          let stored (t : State) : Host.Outcome State Fault Refusal := .next (setCkpt c (fun y => { y with got := y.got.dropLast ++ [[]] }) t)
          ((restorePlan c.desc (cutFrames l))[k]? = none → exec i s =
            .next (setCkpt c (fun x => { x with phase := .restoreAccept, got := [], record := l, gen := ofBytes ((l.drop 8).take 8) }) s)) ∧
          (∀ off dst, (restorePlan c.desc (cutFrames l))[k]? = some (off, dst) →
            (rest[k]? = none → Accesses i c (.read off 65536) s) ∧
            (∀ x, rest[k]? = some x →
              (∀ f o, dst = .slot f o → exec i s = stored (physWrite none (spillSlot s c.ctx f + o) x s)) ∧
              (∀ v u g, dst = .va v → writeLoc (ckEnv c) (addrWord v) (.glob v) x .write s = (u, g) →
                (g = .ok () → exec i s = stored u) ∧ (g = .stall → exec i s = .next u) ∧
                (∀ n a b, g = .trap n a b → exec i s = .next (failCkpt c 5 n a.toNat u)))))))) ∧
    (InPhase s ctx va .restoreAccept c → (∀ x ∈ s.ckpts, x.ctx = ctx ∧ x.va = va → x.phase ≠ .restoreApply) →
      let k := c.got.length
      let n := ofBytes ((c.record.drop 0x18).take 4)
      let e := entryAvailable s c.die (packetRcb s c.ctx (cutLaunch s c k).packet)
      (k < n → e = false → exec (.ckptRestore ctx va) s = .next s) ∧
      (k < n → e = true → exec (.ckptRestore ctx va) s = .next (acceptSaved c k (setCkpt c (fun x => { x with got := x.got ++ [[]] }) s))) ∧
      (n ≤ k → exec (.ckptRestore ctx va) s =
        .next (ckptDone c (completeNode c.ctx (ofBytes ((c.record.drop 0x10).take 8)) s)))))

namespace Sys2Proof.Rules

/-- A port changed. -/
def portTo (port : Nat) (f : HostPort → HostPort) (s : State) : State := { s with ports := vset s.ports port (f (vget s.ports port)) }

/-- A command of a port completes with a result. -/
def result (port : Nat) (r : Byte) (s : State) : State := portTo port (fun p => { p with busy := false, result := r }) s

/-- The commands by code (R450). -/
def commandFor (code port : Nat) : Option Instr :=
  match code with
  | 1 => some (.resync port)
  | 2 => some (.mailboxTlbinv port)
  | 3 => some (.setis port)
  | 4 => some (.handover port)
  | 5 => some (.attest port)
  | 6 => some (.setroute port)
  | 7 => some (.setwin port)
  | _ => none

/-- HOST of a context turned over. -/
def otherHost (ctx : Nat) (s : State) : State :=
  let w := rcbWord s ctx 0
  physPut none ctx 8 (if w / 2 ^ 44 % 2 = 1 then w - 2 ^ 44 else w + 2 ^ 44) s

/-- A host has failed: its port says so, the accesses at its aperture fail, and its contexts, here one at most, pass to the other port,
which is told of the failure and, die by die, of the slots of a context without a service kernel. -/
def Failed (port : Nat) (s t : State) : Prop :=
  let mine := (knownCtxs s).filter fun c => ctxHost s c == port
  let dead := portTo port (fun p => { p with alive := false, failed := true }) s
  let moved := match mine with
    | [c] => otherHost c dead
    | _ => dead
  mine.length ≤ 1 →
    t = { moved with sent := t.sent, ext := s.ext.map fun e =>
      if (paKind moved e.pa == .host port && e.got.isNone) = true then { e with got := some none } else e } ∧
    (∀ x ∈ s.sent, x ∈ t.sent) ∧ .irq (1 - port) (1 - port) 1 0 ∈ t.sent ∧
    ∀ c ∈ mine, rcbWord moved c 9 = 0 → ∀ die < 4, ∀ i ∈ occupied moved (queueBase moved c die),
      slotWord moved (queueBase moved c die) i 2 = c → .irq (1 - port) die 0 i ∈ t.sent

/-- The bytes l from address pa on stand in the DRAM of t, where there is DRAM; every other byte of memory is that of s. -/
def DramHolds (pa : Nat) (l : List Byte) (s t : State) : Prop :=
  ∀ a, sget 0 t.mem a = if pa ≤ a ∧ a < pa + l.length ∧ isDram s a = true then l.getD (a - pa) 0 else sget 0 s.mem a

end Sys2Proof.Rules

/-- R449 to R454, R434, R443, R448, R90, R92: the mailbox. A heartbeat marks the host alive; a write of MBCMD starts its command,
leaves 1 for an unknown code, is ignored while one runs, and before the signature check has passed only ATTEST runs; a good value of a
power word is taken and a bad one is not; a die at rest leaves it first. Registers that hold a value read as it stands. RESYNC sends 64 KiB to a 64 KiB boundary, SETIS changes the
share while no context is known and keeps every byte in its stack, HANDOVER passes a context that the port owns, ATTEST reads its nonce and sends a report of the
nonce, the level and the faulty columns, which leaves RESULT 3 in the boot state,
SETROUTE and SETWIN write a route and a window; a bad argument gives 2 and a refusal 3. R451: three missed periods, or a link down,
fail a host. It rests on the model's readings or choices of log 13, 14, 47, 50, 51, 90,
91, 92 and 112. -/
def Obligations.HostsAndTheMailbox : Prop :=
  ∀ (s : State) (port : Nat), port < 2 →
    let p := vget s.ports port
    (vget s.depth port = 0 → exec (.heartbeat port) s =
      .next (portTo port (fun p => { p with alive := true, failed := false, lastBeat := s.now }) s)) ∧
    (vget s.depth port ≠ 0 → exec (.heartbeat port) s = .next { s with
      pending := (if s.pending.contains (.restExit port) then [.heartbeat port] else [.restExit port, .heartbeat port]) ++ s.pending }) ∧
    (p.failed = false → p.lastBeat + 3 * p.hbper.toNat * 1000000 ≤ s.now → ∃ t, exec (.hostFailed port) s = .next t ∧ Failed port s t) ∧
    (p.failed = true ∨ s.now < p.lastBeat + 3 * p.hbper.toNat * 1000000 → exec (.hostFailed port) s = .next s) ∧
    (p.failed = false → ∃ t, exec (.hostLinkDown port) s = .next t ∧ Failed port s t) ∧
    (p.failed = true → exec (.hostLinkDown port) s = .next s) ∧
    (∀ (off : Nat) (x : Word),
      let i := Instr.mailboxWrite port off x
      let code := x.toNat % 256
      (∀ die < 4, off = 0x40 + 8 * die → exec i s = exec (.submitDoorbell port die x.toNat) s) ∧
      (∀ die < 4, off = 0x60 + 8 * die → exec i s = exec (.faultDoorbell port die (x.toNat % 4096)) s) ∧
      (off < 0x40 ∨ 0x80 ≤ off → vget s.depth port ≠ 0 → exec i s =
        .next { s with pending := (if s.pending.contains (.restExit port) then [i] else [.restExit port, i]) ++ s.pending }) ∧
      (vget s.depth port = 0 →
        (off = 0 → p.busy = true → exec i s = .next { s with ignored := s.ignored + 1 }) ∧
        (off = 0 → p.busy = false → s.booted = false → code ≠ 5 → exec i s = .next (portTo port (fun p => { p with result := 3 }) s)) ∧
        (off = 0 → p.busy = false → s.booted = true ∨ code = 5 →
          (∀ c, commandFor code port = some c → exec i s = .next { (portTo port (fun p => { p with busy := true }) s) with pending := s.pending ++ [c] }) ∧
          (commandFor code port = none → exec i s = .next (portTo port (fun p => { p with result := 1 }) s))) ∧
        (off = 0x08 → exec i s = .next (portTo port (fun p => { p with arg0 := x }) s)) ∧
        (off = 0x10 → exec i s = .next (portTo port (fun p => { p with arg1 := x }) s)) ∧
        (off = 0x18 → exec i s = .next (portTo port (fun p => { p with arg2 := x }) s)) ∧
        (off = 0x80 → exec i s = exec (.heartbeat port) s) ∧
        (off = 0x88 → 10 ≤ x.toNat → x.toNat ≤ 10000 → exec i s = .next (portTo port (fun p => { p with hbper := BitVec.ofNat 16 x.toNat }) s)) ∧
        (off = 0x1000 → exec i s = .next (if 80 ≤ x.toNat ∧ x.toNat ≤ 105 then { s with tripC := BitVec.ofNat 8 x.toNat } else s)) ∧
        (off = 0x1008 → exec i s = .next (if 75 ≤ x.toNat ∧ x.toNat ≤ 100 then { s with tripD := BitVec.ofNat 8 x.toNat } else s)) ∧
        (off = 0x1010 → exec i s = .next (if 1 ≤ x.toNat ∧ x.toNat ≤ 32 then { s with panper := BitVec.ofNat 8 x.toNat } else s)) ∧
        (off = 0x1018 → x.toNat < 2 ^ 32 → exec i s = .next { s with lattol := BitVec.ofNat 32 x.toNat }) ∧
        (off = 0x1020 → x.toNat < 2 → exec i s = .next { s with boost := decide (x = 1) }))) ∧
    (∀ n : Nat,
      let reads (off x : Nat) : Prop := exec (.hostMemoryRead port (2 ^ 48 + off) n) s =
        .next { s with sent := .bytes port (2 ^ 48 + off) (toBytes 8 x) :: s.sent }
      reads 0x08 p.arg0.toNat ∧ reads 0x10 p.arg1.toNat ∧ reads 0x18 p.arg2.toNat ∧
      reads 0x20 ((if p.busy then 2 ^ 63 else 0) + p.result.toNat) ∧ reads 0x88 p.hbper.toNat ∧
      reads 0x90 (b2n (vget s.ports (1 - port)).alive + 2 * b2n (vget s.ports (1 - port)).failed) ∧
      reads 0x1000 s.tripC.toNat ∧ reads 0x1008 s.tripD.toNat ∧ reads 0x1010 s.panper.toNat ∧ reads 0x1018 s.lattol.toNat ∧
      reads 0x1020 (b2n s.boost) ∧
      reads 0x1028 (vget s.depth 0 + 8 * vget s.depth 1 + 64 * vget s.depth 2 + 512 * vget s.depth 3) ∧
      reads 0x1030 ((List.range 24).map fun k => if (vget s.domains k).throttled then 2 ^ k else 0).sum) ∧
    (p.busy = true →
      (p.arg0.toNat % 65536 ≠ 0 → exec (.resync port) s = .next (result port 2 s)) ∧
      (p.arg0.toNat % 65536 = 0 → ∃ l, l.length = 65536 ∧
        l.take 40 = [0x53594E43, 1, tickOf s 0, s.share, 1].flatMap (toBytes 8) ∧
        (l.drop 48).take 24 = [s.discarded, s.ignored, s.rejected].flatMap (toBytes 8) ∧
        exec (.resync port) s = .next (result port 0 { s with sent := .bytes port p.arg0.toNat l :: s.sent, free := s.free + 20 })) ∧
      (6 < p.arg0.toNat → exec (.setis port) s = .next (result port 2 s)) ∧
      (p.arg0.toNat ≤ 6 → knownCtxs s ≠ [] → exec (.setis port) s = .next (result port 3 s)) ∧
      (p.arg0.toNat ≤ 6 → knownCtxs s = [] → ∃ t, exec (.setis port) s = .next (result port 0 t) ∧
        t = { s with share := p.arg0.toNat, mem := t.mem, bad := t.bad, l1 := [], stale := [], past := [], links := t.links } ∧
        (Memory.wf s.mem = true → s.share ≤ 6 → (∀ c ∈ s.mem, isDram s c.1 = true) →
          ∀ a, isDram s a = true → sget 0 t.mem (addrOf p.arg0.toNat (cellOf s.share a)) = sget 0 s.mem a)) ∧
      (let r := p.arg0.toNat
       let bad := r % 128 ≠ 0 ∨ isDram s r = false ∨ rcbKind s r ≠ 1
       (bad → exec (.handover port) s = .next (result port 2 s)) ∧
       (¬ bad → ctxHost s r ≠ port → exec (.handover port) s = .next (result port 3 s)) ∧
       (¬ bad → ctxHost s r = port → exec (.handover port) s = .next (result port 0 (otherHost r s)))) ∧
      (let ends (r : Byte) (t : State) : Host.Outcome State Fault Refusal := .next (result port (if s.booted = true then r else 3) t)
       (s.ext.find? (fun e => e.owner == .mailbox port) = none →
         (p.failed = true → exec (.attest port) s = ends 2 s) ∧
         (p.failed = false → exec (.attest port) s = .next (pendLane (.attest port) { s with
           uids := s.uids + 1,
           ext := s.ext ++ [{
             id := s.uids, owner := .mailbox port, va := p.arg0.toNat % 2 ^ 52, pa := 0x800000000000 + port * 2 ^ 46 + p.arg0.toNat % 2 ^ 46,
             n := 64, data := none, cls := 15, link := 16, got := none, kept := [] }] }))) ∧
       (∀ e, s.ext.find? (fun e => e.owner == .mailbox port) = some e →
         let off : State := { s with ext := s.ext.filter fun x => x.id != e.id }
         (e.got = none → exec (.attest port) s = .next (pendLane (.attest port) s)) ∧
         (e.got = some none → exec (.attest port) s = ends 2 off) ∧
         (∀ nonce, e.got = some (some nonce) → nonce.length = 64 → ∃ l, 64 + 64 + 4 + 512 + 512 ≤ l.length ∧ l.length ≤ 4096 ∧ l.take 64 = nonce ∧
           (l.drop 128).take 4 = [1, 0, 0, 0] ∧
           (l.drop 132).take 512 = ((List.range 512).map fun i =>
             BitVec.ofNat 8 (faultyOf { die := i / 128, cl := i / 32 % 4, site := i % 32, part := 0 })) ∧
           exec (.attest port) s = ends 0 { off with sent := .bytes port p.arg1.toNat l :: s.sent, free := s.free + 3517 }))) ∧
      (32 ≤ p.arg0.toNat ∨ 2 ^ 16 ≤ p.arg1.toNat → exec (.setroute port) s = .next (result port 2 s)) ∧
      (p.arg0.toNat < 32 → p.arg1.toNat < 2 ^ 16 → exec (.setroute port) s =
        .next (result port 0 { s with routes := vset s.routes p.arg0.toNat (BitVec.ofNat 16 p.arg1.toNat) })) ∧
      (16 ≤ p.arg0.toNat % 256 ∨ 2 ^ 10 ≤ p.arg0.toNat → exec (.setwin port) s = .next (result port 2 s)) ∧
      (p.arg0.toNat % 256 < 16 → p.arg0.toNat < 2 ^ 10 → exec (.setwin port) s = .next (result port 0 { s with
        windows := vset s.windows (p.arg0.toNat % 256) {
          base := p.arg1.toNat, size := p.arg2.toNat,
          read := p.arg0.getLsbD 8, write := p.arg0.getLsbD 9 } })))

/-- R41, R137, R448, R95, R444 to R447: accesses from outside and answers to the device's own. A host write reaches DRAM, and of the
weight store the bytes that no context guards; the others are dropped with an EVENT 4 record. A peer's access outside its windows is
rejected, and the peer is told; within them a write reaches DRAM and is acknowledged, and a read is answered. A home die at rest is woken. An answer is taken by the access that waits for it, and a posted
store is gone with its answer. A replay and a pause are counted, a re-width pauses the link until it ends, and a link that goes down
leaves every route and loses what it held. It rests on the model's readings or choices of log 17, 47, 93 and 95. -/
def Obligations.OutsideAccessesAndLinks : Prop :=
  (∀ (s : State) (port pa n : Nat) (l : List Byte), Memory.wf s.mem = true →
    let home := homeDie s pa
    let wakes := if vget s.depth home = 0 then s.pending else s.pending ++ [.restExit home]
    (∃ t, exec (.hostMemoryWrite port (.phys pa) l) s = .next t ∧ DramHolds pa l s t ∧
      t = { s with mem := t.mem, past := t.past, stamp := t.stamp, stale := t.stale, links := t.links, pending := wakes }) ∧
    (pa < 2 ^ 48 → (∀ k < n, isDram s (pa + k) = true) → badIn s pa n = false →
      exec (.hostMemoryRead port pa n) s = .next { s with
        sent := .bytes port pa (physBytes s pa n) :: s.sent, settled := max s.settled s.stamp, pending := wakes }) ∧
    (∀ peer, vget s.depth (homeDie s pa) = 0 →
      let window (write : Bool) (n : Nat) : Prop := ∃ w ∈ s.windows.toList, w.base ≤ pa ∧ pa + n ≤ w.base + w.size ∧
        (if write then w.write else w.read) = true
      let turned : State := { s with rejected := s.rejected + 1, sent := .reply peer pa false :: s.sent }
      (¬ window true l.length → exec (.peerAccess peer pa n (some l)) s = .next turned) ∧
      (window true l.length → ∃ t, exec (.peerAccess peer pa n (some l)) s = .next t ∧ DramHolds pa l s t ∧
        t = { s with
          mem := t.mem, past := t.past, stamp := t.stamp, stale := t.stale, links := t.links, sent := .reply peer pa true :: s.sent }) ∧
      (¬ window false n → exec (.peerAccess peer pa n none) s = .next turned) ∧
      (window false n → (∀ k < n, isDram s (pa + k) = true) → badIn s pa n = false →
        exec (.peerAccess peer pa n none) s = .next { s with
          sent := .bytes (2 + peer) pa (physBytes s pa n) :: s.sent, settled := max s.settled s.stamp }))) ∧
  (∀ (s : State) (port die off : Nat) (l : List Byte), die < 4 → off + l.length ≤ 0x30000000 → swf (0 : Byte) (vget s.cellar die) = true →
    let kept (o : Nat) : Prop := ∃ c ∈ knownCtxs s, cellarOwned s c die o = true ∧
      ((∃ k ∈ s.launches, k.ctx = c) ∨ ∃ x ∈ s.copies, x.wsload = true ∧ x.ctx = c)
    ∃ t, exec (.hostMemoryWrite port (.cellar die off) l) s = .next t ∧
      (∀ o, off ≤ o → o < off + l.length → ¬ kept o → sget 0 (vget t.cellar die) o = l.getD (o - off) 0) ∧
      (∀ o, o < off ∨ off + l.length ≤ o ∨ kept o → sget 0 (vget t.cellar die) o = sget 0 (vget s.cellar die) o) ∧
      ((∀ o, off ≤ o → o < off + l.length → ¬ kept o) → t.discarded = s.discarded ∧ t.mem = s.mem) ∧
      ((∃ o, off ≤ o ∧ o < off + l.length ∧ kept o) → t.discarded = s.discarded + 1)) ∧
  (∀ (s : State) (id : Nat) (e : ExtReq) (l : List Byte) (data : Option (List Byte)),
    (s.ext.find? fun e => e.id == id) = some e → e.got = none →
    let peer := ∃ k, paKind s e.pa = .peer k
    let taken (g : Option (List Byte)) : Host.Outcome State Fault Refusal :=
      match e.owner with
      | .posted _ _ => .next { s with ext := s.ext.filter fun x => x.id != id }
      | .notice _ _ _ => .next (retryNotices { s with ext := modFirst (fun x => x.id == id) (fun x => { x with got := some g }) s.ext })
      | _ => .next { s with ext := modFirst (fun x => x.id == id) (fun x => { x with got := some g }) s.ext }
    (peer → e.data.isSome = true → exec (.peerStoreAck id) s = taken (some [])) ∧
    (peer → exec (.peerResponse id data) s = taken data) ∧
    ((∀ x ∈ s.ext, x.id = id → ∀ k, paKind s x.pa ≠ .peer k) → exec (.hostApertureCompletion id (some l)) s = taken (some l)) ∧
    ((∀ x ∈ s.ext, x.id = id → ∀ k, paKind s x.pa ≠ .peer k) → (∀ c d, e.owner ≠ .posted c d) →
      exec (.hostApertureCompletion id none) s = taken none)) ∧
  (∀ (s : State) (k lanes : Nat), k < 16 →
    let x := vget s.wires k
    let wire (y : LinkState) : Host.Outcome State Fault Refusal := .next { s with wires := vset s.wires k y }
    exec (.flitReplay k) s = wire { x with replays := x.replays + 1 } ∧
    exec (.pause k) s = wire { x with paused := true, pauses := x.pauses + 1 } ∧
    exec (.resume k) s = wire { x with paused := false } ∧
    (lanes = 2 ∨ lanes = 4 ∨ lanes = 8 → x.up = true → exec (.linkRewidth k lanes) s = wire { x with rewidth := some lanes, paused := true }) ∧
    (∀ n, x.rewidth = some n → exec (.linkRewidthEnd k) s = wire { x with lanes := n, rewidth := none, paused := false }) ∧
    (x.up = true → ∃ t, exec (.linkDown k) s = .next t ∧
      (vget t.wires k).up = false ∧ (vget t.wires k).downs = x.downs + 1 ∧
      ((∀ e ∈ s.ext, ∀ a b c, e.owner ≠ .notice a b c) → vget t.wires k = { x with up := false, downs := x.downs + 1, rewidth := none }) ∧
      (∀ p < 32, (vget t.routes p).getLsbD k = false ∧ ∀ j, j ≠ k → (vget t.routes p).getLsbD j = (vget s.routes p).getLsbD j) ∧
      ((s.ext.map (·.id)).Nodup → ∀ e ∈ t.ext, e.link = k → e.got ≠ none)))

namespace Sys2Proof.Rules

/-- Every cluster that is not throttled takes a clock step. -/
def clocksBy (f : Nat → Nat → Nat) (s t : State) : Prop :=
  ∀ i < 20, vget t.clocks i = if (vget s.domains i).throttled = true then vget s.clocks i else f i (vget s.clocks i)

/-- The domains' next state (R426): `t` the sample and `tp` the trip point in eighths of a degree, `dwell` in nanoseconds. -/
def nextThrottled (was : Bool) (t tp dwell : Nat) : Bool :=
  if was then !(decide (t < tp - 24) && decide (2000000 ≤ dwell)) else decide (tp + 80 ≤ t) || (decide (tp ≤ t) && decide (2000000 ≤ dwell))

/-- A background task of a die counted at its tick (R432). -/
def Counted (die kind : Nat) (s t : State) : Prop :=
  t = { s with tasks := t.tasks } ∧
  (t.tasks.find? fun x => x.die == die && x.kind == kind) = some
    { die := die, kind := kind, last := tickOf s die,
      count := ((s.tasks.find? fun x => x.die == die && x.kind == kind).map (·.count)).getD 0 + 1 } ∧
  ∀ d k, (d, k) ≠ (die, kind) → (t.tasks.find? fun x => x.die == d && x.kind == k) = s.tasks.find? fun x => x.die == d && x.kind == k

/-- Where an exchange puts a place (R428, R430). -/
def swapped (p : Pan) (x : Place) : Place :=
  if x.die = p.die ∧ x.cl = p.cl ∧ x.site = p.hot then { x with site := p.cool }
  else if x.die = p.die ∧ x.cl = p.cl ∧ x.site = p.cool then { x with site := p.hot } else x

end Sys2Proof.Rules

/-- R421 to R427, R433, R418, R431, R371, R453: a power sample within the limits moves no clock, and one beyond 3,600 W lowers every
unthrottled cluster by 50 MHz; a classification moves each unthrottled cluster by a step toward its clock, 1,750 MHz without boost; a rise
may be withheld, and is after a sample above the means of the limits; laggards rise before neutral clusters, those hinted .array first; a
thermal sample moves its domain and its cluster's clock; a band that no block enables, and no mma.g that waits in a latch was issued with,
goes off; an idle die takes the deepest rest within LATTOL, up or down, and leaves it; an expired hint is gone; a device reset gives the
state after reset, with RESULT 3 at both ports after a failed signature check. It rests on the model's readings or choices of log 6, 47,
54, 86, 87, 89 and 129. -/
def Obligations.PowerClocksAndRest : Prop :=
  (∀ (s : State) (mw : Nat),
    ∃ t, exec (.powerSample mw) s = .next t ∧ t = { s with
        clocks := t.clocks, powers := t.powers, stretch := t.stretch, calm := t.calm, tasks := t.tasks, free := s.free + 1 } ∧
      t.powers = (mw :: s.powers).take 9999 ∧ t.stretch = (if 3300000 < mw then s.stretch + 100000 else 0) ∧
      (mw ≤ 3300000 → mw + s.powers.sum ≤ 3300000 * (s.powers.length + 1) → t.clocks = s.clocks) ∧
      (3600000 < mw → clocksBy (fun _ f => max 900 (f - 50)) s t)) ∧
  (∀ s : State, ∃ t, exec .boostClassify s = .next t ∧
    t = { s with clocks := t.clocks, arrivals := t.arrivals, tasks := t.tasks, free := s.free + 1 } ∧
    let donor := ∃ j < 20, isLaggard s j = true ∧ (vget s.domains j).throttled = false ∧ 1750 < vget s.clocks j
    let neutral (f g : Nat) : Prop := g = if f < 1750 then min 1750 (f + 50) else max 1750 (f - 50)
    let wants (i f g : Nat) : Prop :=
      (s.boost = true → isLaggard s i = true → g = max f (min 2100 (f + 50))) ∧
      (s.boost = true → isLaggard s i = false → isEarly s i = true →
        (donor → g = min f (max 1400 (f - 50))) ∧ (¬ donor → g = f)) ∧
      (s.boost = false ∨ (isLaggard s i = false ∧ isEarly s i = false) → neutral f g)
    ∀ i < 20,
      let f := vget s.clocks i
      let now := vget t.clocks i
      ((vget s.domains i).throttled = true → now = f) ∧
      ((vget s.domains i).throttled = false → ∀ g, wants i f g →
        (g ≤ f → now = g) ∧ (f < g → now = g ∨ now = f) ∧
        (f < g → 3300000 < s.powers.headD 0 ∨ 3300000 * s.powers.length < s.powers.sum → now = f) ∧
        (f < g → now = f → isLaggard s i = true → ∀ j < 20, isEarly s j = false →
          isLaggard s j = false ∨ (hinted s i 2 = true ∧ hinted s j 2 = false) → vget t.clocks j ≤ vget s.clocks j))) ∧
  (∀ (s : State) (dom temp : Nat), dom < 24 → s.tripC.toNat ≥ 10 → s.tripD.toNat ≥ 10 →
    let x := vget s.domains dom
    let tp := 8 * (if dom < 20 then s.tripC.toNat else s.tripD.toNat)
    let hot := nextThrottled x.throttled temp tp (s.now - x.since)
    ∃ t, exec (.thermalSample dom temp) s = .next t ∧
      t = { s with domains := t.domains, clocks := t.clocks, tasks := t.tasks, free := s.free + 1 } ∧
      (vget t.domains dom).throttled = hot ∧ (vget t.domains dom).temp = temp ∧
      (vget t.domains dom).since = (if hot = x.throttled then x.since else s.now) ∧
      (x.throttled = false → hot = true → (vget t.domains dom).emergency = decide (tp + 80 ≤ temp)) ∧
      (∀ k, k ≠ dom → vget t.domains k = vget s.domains k) ∧ (∀ k, k ≠ dom → vget t.clocks k = vget s.clocks k) ∧
      (dom < 20 → vget t.clocks dom = if hot = true then (if (vget t.domains dom).emergency = true then 900 else 1200)
        else if x.throttled = true then 1750 else vget s.clocks dom)) ∧
  (∀ (s : State) (pl : Place) (band : Nat), band < 4 →
    let core : Place := { pl with part := 0 }
    let used := ∃ b ∈ s.blocks, b.res ≠ .held ∧ { b.place with part := 0 } = core ∧
      (b.ben.getLsbD band = true ∨ ∃ e ∈ b.latch, ∃ m ∈ e.arrived, m.ben.getLsbD band = true)
    (used → exec (.bandPowerOff pl band) s = .next s) ∧
    (¬ used → ∃ t, exec (.bandPowerOff pl band) s = .next t ∧ t = { s with bands := t.bands } ∧
      (kget 0 t.bands core).getLsbD band = false ∧ (∀ k, k ≠ band → (kget 0 t.bands core).getLsbD k = (kget 0 s.bands core).getLsbD k) ∧
      ∀ c, c ≠ core → kget 0 t.bands c = kget 0 s.bands c)) ∧
  (∀ (s : State) (die : Nat), die < 4 →
    let deepest := if 5000 ≤ s.lattol.toNat then 4 else if 200 ≤ s.lattol.toNat then 3 else if 20 ≤ s.lattol.toNat then 2
      else if 2 ≤ s.lattol.toNat then 1 else 0
    let was := vget s.depth die
    let woken (k : Nat) : LinkState := if k / 4 = die ∧ 3 ≤ was then { vget s.wires k with paused := true, rewidth := some 8 } else vget s.wires k
    (dieIdle s die = false → exec (.restEnter die) s = .next s) ∧
    (dieIdle s die = true → ∃ t, exec (.restEnter die) s = .next t ∧ vget t.depth die = deepest ∧
      (∀ k, k ≠ die → vget t.depth k = vget s.depth k) ∧
      t = { s with depth := t.depth, tlb := t.tlb, walker := t.walker, wires := t.wires } ∧
      (deepest < 3 → t.tlb = s.tlb ∧ t.walker = s.walker ∧ ∀ k < 16, vget t.wires k = woken k) ∧
      (3 ≤ deepest → (∀ e, e ∈ t.tlb ↔ e ∈ s.tlb ∧ e.at_.die ≠ die) ∧ (∀ e, e ∈ t.walker ↔ e ∈ s.walker ∧ e.die ≠ die) ∧
        ∀ k < 16, vget t.wires k = if k / 4 = die
          then { vget s.wires k with
            lanes := 2, paused := decide (deepest = 4) || ((vget s.wires k).paused && (vget s.wires k).rewidth.isSome) }
          else vget s.wires k)) ∧
    (∃ t, exec (.restExit die) s = .next t ∧ vget t.depth die = 0 ∧ t = { s with depth := t.depth, wires := t.wires } ∧
      (∀ k, k ≠ die → vget t.depth k = vget s.depth k) ∧ ∀ k < 16, vget t.wires k = woken k)) ∧
  (∀ (s : State) (uid : Nat) (h : Hint), (findBlock s uid).isSome = true → (getBlock s uid).hint = some h →
    (∀ n, h.expires = some n → n ≤ tickOf s (getBlock s uid).place.die →
      exec (.powerHintExpiry uid) s = .next (modBlock uid (fun b => { b with hint := none }) s)) ∧
    (h.expires = none → exec (.powerHintExpiry uid) s = .next s)) ∧
  (∀ (s : State) (good : Bool), exec (.deviceReset good) s = .next { State.reset with
    booted := good, ports := Vector.replicate 2 { State.reset.ports[0] with result := if good then 0 else 3 },
    sched := s.sched, steps := s.steps, free := s.free, sent := s.sent, resets := s.resets + 1 })

/-- R428 to R430, R434, R36, R37, R213, R85, R432, R96: a rotation point takes the period that stands, and adds at most one exchange of a
cluster in which none is moving, between two different sites of it; the exchange starts when no run of its blocks is in progress and
nothing blocks it, and is given up when a save, a restore, or the supervisor blocks it within 100 µs of the point; at its end the blocks,
their copies, records and queues stand at the other site with their links broken, both L1s empty and every later access of theirs behind
all that has been written, and a core keeps the skew of the half that empties last, the larger where both empty at once. The calendar's window opens and closes on a bank group. Calibrations and telemetry are counted, and a scrub that
finds no error changes nothing else; one that does in a block's storage ends its fault domain with cause 0x14. It rests on the model's
readings or choices of log 8, 13, 88, 101, 113 and 124. -/
def Obligations.RotationRefreshAndBackgroundWork : Prop :=
  (∀ (s : State) (die : Nat) (temps : List Nat), die < 4 →
    let stay := s.pans.filter fun p => p.die != die || p.moving
    ∃ t new, exec (.panRotation die temps) s = .next t ∧ t.pans = stay ++ new ∧
    t = { s with pans := t.pans, tasks := t.tasks, panNow := t.panNow, free := s.free + 160 } ∧
    vget t.panNow die = s.panper ∧ (∀ d, d ≠ die → vget t.panNow d = vget s.panNow d) ∧
    (∀ p ∈ new, p.die = die ∧ p.cl < 5 ∧ p.hot ≠ p.cool ∧ p.hot < 32 ∧ p.cool < 32 ∧ p.moving = false ∧ p.point = s.now ∧
      (∃ b ∈ s.blocks, b.res ≠ .held ∧ b.place.die = die ∧ b.place.cl = p.cl ∧ b.place.site = p.hot) ∧
      ∀ q ∈ stay, q.die = die → q.cl ≠ p.cl) ∧
    (new.map (·.cl)).Nodup) ∧
  (∀ (s : State) (die cl : Nat) (p : Pan), (s.pans.find? fun p => p.die == die && p.cl == cl) = some p →
    let mine (b : Block) : Prop := b.res ≠ .held ∧ b.place.die = die ∧ b.place.cl = cl ∧ (b.place.site = p.hot ∨ b.place.site = p.cool)
    let blocked := ∃ b ∈ s.blocks, mine b ∧ (b.preempt = true ∨ b.res ≠ .resident ∨ ∃ g ∈ b.groups, g.sup = true)
    let running := ∃ f ∈ s.running, ∃ b ∈ s.blocks, mine b ∧ b.uid = f.who.uid
    (p.moving = false → ¬ blocked → ¬ running → (∀ a ∈ s.blocks, ∀ b ∈ s.blocks, a.uid = b.uid → a = b) →
      ∃ t, exec (.panExchange die cl) s = .next t ∧ t = { s with pans := t.pans, blocks := t.blocks } ∧
        (t.pans.find? fun p => p.die == die && p.cl == cl) = some { p with moving := true } ∧
        t.blocks.length = s.blocks.length ∧ ∀ (k : Nat) b, s.blocks[k]? = some b →
          (mine b → t.blocks[k]? = some { b with transit := true }) ∧ (¬ mine b → t.blocks[k]? = some b)) ∧
    (p.moving = false → blocked → s.now ≤ p.point + 100000 → exec (.panExchangeAbandon die cl) s =
      .next { s with pans := s.pans.filter fun x => !(x.die == die && x.cl == cl) }) ∧
    (¬ blocked ∨ p.point + 100000 < s.now → exec (.panExchangeAbandon die cl) s = .next s) ∧
    (p.moving = true → (∀ a ∈ s.blocks, ∀ b ∈ s.blocks, a.uid = b.uid → a = b) → ∃ t, exec (.panTransferEnd die cl) s = .next t ∧
      t.pans = (s.pans.filter fun x => !(x.die == die && x.cl == cl)) ∧ t.blocks.length = s.blocks.length ∧
      (∀ (k : Nat) b, s.blocks[k]? = some b →
        (mine b → (b.groups.map (·.gidx)).Nodup → ∃ gs, t.blocks[k]? = some { b with place := swapped p b.place, transit := false, groups := gs } ∧
          gs.length = b.groups.length ∧ ∀ (j : Nat) g, b.groups[j]? = some g → ∃ h, gs[j]? = some h ∧
            h = { g with bp := [], floors := h.floors } ∧ ∀ i a cls, s.stamp ≤ classFloor h i a cls) ∧
        (¬ mine b → t.blocks[k]? = some b)) ∧
      t.copies = s.copies.map (fun c => { c with q := match c.q with
        | .core pl q => .core (swapped p pl) q
        | q => q }) ∧
      (∀ x ∈ t.l1, x ∈ s.l1 ∧ ¬ (x.core.die = die ∧ x.core.cl = cl ∧ (x.core.site = p.hot ∨ x.core.site = p.cool) ∧ x.core.part = 0)) ∧
      (p.hot ≠ p.cool → ∀ i, i = p.hot ∨ i = p.cool →
        let core : Place := { die := die, cl := cl, site := i, part := 0 }
        let half (k : Nat) : Place := { core with part := k }
        let used (k : Nat) : Prop := ∃ b ∈ s.blocks, b.res ≠ .held ∧ b.place = half k
        (core ∉ s.parted → skewOf t core = skewOf s core) ∧
        (core ∈ s.parted →
          (used 1 → ¬ used 2 → skewOf t core = skewOf s (half 1)) ∧ (used 2 → ¬ used 1 → skewOf t core = skewOf s (half 2)) ∧
          ((used 1 ↔ used 2) → (skewOf t core).toNat = max (skewOf s (half 1)).toNat (skewOf s (half 2)).toNat))) ∧
      ∀ b ∈ s.blocks, mine b → ∀ l ∈ t.links, match l.owner with
        | .path w => w.uid ≠ b.uid
        | .thread u _ _ => u ≠ b.uid)) ∧
  (∀ (s : State) (die bg : Nat), die < 4 →
    let p := calendar s die % 48000
    (p / 3000 = bg → p % 3000 < 1200 →
      exec (.cellarRefreshStart die bg) s = .next { s with refreshing := vset s.refreshing die (some bg) }) ∧
    (vget s.refreshing die = some bg → p / 3000 ≠ bg ∨ 1200 ≤ p % 3000 →
      exec (.cellarRefreshEnd die bg) s = .next { s with refreshing := vset s.refreshing die none })) ∧
  (∀ (s : State) (k : Nat),
    (∃ t, exec (.linkCalibration k) s = .next { t with linkCal := vset s.linkCal k (tickOf s (k / 4)) } ∧ Counted (k / 4) 2 s t) ∧
    (∃ t, exec (.dramCalibration k) s = .next t ∧ Counted k 1 s t) ∧
    (∀ pa, s.bad = [] → ∃ t, exec (.patrolScrub (.phys pa)) s = .next t ∧ Counted (homeDie s pa) 0 s t) ∧
    (∀ uid off, (findBlock s uid).isSome = true → badTarget s (.spad uid off) = true → scrubDue s (getBlock s uid).place.die = false → ∃ t, Counted (getBlock s uid).place.die 0 s t ∧
      exec (.patrolScrub (.spad uid off)) s = .next (endBlockDomain uid 0x14 (BitVec.ofNat 64 off) t)) ∧
    (∃ t, exec .telemetry s = .next t ∧ t = { s with tasks := t.tasks, activity := t.activity, free := t.free } ∧
      ∀ die < 4, (t.tasks.find? fun x => x.die == die && x.kind == 4) = some
        { die := die, kind := 4, last := tickOf s die,
          count := ((s.tasks.find? fun x => x.die == die && x.kind == 4).map (·.count)).getD 0 + 1 }))

/-- R426, R425, R427: the thermal state of a domain at a sample. From NORMAL it is THROTTLED at once 10 °C above the trip point, and at the
trip point once it has dwelt 2 ms; from THROTTLED it is NORMAL below the trip point less 3 °C once it has dwelt 2 ms; in every other
case it stays. At reset each domain is NORMAL, its dwell counted from reset. Temperatures are in eighths of a degree. -/
def Obligations.ThermalStatesFollowTheirSamples : Prop :=
  (∀ dom < 24, (vget State.reset.domains dom).throttled = false ∧ (vget State.reset.domains dom).since = State.reset.now) ∧
  ∀ (s : State) (dom temp : Nat), dom < 24 →
    let x := vget s.domains dom
    let tp := 8 * (if dom < 20 then s.tripC.toNat else s.tripD.toNat)
    let dwelt := 2000000 ≤ s.now - x.since
    ∃ t, exec (.thermalSample dom temp) s = .next t ∧
      let y := vget t.domains dom
      (x.throttled = false → tp + 80 ≤ temp → y.throttled = true ∧ y.emergency = true) ∧
      (x.throttled = false → tp ≤ temp → temp < tp + 80 → dwelt → y.throttled = true ∧ y.emergency = false) ∧
      (x.throttled = false → tp ≤ temp → temp < tp + 80 → ¬ dwelt → y.throttled = false) ∧
      (x.throttled = false → temp < tp → y.throttled = false) ∧
      (x.throttled = true → temp + 24 < tp → dwelt → y.throttled = false) ∧
      (x.throttled = true → tp ≤ temp + 24 ∨ ¬ dwelt → y.throttled = true ∧ y.emergency = x.emergency) ∧
      y.since = (if y.throttled = x.throttled then x.since else s.now)

namespace Sys2Proof.Rules

/-- Malformed entries of a level, for an entry with V = 1 (R51, R50). -/
def badEntry (e level : Nat) : Prop :=
  e / 2 ^ 60 ≠ 0 ∨ e / 2 ^ 48 % 2 ^ 8 ≠ 0 ∨ e / 2 ^ 8 % 16 ≠ 0 ∨
  (e / 2 % 2 = 0 ∧ (e / 2 ^ 56 % 16 ≠ 0 ∨ e / 4 % 64 ≠ 0)) ∨ (e / 2 % 2 = 1 ∧ level = 0) ∨ (e / 2 % 2 = 0 ∧ level = 3) ∨
  (e / 2 % 2 = 1 ∧ ((level = 2 ∧ e / 2 ^ 12 % 2 ^ 13 ≠ 0) ∨ (level = 1 ∧ e / 2 ^ 12 % 2 ^ 22 ≠ 0) ∨ (level = 3 ∧ e / 2 ^ 12 % 2 ^ 4 ≠ 0))) ∨
  (e / 2 % 2 = 1 ∧ e / 8 % 2 = 1 ∧ e / 4 % 2 = 0)

/-- The table of a level and its entry for an address, as far as the walk gets (R48, R52). -/
def tableOf (s : State) (root va : Nat) : Nat → Nat
  | 0 => root
  | n + 1 => physRead s (tableOf s root va n + 8 * (va / 2 ^ (43 - 9 * n) % 512)) 8 / 2 ^ 12 % 2 ^ 36 * 4096

def entryOf (s : State) (root va level : Nat) : Nat := physRead s (tableOf s root va level + 8 * (va / 2 ^ (43 - 9 * level) % 512)) 8

/-- What a leaf permits (R52). -/
def allows (e : Nat) (k : Kind) (sup : Bool) : Prop :=
  (sup = true ∨ e / 32 % 2 = 1) ∧
  match k with
  | .read => e / 4 % 2 = 1
  | .write => e / 8 % 2 = 1
  | .exec => e / 16 % 2 = 1
  | .link => e / 4 % 2 = 1 ∧ e / 8 % 2 = 1

end Sys2Proof.Rules

/-- R47 to R52, R55, R57: translation by a walk that no TLB entry spares and for which the walkers keep no entry. The
entry of each level is found by nine bits of the address; a table entry leads to the next level. The first entry that is not valid,
malformed, without permission, or for no memory, ends the walk with its fault type and level. A leaf of level 3, 2 or 1 maps 64 KiB, 32 MiB or 16 GiB; A, and D for a write or a link, are
set in it. A die at rest whose memory holds a table is woken (R431). A table that lies outside DRAM is read as the model's choice of log 100
has it. -/
def Obligations.TheWalkReadsFourLevels : Prop :=
  ∀ (side : Side) (s : State) (ctx va level : Nat) (k : Kind) (sup : Bool),
    let root := ctxRootTable s ctx
    let e := entryOf s root va level
    let die := match side with
      | .core pl => pl.die
      | .front d => d
    s.bad = [] → tlbFind s side (ctxAsid s ctx) va k sup = none → (∀ w ∈ s.walker, w.die = die → w.asid ≠ ctxAsid s ctx) →
    va < 2 ^ 52 → level < 4 →
    let answers (r : TrRes) : Prop := ∃ t, translate side ctx va k sup s = (t, r) ∧
      t = { s with walker := t.walker, free := t.free, depth := t.depth, wires := t.wires }
    (root = 0 → answers (.fault .notPresent 0)) ∧
    (root ≠ 0 → (∀ m < level, entryOf s root va m % 4 = 1 ∧ ¬ badEntry (entryOf s root va m) m) →
      (e % 2 = 0 → answers (.fault .notPresent level)) ∧
      (e % 2 = 1 → badEntry e level → answers (.fault .malformed level)) ∧
      (e % 2 = 1 → ¬ badEntry e level → e / 2 % 2 = 1 →
        let base := e / 2 ^ 12 % 2 ^ 36 * 4096
        let size := if level = 1 then 2 ^ 34 else if level = 2 then 2 ^ 25 else 2 ^ 16
        let a := if e / 2 ^ 6 % 2 = 1 then e else e + 2 ^ 6
        let d := if (k = .write ∨ k = .link) ∧ e / 2 ^ 7 % 2 = 0 then a + 2 ^ 7 else a
        (¬ allows e k sup → answers (.fault .protection level)) ∧
        (allows e k sup → paKind s base = .nothing → answers (.fault .noMemory level)) ∧
        (allows e k sup → paKind s base ≠ .nothing → ∃ t, translate side ctx va k sup s = (t, .ok (base + va % size) (e / 2 ^ 56 % 16)) ∧
          t = { (if d = e then s else physPut none (tableOf s root va level + 8 * (va / 2 ^ (43 - 9 * level) % 512)) 8 d s) with
            tlb := t.tlb, walker := t.walker, free := t.free, depth := t.depth, wires := t.wires })))

/-! Rules that belong together, each a conjunction of what stands above. -/

/-- R216, R224, R234: words written out bit by bit from the encodings of the spec decode to the instructions they stand for, and no
word of a reserved major decodes. -/
def Obligations.WordsDecodeAsTheTablesSay : Prop := Rules.WrittenOutWordsDecode ∧ Rules.ReservedMajorsDecodeToNothing

/-- R25, R26, R44, R227, R240: a fetch reads the words at the PC of the issuing path; a step whose turn is a pending or due step of the
device executes that. It rests on the model's readings or choices of log 2, 5 and 6. -/
def Obligations.StepsFetchOrTakeAnEvent : Prop := Rules.FetchReadsTheWordsAtThePc ∧ Rules.StepRunsThePendingOrDueStep

/-- R165, R166, R173, R175: a scalar write reaches one register of the executing path; in a melded region an instruction executes once
for each side. It rests on the model's readings or choices of log 19. -/
def Obligations.ScalarWritesAndSides : Prop := Rules.ScalarWriteReachesOneRegister ∧ Rules.EachSideExecutesOnce

/-- R220, R221, R255 to R257: where a path goes after an instruction: the next PC and the end of the run, the loop entries that loop
pushes and that turn or leave, and the repeat frames that rpt starts and that replay. It rests on the model's readings or choices of log
57, 59, 60, 104 (when a path-stack slot is written) and 110. -/
def Obligations.LoopsFramesAndTheNextPc : Prop := Rules.PcAdvancesAndTheRunEnds ∧ Rules.LoopPushesItsBody ∧ Rules.LoopEntriesTurnOrLeave ∧ Rules.RptStartsAFrame ∧ Rules.RepeatFrameReplays

/-- R242 to R248: the results of every scalar integer instruction, short and long, and what the bit-counting ones compute. -/
def Obligations.ScalarIntegerInstructions : Prop := Rules.ScalarIntegerResults ∧ Rules.ScalarBitFunctions

/-- R249 to R251, R116: the results of every scalar floating-point instruction, and the accumulation of flags. It rests on the model's
readings or choices of log 20. -/
def Obligations.ScalarFloatInstructions : Prop := Rules.ScalarFloatResults ∧ Rules.FlagsAccumulate

/-- R115, R116, R282: values that a format can represent round to themselves, and the approximations at their corners. It rests on the
model's readings or choices of log 11. -/
def Obligations.RoundingAndApproximation : Prop := Rules.RepresentableValuesRoundExactly ∧ Rules.ApproximationCorners

/-- R228, R176, R258, R174: the checks before an effect in their order: what a repeat frame may hold, the roles that majors are bound to,
and what a melded region forbids. It rests on the model's readings or choices of log 25 and 109. -/
def Obligations.ChecksBeforeAnEffect : Prop := Rules.ChecksComeInOrder ∧ Rules.FramesHoldOnlyTheirMajors ∧ Rules.RolesBindTheirMajors ∧ Rules.MeldedRegionForbidsTransfers

/-- R252 to R254, R256: branches transfer control, and calls and returns keep the return stack. It rests on the model's readings or
choices of log 57 and 59. -/
def Obligations.BranchesCallsAndReturns : Prop := Rules.BranchesTransfer ∧ Rules.CallsAndReturnsKeepTheStack

/-- R168, R259: the threads that a branch takes, and the path that vbr splits off. -/
def Obligations.PathsSplit : Prop := Rules.TakenThreadsAreLiveAndBelowVl ∧ Rules.VbrSplitsThePath

/-- R166, R170, R171, R260: vjoin parks a member, a token resolves or is decided when all its members are parked, and a merge keeps what
each member wrote. It rests on the model's readings or choices of log 22, 66, 96 and 119. -/
def Obligations.PathsJoin : Prop := Rules.VjoinParksAMember ∧ Rules.TokensResolveAndDecide ∧ Rules.MergeKeepsWhatMembersWrote

/-- R171, R172, R261: vmeld enters a melded region, and vunmeld ends it. It rests on the model's readings or choices of log 19 and 22.
-/
def Obligations.PathsMeld : Prop := Rules.VmeldEntersARegion ∧ Rules.VunmeldEndsTheRegion

/-- R262, R263: vexit and vbrk, and the votes over live threads. It rests on the model's choice of log 121 (vexit of the last thread of
the path that runs the supervisor). -/
def Obligations.ThreadsExitAndVote : Prop := Rules.VexitAndVbrk ∧ Rules.VotesOverLiveThreads

/-- R163, R264, R265: vcfg configures the register count, and vgrant sets vl. -/
def Obligations.VectorConfiguration : Prop := Rules.VcfgConfigures ∧ Rules.VgrantSetsVl

/-- R201, R202, R219, R266, R275: a vector result reaches the active elements of its register or latch, a predicate result its active
bits, and without an element nothing is written. It rests on the model's readings or choices of log 24, 26 and 63. -/
def Obligations.VectorResultsReachTheirElements : Prop := Rules.VectorResultsReachActiveElements ∧ Rules.PredicateResultsReachActiveBits ∧ Rules.NoElementWritesNothing

/-- R267, R285 to R288: predicate instructions, reads of other threads, and the lane instructions. It rests on the model's readings or
choices of log 67, and of log 105 (the index of vshfl from a 64-bit scalar). -/
def Obligations.PredicatesAndLanes : Prop := Rules.PredicateInstructions ∧ Rules.OtherThreadsReadThroughSrc ∧ Rules.LaneInstructions

/-- R267, R289 to R292: reductions, scans, ballots and votes. It rests on the model's readings or choices of log 67. -/
def Obligations.ReductionsScansAndBallots : Prop := Rules.ReductionResults ∧ Rules.ScanResults ∧ Rules.BallotsAndVotes

/-- R124, R130, R284, R293: block scales and their validity, and conversions to and from block formats. It rests on the model's
readings or choices of log 62 and 67 (where the vstart of vmaxexp and vquant begins and ends). -/
def Obligations.BlockScaling : Prop := Rules.BlockScaleResults ∧ Rules.ScaleEntriesCarryValidity ∧ Rules.BlockConversions

/-- R3, R44, R88, R137, R140, R143: a store reaches its bytes only, a load reads what memory holds, an access goes where its address
leads, and fences order accesses. It rests on the model's readings or
choices of log 3 and 6. -/
def Obligations.StoresAndLoads : Prop :=
  Rules.StoresReachTheirBytesOnly ∧ Rules.LoadsReadWhatMemoryHolds ∧ Rules.AccessesReachWhereTheirAddressLeads ∧
  Rules.FencesAndPlacesOrderAccesses

/-- R24, R298, R307, R308: scalar loads and stores in all forms, and the address checks before them. It rests on the model's readings or
choices of log 3, 27 and 29. -/
def Obligations.ScalarAccesses : Prop :=
  Rules.ScalarLoadsAndStores ∧ Rules.ScalarAccessesReachEverySpace ∧ Rules.ScalarAccessesCheckTheirAddress

/-- R294, R299, R301, R307, R308: vector loads and stores in all forms, and the elements they bring. It rests on the model's readings or
choices of log 3 and 7. -/
def Obligations.VectorAccesses : Prop :=
  Rules.VectorLoadsAndStores ∧ Rules.VectorAccessesReachEverySpace ∧ Rules.LoadedElementsReachTheirRegister

/-- R304, R305, R156 to R158: linked reads and conditional writes of a path and of threads. It rests on the model's readings or choices
of log 30. -/
def Obligations.LinkedPairs : Prop := Rules.ScalarLinkedPair ∧ Rules.VectorLinkedPair

/-- R310 to R318: fences, named barriers, posts, rings, claims and watched words. It rests on the model's reading of log 3. -/
def Obligations.Synchronisation : Prop := Rules.FencesAndNamedBarriers ∧ Rules.PostsRingsClaimsAndWatchedWords

/-- R97 to R101, R103, R353 to R355, R372: descriptors are checked, copies are enqueued, and move their elements. It rests on the model's
readings or choices of log 34, 52 and 111. -/
def Obligations.Copies : Prop :=
  Rules.DescriptorChecksComeInOrder ∧ Rules.CopiesAreCheckedAndEnqueued ∧ Rules.CopiesMoveElements

/-- R154, R101, R181, R345, R350, R356, R357, R360 to R362, R381: queues run their oldest operation, and queue waits. When each of them
completes: a copy's last unit, here one between places of the block's scratchpad, moves and the copy has performed (copyExecute); a copy
that has performed posts its ring slot and leaves, and a node's copy completes its node (copyComplete); the oldest operation of a
matrix queue writes its bytes in order and leaves (matrixQueueComplete); qfence and qwait with nothing to wait for and no error to
report go on with their fence; qwait.clr, in supervisor mode, empties the record and the marks. It rests on the model's readings or
choices of log 7, 13 and 69. -/
def Obligations.QueuesAndTheirWaits : Prop :=
  (∀ (s : State) (c : Copy) (l : List Copy) (pl : Place) (n t : Nat) (X Y : Int) (out : Bool),
    let q : QKey := .core pl n
    let u := { s with free := s.free + 1 }
    onQueue s q = c :: l → (s.copies.filter fun x => x.id == c.id) = [c] → c.run = .queued → c.wsload = false →
    c.lost = [] → c.late = [] → c.staged = [] → unitCount c.desc = c.next + 1 →
    (sortByRank (Config.elementRank c.seed) (List.range (unitCount c.desc)))[c.next]? = some t → LocalUnit s c t X Y out →
    let done (v : State) : State :=
      modCopy c.id (fun c => { c with next := c.next + 1, hold := none, run := .performed, pages := [] }) v
    let written (v : State) (b : List Byte) : Prop := ∃ p, exec (.copyExecute q) s =
      .next (done { spadWrite c.uid (Y % 2 ^ 60).toNat b v with past := p })
    (out = true → c.desc.bnd = true → exec (.copyExecute q) s = .next (done u)) ∧
    (out = true → c.desc.bnd = false → written u (List.replicate (elBytes c.desc.sfmt) 0)) ∧
    (out = false → written (looked u) (sgetN 0 (getBlock s c.uid).spad (X % 2 ^ 60).toNat (elBytes c.desc.sfmt)))) ∧
  (∀ (q : QKey) (s : State) (c : Copy) (l : List Copy), onQueue s q = c :: l → c.run = .performed →
    let posted := match c.post with
      | some (r, j) => modBlock c.uid (postSlot r j c.scope) s
      | none => s
    (c.node = none → exec (.copyComplete q) s = .next (dropCopy c.id posted)) ∧
    (∀ va, c.node = some va → exec (.copyComplete q) s = .next (completeNode c.ctx va (dropCopy c.id posted)))) ∧
  (∀ (pl : Place) (s : State) (o : MatOp), (s.matq.find? fun o => o.pl == pl) = some o → (∀ x ∈ o.writes, MatOpen s x) →
    exec (.matrixQueueComplete pl) s = .next { matWritten pl o.writes s with matq := s.matq.filter fun x => x.id != o.id }) ∧
  (∀ (e : Bool) (m : BitVec 9) (n : BitVec 4) (s : State), Ready s →
    let h : Head := { e := e, major := 0x6D }
    let one : BitVec 9 := BitVec.ofNat 9 (2 ^ n.toNat)
    (m = 0 ∨ (awaiting m s = [] ∧ ∀ q, ¬ Reports m q s) →
      exec (.qfence e m) s = .next (advance h none false false (queuesFenced m s))) ∧
    (n.toNat ≤ 8 → awaiting one s = [] → (∀ q, ¬ Reports one q s) →
      exec (.qwait e n) s = .next (advance h none false false (queuesFenced one s))) ∧
    (n.toNat ≤ 8 → Supervisor s → exec (.qwaitClr e n) s = .next (advance { h with supOnly := true } none false false
      (if n.toNat = 8 then s else { s with
        qerrs := s.qerrs.filter fun r => r.q != myQueue n.toNat s,
        blocks := s.blocks.map fun b => if b.place = (curBlock s).place then
          { b with groups := b.groups.map fun g => { g with qbad := putBit g.qbad n.toNat false } } else b })))) ∧
  Rules.QueuesRunTheirOldestOperation ∧ Rules.QueueWaits

/-- R363 to R366: launches take an entry, and gsig completes a SIGNAL node. It rests on the model's readings or choices of log 29 (vstart
at a scalar access that traps), 35 and 78. -/
def Obligations.LaunchesAndGraphSignals : Prop := Rules.LaunchesTakeAnEntry ∧ Rules.GraphSignals

/-- R198 to R214, R367: reads and writes of every system register, and vcfg written by the supervisor. It rests on the model's readings or
choices of log 33, 82, 106 and 108. -/
def Obligations.SystemRegisterAccess : Prop := Rules.SystemRegisters ∧ Rules.SupervisorWritesVcfg

/-- R197, R214, R368, R369, R399, R400: taking a trap, and returning from one. It rests on the model's readings or choices of log 23,
41, 55, 56, 126 (eret makes no loop test) and 127. -/
def Obligations.TrapsAndReturns : Prop := Rules.TrapsEnterTheSupervisor ∧ Rules.EretReturns

/-- R378 to R386, R106, R108: a submission makes its root ready, and the walker takes a node of each type. It rests on the model's
readings or choices of log 35, 73, 74, 75, 76 and 77. -/
def Obligations.GraphsAreSubmittedAndWalked : Prop := Rules.SubmissionMakesTheRootReady ∧ Rules.WalkerTakesNodes
end

