-- ==== Sys2Proof/Laws/Access.lean ====
section
/-! SUPPORT. What the operations of an access can do: the checks of an address, stores of bounded size, and reads of past writes. -/

namespace Sys2Proof.Machine

/-! The checks of an address (R24). -/

theorem alignFault_eq_none_iff (a : Word) (n : Nat) : alignFault a n = none ↔ badTag a = false ∧ a.toNat % n = 0 := by
  unfold alignFault
  cases badTag a <;> simp

theorem alignFault_eq_some_iff (a : Word) (n c : Nat) :
    alignFault a n = some c ↔ (badTag a = true ∧ c = 0x07) ∨ (badTag a = false ∧ a.toNat % n ≠ 0 ∧ c = 0x04) := by
  unfold alignFault
  cases badTag a <;> by_cases h : a.toNat % n = 0 <;> simp [h] <;> exact ⟨Eq.symm, Eq.symm⟩

theorem decodeAddr_badTag (s : State) (env : Env) (a : Word) (n align : Nat) (w : Bool) (h : badTag a = true) :
    decodeAddr s env a n align w = .error 0x07 := by
  simp [decodeAddr, h]

/-- An address that passes has a good tag, is no forbidden store to the weight store, and is aligned. -/
theorem decodeAddr_ok (s : State) (env : Env) (a : Word) (n align : Nat) (w : Bool) (loc : Loc)
    (h : decodeAddr s env a n align w = .ok loc) :
    badTag a = false ∧ (w && tagOf a == 0xC) = false ∧ a.toNat % align = 0 := by
  unfold decodeAddr at h
  cases hb : badTag a
  · cases hw : (w && tagOf a == 0xC)
    · by_cases ha : a.toNat % align = 0
      · exact ⟨rfl, rfl, ha⟩
      · simp [hb, hw, ha] at h
    · simp [hb, hw] at h
  · simp [hb] at h

/-! Stores of bounded size: the TLBs, the walkers' entries and the L1 (R55, R88). -/

/-- Whatever such a store gives up, it holds nothing but what it held and the new entry. -/
theorem mem_putCapped {α : Type} (cap : Nat) (p : α → Bool) (x y : α) (l : List α) (s : State)
    (h : y ∈ (putCapped cap p x l s).1) : y = x ∨ y ∈ l := by
  unfold putCapped at h
  simp only at h
  split at h
  · simpa using h
  · exact (List.mem_cons.mp h).imp id fun h => (List.eraseIdx_sublist _ _).subset h

/-- Only the count of free values moves. -/
theorem putCapped_state {α : Type} (cap : Nat) (p : α → Bool) (x : α) (l : List α) (s : State) :
    (putCapped cap p x l s).2 = { s with free := (putCapped cap p x l s).2.free } := by
  unfold putCapped
  simp only
  split <;> rfl

theorem choose_state (s : State) : (choose s).2 = { s with free := s.free + 1 } := rfl

/-! Reads of what has been written (R140). -/

/-- A read before which every write is ordered returns what memory holds. -/
theorem pastRead_upToDate (env : Env) (k : Kind) (d : Dest) (l : List Byte) (s : State)
    (h : ∀ w, env.owner = .path w → upToDate s w env.actor env.cls = true) : (pastRead env k d l s).2 = l := by
  unfold pastRead
  cases hw : env.owner <;> cases ha : env.actor <;> cases hv : viaAperture s d <;> simp_all

/-- A read by an engine returns what memory holds (R154, R345). -/
theorem pastRead_engine (env : Env) (k : Kind) (d : Dest) (l : List Byte) (s : State) (h : env.actor = .engine) :
    pastRead env k d l s = (settle s.stamp s, l) := by
  unfold pastRead
  cases env.owner <;> simp [h]

/-- Only the count of free values moves when a write chooses its place. -/
theorem writePlace_state (env : Env) (k : Kind) (d : Dest) (n : Nat) (s : State) :
    (writePlace env k d n s).1 = { s with free := (writePlace env k d n s).1.free } := by
  unfold writePlace
  split
  · rfl
  · simp only
    split <;> rfl
  · rfl

/-- A write by an engine takes the next place in the order of all writes. -/
theorem writePlace_engine (env : Env) (k : Kind) (d : Dest) (n : Nat) (s : State) (h : env.actor = .engine) :
    writePlace env k d n s = (s, s.stamp) := by
  unfold writePlace
  cases env.owner <;> simp [h]

/-- A write that has taken its place leaves memory and the weight stores as it wrote them. -/
theorem placeWrite_mem (env : Env) (s : State) (t : Nat) (u : State) :
    (placeWrite env s t u).mem = u.mem ∧ (placeWrite env s t u).cellar = u.cellar := by
  unfold placeWrite
  cases env.owner <;> cases env.actor <;> exact ⟨rfl, rfl⟩

end Sys2Proof.Machine
end

