-- ==== Sys2Proof/Laws/Data.lean ====
section
/-! SUPPORT. Laws of sparse maps, keyed lists and vectors. -/

namespace Sys2Proof.Machine

variable {α β κ : Type}

/-! Sparse maps: a read after a write, and the canonical form. -/

theorem sget_nil (d : α) (i : Nat) : sget d [] i = d := rfl

/-- Every key of a sparse map is above a bound. -/
def above (n : Nat) (m : Sparse α) : Prop := ∀ e ∈ m, n < e.1

theorem sget_of_above (d : α) (i : Nat) (m : Sparse α) (h : above i m) : sget d m i = d := by
  cases m with
  | nil => rfl
  | cons e l =>
    have := h e (by simp)
    simp only [sget]
    rw [if_neg (by omega), if_pos (by omega)]

/-- The canonical form as a statement: no default entry, each key below the ones that follow. -/
theorem swf_cons [DecidableEq α] (d : α) (k : Nat) (v : α) (l : Sparse α) :
    swf d ((k, v) :: l) = true ↔ v ≠ d ∧ above k l ∧ swf d l = true := by
  induction l generalizing k v with
  | nil => simp [swf, above]
  | cons e l ih =>
    obtain ⟨k', v'⟩ := e
    simp only [swf, Bool.and_eq_true, bne_iff_ne, ne_eq, decide_eq_true_eq]
    constructor
    · rintro ⟨⟨h1, h2⟩, h3⟩
      refine ⟨h1, ?_, h3⟩
      intro e he
      rcases List.mem_cons.1 he with rfl | he
      · exact h2
      · exact Nat.lt_trans h2 (((ih k' v').1 h3).2.1 e he)
    · rintro ⟨h1, h2, h3⟩
      exact ⟨⟨h1, h2 (k', v') (by simp)⟩, h3⟩

theorem above_sset [DecidableEq α] (d : α) (n i : Nat) (v : α) (m : Sparse α) (hn : n < i) (h : above n m) :
    above n (sset d i v m) := by
  induction m with
  | nil => by_cases hv : v = d <;> simp [sset, hv, above, hn]
  | cons e l ih =>
    obtain ⟨k, w⟩ := e
    have hk : n < k := h (k, w) (by simp)
    have hl : above n l := fun e he => h e (by simp [he])
    simp only [sset]
    split
    · split <;> intro e he <;> simp only [List.mem_cons] at he
      · rcases he with rfl | he
        · exact hk
        · exact hl e he
      · rcases he with rfl | rfl | he
        · exact hn
        · exact hk
        · exact hl e he
    · split
      · split
        · exact hl
        · intro e he
          rcases List.mem_cons.1 he with rfl | he
          · exact hn
          · exact hl e he
      · intro e he
        rcases List.mem_cons.1 he with rfl | he
        · exact hk
        · exact ih hl e he

/-- A write keeps the canonical form. -/
theorem swf_sset [DecidableEq α] (d : α) (i : Nat) (v : α) (m : Sparse α) (h : swf d m = true) : swf d (sset d i v m) = true := by
  induction m with
  | nil => by_cases hv : v = d <;> simp [sset, hv, swf]
  | cons e l ih =>
    obtain ⟨k, w⟩ := e
    obtain ⟨h1, h2, h3⟩ := (swf_cons d k w l).1 h
    simp only [sset]
    split
    · split
      · exact h
      · rw [swf_cons]
        refine ⟨by assumption, ?_, h⟩
        intro e he
        rcases List.mem_cons.1 he with rfl | he
        · assumption
        · exact Nat.lt_trans (by assumption) (h2 e he)
    · split
      · split
        · exact h3
        · rw [swf_cons]
          subst_vars
          exact ⟨by assumption, h2, h3⟩
      · rw [swf_cons]
        exact ⟨h1, above_sset d k i v l (by omega) h2, ih h3⟩

/-- A read after a write to the same key. -/
theorem sget_sset_self [DecidableEq α] (d : α) (i : Nat) (v : α) (m : Sparse α) (h : swf d m = true) :
    sget d (sset d i v m) i = v := by
  induction m with
  | nil => by_cases hv : v = d <;> simp [sset, hv, sget]
  | cons e l ih =>
    obtain ⟨k, w⟩ := e
    obtain ⟨h1, h2, h3⟩ := (swf_cons d k w l).1 h
    simp only [sset]
    split
    · split
      · subst_vars
        simp only [sget]
        rw [if_neg (by omega), if_pos (by assumption)]
      · simp [sget]
    · split
      · split
        · subst_vars
          exact sget_of_above _ _ _ h2
        · simp [sget]
      · simp only [sget]
        rw [if_neg (by assumption), if_neg (by assumption)]
        exact ih h3

/-- A write leaves every other key alone. -/
theorem sget_sset_ne [DecidableEq α] (d : α) (i j : Nat) (v : α) (m : Sparse α) (h : swf d m = true) (hij : j ≠ i) :
    sget d (sset d i v m) j = sget d m j := by
  induction m with
  | nil =>
    by_cases hv : v = d
    · simp [sset, hv]
    · simp only [sset, if_neg hv, sget, if_neg hij]
      split <;> rfl
  | cons e l ih =>
    obtain ⟨k, w⟩ := e
    obtain ⟨h1, h2, h3⟩ := (swf_cons d k w l).1 h
    have step : sget d l j = (if j = k then d else if j < k then d else sget d l j) := by
      split
      · subst_vars
        exact sget_of_above _ _ _ h2
      · split
        · exact sget_of_above _ _ _ fun e he => Nat.lt_trans (by assumption) (h2 e he)
        · rfl
    simp only [sset]
    split
    · split
      · rfl
      · simp only [sget]
        rw [if_neg hij]
        split
        · rw [if_neg (by omega), if_pos (by omega)]
        · rfl
    · split
      · subst_vars
        split
        · rw [step]
          simp only [sget]
          rw [if_neg hij, if_neg hij]
        · simp only [sget]
          rw [if_neg hij, if_neg hij]
      · simp only [sget]
        rw [ih h3]

theorem swf_ssetN [DecidableEq α] (d : α) (i : Nat) (l : List α) (m : Sparse α) (h : swf d m = true) :
    swf d (ssetN d i l m) = true := by
  induction l generalizing i m with
  | nil => exact h
  | cons v l ih => exact ih _ _ (swf_sset d i v m h)

/-- A write of a list leaves every key outside it alone. -/
theorem sget_ssetN_out [DecidableEq α] (d : α) (i j : Nat) (l : List α) (m : Sparse α) (h : swf d m = true)
    (hj : j < i ∨ i + l.length ≤ j) : sget d (ssetN d i l m) j = sget d m j := by
  induction l generalizing i m with
  | nil => rfl
  | cons v l ih =>
    simp only [List.length_cons] at hj
    rw [ssetN, ih _ _ (swf_sset d i v m h) (by omega), sget_sset_ne d i j v m h (by omega)]

/-- A write of a list is read back. -/
theorem sget_ssetN_in [DecidableEq α] (d : α) (i j : Nat) (l : List α) (m : Sparse α) (h : swf d m = true)
    (hj : j < l.length) : sget d (ssetN d i l m) (i + j) = l[j] := by
  induction l generalizing i j m with
  | nil => simp at hj
  | cons v l ih =>
    cases j with
    | zero => rw [ssetN, sget_ssetN_out d (i + 1) _ l _ (swf_sset d i v m h) (by omega)]; exact sget_sset_self d i v m h
    | succ j =>
      have hj' : j < l.length := by simpa using hj
      rw [ssetN, show i + (j + 1) = i + 1 + j by omega, ih (i + 1) j _ (swf_sset d i v m h) hj']
      rfl

theorem sgetN_ssetN [DecidableEq α] (d : α) (i : Nat) (l : List α) (m : Sparse α) (h : swf d m = true) :
    sgetN d (ssetN d i l m) i l.length = l := by
  apply List.ext_getElem
  · simp [sgetN]
  · intro j h1 h2
    simp only [sgetN, List.getElem_map, List.getElem_range]
    exact sget_ssetN_in d i j l m h h2

theorem swf_skeep [DecidableEq α] (d : α) (p : Nat → Bool) (m : Sparse α) (h : swf d m = true) : swf d (skeep p m) = true := by
  induction m with
  | nil => rfl
  | cons e l ih =>
    obtain ⟨k, w⟩ := e
    obtain ⟨h1, h2, h3⟩ := (swf_cons d k w l).1 h
    have hl := ih h3
    simp only [skeep] at hl ⊢
    rw [List.filter_cons]
    split
    · rw [swf_cons]
      exact ⟨h1, fun e he => h2 e (List.mem_filter.1 he).1, hl⟩
    · exact hl

/-! Bytes. -/

theorem length_toBytes (n x : Nat) : (toBytes n x).length = n := by
  induction n generalizing x with
  | zero => rfl
  | succ n ih => simp [toBytes, ih]

/-- A number survives its bytes. -/
theorem ofBytes_toBytes (n x : Nat) : ofBytes (toBytes n x) = x % 256 ^ n := by
  induction n generalizing x with
  | zero => simp [toBytes, ofBytes, Nat.mod_one]
  | succ n ih =>
    show (BitVec.ofNat 8 x).toNat + 256 * ofBytes (toBytes n (x / 256)) = _
    have h : x % (256 * 256 ^ n) = x % 256 + 256 * (x / 256 % 256 ^ n) := Nat.mod_mul
    rw [ih, BitVec.toNat_ofNat, show 256 ^ (n + 1) = 256 * 256 ^ n from Nat.pow_succ', h]

/-! Keyed lists. -/

theorem kget_kset_self [DecidableEq κ] (d : α) (l : List (κ × α)) (i : κ) (v : α) : kget d (kset i v l) i = v := by
  induction l with
  | nil => simp [kset, kget]
  | cons e l ih =>
    obtain ⟨k, w⟩ := e
    by_cases h : k = i <;> simp [kset, kget, h, ih]

theorem kget_kset_ne [DecidableEq κ] (d : α) (l : List (κ × α)) (i j : κ) (v : α) (h : j ≠ i) :
    kget d (kset i v l) j = kget d l j := by
  induction l with
  | nil => simp [kset, kget, Ne.symm h]
  | cons e l ih =>
    obtain ⟨k, w⟩ := e
    by_cases hk : k = i
    · subst hk
      simp [kset, kget, Ne.symm h]
    · simp [kset, kget, hk, ih]

/-! Vectors. -/

theorem vget_vset_self [Inhabited α] (v : Vector α n) (i : Nat) (x : α) (h : i < n) : vget (vset v i x) i = x := by
  simp [vget, vset, List.getD_eq_getElem?_getD, h]

theorem vget_vset_ne [Inhabited α] (v : Vector α n) (i j : Nat) (x : α) (h : j ≠ i) : vget (vset v i x) j = vget v j := by
  simp [vget, vset, List.getD_eq_getElem?_getD, List.getElem?_set_ne (Ne.symm h)]

/-! The first element that satisfies a test. -/

theorem find?_modFirst_self (p : α → Bool) (f : α → α) (l : List α) (hp : ∀ x, p x = true → p (f x) = true) :
    (modFirst p f l).find? p = (l.find? p).map f := by
  induction l with
  | nil => rfl
  | cons x l ih =>
    by_cases h : p x = true
    · simp [modFirst, h, hp x h]
    · simp [modFirst, h, ih]

theorem find?_modFirst_other (p q : α → Bool) (f : α → α) (l : List α) (hp : ∀ x, p x = true → q x = false ∧ q (f x) = false) :
    (modFirst p f l).find? q = l.find? q := by
  induction l with
  | nil => rfl
  | cons x l ih =>
    by_cases h : p x = true
    · simp [modFirst, h, (hp x h).1, (hp x h).2]
    · by_cases hq : q x = true
      · simp [modFirst, h, hq]
      · simp [modFirst, h, hq, ih]

end Sys2Proof.Machine
end

