-- ==== Sys2Proof/Laws/Dispatch.lean ====
section
/-! SUPPORT. What the dispatcher does with each instruction: it calls that instruction's meaning. -/

namespace Sys2Proof.Machine

open Sys2Proof

theorem exec_tlbinvAll (w : Option Who) (st : State) : exec (.tlbinvAll w) st = execTlbinvAll w st := rfl
theorem exec_tlbinvAsid (w : Option Who) (asid : BitVec 16) (st : State) : exec (.tlbinvAsid w asid) st = execTlbinvAsid w asid st := rfl
theorem exec_tlbinvPage (w : Option Who) (asid : BitVec 16) (vpn : BitVec 36) (st : State) : exec (.tlbinvPage w asid vpn) st = execTlbinvPage w asid vpn st := rfl
theorem exec_faultSlotWaitRecord (die n : Nat) (st : State) : exec (.faultSlotWaitRecord die n) st = execFaultSlotWaitRecord die n st := rfl
theorem exec_faultDoorbell (port die slot : Nat) (st : State) : exec (.faultDoorbell port die slot) st = execFaultDoorbell port die slot st := rfl
theorem exec_runIssue (pl : Place) (role : Role) (st : State) : exec (.runIssue pl role) st = execRunIssue pl role st := rfl
theorem exec_waitSatisfied (w : Who) (st : State) : exec (.waitSatisfied w) st = execWaitSatisfied w st := rfl
theorem exec_waitwRecheck (w : Who) (st : State) : exec (.waitwRecheck w) st = execWaitwRecheck w st := rfl
theorem exec_waitwPoll (w : Who) (st : State) : exec (.waitwPoll w) st = execWaitwPoll w st := rfl
theorem exec_gangTimeout (uid entry : Nat) (st : State) : exec (.gangTimeout uid entry) st = execGangTimeout uid entry st := rfl
theorem exec_watchdogFire (ctx : Nat) (st : State) : exec (.watchdogFire ctx) st = execWatchdogFire ctx st := rfl
theorem exec_copyExecute (q : QKey) (st : State) : exec (.copyExecute q) st = execCopyExecute q st := rfl
theorem exec_copyComplete (q : QKey) (st : State) : exec (.copyComplete q) st = execCopyComplete q st := rfl
theorem exec_matrixQueueComplete (pl : Place) (st : State) : exec (.matrixQueueComplete pl) st = execMatrixQueueComplete pl st := rfl
theorem exec_launchPacketCheck (id : Nat) (st : State) : exec (.launchPacketCheck id) st = execLaunchPacketCheck id st := rfl
theorem exec_placementStep (die pick : Nat) (st : State) : exec (.placementStep die pick) st = execPlacementStep die pick st := rfl
theorem exec_groupCapture (uid gidx : Nat) (st : State) : exec (.groupCapture uid gidx) st = execGroupCapture uid gidx st := rfl
theorem exec_blockRetire (uid : Nat) (st : State) : exec (.blockRetire uid) st = execBlockRetire uid st := rfl
theorem exec_submitDoorbell (port die rcb : Nat) (st : State) : exec (.submitDoorbell port die rcb) st = execSubmitDoorbell port die rcb st := rfl
theorem exec_nodeKernel (ctx va : Nat) (st : State) : exec (.nodeKernel ctx va) st = execNodeKernel ctx va st := rfl
theorem exec_nodeCopy (ctx va : Nat) (st : State) : exec (.nodeCopy ctx va) st = execNodeCopy ctx va st := rfl
theorem exec_nodeWsload (ctx va : Nat) (st : State) : exec (.nodeWsload ctx va) st = execNodeWsload ctx va st := rfl
theorem exec_nodeCond (ctx va : Nat) (st : State) : exec (.nodeCond ctx va) st = execNodeCond ctx va st := rfl
theorem exec_nodeLoop (ctx va : Nat) (st : State) : exec (.nodeLoop ctx va) st = execNodeLoop ctx va st := rfl
theorem exec_nodeSignal (ctx va : Nat) (st : State) : exec (.nodeSignal ctx va) st = execNodeSignal ctx va st := rfl
theorem exec_nodeWait (ctx va : Nat) (st : State) : exec (.nodeWait ctx va) st = execNodeWait ctx va st := rfl
theorem exec_waitNodeRetest (ctx va : Nat) (st : State) : exec (.waitNodeRetest ctx va) st = execWaitNodeRetest ctx va st := rfl
theorem exec_nodeEnd (ctx va : Nat) (st : State) : exec (.nodeEnd ctx va) st = execNodeEnd ctx va st := rfl
theorem exec_ckptStart (ctx va : Nat) (st : State) : exec (.ckptStart ctx va) st = execCkptStart ctx va st := rfl
theorem exec_ckptCut (ctx va : Nat) (st : State) : exec (.ckptCut ctx va) st = execCkptCut ctx va st := rfl
theorem exec_ckptDrain (ctx va : Nat) (st : State) : exec (.ckptDrain ctx va) st = execCkptDrain ctx va st := rfl
theorem exec_ckptCommit (ctx va : Nat) (st : State) : exec (.ckptCommit ctx va) st = execCkptCommit ctx va st := rfl
theorem exec_ckptApply (ctx va : Nat) (st : State) : exec (.ckptApply ctx va) st = execCkptApply ctx va st := rfl
theorem exec_ckptApplyDone (ctx va : Nat) (st : State) : exec (.ckptApplyDone ctx va) st = execCkptApplyDone ctx va st := rfl
theorem exec_ckptRestore (ctx va : Nat) (st : State) : exec (.ckptRestore ctx va) st = execCkptRestore ctx va st := rfl
theorem exec_hostMemoryWrite (port : Nat) (t : Target) (bytes : List (BitVec 8)) (st : State) : exec (.hostMemoryWrite port t bytes) st = execHostMemoryWrite port t bytes st := rfl
theorem exec_hostMemoryRead (port pa n : Nat) (st : State) : exec (.hostMemoryRead port pa n) st = execHostMemoryRead port pa n st := rfl
theorem exec_heartbeat (port : Nat) (st : State) : exec (.heartbeat port) st = execHeartbeat port st := rfl
theorem exec_hostFailed (port : Nat) (st : State) : exec (.hostFailed port) st = execHostFailed port st := rfl
theorem exec_hostLinkDown (port : Nat) (st : State) : exec (.hostLinkDown port) st = execHostLinkDown port st := rfl
theorem exec_mailboxWrite (port off : Nat) (val : BitVec 64) (st : State) : exec (.mailboxWrite port off val) st = execMailboxWrite port off val st := rfl
theorem exec_resync (port : Nat) (st : State) : exec (.resync port) st = execResync port st := rfl
theorem exec_mailboxTlbinv (port : Nat) (st : State) : exec (.mailboxTlbinv port) st = execMailboxTlbinv port st := rfl
theorem exec_setis (port : Nat) (st : State) : exec (.setis port) st = execSetis port st := rfl
theorem exec_handover (port : Nat) (st : State) : exec (.handover port) st = execHandover port st := rfl
theorem exec_attest (port : Nat) (st : State) : exec (.attest port) st = execAttest port st := rfl
theorem exec_setroute (port : Nat) (st : State) : exec (.setroute port) st = execSetroute port st := rfl
theorem exec_setwin (port : Nat) (st : State) : exec (.setwin port) st = execSetwin port st := rfl
theorem exec_peerAccess (peer pa n : Nat) (bytes : Option (List (BitVec 8))) (st : State) : exec (.peerAccess peer pa n bytes) st = execPeerAccess peer pa n bytes st := rfl
theorem exec_peerStoreAck (id : Nat) (st : State) : exec (.peerStoreAck id) st = execPeerStoreAck id st := rfl
theorem exec_flitReplay (link : Nat) (st : State) : exec (.flitReplay link) st = execFlitReplay link st := rfl
theorem exec_pause (link : Nat) (st : State) : exec (.pause link) st = execPause link st := rfl
theorem exec_resume (link : Nat) (st : State) : exec (.resume link) st = execResume link st := rfl
theorem exec_linkRewidth (link lanes : Nat) (st : State) : exec (.linkRewidth link lanes) st = execLinkRewidth link lanes st := rfl
theorem exec_linkRewidthEnd (link : Nat) (st : State) : exec (.linkRewidthEnd link) st = execLinkRewidthEnd link st := rfl
theorem exec_linkDown (link : Nat) (st : State) : exec (.linkDown link) st = execLinkDown link st := rfl
theorem exec_linkCalibration (link : Nat) (st : State) : exec (.linkCalibration link) st = execLinkCalibration link st := rfl
theorem exec_dramCalibration (die : Nat) (st : State) : exec (.dramCalibration die) st = execDramCalibration die st := rfl
theorem exec_patrolScrub (t : Target) (st : State) : exec (.patrolScrub t) st = execPatrolScrub t st := rfl
theorem exec_telemetry (st : State) : exec (.telemetry) st = execTelemetry st := rfl
theorem exec_powerSample (mw : Nat) (st : State) : exec (.powerSample mw) st = execPowerSample mw st := rfl
theorem exec_boostClassify (st : State) : exec (.boostClassify) st = execBoostClassify st := rfl
theorem exec_thermalSample (dom temp : Nat) (st : State) : exec (.thermalSample dom temp) st = execThermalSample dom temp st := rfl
theorem exec_panRotation (die : Nat) (temps : List Nat) (st : State) : exec (.panRotation die temps) st = execPanRotation die temps st := rfl
theorem exec_panExchange (die cl : Nat) (st : State) : exec (.panExchange die cl) st = execPanExchange die cl st := rfl
theorem exec_panExchangeAbandon (die cl : Nat) (st : State) : exec (.panExchangeAbandon die cl) st = execPanExchangeAbandon die cl st := rfl
theorem exec_panTransferEnd (die cl : Nat) (st : State) : exec (.panTransferEnd die cl) st = execPanTransferEnd die cl st := rfl
theorem exec_bandPowerOff (pl : Place) (band : Nat) (st : State) : exec (.bandPowerOff pl band) st = execBandPowerOff pl band st := rfl
theorem exec_restEnter (die : Nat) (st : State) : exec (.restEnter die) st = execRestEnter die st := rfl
theorem exec_restExit (die : Nat) (st : State) : exec (.restExit die) st = execRestExit die st := rfl
theorem exec_cellarRefreshStart (die bg : Nat) (st : State) : exec (.cellarRefreshStart die bg) st = execCellarRefreshStart die bg st := rfl
theorem exec_cellarRefreshEnd (die bg : Nat) (st : State) : exec (.cellarRefreshEnd die bg) st = execCellarRefreshEnd die bg st := rfl
theorem exec_deviceReset (good : Bool) (st : State) : exec (.deviceReset good) st = execDeviceReset good st := rfl
theorem exec_powerHintExpiry (uid : Nat) (st : State) : exec (.powerHintExpiry uid) st = execPowerHintExpiry uid st := rfl
theorem exec_peerResponse (id : Nat) (bytes : Option (List (BitVec 8))) (st : State) : exec (.peerResponse id bytes) st = execPeerResponse id bytes st := rfl
theorem exec_hostApertureCompletion (id : Nat) (bytes : Option (List (BitVec 8))) (st : State) : exec (.hostApertureCompletion id bytes) st = execHostApertureCompletion id bytes st := rfl
theorem exec_sadd (e : Bool) (d a b : BitVec 6) (st : State) : exec (.sadd e d a b) st = execSadd e d a b st := rfl
theorem exec_ssub (e : Bool) (d a b : BitVec 6) (st : State) : exec (.ssub e d a b) st = execSsub e d a b st := rfl
theorem exec_sand (e : Bool) (d a b : BitVec 6) (st : State) : exec (.sand e d a b) st = execSand e d a b st := rfl
theorem exec_sandn (e : Bool) (d a b : BitVec 6) (st : State) : exec (.sandn e d a b) st = execSandn e d a b st := rfl
theorem exec_sor (e : Bool) (d a b : BitVec 6) (st : State) : exec (.sor e d a b) st = execSor e d a b st := rfl
theorem exec_sxor (e : Bool) (d a b : BitVec 6) (st : State) : exec (.sxor e d a b) st = execSxor e d a b st := rfl
theorem exec_sshl (e : Bool) (d a b : BitVec 6) (st : State) : exec (.sshl e d a b) st = execSshl e d a b st := rfl
theorem exec_sshr (e : Bool) (d a b : BitVec 6) (st : State) : exec (.sshr e d a b) st = execSshr e d a b st := rfl
theorem exec_ssra (e : Bool) (d a b : BitVec 6) (st : State) : exec (.ssra e d a b) st = execSsra e d a b st := rfl
theorem exec_smin (e : Bool) (d a b : BitVec 6) (st : State) : exec (.smin e d a b) st = execSmin e d a b st := rfl
theorem exec_smax (e : Bool) (d a b : BitVec 6) (st : State) : exec (.smax e d a b) st = execSmax e d a b st := rfl
theorem exec_sminu (e : Bool) (d a b : BitVec 6) (st : State) : exec (.sminu e d a b) st = execSminu e d a b st := rfl
theorem exec_smaxu (e : Bool) (d a b : BitVec 6) (st : State) : exec (.smaxu e d a b) st = execSmaxu e d a b st := rfl
theorem exec_smul (e : Bool) (d a b : BitVec 6) (st : State) : exec (.smul e d a b) st = execSmul e d a b st := rfl
theorem exec_smulh (e : Bool) (d a b : BitVec 6) (st : State) : exec (.smulh e d a b) st = execSmulh e d a b st := rfl
theorem exec_smulhu (e : Bool) (d a b : BitVec 6) (st : State) : exec (.smulhu e d a b) st = execSmulhu e d a b st := rfl
theorem exec_sdiv (e : Bool) (d a b : BitVec 6) (st : State) : exec (.sdiv e d a b) st = execSdiv e d a b st := rfl
theorem exec_sdivu (e : Bool) (d a b : BitVec 6) (st : State) : exec (.sdivu e d a b) st = execSdivu e d a b st := rfl
theorem exec_srem (e : Bool) (d a b : BitVec 6) (st : State) : exec (.srem e d a b) st = execSrem e d a b st := rfl
theorem exec_sremu (e : Bool) (d a b : BitVec 6) (st : State) : exec (.sremu e d a b) st = execSremu e d a b st := rfl
theorem exec_sseq (e : Bool) (d a b : BitVec 6) (st : State) : exec (.sseq e d a b) st = execSseq e d a b st := rfl
theorem exec_ssne (e : Bool) (d a b : BitVec 6) (st : State) : exec (.ssne e d a b) st = execSsne e d a b st := rfl
theorem exec_sslt (e : Bool) (d a b : BitVec 6) (st : State) : exec (.sslt e d a b) st = execSslt e d a b st := rfl
theorem exec_ssltu (e : Bool) (d a b : BitVec 6) (st : State) : exec (.ssltu e d a b) st = execSsltu e d a b st := rfl
theorem exec_ssle (e : Bool) (d a b : BitVec 6) (st : State) : exec (.ssle e d a b) st = execSsle e d a b st := rfl
theorem exec_ssleu (e : Bool) (d a b : BitVec 6) (st : State) : exec (.ssleu e d a b) st = execSsleu e d a b st := rfl
theorem exec_sclz (e : Bool) (d a : BitVec 6) (st : State) : exec (.sclz e d a) st = execSclz e d a st := rfl
theorem exec_sctz (e : Bool) (d a : BitVec 6) (st : State) : exec (.sctz e d a) st = execSctz e d a st := rfl
theorem exec_spopc (e : Bool) (d a : BitVec 6) (st : State) : exec (.spopc e d a) st = execSpopc e d a st := rfl
theorem exec_sbrev (e : Bool) (d a : BitVec 6) (st : State) : exec (.sbrev e d a) st = execSbrev e d a st := rfl
theorem exec_ssext (e : Bool) (d a w : BitVec 6) (st : State) : exec (.ssext e d a w) st = execSsext e d a w st := rfl
theorem exec_szext (e : Bool) (d a w : BitVec 6) (st : State) : exec (.szext e d a w) st = execSzext e d a w st := rfl
theorem exec_smov (e : Bool) (d a : BitVec 6) (st : State) : exec (.smov e d a) st = execSmov e d a st := rfl
theorem exec_saddi (e : Bool) (d a : BitVec 6) (i1 : BitVec 12) (st : State) : exec (.saddi e d a i1) st = execSaddi e d a i1 st := rfl
theorem exec_sandi (e : Bool) (d a : BitVec 6) (i1 : BitVec 12) (st : State) : exec (.sandi e d a i1) st = execSandi e d a i1 st := rfl
theorem exec_sori (e : Bool) (d a : BitVec 6) (i1 : BitVec 12) (st : State) : exec (.sori e d a i1) st = execSori e d a i1 st := rfl
theorem exec_sxori (e : Bool) (d a : BitVec 6) (i1 : BitVec 12) (st : State) : exec (.sxori e d a i1) st = execSxori e d a i1 st := rfl
theorem exec_sshli (e : Bool) (d a n : BitVec 6) (st : State) : exec (.sshli e d a n) st = execSshli e d a n st := rfl
theorem exec_sshri (e : Bool) (d a n : BitVec 6) (st : State) : exec (.sshri e d a n) st = execSshri e d a n st := rfl
theorem exec_ssrai (e : Bool) (d a n : BitVec 6) (st : State) : exec (.ssrai e d a n) st = execSsrai e d a n st := rfl
theorem exec_sslti (e : Bool) (d a : BitVec 6) (i1 : BitVec 11) (st : State) : exec (.sslti e d a i1) st = execSslti e d a i1 st := rfl
theorem exec_ssltui (e : Bool) (d a : BitVec 6) (i1 : BitVec 11) (st : State) : exec (.ssltui e d a i1) st = execSsltui e d a i1 st := rfl
theorem exec_sli (e : Bool) (d : BitVec 6) (i1 : BitVec 18) (st : State) : exec (.sli e d i1) st = execSli e d i1 st := rfl
theorem exec_slhi (e : Bool) (d : BitVec 6) (i1 : BitVec 18) (st : State) : exec (.slhi e d i1) st = execSlhi e d i1 st := rfl
theorem exec_sadr (e : Bool) (d a b : BitVec 6) (s1 : BitVec 3) (st : State) : exec (.sadr e d a b s1) st = execSadr e d a b s1 st := rfl
theorem exec_sadrPc (e : Bool) (d b : BitVec 6) (s1 : BitVec 3) (st : State) : exec (.sadrPc e d b s1) st = execSadrPc e d b s1 st := rfl
theorem exec_sadrLoc (e : Bool) (d a b : BitVec 6) (s1 : BitVec 3) (st : State) : exec (.sadrLoc e d a b s1) st = execSadrLoc e d a b s1 st := rfl
theorem exec_sadrCw (e : Bool) (d a b : BitVec 6) (s1 : BitVec 3) (st : State) : exec (.sadrCw e d a b s1) st = execSadrCw e d a b s1 st := rfl
theorem exec_sadrWs (e : Bool) (d a b : BitVec 6) (s1 : BitVec 3) (st : State) : exec (.sadrWs e d a b s1) st = execSadrWs e d a b s1 st := rfl
theorem exec_saluLongImm (e : Bool) (d a fn : BitVec 6) (imm : BitVec 32) (hint : BitVec 4) (st : State) : exec (.saluLongImm e d a fn imm hint) st = execSaluLongImm e d a fn imm hint st := rfl
theorem exec_sliLong (e : Bool) (d : BitVec 6) (imm : BitVec 32) (hint : BitVec 4) (st : State) : exec (.sliLong e d imm hint) st = execSliLong e d imm hint st := rfl
theorem exec_slhiW (e : Bool) (d : BitVec 6) (imm : BitVec 32) (hint : BitVec 4) (st : State) : exec (.slhiW e d imm hint) st = execSlhiW e d imm hint st := rfl
theorem exec_sadrLong (e : Bool) (d a fn : BitVec 6) (imm : BitVec 32) (hint : BitVec 4) (st : State) : exec (.sadrLong e d a fn imm hint) st = execSadrLong e d a fn imm hint st := rfl
theorem exec_sfadd (e : Bool) (d a b : BitVec 6) (t : BitVec 1) (st : State) : exec (.sfadd e d a b t) st = execSfadd e d a b t st := rfl
theorem exec_sfsub (e : Bool) (d a b : BitVec 6) (t : BitVec 1) (st : State) : exec (.sfsub e d a b t) st = execSfsub e d a b t st := rfl
theorem exec_sfmul (e : Bool) (d a b : BitVec 6) (t : BitVec 1) (st : State) : exec (.sfmul e d a b t) st = execSfmul e d a b t st := rfl
theorem exec_sffma (e : Bool) (d a b : BitVec 6) (t : BitVec 1) (st : State) : exec (.sffma e d a b t) st = execSffma e d a b t st := rfl
theorem exec_sfdiv (e : Bool) (d a b : BitVec 6) (t : BitVec 1) (st : State) : exec (.sfdiv e d a b t) st = execSfdiv e d a b t st := rfl
theorem exec_sfsqrt (e : Bool) (d a : BitVec 6) (t : BitVec 1) (st : State) : exec (.sfsqrt e d a t) st = execSfsqrt e d a t st := rfl
theorem exec_sfmin (e : Bool) (d a b : BitVec 6) (t : BitVec 1) (st : State) : exec (.sfmin e d a b t) st = execSfmin e d a b t st := rfl
theorem exec_sfmax (e : Bool) (d a b : BitVec 6) (t : BitVec 1) (st : State) : exec (.sfmax e d a b t) st = execSfmax e d a b t st := rfl
theorem exec_sfcmpEq (e : Bool) (d a b : BitVec 6) (t : BitVec 1) (st : State) : exec (.sfcmpEq e d a b t) st = execSfcmpEq e d a b t st := rfl
theorem exec_sfcmpLt (e : Bool) (d a b : BitVec 6) (t : BitVec 1) (st : State) : exec (.sfcmpLt e d a b t) st = execSfcmpLt e d a b t st := rfl
theorem exec_sfcmpLe (e : Bool) (d a b : BitVec 6) (t : BitVec 1) (st : State) : exec (.sfcmpLe e d a b t) st = execSfcmpLe e d a b t st := rfl
theorem exec_sfcmpUn (e : Bool) (d a b : BitVec 6) (t : BitVec 1) (st : State) : exec (.sfcmpUn e d a b t) st = execSfcmpUn e d a b t st := rfl
theorem exec_sfcvt (e : Bool) (d a : BitVec 6) (x y : BitVec 3) (st : State) : exec (.sfcvt e d a x y) st = execSfcvt e d a x y st := rfl
theorem exec_br (e : Bool) (o : BitVec 24) (st : State) : exec (.br e o) st = execBr e o st := rfl
theorem exec_bnz (e : Bool) (s1 : BitVec 6) (o : BitVec 18) (st : State) : exec (.bnz e s1 o) st = execBnz e s1 o st := rfl
theorem exec_bz (e : Bool) (s1 : BitVec 6) (o : BitVec 18) (st : State) : exec (.bz e s1 o) st = execBz e s1 o st := rfl
theorem exec_call (e : Bool) (o : BitVec 24) (st : State) : exec (.call e o) st = execCall e o st := rfl
theorem exec_jr (e : Bool) (a : BitVec 6) (st : State) : exec (.jr e a) st = execJr e a st := rfl
theorem exec_callr (e : Bool) (a : BitVec 6) (st : State) : exec (.callr e a) st = execCallr e a st := rfl
theorem exec_ret (e : Bool) (st : State) : exec (.ret e) st = execRet e st := rfl
theorem exec_loop (e : Bool) (s1 : BitVec 6) (o : BitVec 18) (st : State) : exec (.loop e s1 o) st = execLoop e s1 o st := rfl
theorem exec_rpt (e : Bool) (s1 : BitVec 6) (l : BitVec 4) (n : BitVec 9) (st : State) : exec (.rpt e s1 l n) st = execRpt e s1 l n st := rfl
theorem exec_vbr (e : Bool) (p t : BitVec 4) (o : BitVec 16) (st : State) : exec (.vbr e p t o) st = execVbr e p t o st := rfl
theorem exec_vjoin (e : Bool) (t : BitVec 4) (st : State) : exec (.vjoin e t) st = execVjoin e t st := rfl
theorem exec_vmeld (e : Bool) (t : BitVec 4) (o : BitVec 18) (st : State) : exec (.vmeld e t o) st = execVmeld e t o st := rfl
theorem exec_vunmeld (e : Bool) (t : BitVec 4) (st : State) : exec (.vunmeld e t) st = execVunmeld e t st := rfl
theorem exec_vexit (e : Bool) (p : BitVec 4) (st : State) : exec (.vexit e p) st = execVexit e p st := rfl
theorem exec_vbrk (e : Bool) (p : BitVec 4) (st : State) : exec (.vbrk e p) st = execVbrk e p st := rfl
theorem exec_vany (e : Bool) (d : BitVec 6) (p m : BitVec 4) (st : State) : exec (.vany e d p m) st = execVany e d p m st := rfl
theorem exec_vall (e : Bool) (d : BitVec 6) (p m : BitVec 4) (st : State) : exec (.vall e d p m) st = execVall e d p m st := rfl
theorem exec_vnone (e : Bool) (d : BitVec 6) (p m : BitVec 4) (st : State) : exec (.vnone e d p m) st = execVnone e d p m st := rfl
theorem exec_vcfg (e : Bool) (d : BitVec 6) (n : BitVec 2) (st : State) : exec (.vcfg e d n) st = execVcfg e d n st := rfl
theorem exec_vgrant (e : Bool) (d a : BitVec 6) (st : State) : exec (.vgrant e d a) st = execVgrant e d a st := rfl
theorem exec_vadd (e : Bool) (d a b : BitVec 6) (m l : BitVec 2) (w : BitVec 1) (st : State) : exec (.vadd e d a b m l w) st = execVadd e d a b m l w st := rfl
theorem exec_vsub (e : Bool) (d a b : BitVec 6) (m l : BitVec 2) (w : BitVec 1) (st : State) : exec (.vsub e d a b m l w) st = execVsub e d a b m l w st := rfl
theorem exec_vmul (e : Bool) (d a b : BitVec 6) (m l : BitVec 2) (w : BitVec 1) (st : State) : exec (.vmul e d a b m l w) st = execVmul e d a b m l w st := rfl
theorem exec_vmulh (e : Bool) (d a b : BitVec 6) (m l : BitVec 2) (w : BitVec 1) (st : State) : exec (.vmulh e d a b m l w) st = execVmulh e d a b m l w st := rfl
theorem exec_vmulhu (e : Bool) (d a b : BitVec 6) (m l : BitVec 2) (w : BitVec 1) (st : State) : exec (.vmulhu e d a b m l w) st = execVmulhu e d a b m l w st := rfl
theorem exec_vmad (e : Bool) (d a b : BitVec 6) (m l : BitVec 2) (w : BitVec 1) (st : State) : exec (.vmad e d a b m l w) st = execVmad e d a b m l w st := rfl
theorem exec_vand (e : Bool) (d a b : BitVec 6) (m l : BitVec 2) (w : BitVec 1) (st : State) : exec (.vand e d a b m l w) st = execVand e d a b m l w st := rfl
theorem exec_vor (e : Bool) (d a b : BitVec 6) (m l : BitVec 2) (w : BitVec 1) (st : State) : exec (.vor e d a b m l w) st = execVor e d a b m l w st := rfl
theorem exec_vxor (e : Bool) (d a b : BitVec 6) (m l : BitVec 2) (w : BitVec 1) (st : State) : exec (.vxor e d a b m l w) st = execVxor e d a b m l w st := rfl
theorem exec_vandn (e : Bool) (d a b : BitVec 6) (m l : BitVec 2) (w : BitVec 1) (st : State) : exec (.vandn e d a b m l w) st = execVandn e d a b m l w st := rfl
theorem exec_vshl (e : Bool) (d a b : BitVec 6) (m l : BitVec 2) (w : BitVec 1) (st : State) : exec (.vshl e d a b m l w) st = execVshl e d a b m l w st := rfl
theorem exec_vshr (e : Bool) (d a b : BitVec 6) (m l : BitVec 2) (w : BitVec 1) (st : State) : exec (.vshr e d a b m l w) st = execVshr e d a b m l w st := rfl
theorem exec_vsra (e : Bool) (d a b : BitVec 6) (m l : BitVec 2) (w : BitVec 1) (st : State) : exec (.vsra e d a b m l w) st = execVsra e d a b m l w st := rfl
theorem exec_vrot (e : Bool) (d a b : BitVec 6) (m l : BitVec 2) (w : BitVec 1) (st : State) : exec (.vrot e d a b m l w) st = execVrot e d a b m l w st := rfl
theorem exec_vmin (e : Bool) (d a b : BitVec 6) (m l : BitVec 2) (w : BitVec 1) (st : State) : exec (.vmin e d a b m l w) st = execVmin e d a b m l w st := rfl
theorem exec_vmax (e : Bool) (d a b : BitVec 6) (m l : BitVec 2) (w : BitVec 1) (st : State) : exec (.vmax e d a b m l w) st = execVmax e d a b m l w st := rfl
theorem exec_vminu (e : Bool) (d a b : BitVec 6) (m l : BitVec 2) (w : BitVec 1) (st : State) : exec (.vminu e d a b m l w) st = execVminu e d a b m l w st := rfl
theorem exec_vmaxu (e : Bool) (d a b : BitVec 6) (m l : BitVec 2) (w : BitVec 1) (st : State) : exec (.vmaxu e d a b m l w) st = execVmaxu e d a b m l w st := rfl
theorem exec_vadds (e : Bool) (d a b : BitVec 6) (m l : BitVec 2) (w : BitVec 1) (st : State) : exec (.vadds e d a b m l w) st = execVadds e d a b m l w st := rfl
theorem exec_vsubs (e : Bool) (d a b : BitVec 6) (m l : BitVec 2) (w : BitVec 1) (st : State) : exec (.vsubs e d a b m l w) st = execVsubs e d a b m l w st := rfl
theorem exec_vaddsu (e : Bool) (d a b : BitVec 6) (m l : BitVec 2) (w : BitVec 1) (st : State) : exec (.vaddsu e d a b m l w) st = execVaddsu e d a b m l w st := rfl
theorem exec_vsubsu (e : Bool) (d a b : BitVec 6) (m l : BitVec 2) (w : BitVec 1) (st : State) : exec (.vsubsu e d a b m l w) st = execVsubsu e d a b m l w st := rfl
theorem exec_vcmp (e : Bool) (p c : BitVec 4) (a b : BitVec 6) (m l : BitVec 2) (st : State) : exec (.vcmp e p c a b m l) st = execVcmp e p c a b m l st := rfl
theorem exec_vsel (e : Bool) (d a b : BitVec 6) (m l : BitVec 2) (w : BitVec 1) (st : State) : exec (.vsel e d a b m l w) st = execVsel e d a b m l w st := rfl
theorem exec_vmov (e : Bool) (d a : BitVec 6) (m : BitVec 2) (l w : BitVec 1) (st : State) : exec (.vmov e d a m l w) st = execVmov e d a m l w st := rfl
theorem exec_vbcast (e : Bool) (d a : BitVec 6) (m : BitVec 2) (w : BitVec 1) (st : State) : exec (.vbcast e d a m w) st = execVbcast e d a m w st := rfl
theorem exec_vid (e : Bool) (d : BitVec 6) (m : BitVec 2) (w : BitVec 1) (st : State) : exec (.vid e d m w) st = execVid e d m w st := rfl
theorem exec_vext (e : Bool) (d a b : BitVec 6) (l : BitVec 1) (st : State) : exec (.vext e d a b l) st = execVext e d a b l st := rfl
theorem exec_vins (e : Bool) (d a b : BitVec 6) (w : BitVec 1) (st : State) : exec (.vins e d a b w) st = execVins e d a b w st := rfl
theorem exec_vcvt (e : Bool) (d a c : BitVec 6) (m : BitVec 2) (l w : BitVec 1) (st : State) : exec (.vcvt e d a c m l w) st = execVcvt e d a c m l w st := rfl
theorem exec_vfadd (e : Bool) (d a b : BitVec 6) (m l : BitVec 2) (w : BitVec 1) (st : State) : exec (.vfadd e d a b m l w) st = execVfadd e d a b m l w st := rfl
theorem exec_vfsub (e : Bool) (d a b : BitVec 6) (m l : BitVec 2) (w : BitVec 1) (st : State) : exec (.vfsub e d a b m l w) st = execVfsub e d a b m l w st := rfl
theorem exec_vfmul (e : Bool) (d a b : BitVec 6) (m l : BitVec 2) (w : BitVec 1) (st : State) : exec (.vfmul e d a b m l w) st = execVfmul e d a b m l w st := rfl
theorem exec_vfdiv (e : Bool) (d a b : BitVec 6) (m l : BitVec 2) (w : BitVec 1) (st : State) : exec (.vfdiv e d a b m l w) st = execVfdiv e d a b m l w st := rfl
theorem exec_vffma (e : Bool) (d a b : BitVec 6) (m l : BitVec 2) (w : BitVec 1) (st : State) : exec (.vffma e d a b m l w) st = execVffma e d a b m l w st := rfl
theorem exec_vffms (e : Bool) (d a b : BitVec 6) (m l : BitVec 2) (w : BitVec 1) (st : State) : exec (.vffms e d a b m l w) st = execVffms e d a b m l w st := rfl
theorem exec_vfnma (e : Bool) (d a b : BitVec 6) (m l : BitVec 2) (w : BitVec 1) (st : State) : exec (.vfnma e d a b m l w) st = execVfnma e d a b m l w st := rfl
theorem exec_vfnms (e : Bool) (d a b : BitVec 6) (m l : BitVec 2) (w : BitVec 1) (st : State) : exec (.vfnms e d a b m l w) st = execVfnms e d a b m l w st := rfl
theorem exec_vfmin (e : Bool) (d a b : BitVec 6) (m l : BitVec 2) (w : BitVec 1) (st : State) : exec (.vfmin e d a b m l w) st = execVfmin e d a b m l w st := rfl
theorem exec_vfmax (e : Bool) (d a b : BitVec 6) (m l : BitVec 2) (w : BitVec 1) (st : State) : exec (.vfmax e d a b m l w) st = execVfmax e d a b m l w st := rfl
theorem exec_vfcmp (e : Bool) (p c : BitVec 4) (a b : BitVec 6) (m l : BitVec 2) (st : State) : exec (.vfcmp e p c a b m l) st = execVfcmp e p c a b m l st := rfl
theorem exec_vfsqrt (e : Bool) (d a : BitVec 6) (m : BitVec 2) (l w : BitVec 1) (st : State) : exec (.vfsqrt e d a m l w) st = execVfsqrt e d a m l w st := rfl
theorem exec_vfrcp (e : Bool) (d a : BitVec 6) (m : BitVec 2) (l w : BitVec 1) (st : State) : exec (.vfrcp e d a m l w) st = execVfrcp e d a m l w st := rfl
theorem exec_vfrsq (e : Bool) (d a : BitVec 6) (m : BitVec 2) (l w : BitVec 1) (st : State) : exec (.vfrsq e d a m l w) st = execVfrsq e d a m l w st := rfl
theorem exec_vfexp2f (e : Bool) (d a : BitVec 6) (m : BitVec 2) (l w : BitVec 1) (st : State) : exec (.vfexp2f e d a m l w) st = execVfexp2f e d a m l w st := rfl
theorem exec_vfgetexp (e : Bool) (d a : BitVec 6) (m : BitVec 2) (l w : BitVec 1) (st : State) : exec (.vfgetexp e d a m l w) st = execVfgetexp e d a m l w st := rfl
theorem exec_vfgetman (e : Bool) (d a : BitVec 6) (m : BitVec 2) (l w : BitVec 1) (st : State) : exec (.vfgetman e d a m l w) st = execVfgetman e d a m l w st := rfl
theorem exec_vfclass (e : Bool) (d a : BitVec 6) (m : BitVec 2) (l w : BitVec 1) (st : State) : exec (.vfclass e d a m l w) st = execVfclass e d a m l w st := rfl
theorem exec_vfabs (e : Bool) (d a : BitVec 6) (m : BitVec 2) (l w : BitVec 1) (st : State) : exec (.vfabs e d a m l w) st = execVfabs e d a m l w st := rfl
theorem exec_vfneg (e : Bool) (d a : BitVec 6) (m : BitVec 2) (l w : BitVec 1) (st : State) : exec (.vfneg e d a m l w) st = execVfneg e d a m l w st := rfl
theorem exec_vfround (e : Bool) (d a : BitVec 6) (m : BitVec 2) (l w : BitVec 1) (st : State) : exec (.vfround e d a m l w) st = execVfround e d a m l w st := rfl
theorem exec_vfroundRne (e : Bool) (d a : BitVec 6) (m : BitVec 2) (l w : BitVec 1) (st : State) : exec (.vfroundRne e d a m l w) st = execVfroundRne e d a m l w st := rfl
theorem exec_vfroundRtz (e : Bool) (d a : BitVec 6) (m : BitVec 2) (l w : BitVec 1) (st : State) : exec (.vfroundRtz e d a m l w) st = execVfroundRtz e d a m l w st := rfl
theorem exec_vfroundRdn (e : Bool) (d a : BitVec 6) (m : BitVec 2) (l w : BitVec 1) (st : State) : exec (.vfroundRdn e d a m l w) st = execVfroundRdn e d a m l w st := rfl
theorem exec_vfroundRup (e : Bool) (d a : BitVec 6) (m : BitVec 2) (l w : BitVec 1) (st : State) : exec (.vfroundRup e d a m l w) st = execVfroundRup e d a m l w st := rfl
theorem exec_vfscaleb (e : Bool) (d a b : BitVec 6) (m l : BitVec 2) (w : BitVec 1) (st : State) : exec (.vfscaleb e d a b m l w) st = execVfscaleb e d a b m l w st := rfl
theorem exec_vfsgnj (e : Bool) (d a b : BitVec 6) (m l : BitVec 2) (w : BitVec 1) (st : State) : exec (.vfsgnj e d a b m l w) st = execVfsgnj e d a b m l w st := rfl
theorem exec_vfcvt (e : Bool) (d a : BitVec 6) (x y : BitVec 3) (m : BitVec 2) (l w : BitVec 1) (st : State) : exec (.vfcvt e d a x y m l w) st = execVfcvt e d a x y m l w st := rfl
theorem exec_vfcvtBlockToF32 (e : Bool) (x : BlockCvt) (st : State) : exec (.vfcvtBlockToF32 e x) st = execVfcvtBlockToF32 e x st := rfl
theorem exec_vfcvtF32ToBlock (e : Bool) (x : BlockCvt) (st : State) : exec (.vfcvtF32ToBlock e x) st = execVfcvtF32ToBlock e x st := rfl
theorem exec_vectorLongForm (e : Bool) (x : VecLong) (st : State) : exec (.vectorLongForm e x) st = execVectorLongForm e x st := rfl
theorem exec_pand (e : Bool) (d a b : BitVec 4) (m : BitVec 2) (st : State) : exec (.pand e d a b m) st = execPand e d a b m st := rfl
theorem exec_por (e : Bool) (d a b : BitVec 4) (m : BitVec 2) (st : State) : exec (.por e d a b m) st = execPor e d a b m st := rfl
theorem exec_pxor (e : Bool) (d a b : BitVec 4) (m : BitVec 2) (st : State) : exec (.pxor e d a b m) st = execPxor e d a b m st := rfl
theorem exec_pandn (e : Bool) (d a b : BitVec 4) (m : BitVec 2) (st : State) : exec (.pandn e d a b m) st = execPandn e d a b m st := rfl
theorem exec_pnot (e : Bool) (d a : BitVec 4) (m : BitVec 2) (st : State) : exec (.pnot e d a m) st = execPnot e d a m st := rfl
theorem exec_pmov (e : Bool) (d a : BitVec 4) (m : BitVec 2) (st : State) : exec (.pmov e d a m) st = execPmov e d a m st := rfl
theorem exec_psbf (e : Bool) (d a : BitVec 4) (m : BitVec 2) (st : State) : exec (.psbf e d a m) st = execPsbf e d a m st := rfl
theorem exec_psif (e : Bool) (d a : BitVec 4) (m : BitVec 2) (st : State) : exec (.psif e d a m) st = execPsif e d a m st := rfl
theorem exec_psof (e : Bool) (d a : BitVec 4) (m : BitVec 2) (st : State) : exec (.psof e d a m) st = execPsof e d a m st := rfl
theorem exec_pfirst (e : Bool) (d : BitVec 6) (a : BitVec 4) (m : BitVec 2) (st : State) : exec (.pfirst e d a m) st = execPfirst e d a m st := rfl
theorem exec_ppopc (e : Bool) (d : BitVec 6) (a : BitVec 4) (m : BitVec 2) (st : State) : exec (.ppopc e d a m) st = execPpopc e d a m st := rfl
theorem exec_piota (e : Bool) (d : BitVec 6) (a : BitVec 4) (m : BitVec 2) (st : State) : exec (.piota e d a m) st = execPiota e d a m st := rfl
theorem exec_vshfl (e : Bool) (d a b : BitVec 6) (m l : BitVec 2) (st : State) : exec (.vshfl e d a b m l) st = execVshfl e d a b m l st := rfl
theorem exec_vshflx (e : Bool) (d a b : BitVec 6) (m : BitVec 2) (l : BitVec 1) (st : State) : exec (.vshflx e d a b m l) st = execVshflx e d a b m l st := rfl
theorem exec_vlup (e : Bool) (d a b : BitVec 6) (m : BitVec 2) (l : BitVec 1) (st : State) : exec (.vlup e d a b m l) st = execVlup e d a b m l st := rfl
theorem exec_vldn (e : Bool) (d a b : BitVec 6) (m : BitVec 2) (l : BitVec 1) (st : State) : exec (.vldn e d a b m l) st = execVldn e d a b m l st := rfl
theorem exec_vcompress (e : Bool) (d a : BitVec 6) (m : BitVec 2) (l w : BitVec 1) (st : State) : exec (.vcompress e d a m l w) st = execVcompress e d a m l w st := rfl
theorem exec_vexpand (e : Bool) (d a : BitVec 6) (m : BitVec 2) (l w : BitVec 1) (st : State) : exec (.vexpand e d a m l w) st = execVexpand e d a m l w st := rfl
theorem exec_vredSum (e : Bool) (d a : BitVec 6) (m : BitVec 2) (l : BitVec 1) (st : State) : exec (.vredSum e d a m l) st = execVredSum e d a m l st := rfl
theorem exec_vredMin (e : Bool) (d a : BitVec 6) (m : BitVec 2) (l : BitVec 1) (st : State) : exec (.vredMin e d a m l) st = execVredMin e d a m l st := rfl
theorem exec_vredMax (e : Bool) (d a : BitVec 6) (m : BitVec 2) (l : BitVec 1) (st : State) : exec (.vredMax e d a m l) st = execVredMax e d a m l st := rfl
theorem exec_vredAnd (e : Bool) (d a : BitVec 6) (m : BitVec 2) (l : BitVec 1) (st : State) : exec (.vredAnd e d a m l) st = execVredAnd e d a m l st := rfl
theorem exec_vredOr (e : Bool) (d a : BitVec 6) (m : BitVec 2) (l : BitVec 1) (st : State) : exec (.vredOr e d a m l) st = execVredOr e d a m l st := rfl
theorem exec_vredXor (e : Bool) (d a : BitVec 6) (m : BitVec 2) (l : BitVec 1) (st : State) : exec (.vredXor e d a m l) st = execVredXor e d a m l st := rfl
theorem exec_vredFsumO (e : Bool) (d a : BitVec 6) (m : BitVec 2) (l : BitVec 1) (st : State) : exec (.vredFsumO e d a m l) st = execVredFsumO e d a m l st := rfl
theorem exec_vredFsumU (e : Bool) (d a : BitVec 6) (m : BitVec 2) (l : BitVec 1) (st : State) : exec (.vredFsumU e d a m l) st = execVredFsumU e d a m l st := rfl
theorem exec_vredFmin (e : Bool) (d a : BitVec 6) (m : BitVec 2) (l : BitVec 1) (st : State) : exec (.vredFmin e d a m l) st = execVredFmin e d a m l st := rfl
theorem exec_vredFmax (e : Bool) (d a : BitVec 6) (m : BitVec 2) (l : BitVec 1) (st : State) : exec (.vredFmax e d a m l) st = execVredFmax e d a m l st := rfl
theorem exec_vscan (e : Bool) (d a : BitVec 6) (x : BitVec 1) (o : BitVec 5) (m : BitVec 2) (l : BitVec 1) (st : State) : exec (.vscan e d a x o m l) st = execVscan e d a x o m l st := rfl
theorem exec_vballot (e : Bool) (d : BitVec 6) (a : BitVec 4) (b : BitVec 6) (st : State) : exec (.vballot e d a b) st = execVballot e d a b st := rfl
theorem exec_vvoteAny (e : Bool) (d : BitVec 6) (a : BitVec 4) (m : BitVec 2) (st : State) : exec (.vvoteAny e d a m) st = execVvoteAny e d a m st := rfl
theorem exec_vvoteAll (e : Bool) (d : BitVec 6) (a : BitVec 4) (m : BitVec 2) (st : State) : exec (.vvoteAll e d a m) st = execVvoteAll e d a m st := rfl
theorem exec_vvoteCnt (e : Bool) (d : BitVec 6) (a : BitVec 4) (m : BitVec 2) (st : State) : exec (.vvoteCnt e d a m) st = execVvoteCnt e d a m st := rfl
theorem exec_vmaxexp (e : Bool) (a : BitVec 6) (f k : BitVec 3) (m : BitVec 2) (l : BitVec 1) (st : State) : exec (.vmaxexp e a f k m l) st = execVmaxexp e a f k m l st := rfl
theorem exec_vquant (e : Bool) (d a : BitVec 6) (f k : BitVec 3) (m : BitVec 2) (l : BitVec 1) (st : State) : exec (.vquant e d a f k m l) st = execVquant e d a f k m l st := rfl
theorem exec_vdequant (e : Bool) (d a : BitVec 6) (k : BitVec 3) (m : BitVec 2) (l : BitVec 1) (st : State) : exec (.vdequant e d a k m l) st = execVdequant e d a k m l st := rfl
theorem exec_sld (e : Bool) (d a : BitVec 6) (c : BitVec 4) (w : BitVec 2) (o : BitVec 6) (st : State) : exec (.sld e d a c w o) st = execSld e d a c w o st := rfl
theorem exec_sst (e : Bool) (d a : BitVec 6) (c : BitVec 4) (w : BitVec 2) (o : BitVec 6) (st : State) : exec (.sst e d a c w o) st = execSst e d a c w o st := rfl
theorem exec_vld (e : Bool) (d a : BitVec 6) (c : BitVec 4) (m : BitVec 2) (o : BitVec 6) (st : State) : exec (.vld e d a c m o) st = execVld e d a c m o st := rfl
theorem exec_vst (e : Bool) (d a : BitVec 6) (c : BitVec 4) (m : BitVec 2) (o : BitVec 6) (st : State) : exec (.vst e d a c m o) st = execVst e d a c m o st := rfl
theorem exec_vlds (e : Bool) (d a b : BitVec 6) (c : BitVec 4) (m : BitVec 1) (st : State) : exec (.vlds e d a b c m) st = execVlds e d a b c m st := rfl
theorem exec_vsts (e : Bool) (d a b : BitVec 6) (c : BitVec 4) (m : BitVec 1) (st : State) : exec (.vsts e d a b c m) st = execVsts e d a b c m st := rfl
theorem exec_vldx (e : Bool) (d a b : BitVec 6) (c : BitVec 4) (m : BitVec 1) (st : State) : exec (.vldx e d a b c m) st = execVldx e d a b c m st := rfl
theorem exec_vstx (e : Bool) (d a b : BitVec 6) (c : BitVec 4) (m : BitVec 1) (st : State) : exec (.vstx e d a b c m) st = execVstx e d a b c m st := rfl
theorem exec_vldff (e : Bool) (d a : BitVec 6) (c : BitVec 4) (m : BitVec 2) (o : BitVec 6) (st : State) : exec (.vldff e d a c m o) st = execVldff e d a c m o st := rfl
theorem exec_vldw (e : Bool) (d a : BitVec 6) (z s1 : BitVec 1) (c : BitVec 4) (m : BitVec 1) (st : State) : exec (.vldw e d a z s1 c m) st = execVldw e d a z s1 c m st := rfl
theorem exec_vstw (e : Bool) (d a : BitVec 6) (z : BitVec 1) (c : BitVec 4) (m : BitVec 1) (st : State) : exec (.vstw e d a z c m) st = execVstw e d a z c m st := rfl
theorem exec_vldbp (e : Bool) (d a : BitVec 6) (c : BitVec 4) (m : BitVec 2) (s1 r : BitVec 1) (k : BitVec 3) (st : State) : exec (.vldbp e d a c m s1 r k) st = execVldbp e d a c m s1 r k st := rfl
theorem exec_vlseg (e : Bool) (d a : BitVec 6) (k f : BitVec 3) (c : BitVec 4) (m : BitVec 1) (st : State) : exec (.vlseg e d a k f c m) st = execVlseg e d a k f c m st := rfl
theorem exec_vsseg (e : Bool) (d a : BitVec 6) (k f : BitVec 3) (c : BitVec 4) (m : BitVec 1) (st : State) : exec (.vsseg e d a k f c m) st = execVsseg e d a k f c m st := rfl
theorem exec_vldgl (e : Bool) (d a b : BitVec 6) (c : BitVec 4) (m : BitVec 1) (st : State) : exec (.vldgl e d a b c m) st = execVldgl e d a b c m st := rfl
theorem exec_vstsc (e : Bool) (d a b : BitVec 6) (c : BitVec 4) (m : BitVec 1) (st : State) : exec (.vstsc e d a b c m) st = execVstsc e d a b c m st := rfl
theorem exec_vldglLong (e : Bool) (x : LinkLong) (st : State) : exec (.vldglLong e x) st = execVldglLong e x st := rfl
theorem exec_vstscLong (e : Bool) (x : LinkLong) (st : State) : exec (.vstscLong e x) st = execVstscLong e x st := rfl
theorem exec_sll (e : Bool) (d a : BitVec 6) (c : BitVec 4) (w : BitVec 1) (st : State) : exec (.sll e d a c w) st = execSll e d a c w st := rfl
theorem exec_ssc (e : Bool) (d a b : BitVec 6) (c : BitVec 4) (w : BitVec 1) (st : State) : exec (.ssc e d a b c w) st = execSsc e d a b c w st := rfl
theorem exec_memLongControlForm (e : Bool) (x : MemCtl) (st : State) : exec (.memLongControlForm e x) st = execMemLongControlForm e x st := rfl
theorem exec_memLongOffsetForm (e : Bool) (d a : BitVec 6) (xop sub : BitVec 4) (off : BitVec 32) (hint : BitVec 4) (st : State) : exec (.memLongOffsetForm e d a xop sub off hint) st = execMemLongOffsetForm e d a xop sub off hint st := rfl
theorem exec_fence (e : Bool) (s1 : BitVec 3) (m : BitVec 16) (st : State) : exec (.fence e s1 m) st = execFence e s1 m st := rfl
theorem exec_barinit (e : Bool) (a b : BitVec 6) (st : State) : exec (.barinit e a b) st = execBarinit e a b st := rfl
theorem exec_bararr (e : Bool) (d a b : BitVec 6) (st : State) : exec (.bararr e d a b) st = execBararr e d a b st := rfl
theorem exec_barwait (e : Bool) (a b : BitVec 6) (st : State) : exec (.barwait e a b) st = execBarwait e a b st := rfl
theorem exec_ipost (e : Bool) (a : BitVec 6) (st : State) : exec (.ipost e a) st = execIpost e a st := rfl
theorem exec_iwait (e : Bool) (a : BitVec 6) (d : BitVec 5) (st : State) : exec (.iwait e a d) st = execIwait e a d st := rfl
theorem exec_stgpost (e : Bool) (a : BitVec 6) (r s1 : BitVec 3) (st : State) : exec (.stgpost e a r s1) st = execStgpost e a r s1 st := rfl
theorem exec_stgwait (e : Bool) (a : BitVec 6) (r : BitVec 3) (p : BitVec 1) (s1 : BitVec 3) (st : State) : exec (.stgwait e a r p s1) st = execStgwait e a r p s1 st := rfl
theorem exec_claim (e : Bool) (d a : BitVec 6) (st : State) : exec (.claim e d a) st = execClaim e d a st := rfl
theorem exec_waitw (e : Bool) (d a b : BitVec 6) (st : State) : exec (.waitw e d a b) st = execWaitw e d a b st := rfl
theorem exec_waitwExt (e : Bool) (d a b : BitVec 6) (st : State) : exec (.waitwExt e d a b) st = execWaitwExt e d a b st := rfl
theorem exec_tset (e : Bool) (d a : BitVec 6) (r : BitVec 1) (p : BitVec 4) (f : BitVec 5) (st : State) : exec (.tset e d a r p f) st = execTset e d a r p f st := rfl
theorem exec_tget (e : Bool) (d : BitVec 6) (st : State) : exec (.tget e d) st = execTget e d st := rfl
theorem exec_tbands (e : Bool) (d : BitVec 6) (b : BitVec 4) (st : State) : exec (.tbands e d b) st = execTbands e d b st := rfl
theorem exec_obres (e : Bool) (h : BitVec 4) (a b : BitVec 6) (st : State) : exec (.obres e h a b) st = execObres e h a b st := rfl
theorem exec_obrel (e : Bool) (h : BitVec 4) (st : State) : exec (.obrel e h) st = execObrel e h st := rfl
theorem exec_obfill (e : Bool) (c a b : BitVec 6) (h : BitVec 4) (st : State) : exec (.obfill e c a b h) st = execObfill e c a b h st := rfl
theorem exec_obscale (e : Bool) (c a : BitVec 6) (k : BitVec 3) (h : BitVec 4) (st : State) : exec (.obscale e c a k h) st = execObscale e c a k h st := rfl
theorem exec_mlds (e : Bool) (b a : BitVec 6) (p : BitVec 1) (h : BitVec 4) (st : State) : exec (.mlds e b a p h) st = execMlds e b a p h st := rfl
theorem exec_mswap (e : Bool) (st : State) : exec (.mswap e) st = execMswap e st := rfl
theorem exec_mrbnd (e : Bool) (a : BitVec 6) (st : State) : exec (.mrbnd e a) st = execMrbnd e a st := rfl
theorem exec_mtag (e : Bool) (a b : BitVec 6) (st : State) : exec (.mtag e a b) st = execMtag e a b st := rfl
theorem exec_mma (e : Bool) (c : BitVec 2) (h : BitVec 4) (a : BitVec 6) (r p : BitVec 4) (z : BitVec 1) (st : State) : exec (.mma e c h a r p z) st = execMma e c h a r p z st := rfl
theorem exec_mmaG (e : Bool) (c : BitVec 2) (h : BitVec 4) (a : BitVec 6) (r p : BitVec 4) (z : BitVec 1) (st : State) : exec (.mmaG e c h a r p z) st = execMmaG e c h a r p z st := rfl
theorem exec_gangset (e : Bool) (a : BitVec 6) (st : State) : exec (.gangset e a) st = execGangset e a st := rfl
theorem exec_mguide (e : Bool) (d c u : BitVec 2) (s1 : BitVec 6) (p : BitVec 4) (st : State) : exec (.mguide e d c u s1 p) st = execMguide e d c u s1 p st := rfl
theorem exec_mzero (e : Bool) (c : BitVec 2) (st : State) : exec (.mzero e c) st = execMzero e c st := rfl
theorem exec_maccLd (e : Bool) (c : BitVec 2) (a : BitVec 6) (st : State) : exec (.maccLd e c a) st = execMaccLd e c a st := rfl
theorem exec_maccSt (e : Bool) (c : BitVec 2) (a b : BitVec 6) (st : State) : exec (.maccSt e c a b) st = execMaccSt e c a b st := rfl
theorem exec_mrd (e : Bool) (v a b : BitVec 6) (c : BitVec 2) (st : State) : exec (.mrd e v a b c) st = execMrd e v a b c st := rfl
theorem exec_mwr (e : Bool) (v a b : BitVec 6) (c : BitVec 2) (st : State) : exec (.mwr e v a b c) st = execMwr e v a b c st := rfl
theorem exec_rcount (e : Bool) (a b : BitVec 6) (st : State) : exec (.rcount e a b) st = execRcount e a b st := rfl
theorem exec_rcsnap (e : Bool) (d a : BitVec 6) (st : State) : exec (.rcsnap e d a) st = execRcsnap e d a st := rfl
theorem exec_matrixLongForm (e : Bool) (xop : BitVec 4) (body : BitVec 24) (cls : BitVec 4) (scope : BitVec 3) (hint : BitVec 4) (st : State) : exec (.matrixLongForm e xop body cls scope hint) st = execMatrixLongForm e xop body cls scope hint st := rfl
theorem exec_cpy (e : Bool) (q : BitVec 3) (p : BitVec 1) (a : BitVec 6) (r s1 : BitVec 3) (c : BitVec 4) (st : State) : exec (.cpy e q p a r s1 c) st = execCpy e q p a r s1 c st := rfl
theorem exec_cpyLong (e : Bool) (q : BitVec 3) (p : BitVec 1) (a : BitVec 6) (r s1 : BitVec 3) (cls : BitVec 4) (scope : BitVec 3) (x : BitVec 6) (hint : BitVec 4) (st : State) : exec (.cpyLong e q p a r s1 cls scope x hint) st = execCpyLong e q p a r s1 cls scope x hint st := rfl
theorem exec_qfence (e : Bool) (m : BitVec 9) (st : State) : exec (.qfence e m) st = execQfence e m st := rfl
theorem exec_qwait (e : Bool) (n : BitVec 4) (st : State) : exec (.qwait e n) st = execQwait e n st := rfl
theorem exec_qwaitClr (e : Bool) (n : BitVec 4) (st : State) : exec (.qwaitClr e n) st = execQwaitClr e n st := rfl
theorem exec_launch (e : Bool) (d a b : BitVec 6) (st : State) : exec (.launch e d a b) st = execLaunch e d a b st := rfl
theorem exec_launchW (e : Bool) (d a b : BitVec 6) (st : State) : exec (.launchW e d a b) st = execLaunchW e d a b st := rfl
theorem exec_gsig (e : Bool) (d a : BitVec 6) (st : State) : exec (.gsig e d a) st = execGsig e d a st := rfl
theorem exec_gcond (e : Bool) (a b : BitVec 6) (st : State) : exec (.gcond e a b) st = execGcond e a b st := rfl
theorem exec_sysrd (e : Bool) (d : BitVec 6) (i1 : BitVec 12) (st : State) : exec (.sysrd e d i1) st = execSysrd e d i1 st := rfl
theorem exec_syswr (e : Bool) (d : BitVec 6) (i1 : BitVec 12) (st : State) : exec (.syswr e d i1) st = execSyswr e d i1 st := rfl
theorem exec_syswrVcfg (e : Bool) (d : BitVec 6) (st : State) : exec (.syswrVcfg e d) st = execSyswrVcfg e d st := rfl
theorem exec_fqdone (e : Bool) (d : BitVec 6) (st : State) : exec (.fqdone e d) st = execFqdone e d st := rfl
theorem exec_trap (e : Bool) (c : BitVec 16) (st : State) : exec (.trap e c) st = execTrap e c st := rfl
theorem exec_eret (e : Bool) (st : State) : exec (.eret e) st = execEret e st := rfl
theorem exec_brk (e : Bool) (c : BitVec 16) (st : State) : exec (.brk e c) st = execBrk e c st := rfl
theorem exec_icinvAll (e : Bool) (st : State) : exec (.icinvAll e) st = execIcinvAll e st := rfl
theorem exec_icinv (e : Bool) (a b : BitVec 6) (st : State) : exec (.icinv e a b) st = execIcinv e a b st := rfl
theorem exec_yield (e : Bool) (st : State) : exec (.yield e) st = execYield e st := rfl
theorem exec_nop (e : Bool) (st : State) : exec (.nop e) st = execNop e st := rfl
theorem exec_halt (e : Bool) (st : State) : exec (.halt e) st = execHalt e st := rfl
theorem exec_pwrhint (e : Bool) (a : BitVec 6) (k : BitVec 4) (st : State) : exec (.pwrhint e a k) st = execPwrhint e a k st := rfl

end Sys2Proof.Machine
end

