-- ==== Sys2Proof/Laws/State.lean ====
section
/-! SUPPORT. What the shared updates of State leave alone, one lemma for each field. -/

namespace Sys2Proof.Machine

@[simp] theorem modBlock_running (uid : Nat) (f : Block → Block) (s : State) : (modBlock uid f s).running = s.running := rfl
@[simp] theorem modBlock_launches (uid : Nat) (f : Block → Block) (s : State) : (modBlock uid f s).launches = s.launches := rfl
@[simp] theorem modBlock_accepted (uid : Nat) (f : Block → Block) (s : State) : (modBlock uid f s).accepted = s.accepted := rfl
@[simp] theorem modBlock_queue (uid : Nat) (f : Block → Block) (s : State) : (modBlock uid f s).queue = s.queue := rfl
@[simp] theorem modBlock_reserve (uid : Nat) (f : Block → Block) (s : State) : (modBlock uid f s).reserve = s.reserve := rfl
@[simp] theorem modBlock_reserved (uid : Nat) (f : Block → Block) (s : State) : (modBlock uid f s).reserved = s.reserved := rfl
@[simp] theorem modBlock_last (uid : Nat) (f : Block → Block) (s : State) : (modBlock uid f s).last = s.last := rfl
@[simp] theorem modBlock_parted (uid : Nat) (f : Block → Block) (s : State) : (modBlock uid f s).parted = s.parted := rfl
@[simp] theorem modBlock_skews (uid : Nat) (f : Block → Block) (s : State) : (modBlock uid f s).skews = s.skews := rfl
@[simp] theorem modBlock_bands (uid : Nat) (f : Block → Block) (s : State) : (modBlock uid f s).bands = s.bands := rfl
@[simp] theorem modBlock_copies (uid : Nat) (f : Block → Block) (s : State) : (modBlock uid f s).copies = s.copies := rfl
@[simp] theorem modBlock_qerrs (uid : Nat) (f : Block → Block) (s : State) : (modBlock uid f s).qerrs = s.qerrs := rfl
@[simp] theorem modBlock_matq (uid : Nat) (f : Block → Block) (s : State) : (modBlock uid f s).matq = s.matq := rfl
@[simp] theorem modBlock_routing (uid : Nat) (f : Block → Block) (s : State) : (modBlock uid f s).routing = s.routing := rfl
@[simp] theorem modBlock_links (uid : Nat) (f : Block → Block) (s : State) : (modBlock uid f s).links = s.links := rfl
@[simp] theorem modBlock_waits (uid : Nat) (f : Block → Block) (s : State) : (modBlock uid f s).waits = s.waits := rfl
@[simp] theorem modBlock_signalled (uid : Nat) (f : Block → Block) (s : State) : (modBlock uid f s).signalled = s.signalled := rfl
@[simp] theorem modBlock_passes (uid : Nat) (f : Block → Block) (s : State) : (modBlock uid f s).passes = s.passes := rfl
@[simp] theorem modBlock_completing (uid : Nat) (f : Block → Block) (s : State) : (modBlock uid f s).completing = s.completing := rfl
@[simp] theorem modBlock_notices (uid : Nat) (f : Block → Block) (s : State) : (modBlock uid f s).notices = s.notices := rfl
@[simp] theorem modBlock_ctxs (uid : Nat) (f : Block → Block) (s : State) : (modBlock uid f s).ctxs = s.ctxs := rfl
@[simp] theorem modBlock_ckpts (uid : Nat) (f : Block → Block) (s : State) : (modBlock uid f s).ckpts = s.ckpts := rfl
@[simp] theorem modBlock_watchdog (uid : Nat) (f : Block → Block) (s : State) : (modBlock uid f s).watchdog = s.watchdog := rfl
@[simp] theorem modBlock_mem (uid : Nat) (f : Block → Block) (s : State) : (modBlock uid f s).mem = s.mem := rfl
@[simp] theorem modBlock_cellar (uid : Nat) (f : Block → Block) (s : State) : (modBlock uid f s).cellar = s.cellar := rfl
@[simp] theorem modBlock_share (uid : Nat) (f : Block → Block) (s : State) : (modBlock uid f s).share = s.share := rfl
@[simp] theorem modBlock_tlb (uid : Nat) (f : Block → Block) (s : State) : (modBlock uid f s).tlb = s.tlb := rfl
@[simp] theorem modBlock_walker (uid : Nat) (f : Block → Block) (s : State) : (modBlock uid f s).walker = s.walker := rfl
@[simp] theorem modBlock_l1 (uid : Nat) (f : Block → Block) (s : State) : (modBlock uid f s).l1 = s.l1 := rfl
@[simp] theorem modBlock_stale (uid : Nat) (f : Block → Block) (s : State) : (modBlock uid f s).stale = s.stale := rfl
@[simp] theorem modBlock_decoded (uid : Nat) (f : Block → Block) (s : State) : (modBlock uid f s).decoded = s.decoded := rfl
@[simp] theorem modBlock_refreshing (uid : Nat) (f : Block → Block) (s : State) : (modBlock uid f s).refreshing = s.refreshing := rfl
@[simp] theorem modBlock_holds (uid : Nat) (f : Block → Block) (s : State) : (modBlock uid f s).holds = s.holds := rfl
@[simp] theorem modBlock_past (uid : Nat) (f : Block → Block) (s : State) : (modBlock uid f s).past = s.past := rfl
@[simp] theorem modBlock_stamp (uid : Nat) (f : Block → Block) (s : State) : (modBlock uid f s).stamp = s.stamp := rfl
@[simp] theorem modBlock_settled (uid : Nat) (f : Block → Block) (s : State) : (modBlock uid f s).settled = s.settled := rfl
@[simp] theorem modBlock_bad (uid : Nat) (f : Block → Block) (s : State) : (modBlock uid f s).bad = s.bad := rfl
@[simp] theorem modBlock_seq (uid : Nat) (f : Block → Block) (s : State) : (modBlock uid f s).seq = s.seq := rfl
@[simp] theorem modBlock_ports (uid : Nat) (f : Block → Block) (s : State) : (modBlock uid f s).ports = s.ports := rfl
@[simp] theorem modBlock_routes (uid : Nat) (f : Block → Block) (s : State) : (modBlock uid f s).routes = s.routes := rfl
@[simp] theorem modBlock_windows (uid : Nat) (f : Block → Block) (s : State) : (modBlock uid f s).windows = s.windows := rfl
@[simp] theorem modBlock_wires (uid : Nat) (f : Block → Block) (s : State) : (modBlock uid f s).wires = s.wires := rfl
@[simp] theorem modBlock_ext (uid : Nat) (f : Block → Block) (s : State) : (modBlock uid f s).ext = s.ext := rfl
@[simp] theorem modBlock_discarded (uid : Nat) (f : Block → Block) (s : State) : (modBlock uid f s).discarded = s.discarded := rfl
@[simp] theorem modBlock_ignored (uid : Nat) (f : Block → Block) (s : State) : (modBlock uid f s).ignored = s.ignored := rfl
@[simp] theorem modBlock_rejected (uid : Nat) (f : Block → Block) (s : State) : (modBlock uid f s).rejected = s.rejected := rfl
@[simp] theorem modBlock_sent (uid : Nat) (f : Block → Block) (s : State) : (modBlock uid f s).sent = s.sent := rfl
@[simp] theorem modBlock_booted (uid : Nat) (f : Block → Block) (s : State) : (modBlock uid f s).booted = s.booted := rfl
@[simp] theorem modBlock_clocks (uid : Nat) (f : Block → Block) (s : State) : (modBlock uid f s).clocks = s.clocks := rfl
@[simp] theorem modBlock_domains (uid : Nat) (f : Block → Block) (s : State) : (modBlock uid f s).domains = s.domains := rfl
@[simp] theorem modBlock_arrivals (uid : Nat) (f : Block → Block) (s : State) : (modBlock uid f s).arrivals = s.arrivals := rfl
@[simp] theorem modBlock_stretch (uid : Nat) (f : Block → Block) (s : State) : (modBlock uid f s).stretch = s.stretch := rfl
@[simp] theorem modBlock_calm (uid : Nat) (f : Block → Block) (s : State) : (modBlock uid f s).calm = s.calm := rfl
@[simp] theorem modBlock_powers (uid : Nat) (f : Block → Block) (s : State) : (modBlock uid f s).powers = s.powers := rfl
@[simp] theorem modBlock_tripC (uid : Nat) (f : Block → Block) (s : State) : (modBlock uid f s).tripC = s.tripC := rfl
@[simp] theorem modBlock_tripD (uid : Nat) (f : Block → Block) (s : State) : (modBlock uid f s).tripD = s.tripD := rfl
@[simp] theorem modBlock_panper (uid : Nat) (f : Block → Block) (s : State) : (modBlock uid f s).panper = s.panper := rfl
@[simp] theorem modBlock_panNow (uid : Nat) (f : Block → Block) (s : State) : (modBlock uid f s).panNow = s.panNow := rfl
@[simp] theorem modBlock_lattol (uid : Nat) (f : Block → Block) (s : State) : (modBlock uid f s).lattol = s.lattol := rfl
@[simp] theorem modBlock_boost (uid : Nat) (f : Block → Block) (s : State) : (modBlock uid f s).boost = s.boost := rfl
@[simp] theorem modBlock_depth (uid : Nat) (f : Block → Block) (s : State) : (modBlock uid f s).depth = s.depth := rfl
@[simp] theorem modBlock_pans (uid : Nat) (f : Block → Block) (s : State) : (modBlock uid f s).pans = s.pans := rfl
@[simp] theorem modBlock_activity (uid : Nat) (f : Block → Block) (s : State) : (modBlock uid f s).activity = s.activity := rfl
@[simp] theorem modBlock_tasks (uid : Nat) (f : Block → Block) (s : State) : (modBlock uid f s).tasks = s.tasks := rfl
@[simp] theorem modBlock_linkCal (uid : Nat) (f : Block → Block) (s : State) : (modBlock uid f s).linkCal = s.linkCal := rfl
@[simp] theorem modBlock_pending (uid : Nat) (f : Block → Block) (s : State) : (modBlock uid f s).pending = s.pending := rfl
@[simp] theorem modBlock_sched (uid : Nat) (f : Block → Block) (s : State) : (modBlock uid f s).sched = s.sched := rfl
@[simp] theorem modBlock_now (uid : Nat) (f : Block → Block) (s : State) : (modBlock uid f s).now = s.now := rfl
@[simp] theorem modBlock_resets (uid : Nat) (f : Block → Block) (s : State) : (modBlock uid f s).resets = s.resets := rfl
@[simp] theorem modBlock_steps (uid : Nat) (f : Block → Block) (s : State) : (modBlock uid f s).steps = s.steps := rfl
@[simp] theorem modBlock_free (uid : Nat) (f : Block → Block) (s : State) : (modBlock uid f s).free = s.free := rfl
@[simp] theorem modBlock_uids (uid : Nat) (f : Block → Block) (s : State) : (modBlock uid f s).uids = s.uids := rfl
@[simp] theorem modGroup_running (uid g : Nat) (f : Group → Group) (s : State) : (modGroup uid g f s).running = s.running := rfl
@[simp] theorem modGroup_launches (uid g : Nat) (f : Group → Group) (s : State) : (modGroup uid g f s).launches = s.launches := rfl
@[simp] theorem modGroup_accepted (uid g : Nat) (f : Group → Group) (s : State) : (modGroup uid g f s).accepted = s.accepted := rfl
@[simp] theorem modGroup_queue (uid g : Nat) (f : Group → Group) (s : State) : (modGroup uid g f s).queue = s.queue := rfl
@[simp] theorem modGroup_reserve (uid g : Nat) (f : Group → Group) (s : State) : (modGroup uid g f s).reserve = s.reserve := rfl
@[simp] theorem modGroup_reserved (uid g : Nat) (f : Group → Group) (s : State) : (modGroup uid g f s).reserved = s.reserved := rfl
@[simp] theorem modGroup_last (uid g : Nat) (f : Group → Group) (s : State) : (modGroup uid g f s).last = s.last := rfl
@[simp] theorem modGroup_parted (uid g : Nat) (f : Group → Group) (s : State) : (modGroup uid g f s).parted = s.parted := rfl
@[simp] theorem modGroup_skews (uid g : Nat) (f : Group → Group) (s : State) : (modGroup uid g f s).skews = s.skews := rfl
@[simp] theorem modGroup_bands (uid g : Nat) (f : Group → Group) (s : State) : (modGroup uid g f s).bands = s.bands := rfl
@[simp] theorem modGroup_copies (uid g : Nat) (f : Group → Group) (s : State) : (modGroup uid g f s).copies = s.copies := rfl
@[simp] theorem modGroup_qerrs (uid g : Nat) (f : Group → Group) (s : State) : (modGroup uid g f s).qerrs = s.qerrs := rfl
@[simp] theorem modGroup_matq (uid g : Nat) (f : Group → Group) (s : State) : (modGroup uid g f s).matq = s.matq := rfl
@[simp] theorem modGroup_routing (uid g : Nat) (f : Group → Group) (s : State) : (modGroup uid g f s).routing = s.routing := rfl
@[simp] theorem modGroup_links (uid g : Nat) (f : Group → Group) (s : State) : (modGroup uid g f s).links = s.links := rfl
@[simp] theorem modGroup_waits (uid g : Nat) (f : Group → Group) (s : State) : (modGroup uid g f s).waits = s.waits := rfl
@[simp] theorem modGroup_signalled (uid g : Nat) (f : Group → Group) (s : State) : (modGroup uid g f s).signalled = s.signalled := rfl
@[simp] theorem modGroup_passes (uid g : Nat) (f : Group → Group) (s : State) : (modGroup uid g f s).passes = s.passes := rfl
@[simp] theorem modGroup_completing (uid g : Nat) (f : Group → Group) (s : State) : (modGroup uid g f s).completing = s.completing := rfl
@[simp] theorem modGroup_notices (uid g : Nat) (f : Group → Group) (s : State) : (modGroup uid g f s).notices = s.notices := rfl
@[simp] theorem modGroup_ctxs (uid g : Nat) (f : Group → Group) (s : State) : (modGroup uid g f s).ctxs = s.ctxs := rfl
@[simp] theorem modGroup_ckpts (uid g : Nat) (f : Group → Group) (s : State) : (modGroup uid g f s).ckpts = s.ckpts := rfl
@[simp] theorem modGroup_watchdog (uid g : Nat) (f : Group → Group) (s : State) : (modGroup uid g f s).watchdog = s.watchdog := rfl
@[simp] theorem modGroup_mem (uid g : Nat) (f : Group → Group) (s : State) : (modGroup uid g f s).mem = s.mem := rfl
@[simp] theorem modGroup_cellar (uid g : Nat) (f : Group → Group) (s : State) : (modGroup uid g f s).cellar = s.cellar := rfl
@[simp] theorem modGroup_share (uid g : Nat) (f : Group → Group) (s : State) : (modGroup uid g f s).share = s.share := rfl
@[simp] theorem modGroup_tlb (uid g : Nat) (f : Group → Group) (s : State) : (modGroup uid g f s).tlb = s.tlb := rfl
@[simp] theorem modGroup_walker (uid g : Nat) (f : Group → Group) (s : State) : (modGroup uid g f s).walker = s.walker := rfl
@[simp] theorem modGroup_l1 (uid g : Nat) (f : Group → Group) (s : State) : (modGroup uid g f s).l1 = s.l1 := rfl
@[simp] theorem modGroup_stale (uid g : Nat) (f : Group → Group) (s : State) : (modGroup uid g f s).stale = s.stale := rfl
@[simp] theorem modGroup_decoded (uid g : Nat) (f : Group → Group) (s : State) : (modGroup uid g f s).decoded = s.decoded := rfl
@[simp] theorem modGroup_refreshing (uid g : Nat) (f : Group → Group) (s : State) : (modGroup uid g f s).refreshing = s.refreshing := rfl
@[simp] theorem modGroup_holds (uid g : Nat) (f : Group → Group) (s : State) : (modGroup uid g f s).holds = s.holds := rfl
@[simp] theorem modGroup_past (uid g : Nat) (f : Group → Group) (s : State) : (modGroup uid g f s).past = s.past := rfl
@[simp] theorem modGroup_stamp (uid g : Nat) (f : Group → Group) (s : State) : (modGroup uid g f s).stamp = s.stamp := rfl
@[simp] theorem modGroup_settled (uid g : Nat) (f : Group → Group) (s : State) : (modGroup uid g f s).settled = s.settled := rfl
@[simp] theorem modGroup_bad (uid g : Nat) (f : Group → Group) (s : State) : (modGroup uid g f s).bad = s.bad := rfl
@[simp] theorem modGroup_seq (uid g : Nat) (f : Group → Group) (s : State) : (modGroup uid g f s).seq = s.seq := rfl
@[simp] theorem modGroup_ports (uid g : Nat) (f : Group → Group) (s : State) : (modGroup uid g f s).ports = s.ports := rfl
@[simp] theorem modGroup_routes (uid g : Nat) (f : Group → Group) (s : State) : (modGroup uid g f s).routes = s.routes := rfl
@[simp] theorem modGroup_windows (uid g : Nat) (f : Group → Group) (s : State) : (modGroup uid g f s).windows = s.windows := rfl
@[simp] theorem modGroup_wires (uid g : Nat) (f : Group → Group) (s : State) : (modGroup uid g f s).wires = s.wires := rfl
@[simp] theorem modGroup_ext (uid g : Nat) (f : Group → Group) (s : State) : (modGroup uid g f s).ext = s.ext := rfl
@[simp] theorem modGroup_discarded (uid g : Nat) (f : Group → Group) (s : State) : (modGroup uid g f s).discarded = s.discarded := rfl
@[simp] theorem modGroup_ignored (uid g : Nat) (f : Group → Group) (s : State) : (modGroup uid g f s).ignored = s.ignored := rfl
@[simp] theorem modGroup_rejected (uid g : Nat) (f : Group → Group) (s : State) : (modGroup uid g f s).rejected = s.rejected := rfl
@[simp] theorem modGroup_sent (uid g : Nat) (f : Group → Group) (s : State) : (modGroup uid g f s).sent = s.sent := rfl
@[simp] theorem modGroup_booted (uid g : Nat) (f : Group → Group) (s : State) : (modGroup uid g f s).booted = s.booted := rfl
@[simp] theorem modGroup_clocks (uid g : Nat) (f : Group → Group) (s : State) : (modGroup uid g f s).clocks = s.clocks := rfl
@[simp] theorem modGroup_domains (uid g : Nat) (f : Group → Group) (s : State) : (modGroup uid g f s).domains = s.domains := rfl
@[simp] theorem modGroup_arrivals (uid g : Nat) (f : Group → Group) (s : State) : (modGroup uid g f s).arrivals = s.arrivals := rfl
@[simp] theorem modGroup_stretch (uid g : Nat) (f : Group → Group) (s : State) : (modGroup uid g f s).stretch = s.stretch := rfl
@[simp] theorem modGroup_calm (uid g : Nat) (f : Group → Group) (s : State) : (modGroup uid g f s).calm = s.calm := rfl
@[simp] theorem modGroup_powers (uid g : Nat) (f : Group → Group) (s : State) : (modGroup uid g f s).powers = s.powers := rfl
@[simp] theorem modGroup_tripC (uid g : Nat) (f : Group → Group) (s : State) : (modGroup uid g f s).tripC = s.tripC := rfl
@[simp] theorem modGroup_tripD (uid g : Nat) (f : Group → Group) (s : State) : (modGroup uid g f s).tripD = s.tripD := rfl
@[simp] theorem modGroup_panper (uid g : Nat) (f : Group → Group) (s : State) : (modGroup uid g f s).panper = s.panper := rfl
@[simp] theorem modGroup_panNow (uid g : Nat) (f : Group → Group) (s : State) : (modGroup uid g f s).panNow = s.panNow := rfl
@[simp] theorem modGroup_lattol (uid g : Nat) (f : Group → Group) (s : State) : (modGroup uid g f s).lattol = s.lattol := rfl
@[simp] theorem modGroup_boost (uid g : Nat) (f : Group → Group) (s : State) : (modGroup uid g f s).boost = s.boost := rfl
@[simp] theorem modGroup_depth (uid g : Nat) (f : Group → Group) (s : State) : (modGroup uid g f s).depth = s.depth := rfl
@[simp] theorem modGroup_pans (uid g : Nat) (f : Group → Group) (s : State) : (modGroup uid g f s).pans = s.pans := rfl
@[simp] theorem modGroup_activity (uid g : Nat) (f : Group → Group) (s : State) : (modGroup uid g f s).activity = s.activity := rfl
@[simp] theorem modGroup_tasks (uid g : Nat) (f : Group → Group) (s : State) : (modGroup uid g f s).tasks = s.tasks := rfl
@[simp] theorem modGroup_linkCal (uid g : Nat) (f : Group → Group) (s : State) : (modGroup uid g f s).linkCal = s.linkCal := rfl
@[simp] theorem modGroup_pending (uid g : Nat) (f : Group → Group) (s : State) : (modGroup uid g f s).pending = s.pending := rfl
@[simp] theorem modGroup_sched (uid g : Nat) (f : Group → Group) (s : State) : (modGroup uid g f s).sched = s.sched := rfl
@[simp] theorem modGroup_now (uid g : Nat) (f : Group → Group) (s : State) : (modGroup uid g f s).now = s.now := rfl
@[simp] theorem modGroup_resets (uid g : Nat) (f : Group → Group) (s : State) : (modGroup uid g f s).resets = s.resets := rfl
@[simp] theorem modGroup_steps (uid g : Nat) (f : Group → Group) (s : State) : (modGroup uid g f s).steps = s.steps := rfl
@[simp] theorem modGroup_free (uid g : Nat) (f : Group → Group) (s : State) : (modGroup uid g f s).free = s.free := rfl
@[simp] theorem modGroup_uids (uid g : Nat) (f : Group → Group) (s : State) : (modGroup uid g f s).uids = s.uids := rfl
@[simp] theorem modPath_running (w : Who) (f : Path → Path) (s : State) : (modPath w f s).running = s.running := rfl
@[simp] theorem modPath_launches (w : Who) (f : Path → Path) (s : State) : (modPath w f s).launches = s.launches := rfl
@[simp] theorem modPath_accepted (w : Who) (f : Path → Path) (s : State) : (modPath w f s).accepted = s.accepted := rfl
@[simp] theorem modPath_queue (w : Who) (f : Path → Path) (s : State) : (modPath w f s).queue = s.queue := rfl
@[simp] theorem modPath_reserve (w : Who) (f : Path → Path) (s : State) : (modPath w f s).reserve = s.reserve := rfl
@[simp] theorem modPath_reserved (w : Who) (f : Path → Path) (s : State) : (modPath w f s).reserved = s.reserved := rfl
@[simp] theorem modPath_last (w : Who) (f : Path → Path) (s : State) : (modPath w f s).last = s.last := rfl
@[simp] theorem modPath_parted (w : Who) (f : Path → Path) (s : State) : (modPath w f s).parted = s.parted := rfl
@[simp] theorem modPath_skews (w : Who) (f : Path → Path) (s : State) : (modPath w f s).skews = s.skews := rfl
@[simp] theorem modPath_bands (w : Who) (f : Path → Path) (s : State) : (modPath w f s).bands = s.bands := rfl
@[simp] theorem modPath_copies (w : Who) (f : Path → Path) (s : State) : (modPath w f s).copies = s.copies := rfl
@[simp] theorem modPath_qerrs (w : Who) (f : Path → Path) (s : State) : (modPath w f s).qerrs = s.qerrs := rfl
@[simp] theorem modPath_matq (w : Who) (f : Path → Path) (s : State) : (modPath w f s).matq = s.matq := rfl
@[simp] theorem modPath_routing (w : Who) (f : Path → Path) (s : State) : (modPath w f s).routing = s.routing := rfl
@[simp] theorem modPath_links (w : Who) (f : Path → Path) (s : State) : (modPath w f s).links = s.links := rfl
@[simp] theorem modPath_waits (w : Who) (f : Path → Path) (s : State) : (modPath w f s).waits = s.waits := rfl
@[simp] theorem modPath_signalled (w : Who) (f : Path → Path) (s : State) : (modPath w f s).signalled = s.signalled := rfl
@[simp] theorem modPath_passes (w : Who) (f : Path → Path) (s : State) : (modPath w f s).passes = s.passes := rfl
@[simp] theorem modPath_completing (w : Who) (f : Path → Path) (s : State) : (modPath w f s).completing = s.completing := rfl
@[simp] theorem modPath_notices (w : Who) (f : Path → Path) (s : State) : (modPath w f s).notices = s.notices := rfl
@[simp] theorem modPath_ctxs (w : Who) (f : Path → Path) (s : State) : (modPath w f s).ctxs = s.ctxs := rfl
@[simp] theorem modPath_ckpts (w : Who) (f : Path → Path) (s : State) : (modPath w f s).ckpts = s.ckpts := rfl
@[simp] theorem modPath_watchdog (w : Who) (f : Path → Path) (s : State) : (modPath w f s).watchdog = s.watchdog := rfl
@[simp] theorem modPath_mem (w : Who) (f : Path → Path) (s : State) : (modPath w f s).mem = s.mem := rfl
@[simp] theorem modPath_cellar (w : Who) (f : Path → Path) (s : State) : (modPath w f s).cellar = s.cellar := rfl
@[simp] theorem modPath_share (w : Who) (f : Path → Path) (s : State) : (modPath w f s).share = s.share := rfl
@[simp] theorem modPath_tlb (w : Who) (f : Path → Path) (s : State) : (modPath w f s).tlb = s.tlb := rfl
@[simp] theorem modPath_walker (w : Who) (f : Path → Path) (s : State) : (modPath w f s).walker = s.walker := rfl
@[simp] theorem modPath_l1 (w : Who) (f : Path → Path) (s : State) : (modPath w f s).l1 = s.l1 := rfl
@[simp] theorem modPath_stale (w : Who) (f : Path → Path) (s : State) : (modPath w f s).stale = s.stale := rfl
@[simp] theorem modPath_decoded (w : Who) (f : Path → Path) (s : State) : (modPath w f s).decoded = s.decoded := rfl
@[simp] theorem modPath_refreshing (w : Who) (f : Path → Path) (s : State) : (modPath w f s).refreshing = s.refreshing := rfl
@[simp] theorem modPath_holds (w : Who) (f : Path → Path) (s : State) : (modPath w f s).holds = s.holds := rfl
@[simp] theorem modPath_past (w : Who) (f : Path → Path) (s : State) : (modPath w f s).past = s.past := rfl
@[simp] theorem modPath_stamp (w : Who) (f : Path → Path) (s : State) : (modPath w f s).stamp = s.stamp := rfl
@[simp] theorem modPath_settled (w : Who) (f : Path → Path) (s : State) : (modPath w f s).settled = s.settled := rfl
@[simp] theorem modPath_bad (w : Who) (f : Path → Path) (s : State) : (modPath w f s).bad = s.bad := rfl
@[simp] theorem modPath_seq (w : Who) (f : Path → Path) (s : State) : (modPath w f s).seq = s.seq := rfl
@[simp] theorem modPath_ports (w : Who) (f : Path → Path) (s : State) : (modPath w f s).ports = s.ports := rfl
@[simp] theorem modPath_routes (w : Who) (f : Path → Path) (s : State) : (modPath w f s).routes = s.routes := rfl
@[simp] theorem modPath_windows (w : Who) (f : Path → Path) (s : State) : (modPath w f s).windows = s.windows := rfl
@[simp] theorem modPath_wires (w : Who) (f : Path → Path) (s : State) : (modPath w f s).wires = s.wires := rfl
@[simp] theorem modPath_ext (w : Who) (f : Path → Path) (s : State) : (modPath w f s).ext = s.ext := rfl
@[simp] theorem modPath_discarded (w : Who) (f : Path → Path) (s : State) : (modPath w f s).discarded = s.discarded := rfl
@[simp] theorem modPath_ignored (w : Who) (f : Path → Path) (s : State) : (modPath w f s).ignored = s.ignored := rfl
@[simp] theorem modPath_rejected (w : Who) (f : Path → Path) (s : State) : (modPath w f s).rejected = s.rejected := rfl
@[simp] theorem modPath_sent (w : Who) (f : Path → Path) (s : State) : (modPath w f s).sent = s.sent := rfl
@[simp] theorem modPath_booted (w : Who) (f : Path → Path) (s : State) : (modPath w f s).booted = s.booted := rfl
@[simp] theorem modPath_clocks (w : Who) (f : Path → Path) (s : State) : (modPath w f s).clocks = s.clocks := rfl
@[simp] theorem modPath_domains (w : Who) (f : Path → Path) (s : State) : (modPath w f s).domains = s.domains := rfl
@[simp] theorem modPath_arrivals (w : Who) (f : Path → Path) (s : State) : (modPath w f s).arrivals = s.arrivals := rfl
@[simp] theorem modPath_stretch (w : Who) (f : Path → Path) (s : State) : (modPath w f s).stretch = s.stretch := rfl
@[simp] theorem modPath_calm (w : Who) (f : Path → Path) (s : State) : (modPath w f s).calm = s.calm := rfl
@[simp] theorem modPath_powers (w : Who) (f : Path → Path) (s : State) : (modPath w f s).powers = s.powers := rfl
@[simp] theorem modPath_tripC (w : Who) (f : Path → Path) (s : State) : (modPath w f s).tripC = s.tripC := rfl
@[simp] theorem modPath_tripD (w : Who) (f : Path → Path) (s : State) : (modPath w f s).tripD = s.tripD := rfl
@[simp] theorem modPath_panper (w : Who) (f : Path → Path) (s : State) : (modPath w f s).panper = s.panper := rfl
@[simp] theorem modPath_panNow (w : Who) (f : Path → Path) (s : State) : (modPath w f s).panNow = s.panNow := rfl
@[simp] theorem modPath_lattol (w : Who) (f : Path → Path) (s : State) : (modPath w f s).lattol = s.lattol := rfl
@[simp] theorem modPath_boost (w : Who) (f : Path → Path) (s : State) : (modPath w f s).boost = s.boost := rfl
@[simp] theorem modPath_depth (w : Who) (f : Path → Path) (s : State) : (modPath w f s).depth = s.depth := rfl
@[simp] theorem modPath_pans (w : Who) (f : Path → Path) (s : State) : (modPath w f s).pans = s.pans := rfl
@[simp] theorem modPath_activity (w : Who) (f : Path → Path) (s : State) : (modPath w f s).activity = s.activity := rfl
@[simp] theorem modPath_tasks (w : Who) (f : Path → Path) (s : State) : (modPath w f s).tasks = s.tasks := rfl
@[simp] theorem modPath_linkCal (w : Who) (f : Path → Path) (s : State) : (modPath w f s).linkCal = s.linkCal := rfl
@[simp] theorem modPath_pending (w : Who) (f : Path → Path) (s : State) : (modPath w f s).pending = s.pending := rfl
@[simp] theorem modPath_sched (w : Who) (f : Path → Path) (s : State) : (modPath w f s).sched = s.sched := rfl
@[simp] theorem modPath_now (w : Who) (f : Path → Path) (s : State) : (modPath w f s).now = s.now := rfl
@[simp] theorem modPath_resets (w : Who) (f : Path → Path) (s : State) : (modPath w f s).resets = s.resets := rfl
@[simp] theorem modPath_steps (w : Who) (f : Path → Path) (s : State) : (modPath w f s).steps = s.steps := rfl
@[simp] theorem modPath_free (w : Who) (f : Path → Path) (s : State) : (modPath w f s).free = s.free := rfl
@[simp] theorem modPath_uids (w : Who) (f : Path → Path) (s : State) : (modPath w f s).uids = s.uids := rfl
@[simp] theorem modLaunch_running (id : Nat) (f : Launch → Launch) (s : State) : (modLaunch id f s).running = s.running := rfl
@[simp] theorem modLaunch_blocks (id : Nat) (f : Launch → Launch) (s : State) : (modLaunch id f s).blocks = s.blocks := rfl
@[simp] theorem modLaunch_accepted (id : Nat) (f : Launch → Launch) (s : State) : (modLaunch id f s).accepted = s.accepted := rfl
@[simp] theorem modLaunch_queue (id : Nat) (f : Launch → Launch) (s : State) : (modLaunch id f s).queue = s.queue := rfl
@[simp] theorem modLaunch_reserve (id : Nat) (f : Launch → Launch) (s : State) : (modLaunch id f s).reserve = s.reserve := rfl
@[simp] theorem modLaunch_reserved (id : Nat) (f : Launch → Launch) (s : State) : (modLaunch id f s).reserved = s.reserved := rfl
@[simp] theorem modLaunch_last (id : Nat) (f : Launch → Launch) (s : State) : (modLaunch id f s).last = s.last := rfl
@[simp] theorem modLaunch_parted (id : Nat) (f : Launch → Launch) (s : State) : (modLaunch id f s).parted = s.parted := rfl
@[simp] theorem modLaunch_skews (id : Nat) (f : Launch → Launch) (s : State) : (modLaunch id f s).skews = s.skews := rfl
@[simp] theorem modLaunch_bands (id : Nat) (f : Launch → Launch) (s : State) : (modLaunch id f s).bands = s.bands := rfl
@[simp] theorem modLaunch_copies (id : Nat) (f : Launch → Launch) (s : State) : (modLaunch id f s).copies = s.copies := rfl
@[simp] theorem modLaunch_qerrs (id : Nat) (f : Launch → Launch) (s : State) : (modLaunch id f s).qerrs = s.qerrs := rfl
@[simp] theorem modLaunch_matq (id : Nat) (f : Launch → Launch) (s : State) : (modLaunch id f s).matq = s.matq := rfl
@[simp] theorem modLaunch_routing (id : Nat) (f : Launch → Launch) (s : State) : (modLaunch id f s).routing = s.routing := rfl
@[simp] theorem modLaunch_links (id : Nat) (f : Launch → Launch) (s : State) : (modLaunch id f s).links = s.links := rfl
@[simp] theorem modLaunch_waits (id : Nat) (f : Launch → Launch) (s : State) : (modLaunch id f s).waits = s.waits := rfl
@[simp] theorem modLaunch_signalled (id : Nat) (f : Launch → Launch) (s : State) : (modLaunch id f s).signalled = s.signalled := rfl
@[simp] theorem modLaunch_passes (id : Nat) (f : Launch → Launch) (s : State) : (modLaunch id f s).passes = s.passes := rfl
@[simp] theorem modLaunch_completing (id : Nat) (f : Launch → Launch) (s : State) : (modLaunch id f s).completing = s.completing := rfl
@[simp] theorem modLaunch_notices (id : Nat) (f : Launch → Launch) (s : State) : (modLaunch id f s).notices = s.notices := rfl
@[simp] theorem modLaunch_ctxs (id : Nat) (f : Launch → Launch) (s : State) : (modLaunch id f s).ctxs = s.ctxs := rfl
@[simp] theorem modLaunch_ckpts (id : Nat) (f : Launch → Launch) (s : State) : (modLaunch id f s).ckpts = s.ckpts := rfl
@[simp] theorem modLaunch_watchdog (id : Nat) (f : Launch → Launch) (s : State) : (modLaunch id f s).watchdog = s.watchdog := rfl
@[simp] theorem modLaunch_mem (id : Nat) (f : Launch → Launch) (s : State) : (modLaunch id f s).mem = s.mem := rfl
@[simp] theorem modLaunch_cellar (id : Nat) (f : Launch → Launch) (s : State) : (modLaunch id f s).cellar = s.cellar := rfl
@[simp] theorem modLaunch_share (id : Nat) (f : Launch → Launch) (s : State) : (modLaunch id f s).share = s.share := rfl
@[simp] theorem modLaunch_tlb (id : Nat) (f : Launch → Launch) (s : State) : (modLaunch id f s).tlb = s.tlb := rfl
@[simp] theorem modLaunch_walker (id : Nat) (f : Launch → Launch) (s : State) : (modLaunch id f s).walker = s.walker := rfl
@[simp] theorem modLaunch_l1 (id : Nat) (f : Launch → Launch) (s : State) : (modLaunch id f s).l1 = s.l1 := rfl
@[simp] theorem modLaunch_stale (id : Nat) (f : Launch → Launch) (s : State) : (modLaunch id f s).stale = s.stale := rfl
@[simp] theorem modLaunch_decoded (id : Nat) (f : Launch → Launch) (s : State) : (modLaunch id f s).decoded = s.decoded := rfl
@[simp] theorem modLaunch_refreshing (id : Nat) (f : Launch → Launch) (s : State) : (modLaunch id f s).refreshing = s.refreshing := rfl
@[simp] theorem modLaunch_holds (id : Nat) (f : Launch → Launch) (s : State) : (modLaunch id f s).holds = s.holds := rfl
@[simp] theorem modLaunch_past (id : Nat) (f : Launch → Launch) (s : State) : (modLaunch id f s).past = s.past := rfl
@[simp] theorem modLaunch_stamp (id : Nat) (f : Launch → Launch) (s : State) : (modLaunch id f s).stamp = s.stamp := rfl
@[simp] theorem modLaunch_settled (id : Nat) (f : Launch → Launch) (s : State) : (modLaunch id f s).settled = s.settled := rfl
@[simp] theorem modLaunch_bad (id : Nat) (f : Launch → Launch) (s : State) : (modLaunch id f s).bad = s.bad := rfl
@[simp] theorem modLaunch_seq (id : Nat) (f : Launch → Launch) (s : State) : (modLaunch id f s).seq = s.seq := rfl
@[simp] theorem modLaunch_ports (id : Nat) (f : Launch → Launch) (s : State) : (modLaunch id f s).ports = s.ports := rfl
@[simp] theorem modLaunch_routes (id : Nat) (f : Launch → Launch) (s : State) : (modLaunch id f s).routes = s.routes := rfl
@[simp] theorem modLaunch_windows (id : Nat) (f : Launch → Launch) (s : State) : (modLaunch id f s).windows = s.windows := rfl
@[simp] theorem modLaunch_wires (id : Nat) (f : Launch → Launch) (s : State) : (modLaunch id f s).wires = s.wires := rfl
@[simp] theorem modLaunch_ext (id : Nat) (f : Launch → Launch) (s : State) : (modLaunch id f s).ext = s.ext := rfl
@[simp] theorem modLaunch_discarded (id : Nat) (f : Launch → Launch) (s : State) : (modLaunch id f s).discarded = s.discarded := rfl
@[simp] theorem modLaunch_ignored (id : Nat) (f : Launch → Launch) (s : State) : (modLaunch id f s).ignored = s.ignored := rfl
@[simp] theorem modLaunch_rejected (id : Nat) (f : Launch → Launch) (s : State) : (modLaunch id f s).rejected = s.rejected := rfl
@[simp] theorem modLaunch_sent (id : Nat) (f : Launch → Launch) (s : State) : (modLaunch id f s).sent = s.sent := rfl
@[simp] theorem modLaunch_booted (id : Nat) (f : Launch → Launch) (s : State) : (modLaunch id f s).booted = s.booted := rfl
@[simp] theorem modLaunch_clocks (id : Nat) (f : Launch → Launch) (s : State) : (modLaunch id f s).clocks = s.clocks := rfl
@[simp] theorem modLaunch_domains (id : Nat) (f : Launch → Launch) (s : State) : (modLaunch id f s).domains = s.domains := rfl
@[simp] theorem modLaunch_arrivals (id : Nat) (f : Launch → Launch) (s : State) : (modLaunch id f s).arrivals = s.arrivals := rfl
@[simp] theorem modLaunch_stretch (id : Nat) (f : Launch → Launch) (s : State) : (modLaunch id f s).stretch = s.stretch := rfl
@[simp] theorem modLaunch_calm (id : Nat) (f : Launch → Launch) (s : State) : (modLaunch id f s).calm = s.calm := rfl
@[simp] theorem modLaunch_powers (id : Nat) (f : Launch → Launch) (s : State) : (modLaunch id f s).powers = s.powers := rfl
@[simp] theorem modLaunch_tripC (id : Nat) (f : Launch → Launch) (s : State) : (modLaunch id f s).tripC = s.tripC := rfl
@[simp] theorem modLaunch_tripD (id : Nat) (f : Launch → Launch) (s : State) : (modLaunch id f s).tripD = s.tripD := rfl
@[simp] theorem modLaunch_panper (id : Nat) (f : Launch → Launch) (s : State) : (modLaunch id f s).panper = s.panper := rfl
@[simp] theorem modLaunch_panNow (id : Nat) (f : Launch → Launch) (s : State) : (modLaunch id f s).panNow = s.panNow := rfl
@[simp] theorem modLaunch_lattol (id : Nat) (f : Launch → Launch) (s : State) : (modLaunch id f s).lattol = s.lattol := rfl
@[simp] theorem modLaunch_boost (id : Nat) (f : Launch → Launch) (s : State) : (modLaunch id f s).boost = s.boost := rfl
@[simp] theorem modLaunch_depth (id : Nat) (f : Launch → Launch) (s : State) : (modLaunch id f s).depth = s.depth := rfl
@[simp] theorem modLaunch_pans (id : Nat) (f : Launch → Launch) (s : State) : (modLaunch id f s).pans = s.pans := rfl
@[simp] theorem modLaunch_activity (id : Nat) (f : Launch → Launch) (s : State) : (modLaunch id f s).activity = s.activity := rfl
@[simp] theorem modLaunch_tasks (id : Nat) (f : Launch → Launch) (s : State) : (modLaunch id f s).tasks = s.tasks := rfl
@[simp] theorem modLaunch_linkCal (id : Nat) (f : Launch → Launch) (s : State) : (modLaunch id f s).linkCal = s.linkCal := rfl
@[simp] theorem modLaunch_pending (id : Nat) (f : Launch → Launch) (s : State) : (modLaunch id f s).pending = s.pending := rfl
@[simp] theorem modLaunch_sched (id : Nat) (f : Launch → Launch) (s : State) : (modLaunch id f s).sched = s.sched := rfl
@[simp] theorem modLaunch_now (id : Nat) (f : Launch → Launch) (s : State) : (modLaunch id f s).now = s.now := rfl
@[simp] theorem modLaunch_resets (id : Nat) (f : Launch → Launch) (s : State) : (modLaunch id f s).resets = s.resets := rfl
@[simp] theorem modLaunch_steps (id : Nat) (f : Launch → Launch) (s : State) : (modLaunch id f s).steps = s.steps := rfl
@[simp] theorem modLaunch_free (id : Nat) (f : Launch → Launch) (s : State) : (modLaunch id f s).free = s.free := rfl
@[simp] theorem modLaunch_uids (id : Nat) (f : Launch → Launch) (s : State) : (modLaunch id f s).uids = s.uids := rfl
@[simp] theorem modB_running (f : Block → Block) (s : State) : (modB f s).running = s.running := rfl
@[simp] theorem modB_launches (f : Block → Block) (s : State) : (modB f s).launches = s.launches := rfl
@[simp] theorem modB_accepted (f : Block → Block) (s : State) : (modB f s).accepted = s.accepted := rfl
@[simp] theorem modB_queue (f : Block → Block) (s : State) : (modB f s).queue = s.queue := rfl
@[simp] theorem modB_reserve (f : Block → Block) (s : State) : (modB f s).reserve = s.reserve := rfl
@[simp] theorem modB_reserved (f : Block → Block) (s : State) : (modB f s).reserved = s.reserved := rfl
@[simp] theorem modB_last (f : Block → Block) (s : State) : (modB f s).last = s.last := rfl
@[simp] theorem modB_parted (f : Block → Block) (s : State) : (modB f s).parted = s.parted := rfl
@[simp] theorem modB_skews (f : Block → Block) (s : State) : (modB f s).skews = s.skews := rfl
@[simp] theorem modB_bands (f : Block → Block) (s : State) : (modB f s).bands = s.bands := rfl
@[simp] theorem modB_copies (f : Block → Block) (s : State) : (modB f s).copies = s.copies := rfl
@[simp] theorem modB_qerrs (f : Block → Block) (s : State) : (modB f s).qerrs = s.qerrs := rfl
@[simp] theorem modB_matq (f : Block → Block) (s : State) : (modB f s).matq = s.matq := rfl
@[simp] theorem modB_routing (f : Block → Block) (s : State) : (modB f s).routing = s.routing := rfl
@[simp] theorem modB_links (f : Block → Block) (s : State) : (modB f s).links = s.links := rfl
@[simp] theorem modB_waits (f : Block → Block) (s : State) : (modB f s).waits = s.waits := rfl
@[simp] theorem modB_signalled (f : Block → Block) (s : State) : (modB f s).signalled = s.signalled := rfl
@[simp] theorem modB_passes (f : Block → Block) (s : State) : (modB f s).passes = s.passes := rfl
@[simp] theorem modB_completing (f : Block → Block) (s : State) : (modB f s).completing = s.completing := rfl
@[simp] theorem modB_notices (f : Block → Block) (s : State) : (modB f s).notices = s.notices := rfl
@[simp] theorem modB_ctxs (f : Block → Block) (s : State) : (modB f s).ctxs = s.ctxs := rfl
@[simp] theorem modB_ckpts (f : Block → Block) (s : State) : (modB f s).ckpts = s.ckpts := rfl
@[simp] theorem modB_watchdog (f : Block → Block) (s : State) : (modB f s).watchdog = s.watchdog := rfl
@[simp] theorem modB_mem (f : Block → Block) (s : State) : (modB f s).mem = s.mem := rfl
@[simp] theorem modB_cellar (f : Block → Block) (s : State) : (modB f s).cellar = s.cellar := rfl
@[simp] theorem modB_share (f : Block → Block) (s : State) : (modB f s).share = s.share := rfl
@[simp] theorem modB_tlb (f : Block → Block) (s : State) : (modB f s).tlb = s.tlb := rfl
@[simp] theorem modB_walker (f : Block → Block) (s : State) : (modB f s).walker = s.walker := rfl
@[simp] theorem modB_l1 (f : Block → Block) (s : State) : (modB f s).l1 = s.l1 := rfl
@[simp] theorem modB_stale (f : Block → Block) (s : State) : (modB f s).stale = s.stale := rfl
@[simp] theorem modB_decoded (f : Block → Block) (s : State) : (modB f s).decoded = s.decoded := rfl
@[simp] theorem modB_refreshing (f : Block → Block) (s : State) : (modB f s).refreshing = s.refreshing := rfl
@[simp] theorem modB_holds (f : Block → Block) (s : State) : (modB f s).holds = s.holds := rfl
@[simp] theorem modB_past (f : Block → Block) (s : State) : (modB f s).past = s.past := rfl
@[simp] theorem modB_stamp (f : Block → Block) (s : State) : (modB f s).stamp = s.stamp := rfl
@[simp] theorem modB_settled (f : Block → Block) (s : State) : (modB f s).settled = s.settled := rfl
@[simp] theorem modB_bad (f : Block → Block) (s : State) : (modB f s).bad = s.bad := rfl
@[simp] theorem modB_seq (f : Block → Block) (s : State) : (modB f s).seq = s.seq := rfl
@[simp] theorem modB_ports (f : Block → Block) (s : State) : (modB f s).ports = s.ports := rfl
@[simp] theorem modB_routes (f : Block → Block) (s : State) : (modB f s).routes = s.routes := rfl
@[simp] theorem modB_windows (f : Block → Block) (s : State) : (modB f s).windows = s.windows := rfl
@[simp] theorem modB_wires (f : Block → Block) (s : State) : (modB f s).wires = s.wires := rfl
@[simp] theorem modB_ext (f : Block → Block) (s : State) : (modB f s).ext = s.ext := rfl
@[simp] theorem modB_discarded (f : Block → Block) (s : State) : (modB f s).discarded = s.discarded := rfl
@[simp] theorem modB_ignored (f : Block → Block) (s : State) : (modB f s).ignored = s.ignored := rfl
@[simp] theorem modB_rejected (f : Block → Block) (s : State) : (modB f s).rejected = s.rejected := rfl
@[simp] theorem modB_sent (f : Block → Block) (s : State) : (modB f s).sent = s.sent := rfl
@[simp] theorem modB_booted (f : Block → Block) (s : State) : (modB f s).booted = s.booted := rfl
@[simp] theorem modB_clocks (f : Block → Block) (s : State) : (modB f s).clocks = s.clocks := rfl
@[simp] theorem modB_domains (f : Block → Block) (s : State) : (modB f s).domains = s.domains := rfl
@[simp] theorem modB_arrivals (f : Block → Block) (s : State) : (modB f s).arrivals = s.arrivals := rfl
@[simp] theorem modB_stretch (f : Block → Block) (s : State) : (modB f s).stretch = s.stretch := rfl
@[simp] theorem modB_calm (f : Block → Block) (s : State) : (modB f s).calm = s.calm := rfl
@[simp] theorem modB_powers (f : Block → Block) (s : State) : (modB f s).powers = s.powers := rfl
@[simp] theorem modB_tripC (f : Block → Block) (s : State) : (modB f s).tripC = s.tripC := rfl
@[simp] theorem modB_tripD (f : Block → Block) (s : State) : (modB f s).tripD = s.tripD := rfl
@[simp] theorem modB_panper (f : Block → Block) (s : State) : (modB f s).panper = s.panper := rfl
@[simp] theorem modB_panNow (f : Block → Block) (s : State) : (modB f s).panNow = s.panNow := rfl
@[simp] theorem modB_lattol (f : Block → Block) (s : State) : (modB f s).lattol = s.lattol := rfl
@[simp] theorem modB_boost (f : Block → Block) (s : State) : (modB f s).boost = s.boost := rfl
@[simp] theorem modB_depth (f : Block → Block) (s : State) : (modB f s).depth = s.depth := rfl
@[simp] theorem modB_pans (f : Block → Block) (s : State) : (modB f s).pans = s.pans := rfl
@[simp] theorem modB_activity (f : Block → Block) (s : State) : (modB f s).activity = s.activity := rfl
@[simp] theorem modB_tasks (f : Block → Block) (s : State) : (modB f s).tasks = s.tasks := rfl
@[simp] theorem modB_linkCal (f : Block → Block) (s : State) : (modB f s).linkCal = s.linkCal := rfl
@[simp] theorem modB_pending (f : Block → Block) (s : State) : (modB f s).pending = s.pending := rfl
@[simp] theorem modB_sched (f : Block → Block) (s : State) : (modB f s).sched = s.sched := rfl
@[simp] theorem modB_now (f : Block → Block) (s : State) : (modB f s).now = s.now := rfl
@[simp] theorem modB_resets (f : Block → Block) (s : State) : (modB f s).resets = s.resets := rfl
@[simp] theorem modB_steps (f : Block → Block) (s : State) : (modB f s).steps = s.steps := rfl
@[simp] theorem modB_free (f : Block → Block) (s : State) : (modB f s).free = s.free := rfl
@[simp] theorem modB_uids (f : Block → Block) (s : State) : (modB f s).uids = s.uids := rfl
@[simp] theorem modG_running (f : Group → Group) (s : State) : (modG f s).running = s.running := rfl
@[simp] theorem modG_launches (f : Group → Group) (s : State) : (modG f s).launches = s.launches := rfl
@[simp] theorem modG_accepted (f : Group → Group) (s : State) : (modG f s).accepted = s.accepted := rfl
@[simp] theorem modG_queue (f : Group → Group) (s : State) : (modG f s).queue = s.queue := rfl
@[simp] theorem modG_reserve (f : Group → Group) (s : State) : (modG f s).reserve = s.reserve := rfl
@[simp] theorem modG_reserved (f : Group → Group) (s : State) : (modG f s).reserved = s.reserved := rfl
@[simp] theorem modG_last (f : Group → Group) (s : State) : (modG f s).last = s.last := rfl
@[simp] theorem modG_parted (f : Group → Group) (s : State) : (modG f s).parted = s.parted := rfl
@[simp] theorem modG_skews (f : Group → Group) (s : State) : (modG f s).skews = s.skews := rfl
@[simp] theorem modG_bands (f : Group → Group) (s : State) : (modG f s).bands = s.bands := rfl
@[simp] theorem modG_copies (f : Group → Group) (s : State) : (modG f s).copies = s.copies := rfl
@[simp] theorem modG_qerrs (f : Group → Group) (s : State) : (modG f s).qerrs = s.qerrs := rfl
@[simp] theorem modG_matq (f : Group → Group) (s : State) : (modG f s).matq = s.matq := rfl
@[simp] theorem modG_routing (f : Group → Group) (s : State) : (modG f s).routing = s.routing := rfl
@[simp] theorem modG_links (f : Group → Group) (s : State) : (modG f s).links = s.links := rfl
@[simp] theorem modG_waits (f : Group → Group) (s : State) : (modG f s).waits = s.waits := rfl
@[simp] theorem modG_signalled (f : Group → Group) (s : State) : (modG f s).signalled = s.signalled := rfl
@[simp] theorem modG_passes (f : Group → Group) (s : State) : (modG f s).passes = s.passes := rfl
@[simp] theorem modG_completing (f : Group → Group) (s : State) : (modG f s).completing = s.completing := rfl
@[simp] theorem modG_notices (f : Group → Group) (s : State) : (modG f s).notices = s.notices := rfl
@[simp] theorem modG_ctxs (f : Group → Group) (s : State) : (modG f s).ctxs = s.ctxs := rfl
@[simp] theorem modG_ckpts (f : Group → Group) (s : State) : (modG f s).ckpts = s.ckpts := rfl
@[simp] theorem modG_watchdog (f : Group → Group) (s : State) : (modG f s).watchdog = s.watchdog := rfl
@[simp] theorem modG_mem (f : Group → Group) (s : State) : (modG f s).mem = s.mem := rfl
@[simp] theorem modG_cellar (f : Group → Group) (s : State) : (modG f s).cellar = s.cellar := rfl
@[simp] theorem modG_share (f : Group → Group) (s : State) : (modG f s).share = s.share := rfl
@[simp] theorem modG_tlb (f : Group → Group) (s : State) : (modG f s).tlb = s.tlb := rfl
@[simp] theorem modG_walker (f : Group → Group) (s : State) : (modG f s).walker = s.walker := rfl
@[simp] theorem modG_l1 (f : Group → Group) (s : State) : (modG f s).l1 = s.l1 := rfl
@[simp] theorem modG_stale (f : Group → Group) (s : State) : (modG f s).stale = s.stale := rfl
@[simp] theorem modG_decoded (f : Group → Group) (s : State) : (modG f s).decoded = s.decoded := rfl
@[simp] theorem modG_refreshing (f : Group → Group) (s : State) : (modG f s).refreshing = s.refreshing := rfl
@[simp] theorem modG_holds (f : Group → Group) (s : State) : (modG f s).holds = s.holds := rfl
@[simp] theorem modG_past (f : Group → Group) (s : State) : (modG f s).past = s.past := rfl
@[simp] theorem modG_stamp (f : Group → Group) (s : State) : (modG f s).stamp = s.stamp := rfl
@[simp] theorem modG_settled (f : Group → Group) (s : State) : (modG f s).settled = s.settled := rfl
@[simp] theorem modG_bad (f : Group → Group) (s : State) : (modG f s).bad = s.bad := rfl
@[simp] theorem modG_seq (f : Group → Group) (s : State) : (modG f s).seq = s.seq := rfl
@[simp] theorem modG_ports (f : Group → Group) (s : State) : (modG f s).ports = s.ports := rfl
@[simp] theorem modG_routes (f : Group → Group) (s : State) : (modG f s).routes = s.routes := rfl
@[simp] theorem modG_windows (f : Group → Group) (s : State) : (modG f s).windows = s.windows := rfl
@[simp] theorem modG_wires (f : Group → Group) (s : State) : (modG f s).wires = s.wires := rfl
@[simp] theorem modG_ext (f : Group → Group) (s : State) : (modG f s).ext = s.ext := rfl
@[simp] theorem modG_discarded (f : Group → Group) (s : State) : (modG f s).discarded = s.discarded := rfl
@[simp] theorem modG_ignored (f : Group → Group) (s : State) : (modG f s).ignored = s.ignored := rfl
@[simp] theorem modG_rejected (f : Group → Group) (s : State) : (modG f s).rejected = s.rejected := rfl
@[simp] theorem modG_sent (f : Group → Group) (s : State) : (modG f s).sent = s.sent := rfl
@[simp] theorem modG_booted (f : Group → Group) (s : State) : (modG f s).booted = s.booted := rfl
@[simp] theorem modG_clocks (f : Group → Group) (s : State) : (modG f s).clocks = s.clocks := rfl
@[simp] theorem modG_domains (f : Group → Group) (s : State) : (modG f s).domains = s.domains := rfl
@[simp] theorem modG_arrivals (f : Group → Group) (s : State) : (modG f s).arrivals = s.arrivals := rfl
@[simp] theorem modG_stretch (f : Group → Group) (s : State) : (modG f s).stretch = s.stretch := rfl
@[simp] theorem modG_calm (f : Group → Group) (s : State) : (modG f s).calm = s.calm := rfl
@[simp] theorem modG_powers (f : Group → Group) (s : State) : (modG f s).powers = s.powers := rfl
@[simp] theorem modG_tripC (f : Group → Group) (s : State) : (modG f s).tripC = s.tripC := rfl
@[simp] theorem modG_tripD (f : Group → Group) (s : State) : (modG f s).tripD = s.tripD := rfl
@[simp] theorem modG_panper (f : Group → Group) (s : State) : (modG f s).panper = s.panper := rfl
@[simp] theorem modG_panNow (f : Group → Group) (s : State) : (modG f s).panNow = s.panNow := rfl
@[simp] theorem modG_lattol (f : Group → Group) (s : State) : (modG f s).lattol = s.lattol := rfl
@[simp] theorem modG_boost (f : Group → Group) (s : State) : (modG f s).boost = s.boost := rfl
@[simp] theorem modG_depth (f : Group → Group) (s : State) : (modG f s).depth = s.depth := rfl
@[simp] theorem modG_pans (f : Group → Group) (s : State) : (modG f s).pans = s.pans := rfl
@[simp] theorem modG_activity (f : Group → Group) (s : State) : (modG f s).activity = s.activity := rfl
@[simp] theorem modG_tasks (f : Group → Group) (s : State) : (modG f s).tasks = s.tasks := rfl
@[simp] theorem modG_linkCal (f : Group → Group) (s : State) : (modG f s).linkCal = s.linkCal := rfl
@[simp] theorem modG_pending (f : Group → Group) (s : State) : (modG f s).pending = s.pending := rfl
@[simp] theorem modG_sched (f : Group → Group) (s : State) : (modG f s).sched = s.sched := rfl
@[simp] theorem modG_now (f : Group → Group) (s : State) : (modG f s).now = s.now := rfl
@[simp] theorem modG_resets (f : Group → Group) (s : State) : (modG f s).resets = s.resets := rfl
@[simp] theorem modG_steps (f : Group → Group) (s : State) : (modG f s).steps = s.steps := rfl
@[simp] theorem modG_free (f : Group → Group) (s : State) : (modG f s).free = s.free := rfl
@[simp] theorem modG_uids (f : Group → Group) (s : State) : (modG f s).uids = s.uids := rfl
@[simp] theorem modP_running (f : Path → Path) (s : State) : (modP f s).running = s.running := rfl
@[simp] theorem modP_launches (f : Path → Path) (s : State) : (modP f s).launches = s.launches := rfl
@[simp] theorem modP_accepted (f : Path → Path) (s : State) : (modP f s).accepted = s.accepted := rfl
@[simp] theorem modP_queue (f : Path → Path) (s : State) : (modP f s).queue = s.queue := rfl
@[simp] theorem modP_reserve (f : Path → Path) (s : State) : (modP f s).reserve = s.reserve := rfl
@[simp] theorem modP_reserved (f : Path → Path) (s : State) : (modP f s).reserved = s.reserved := rfl
@[simp] theorem modP_last (f : Path → Path) (s : State) : (modP f s).last = s.last := rfl
@[simp] theorem modP_parted (f : Path → Path) (s : State) : (modP f s).parted = s.parted := rfl
@[simp] theorem modP_skews (f : Path → Path) (s : State) : (modP f s).skews = s.skews := rfl
@[simp] theorem modP_bands (f : Path → Path) (s : State) : (modP f s).bands = s.bands := rfl
@[simp] theorem modP_copies (f : Path → Path) (s : State) : (modP f s).copies = s.copies := rfl
@[simp] theorem modP_qerrs (f : Path → Path) (s : State) : (modP f s).qerrs = s.qerrs := rfl
@[simp] theorem modP_matq (f : Path → Path) (s : State) : (modP f s).matq = s.matq := rfl
@[simp] theorem modP_routing (f : Path → Path) (s : State) : (modP f s).routing = s.routing := rfl
@[simp] theorem modP_links (f : Path → Path) (s : State) : (modP f s).links = s.links := rfl
@[simp] theorem modP_waits (f : Path → Path) (s : State) : (modP f s).waits = s.waits := rfl
@[simp] theorem modP_signalled (f : Path → Path) (s : State) : (modP f s).signalled = s.signalled := rfl
@[simp] theorem modP_passes (f : Path → Path) (s : State) : (modP f s).passes = s.passes := rfl
@[simp] theorem modP_completing (f : Path → Path) (s : State) : (modP f s).completing = s.completing := rfl
@[simp] theorem modP_notices (f : Path → Path) (s : State) : (modP f s).notices = s.notices := rfl
@[simp] theorem modP_ctxs (f : Path → Path) (s : State) : (modP f s).ctxs = s.ctxs := rfl
@[simp] theorem modP_ckpts (f : Path → Path) (s : State) : (modP f s).ckpts = s.ckpts := rfl
@[simp] theorem modP_watchdog (f : Path → Path) (s : State) : (modP f s).watchdog = s.watchdog := rfl
@[simp] theorem modP_mem (f : Path → Path) (s : State) : (modP f s).mem = s.mem := rfl
@[simp] theorem modP_cellar (f : Path → Path) (s : State) : (modP f s).cellar = s.cellar := rfl
@[simp] theorem modP_share (f : Path → Path) (s : State) : (modP f s).share = s.share := rfl
@[simp] theorem modP_tlb (f : Path → Path) (s : State) : (modP f s).tlb = s.tlb := rfl
@[simp] theorem modP_walker (f : Path → Path) (s : State) : (modP f s).walker = s.walker := rfl
@[simp] theorem modP_l1 (f : Path → Path) (s : State) : (modP f s).l1 = s.l1 := rfl
@[simp] theorem modP_stale (f : Path → Path) (s : State) : (modP f s).stale = s.stale := rfl
@[simp] theorem modP_decoded (f : Path → Path) (s : State) : (modP f s).decoded = s.decoded := rfl
@[simp] theorem modP_refreshing (f : Path → Path) (s : State) : (modP f s).refreshing = s.refreshing := rfl
@[simp] theorem modP_holds (f : Path → Path) (s : State) : (modP f s).holds = s.holds := rfl
@[simp] theorem modP_past (f : Path → Path) (s : State) : (modP f s).past = s.past := rfl
@[simp] theorem modP_stamp (f : Path → Path) (s : State) : (modP f s).stamp = s.stamp := rfl
@[simp] theorem modP_settled (f : Path → Path) (s : State) : (modP f s).settled = s.settled := rfl
@[simp] theorem modP_bad (f : Path → Path) (s : State) : (modP f s).bad = s.bad := rfl
@[simp] theorem modP_seq (f : Path → Path) (s : State) : (modP f s).seq = s.seq := rfl
@[simp] theorem modP_ports (f : Path → Path) (s : State) : (modP f s).ports = s.ports := rfl
@[simp] theorem modP_routes (f : Path → Path) (s : State) : (modP f s).routes = s.routes := rfl
@[simp] theorem modP_windows (f : Path → Path) (s : State) : (modP f s).windows = s.windows := rfl
@[simp] theorem modP_wires (f : Path → Path) (s : State) : (modP f s).wires = s.wires := rfl
@[simp] theorem modP_ext (f : Path → Path) (s : State) : (modP f s).ext = s.ext := rfl
@[simp] theorem modP_discarded (f : Path → Path) (s : State) : (modP f s).discarded = s.discarded := rfl
@[simp] theorem modP_ignored (f : Path → Path) (s : State) : (modP f s).ignored = s.ignored := rfl
@[simp] theorem modP_rejected (f : Path → Path) (s : State) : (modP f s).rejected = s.rejected := rfl
@[simp] theorem modP_sent (f : Path → Path) (s : State) : (modP f s).sent = s.sent := rfl
@[simp] theorem modP_booted (f : Path → Path) (s : State) : (modP f s).booted = s.booted := rfl
@[simp] theorem modP_clocks (f : Path → Path) (s : State) : (modP f s).clocks = s.clocks := rfl
@[simp] theorem modP_domains (f : Path → Path) (s : State) : (modP f s).domains = s.domains := rfl
@[simp] theorem modP_arrivals (f : Path → Path) (s : State) : (modP f s).arrivals = s.arrivals := rfl
@[simp] theorem modP_stretch (f : Path → Path) (s : State) : (modP f s).stretch = s.stretch := rfl
@[simp] theorem modP_calm (f : Path → Path) (s : State) : (modP f s).calm = s.calm := rfl
@[simp] theorem modP_powers (f : Path → Path) (s : State) : (modP f s).powers = s.powers := rfl
@[simp] theorem modP_tripC (f : Path → Path) (s : State) : (modP f s).tripC = s.tripC := rfl
@[simp] theorem modP_tripD (f : Path → Path) (s : State) : (modP f s).tripD = s.tripD := rfl
@[simp] theorem modP_panper (f : Path → Path) (s : State) : (modP f s).panper = s.panper := rfl
@[simp] theorem modP_panNow (f : Path → Path) (s : State) : (modP f s).panNow = s.panNow := rfl
@[simp] theorem modP_lattol (f : Path → Path) (s : State) : (modP f s).lattol = s.lattol := rfl
@[simp] theorem modP_boost (f : Path → Path) (s : State) : (modP f s).boost = s.boost := rfl
@[simp] theorem modP_depth (f : Path → Path) (s : State) : (modP f s).depth = s.depth := rfl
@[simp] theorem modP_pans (f : Path → Path) (s : State) : (modP f s).pans = s.pans := rfl
@[simp] theorem modP_activity (f : Path → Path) (s : State) : (modP f s).activity = s.activity := rfl
@[simp] theorem modP_tasks (f : Path → Path) (s : State) : (modP f s).tasks = s.tasks := rfl
@[simp] theorem modP_linkCal (f : Path → Path) (s : State) : (modP f s).linkCal = s.linkCal := rfl
@[simp] theorem modP_pending (f : Path → Path) (s : State) : (modP f s).pending = s.pending := rfl
@[simp] theorem modP_sched (f : Path → Path) (s : State) : (modP f s).sched = s.sched := rfl
@[simp] theorem modP_now (f : Path → Path) (s : State) : (modP f s).now = s.now := rfl
@[simp] theorem modP_resets (f : Path → Path) (s : State) : (modP f s).resets = s.resets := rfl
@[simp] theorem modP_steps (f : Path → Path) (s : State) : (modP f s).steps = s.steps := rfl
@[simp] theorem modP_free (f : Path → Path) (s : State) : (modP f s).free = s.free := rfl
@[simp] theorem modP_uids (f : Path → Path) (s : State) : (modP f s).uids = s.uids := rfl
@[simp] theorem acquireAll_running (uid g : Nat) (s : State) : (acquireAll uid g s).running = s.running := rfl
@[simp] theorem acquireAll_launches (uid g : Nat) (s : State) : (acquireAll uid g s).launches = s.launches := rfl
@[simp] theorem acquireAll_accepted (uid g : Nat) (s : State) : (acquireAll uid g s).accepted = s.accepted := rfl
@[simp] theorem acquireAll_queue (uid g : Nat) (s : State) : (acquireAll uid g s).queue = s.queue := rfl
@[simp] theorem acquireAll_reserve (uid g : Nat) (s : State) : (acquireAll uid g s).reserve = s.reserve := rfl
@[simp] theorem acquireAll_reserved (uid g : Nat) (s : State) : (acquireAll uid g s).reserved = s.reserved := rfl
@[simp] theorem acquireAll_last (uid g : Nat) (s : State) : (acquireAll uid g s).last = s.last := rfl
@[simp] theorem acquireAll_parted (uid g : Nat) (s : State) : (acquireAll uid g s).parted = s.parted := rfl
@[simp] theorem acquireAll_skews (uid g : Nat) (s : State) : (acquireAll uid g s).skews = s.skews := rfl
@[simp] theorem acquireAll_bands (uid g : Nat) (s : State) : (acquireAll uid g s).bands = s.bands := rfl
@[simp] theorem acquireAll_copies (uid g : Nat) (s : State) : (acquireAll uid g s).copies = s.copies := rfl
@[simp] theorem acquireAll_qerrs (uid g : Nat) (s : State) : (acquireAll uid g s).qerrs = s.qerrs := rfl
@[simp] theorem acquireAll_matq (uid g : Nat) (s : State) : (acquireAll uid g s).matq = s.matq := rfl
@[simp] theorem acquireAll_routing (uid g : Nat) (s : State) : (acquireAll uid g s).routing = s.routing := rfl
@[simp] theorem acquireAll_links (uid g : Nat) (s : State) : (acquireAll uid g s).links = s.links := rfl
@[simp] theorem acquireAll_waits (uid g : Nat) (s : State) : (acquireAll uid g s).waits = s.waits := rfl
@[simp] theorem acquireAll_signalled (uid g : Nat) (s : State) : (acquireAll uid g s).signalled = s.signalled := rfl
@[simp] theorem acquireAll_passes (uid g : Nat) (s : State) : (acquireAll uid g s).passes = s.passes := rfl
@[simp] theorem acquireAll_completing (uid g : Nat) (s : State) : (acquireAll uid g s).completing = s.completing := rfl
@[simp] theorem acquireAll_notices (uid g : Nat) (s : State) : (acquireAll uid g s).notices = s.notices := rfl
@[simp] theorem acquireAll_ctxs (uid g : Nat) (s : State) : (acquireAll uid g s).ctxs = s.ctxs := rfl
@[simp] theorem acquireAll_ckpts (uid g : Nat) (s : State) : (acquireAll uid g s).ckpts = s.ckpts := rfl
@[simp] theorem acquireAll_watchdog (uid g : Nat) (s : State) : (acquireAll uid g s).watchdog = s.watchdog := rfl
@[simp] theorem acquireAll_mem (uid g : Nat) (s : State) : (acquireAll uid g s).mem = s.mem := rfl
@[simp] theorem acquireAll_cellar (uid g : Nat) (s : State) : (acquireAll uid g s).cellar = s.cellar := rfl
@[simp] theorem acquireAll_share (uid g : Nat) (s : State) : (acquireAll uid g s).share = s.share := rfl
@[simp] theorem acquireAll_tlb (uid g : Nat) (s : State) : (acquireAll uid g s).tlb = s.tlb := rfl
@[simp] theorem acquireAll_walker (uid g : Nat) (s : State) : (acquireAll uid g s).walker = s.walker := rfl
@[simp] theorem acquireAll_l1 (uid g : Nat) (s : State) : (acquireAll uid g s).l1 = s.l1 := rfl
@[simp] theorem acquireAll_stale (uid g : Nat) (s : State) : (acquireAll uid g s).stale = s.stale := rfl
@[simp] theorem acquireAll_decoded (uid g : Nat) (s : State) : (acquireAll uid g s).decoded = s.decoded := rfl
@[simp] theorem acquireAll_refreshing (uid g : Nat) (s : State) : (acquireAll uid g s).refreshing = s.refreshing := rfl
@[simp] theorem acquireAll_holds (uid g : Nat) (s : State) : (acquireAll uid g s).holds = s.holds := rfl
@[simp] theorem acquireAll_past (uid g : Nat) (s : State) : (acquireAll uid g s).past = s.past := rfl
@[simp] theorem acquireAll_stamp (uid g : Nat) (s : State) : (acquireAll uid g s).stamp = s.stamp := rfl
@[simp] theorem acquireAll_settled (uid g : Nat) (s : State) : (acquireAll uid g s).settled = s.settled := rfl
@[simp] theorem acquireAll_bad (uid g : Nat) (s : State) : (acquireAll uid g s).bad = s.bad := rfl
@[simp] theorem acquireAll_seq (uid g : Nat) (s : State) : (acquireAll uid g s).seq = s.seq := rfl
@[simp] theorem acquireAll_ports (uid g : Nat) (s : State) : (acquireAll uid g s).ports = s.ports := rfl
@[simp] theorem acquireAll_routes (uid g : Nat) (s : State) : (acquireAll uid g s).routes = s.routes := rfl
@[simp] theorem acquireAll_windows (uid g : Nat) (s : State) : (acquireAll uid g s).windows = s.windows := rfl
@[simp] theorem acquireAll_wires (uid g : Nat) (s : State) : (acquireAll uid g s).wires = s.wires := rfl
@[simp] theorem acquireAll_ext (uid g : Nat) (s : State) : (acquireAll uid g s).ext = s.ext := rfl
@[simp] theorem acquireAll_discarded (uid g : Nat) (s : State) : (acquireAll uid g s).discarded = s.discarded := rfl
@[simp] theorem acquireAll_ignored (uid g : Nat) (s : State) : (acquireAll uid g s).ignored = s.ignored := rfl
@[simp] theorem acquireAll_rejected (uid g : Nat) (s : State) : (acquireAll uid g s).rejected = s.rejected := rfl
@[simp] theorem acquireAll_sent (uid g : Nat) (s : State) : (acquireAll uid g s).sent = s.sent := rfl
@[simp] theorem acquireAll_booted (uid g : Nat) (s : State) : (acquireAll uid g s).booted = s.booted := rfl
@[simp] theorem acquireAll_clocks (uid g : Nat) (s : State) : (acquireAll uid g s).clocks = s.clocks := rfl
@[simp] theorem acquireAll_domains (uid g : Nat) (s : State) : (acquireAll uid g s).domains = s.domains := rfl
@[simp] theorem acquireAll_arrivals (uid g : Nat) (s : State) : (acquireAll uid g s).arrivals = s.arrivals := rfl
@[simp] theorem acquireAll_stretch (uid g : Nat) (s : State) : (acquireAll uid g s).stretch = s.stretch := rfl
@[simp] theorem acquireAll_calm (uid g : Nat) (s : State) : (acquireAll uid g s).calm = s.calm := rfl
@[simp] theorem acquireAll_powers (uid g : Nat) (s : State) : (acquireAll uid g s).powers = s.powers := rfl
@[simp] theorem acquireAll_tripC (uid g : Nat) (s : State) : (acquireAll uid g s).tripC = s.tripC := rfl
@[simp] theorem acquireAll_tripD (uid g : Nat) (s : State) : (acquireAll uid g s).tripD = s.tripD := rfl
@[simp] theorem acquireAll_panper (uid g : Nat) (s : State) : (acquireAll uid g s).panper = s.panper := rfl
@[simp] theorem acquireAll_panNow (uid g : Nat) (s : State) : (acquireAll uid g s).panNow = s.panNow := rfl
@[simp] theorem acquireAll_lattol (uid g : Nat) (s : State) : (acquireAll uid g s).lattol = s.lattol := rfl
@[simp] theorem acquireAll_boost (uid g : Nat) (s : State) : (acquireAll uid g s).boost = s.boost := rfl
@[simp] theorem acquireAll_depth (uid g : Nat) (s : State) : (acquireAll uid g s).depth = s.depth := rfl
@[simp] theorem acquireAll_pans (uid g : Nat) (s : State) : (acquireAll uid g s).pans = s.pans := rfl
@[simp] theorem acquireAll_activity (uid g : Nat) (s : State) : (acquireAll uid g s).activity = s.activity := rfl
@[simp] theorem acquireAll_tasks (uid g : Nat) (s : State) : (acquireAll uid g s).tasks = s.tasks := rfl
@[simp] theorem acquireAll_linkCal (uid g : Nat) (s : State) : (acquireAll uid g s).linkCal = s.linkCal := rfl
@[simp] theorem acquireAll_pending (uid g : Nat) (s : State) : (acquireAll uid g s).pending = s.pending := rfl
@[simp] theorem acquireAll_sched (uid g : Nat) (s : State) : (acquireAll uid g s).sched = s.sched := rfl
@[simp] theorem acquireAll_now (uid g : Nat) (s : State) : (acquireAll uid g s).now = s.now := rfl
@[simp] theorem acquireAll_resets (uid g : Nat) (s : State) : (acquireAll uid g s).resets = s.resets := rfl
@[simp] theorem acquireAll_steps (uid g : Nat) (s : State) : (acquireAll uid g s).steps = s.steps := rfl
@[simp] theorem acquireAll_free (uid g : Nat) (s : State) : (acquireAll uid g s).free = s.free := rfl
@[simp] theorem acquireAll_uids (uid g : Nat) (s : State) : (acquireAll uid g s).uids = s.uids := rfl
@[simp] theorem send_running (x : Sent) (s : State) : (send x s).running = s.running := rfl
@[simp] theorem send_blocks (x : Sent) (s : State) : (send x s).blocks = s.blocks := rfl
@[simp] theorem send_launches (x : Sent) (s : State) : (send x s).launches = s.launches := rfl
@[simp] theorem send_accepted (x : Sent) (s : State) : (send x s).accepted = s.accepted := rfl
@[simp] theorem send_queue (x : Sent) (s : State) : (send x s).queue = s.queue := rfl
@[simp] theorem send_reserve (x : Sent) (s : State) : (send x s).reserve = s.reserve := rfl
@[simp] theorem send_reserved (x : Sent) (s : State) : (send x s).reserved = s.reserved := rfl
@[simp] theorem send_last (x : Sent) (s : State) : (send x s).last = s.last := rfl
@[simp] theorem send_parted (x : Sent) (s : State) : (send x s).parted = s.parted := rfl
@[simp] theorem send_skews (x : Sent) (s : State) : (send x s).skews = s.skews := rfl
@[simp] theorem send_bands (x : Sent) (s : State) : (send x s).bands = s.bands := rfl
@[simp] theorem send_copies (x : Sent) (s : State) : (send x s).copies = s.copies := rfl
@[simp] theorem send_qerrs (x : Sent) (s : State) : (send x s).qerrs = s.qerrs := rfl
@[simp] theorem send_matq (x : Sent) (s : State) : (send x s).matq = s.matq := rfl
@[simp] theorem send_routing (x : Sent) (s : State) : (send x s).routing = s.routing := rfl
@[simp] theorem send_links (x : Sent) (s : State) : (send x s).links = s.links := rfl
@[simp] theorem send_waits (x : Sent) (s : State) : (send x s).waits = s.waits := rfl
@[simp] theorem send_signalled (x : Sent) (s : State) : (send x s).signalled = s.signalled := rfl
@[simp] theorem send_passes (x : Sent) (s : State) : (send x s).passes = s.passes := rfl
@[simp] theorem send_completing (x : Sent) (s : State) : (send x s).completing = s.completing := rfl
@[simp] theorem send_notices (x : Sent) (s : State) : (send x s).notices = s.notices := rfl
@[simp] theorem send_ctxs (x : Sent) (s : State) : (send x s).ctxs = s.ctxs := rfl
@[simp] theorem send_ckpts (x : Sent) (s : State) : (send x s).ckpts = s.ckpts := rfl
@[simp] theorem send_watchdog (x : Sent) (s : State) : (send x s).watchdog = s.watchdog := rfl
@[simp] theorem send_mem (x : Sent) (s : State) : (send x s).mem = s.mem := rfl
@[simp] theorem send_cellar (x : Sent) (s : State) : (send x s).cellar = s.cellar := rfl
@[simp] theorem send_share (x : Sent) (s : State) : (send x s).share = s.share := rfl
@[simp] theorem send_tlb (x : Sent) (s : State) : (send x s).tlb = s.tlb := rfl
@[simp] theorem send_walker (x : Sent) (s : State) : (send x s).walker = s.walker := rfl
@[simp] theorem send_l1 (x : Sent) (s : State) : (send x s).l1 = s.l1 := rfl
@[simp] theorem send_stale (x : Sent) (s : State) : (send x s).stale = s.stale := rfl
@[simp] theorem send_decoded (x : Sent) (s : State) : (send x s).decoded = s.decoded := rfl
@[simp] theorem send_refreshing (x : Sent) (s : State) : (send x s).refreshing = s.refreshing := rfl
@[simp] theorem send_holds (x : Sent) (s : State) : (send x s).holds = s.holds := rfl
@[simp] theorem send_past (x : Sent) (s : State) : (send x s).past = s.past := rfl
@[simp] theorem send_stamp (x : Sent) (s : State) : (send x s).stamp = s.stamp := rfl
@[simp] theorem send_settled (x : Sent) (s : State) : (send x s).settled = s.settled := rfl
@[simp] theorem send_bad (x : Sent) (s : State) : (send x s).bad = s.bad := rfl
@[simp] theorem send_seq (x : Sent) (s : State) : (send x s).seq = s.seq := rfl
@[simp] theorem send_ports (x : Sent) (s : State) : (send x s).ports = s.ports := rfl
@[simp] theorem send_routes (x : Sent) (s : State) : (send x s).routes = s.routes := rfl
@[simp] theorem send_windows (x : Sent) (s : State) : (send x s).windows = s.windows := rfl
@[simp] theorem send_wires (x : Sent) (s : State) : (send x s).wires = s.wires := rfl
@[simp] theorem send_ext (x : Sent) (s : State) : (send x s).ext = s.ext := rfl
@[simp] theorem send_discarded (x : Sent) (s : State) : (send x s).discarded = s.discarded := rfl
@[simp] theorem send_ignored (x : Sent) (s : State) : (send x s).ignored = s.ignored := rfl
@[simp] theorem send_rejected (x : Sent) (s : State) : (send x s).rejected = s.rejected := rfl
@[simp] theorem send_booted (x : Sent) (s : State) : (send x s).booted = s.booted := rfl
@[simp] theorem send_clocks (x : Sent) (s : State) : (send x s).clocks = s.clocks := rfl
@[simp] theorem send_domains (x : Sent) (s : State) : (send x s).domains = s.domains := rfl
@[simp] theorem send_arrivals (x : Sent) (s : State) : (send x s).arrivals = s.arrivals := rfl
@[simp] theorem send_stretch (x : Sent) (s : State) : (send x s).stretch = s.stretch := rfl
@[simp] theorem send_calm (x : Sent) (s : State) : (send x s).calm = s.calm := rfl
@[simp] theorem send_powers (x : Sent) (s : State) : (send x s).powers = s.powers := rfl
@[simp] theorem send_tripC (x : Sent) (s : State) : (send x s).tripC = s.tripC := rfl
@[simp] theorem send_tripD (x : Sent) (s : State) : (send x s).tripD = s.tripD := rfl
@[simp] theorem send_panper (x : Sent) (s : State) : (send x s).panper = s.panper := rfl
@[simp] theorem send_panNow (x : Sent) (s : State) : (send x s).panNow = s.panNow := rfl
@[simp] theorem send_lattol (x : Sent) (s : State) : (send x s).lattol = s.lattol := rfl
@[simp] theorem send_boost (x : Sent) (s : State) : (send x s).boost = s.boost := rfl
@[simp] theorem send_depth (x : Sent) (s : State) : (send x s).depth = s.depth := rfl
@[simp] theorem send_pans (x : Sent) (s : State) : (send x s).pans = s.pans := rfl
@[simp] theorem send_activity (x : Sent) (s : State) : (send x s).activity = s.activity := rfl
@[simp] theorem send_tasks (x : Sent) (s : State) : (send x s).tasks = s.tasks := rfl
@[simp] theorem send_linkCal (x : Sent) (s : State) : (send x s).linkCal = s.linkCal := rfl
@[simp] theorem send_pending (x : Sent) (s : State) : (send x s).pending = s.pending := rfl
@[simp] theorem send_sched (x : Sent) (s : State) : (send x s).sched = s.sched := rfl
@[simp] theorem send_now (x : Sent) (s : State) : (send x s).now = s.now := rfl
@[simp] theorem send_resets (x : Sent) (s : State) : (send x s).resets = s.resets := rfl
@[simp] theorem send_steps (x : Sent) (s : State) : (send x s).steps = s.steps := rfl
@[simp] theorem send_free (x : Sent) (s : State) : (send x s).free = s.free := rfl
@[simp] theorem send_uids (x : Sent) (s : State) : (send x s).uids = s.uids := rfl
@[simp] theorem physByte_running (w : Option Place) (a : Nat) (b : Byte) (s : State) : (physByte w a b s).running = s.running := rfl
@[simp] theorem physByte_blocks (w : Option Place) (a : Nat) (b : Byte) (s : State) : (physByte w a b s).blocks = s.blocks := rfl
@[simp] theorem physByte_launches (w : Option Place) (a : Nat) (b : Byte) (s : State) : (physByte w a b s).launches = s.launches := rfl
@[simp] theorem physByte_accepted (w : Option Place) (a : Nat) (b : Byte) (s : State) : (physByte w a b s).accepted = s.accepted := rfl
@[simp] theorem physByte_queue (w : Option Place) (a : Nat) (b : Byte) (s : State) : (physByte w a b s).queue = s.queue := rfl
@[simp] theorem physByte_reserve (w : Option Place) (a : Nat) (b : Byte) (s : State) : (physByte w a b s).reserve = s.reserve := rfl
@[simp] theorem physByte_reserved (w : Option Place) (a : Nat) (b : Byte) (s : State) : (physByte w a b s).reserved = s.reserved := rfl
@[simp] theorem physByte_last (w : Option Place) (a : Nat) (b : Byte) (s : State) : (physByte w a b s).last = s.last := rfl
@[simp] theorem physByte_parted (w : Option Place) (a : Nat) (b : Byte) (s : State) : (physByte w a b s).parted = s.parted := rfl
@[simp] theorem physByte_skews (w : Option Place) (a : Nat) (b : Byte) (s : State) : (physByte w a b s).skews = s.skews := rfl
@[simp] theorem physByte_bands (w : Option Place) (a : Nat) (b : Byte) (s : State) : (physByte w a b s).bands = s.bands := rfl
@[simp] theorem physByte_copies (w : Option Place) (a : Nat) (b : Byte) (s : State) : (physByte w a b s).copies = s.copies := rfl
@[simp] theorem physByte_qerrs (w : Option Place) (a : Nat) (b : Byte) (s : State) : (physByte w a b s).qerrs = s.qerrs := rfl
@[simp] theorem physByte_matq (w : Option Place) (a : Nat) (b : Byte) (s : State) : (physByte w a b s).matq = s.matq := rfl
@[simp] theorem physByte_routing (w : Option Place) (a : Nat) (b : Byte) (s : State) : (physByte w a b s).routing = s.routing := rfl
@[simp] theorem physByte_links (w : Option Place) (a : Nat) (b : Byte) (s : State) : (physByte w a b s).links = s.links := rfl
@[simp] theorem physByte_waits (w : Option Place) (a : Nat) (b : Byte) (s : State) : (physByte w a b s).waits = s.waits := rfl
@[simp] theorem physByte_signalled (w : Option Place) (a : Nat) (b : Byte) (s : State) : (physByte w a b s).signalled = s.signalled := rfl
@[simp] theorem physByte_passes (w : Option Place) (a : Nat) (b : Byte) (s : State) : (physByte w a b s).passes = s.passes := rfl
@[simp] theorem physByte_completing (w : Option Place) (a : Nat) (b : Byte) (s : State) : (physByte w a b s).completing = s.completing := rfl
@[simp] theorem physByte_notices (w : Option Place) (a : Nat) (b : Byte) (s : State) : (physByte w a b s).notices = s.notices := rfl
@[simp] theorem physByte_ctxs (w : Option Place) (a : Nat) (b : Byte) (s : State) : (physByte w a b s).ctxs = s.ctxs := rfl
@[simp] theorem physByte_ckpts (w : Option Place) (a : Nat) (b : Byte) (s : State) : (physByte w a b s).ckpts = s.ckpts := rfl
@[simp] theorem physByte_watchdog (w : Option Place) (a : Nat) (b : Byte) (s : State) : (physByte w a b s).watchdog = s.watchdog := rfl
@[simp] theorem physByte_cellar (w : Option Place) (a : Nat) (b : Byte) (s : State) : (physByte w a b s).cellar = s.cellar := rfl
@[simp] theorem physByte_share (w : Option Place) (a : Nat) (b : Byte) (s : State) : (physByte w a b s).share = s.share := rfl
@[simp] theorem physByte_tlb (w : Option Place) (a : Nat) (b : Byte) (s : State) : (physByte w a b s).tlb = s.tlb := rfl
@[simp] theorem physByte_walker (w : Option Place) (a : Nat) (b : Byte) (s : State) : (physByte w a b s).walker = s.walker := rfl
@[simp] theorem physByte_l1 (w : Option Place) (a : Nat) (b : Byte) (s : State) : (physByte w a b s).l1 = s.l1 := rfl
@[simp] theorem physByte_decoded (w : Option Place) (a : Nat) (b : Byte) (s : State) : (physByte w a b s).decoded = s.decoded := rfl
@[simp] theorem physByte_refreshing (w : Option Place) (a : Nat) (b : Byte) (s : State) : (physByte w a b s).refreshing = s.refreshing := rfl
@[simp] theorem physByte_holds (w : Option Place) (a : Nat) (b : Byte) (s : State) : (physByte w a b s).holds = s.holds := rfl
@[simp] theorem physByte_past (w : Option Place) (a : Nat) (b : Byte) (s : State) : (physByte w a b s).past = s.past := rfl
@[simp] theorem physByte_stamp (w : Option Place) (a : Nat) (b : Byte) (s : State) : (physByte w a b s).stamp = s.stamp := rfl
@[simp] theorem physByte_settled (w : Option Place) (a : Nat) (b : Byte) (s : State) : (physByte w a b s).settled = s.settled := rfl
@[simp] theorem physByte_bad (w : Option Place) (a : Nat) (b : Byte) (s : State) : (physByte w a b s).bad = s.bad := rfl
@[simp] theorem physByte_seq (w : Option Place) (a : Nat) (b : Byte) (s : State) : (physByte w a b s).seq = s.seq := rfl
@[simp] theorem physByte_ports (w : Option Place) (a : Nat) (b : Byte) (s : State) : (physByte w a b s).ports = s.ports := rfl
@[simp] theorem physByte_routes (w : Option Place) (a : Nat) (b : Byte) (s : State) : (physByte w a b s).routes = s.routes := rfl
@[simp] theorem physByte_windows (w : Option Place) (a : Nat) (b : Byte) (s : State) : (physByte w a b s).windows = s.windows := rfl
@[simp] theorem physByte_wires (w : Option Place) (a : Nat) (b : Byte) (s : State) : (physByte w a b s).wires = s.wires := rfl
@[simp] theorem physByte_ext (w : Option Place) (a : Nat) (b : Byte) (s : State) : (physByte w a b s).ext = s.ext := rfl
@[simp] theorem physByte_discarded (w : Option Place) (a : Nat) (b : Byte) (s : State) : (physByte w a b s).discarded = s.discarded := rfl
@[simp] theorem physByte_ignored (w : Option Place) (a : Nat) (b : Byte) (s : State) : (physByte w a b s).ignored = s.ignored := rfl
@[simp] theorem physByte_rejected (w : Option Place) (a : Nat) (b : Byte) (s : State) : (physByte w a b s).rejected = s.rejected := rfl
@[simp] theorem physByte_sent (w : Option Place) (a : Nat) (b : Byte) (s : State) : (physByte w a b s).sent = s.sent := rfl
@[simp] theorem physByte_booted (w : Option Place) (a : Nat) (b : Byte) (s : State) : (physByte w a b s).booted = s.booted := rfl
@[simp] theorem physByte_clocks (w : Option Place) (a : Nat) (b : Byte) (s : State) : (physByte w a b s).clocks = s.clocks := rfl
@[simp] theorem physByte_domains (w : Option Place) (a : Nat) (b : Byte) (s : State) : (physByte w a b s).domains = s.domains := rfl
@[simp] theorem physByte_arrivals (w : Option Place) (a : Nat) (b : Byte) (s : State) : (physByte w a b s).arrivals = s.arrivals := rfl
@[simp] theorem physByte_stretch (w : Option Place) (a : Nat) (b : Byte) (s : State) : (physByte w a b s).stretch = s.stretch := rfl
@[simp] theorem physByte_calm (w : Option Place) (a : Nat) (b : Byte) (s : State) : (physByte w a b s).calm = s.calm := rfl
@[simp] theorem physByte_powers (w : Option Place) (a : Nat) (b : Byte) (s : State) : (physByte w a b s).powers = s.powers := rfl
@[simp] theorem physByte_tripC (w : Option Place) (a : Nat) (b : Byte) (s : State) : (physByte w a b s).tripC = s.tripC := rfl
@[simp] theorem physByte_tripD (w : Option Place) (a : Nat) (b : Byte) (s : State) : (physByte w a b s).tripD = s.tripD := rfl
@[simp] theorem physByte_panper (w : Option Place) (a : Nat) (b : Byte) (s : State) : (physByte w a b s).panper = s.panper := rfl
@[simp] theorem physByte_panNow (w : Option Place) (a : Nat) (b : Byte) (s : State) : (physByte w a b s).panNow = s.panNow := rfl
@[simp] theorem physByte_lattol (w : Option Place) (a : Nat) (b : Byte) (s : State) : (physByte w a b s).lattol = s.lattol := rfl
@[simp] theorem physByte_boost (w : Option Place) (a : Nat) (b : Byte) (s : State) : (physByte w a b s).boost = s.boost := rfl
@[simp] theorem physByte_depth (w : Option Place) (a : Nat) (b : Byte) (s : State) : (physByte w a b s).depth = s.depth := rfl
@[simp] theorem physByte_pans (w : Option Place) (a : Nat) (b : Byte) (s : State) : (physByte w a b s).pans = s.pans := rfl
@[simp] theorem physByte_activity (w : Option Place) (a : Nat) (b : Byte) (s : State) : (physByte w a b s).activity = s.activity := rfl
@[simp] theorem physByte_tasks (w : Option Place) (a : Nat) (b : Byte) (s : State) : (physByte w a b s).tasks = s.tasks := rfl
@[simp] theorem physByte_linkCal (w : Option Place) (a : Nat) (b : Byte) (s : State) : (physByte w a b s).linkCal = s.linkCal := rfl
@[simp] theorem physByte_pending (w : Option Place) (a : Nat) (b : Byte) (s : State) : (physByte w a b s).pending = s.pending := rfl
@[simp] theorem physByte_sched (w : Option Place) (a : Nat) (b : Byte) (s : State) : (physByte w a b s).sched = s.sched := rfl
@[simp] theorem physByte_now (w : Option Place) (a : Nat) (b : Byte) (s : State) : (physByte w a b s).now = s.now := rfl
@[simp] theorem physByte_resets (w : Option Place) (a : Nat) (b : Byte) (s : State) : (physByte w a b s).resets = s.resets := rfl
@[simp] theorem physByte_steps (w : Option Place) (a : Nat) (b : Byte) (s : State) : (physByte w a b s).steps = s.steps := rfl
@[simp] theorem physByte_free (w : Option Place) (a : Nat) (b : Byte) (s : State) : (physByte w a b s).free = s.free := rfl
@[simp] theorem physByte_uids (w : Option Place) (a : Nat) (b : Byte) (s : State) : (physByte w a b s).uids = s.uids := rfl

end Sys2Proof.Machine
end

