-- ==== Sys2Proof/Laws/Tree.lean ====
section
/-! SUPPORT. Reading a block, a group or a path after a change of one. -/

namespace Sys2Proof.Machine

/-- A change of a block that keeps its handle. -/
def KeepsUid (f : Block → Block) : Prop := ∀ b, (f b).uid = b.uid

/-- A change of a group that keeps its index. -/
def KeepsGidx (f : Group → Group) : Prop := ∀ g, (f g).gidx = g.gidx

/-- A change of a path that keeps its index. -/
def KeepsIdx (f : Path → Path) : Prop := ∀ p, (f p).idx = p.idx

/-! Blocks. -/

theorem findBlock_modBlock_self (uid : Nat) (f : Block → Block) (s : State) (h : KeepsUid f) :
    findBlock (modBlock uid f s) uid = (findBlock s uid).map f :=
  find?_modFirst_self _ _ _ fun x hx => by simpa [h x] using hx

theorem findBlock_modBlock_other (uid v : Nat) (f : Block → Block) (s : State) (h : KeepsUid f) (hv : v ≠ uid) :
    findBlock (modBlock uid f s) v = findBlock s v :=
  find?_modFirst_other _ _ _ _ fun x hx => by
    have : x.uid = uid := by simpa using hx
    simp [h x, this, Ne.symm hv]

/-- The changed block, when it exists. -/
theorem getBlock_modBlock_self (uid : Nat) (f : Block → Block) (s : State) (h : KeepsUid f) (hb : (findBlock s uid).isSome) :
    getBlock (modBlock uid f s) uid = f (getBlock s uid) := by
  obtain ⟨b, hb⟩ := Option.isSome_iff_exists.1 hb
  simp [getBlock, findBlock_modBlock_self uid f s h, hb]

theorem getBlock_modBlock_other (uid v : Nat) (f : Block → Block) (s : State) (h : KeepsUid f) (hv : v ≠ uid) :
    getBlock (modBlock uid f s) v = getBlock s v := by
  simp [getBlock, findBlock_modBlock_other uid v f s h hv]

theorem findBlock_modBlock_isSome (uid v : Nat) (f : Block → Block) (s : State) (h : KeepsUid f) :
    (findBlock (modBlock uid f s) v).isSome = (findBlock s v).isSome := by
  by_cases hv : v = uid
  · subst hv
    simp [findBlock_modBlock_self v f s h]
  · rw [findBlock_modBlock_other uid v f s h hv]

/-- A field of a block that the change keeps. -/
theorem getBlock_modBlock_field {α : Type} (p : Block → α) (uid v : Nat) (f : Block → Block) (s : State) (h : KeepsUid f)
    (hp : ∀ b, p (f b) = p b) : p (getBlock (modBlock uid f s) v) = p (getBlock s v) := by
  by_cases hv : v = uid
  · subst hv
    simp only [getBlock, findBlock_modBlock_self v f s h]
    cases findBlock s v <;> simp [hp]
  · rw [getBlock_modBlock_other uid v f s h hv]

/-! Groups. -/

theorem keepsUid_groups (g : Nat) (f : Group → Group) :
    KeepsUid (fun b => { b with groups := modFirst (fun x => x.gidx == g) f b.groups }) := fun _ => rfl

theorem findGroup_modFirst_self (g : Nat) (f : Group → Group) (b : Block) (h : KeepsGidx f) :
    findGroup { b with groups := modFirst (fun x => x.gidx == g) f b.groups } g = (findGroup b g).map f :=
  find?_modFirst_self _ _ _ fun x hx => by simpa [h x] using hx

theorem findGroup_modFirst_other (g k : Nat) (f : Group → Group) (b : Block) (h : KeepsGidx f) (hk : k ≠ g) :
    findGroup { b with groups := modFirst (fun x => x.gidx == g) f b.groups } k = findGroup b k :=
  find?_modFirst_other _ _ _ _ fun x hx => by
    have : x.gidx = g := by simpa using hx
    simp [h x, this, Ne.symm hk]

/-- A group exists. -/
def hasGroup (s : State) (uid g : Nat) : Bool := (findBlock s uid).any fun b => (findGroup b g).isSome

theorem hasGroup_block (s : State) (uid g : Nat) (h : hasGroup s uid g = true) : (findBlock s uid).isSome := by
  cases hb : findBlock s uid with
  | none => simp [hasGroup, hb] at h
  | some b => rfl

theorem hasGroup_find (s : State) (uid g : Nat) (h : hasGroup s uid g = true) : (findGroup (getBlock s uid) g).isSome := by
  cases hb : findBlock s uid with
  | none => simp [hasGroup, hb] at h
  | some b => simpa [hasGroup, hb, getBlock] using h

/-- The changed group, when it exists. -/
theorem getGroup_modGroup_self (uid g : Nat) (f : Group → Group) (s : State) (h : KeepsGidx f) (hg : hasGroup s uid g = true) :
    getGroup (modGroup uid g f s) uid g = f (getGroup s uid g) := by
  obtain ⟨x, hx⟩ := Option.isSome_iff_exists.1 (hasGroup_find s uid g hg)
  unfold getGroup modGroup
  rw [getBlock_modBlock_self uid _ s (keepsUid_groups g f) (hasGroup_block s uid g hg), findGroup_modFirst_self g f _ h, hx]
  rfl

theorem getGroup_modGroup_other (uid g v k : Nat) (f : Group → Group) (s : State) (h : KeepsGidx f) (hv : v ≠ uid ∨ k ≠ g) :
    getGroup (modGroup uid g f s) v k = getGroup s v k := by
  unfold getGroup modGroup
  by_cases hu : v = uid
  · subst hu
    have hk : k ≠ g := by simpa using hv
    simp only [getBlock, findBlock_modBlock_self v _ s (keepsUid_groups g f)]
    cases findBlock s v with
    | none => rfl
    | some b => simp [findGroup_modFirst_other g k f b h hk]
  · rw [getBlock_modBlock_other uid v _ s (keepsUid_groups g f) hu]

/-- A field of a group that the change keeps. -/
theorem getGroup_modGroup_field {α : Type} (p : Group → α) (uid g v k : Nat) (f : Group → Group) (s : State) (h : KeepsGidx f)
    (hp : ∀ x, p (f x) = p x) : p (getGroup (modGroup uid g f s) v k) = p (getGroup s v k) := by
  by_cases hv : v ≠ uid ∨ k ≠ g
  · rw [getGroup_modGroup_other uid g v k f s h hv]
  · obtain ⟨rfl, rfl⟩ : v = uid ∧ k = g := by simpa using hv
    unfold getGroup modGroup
    simp only [getBlock, findBlock_modBlock_self v _ s (keepsUid_groups k f)]
    cases findBlock s v with
    | none => rfl
    | some b =>
      simp only [Option.map_some, Option.getD_some]
      rw [findGroup_modFirst_self k f b h]
      cases findGroup b k <;> simp [hp]

theorem hasGroup_modGroup (uid g v k : Nat) (f : Group → Group) (s : State) (h : KeepsGidx f) :
    hasGroup (modGroup uid g f s) v k = hasGroup s v k := by
  unfold hasGroup modGroup
  by_cases hu : v = uid
  · subst hu
    simp only [findBlock_modBlock_self v _ s (keepsUid_groups g f)]
    cases findBlock s v with
    | none => rfl
    | some b =>
      by_cases hk : k = g
      · subst hk
        simp [findGroup_modFirst_self k f b h]
      · simp [findGroup_modFirst_other g k f b h hk]
  · rw [findBlock_modBlock_other uid v _ s (keepsUid_groups g f) hu]

/-- What a change of a group leaves of every block but its groups. -/
theorem getBlock_modGroup_field {α : Type} (p : Block → α) (uid g v : Nat) (f : Group → Group) (s : State)
    (hp : ∀ b l, p { b with groups := l } = p b) : p (getBlock (modGroup uid g f s) v) = p (getBlock s v) :=
  getBlock_modBlock_field p uid v _ s (keepsUid_groups g f) fun b => hp b _

/-! Paths. -/

theorem keepsGidx_modPathIn (p : Nat) (f : Path → Path) : KeepsGidx (modPathIn p f) := fun _ => rfl

theorem findPath_modPathIn_self (p : Nat) (f : Path → Path) (g : Group) (h : KeepsIdx f) :
    findPath (modPathIn p f g) p = (findPath g p).map f :=
  find?_modFirst_self _ _ _ fun x hx => by simpa [h x] using hx

theorem findPath_modPathIn_other (p q : Nat) (f : Path → Path) (g : Group) (h : KeepsIdx f) (hq : q ≠ p) :
    findPath (modPathIn p f g) q = findPath g q :=
  find?_modFirst_other _ _ _ _ fun x hx => by
    have : x.idx = p := by simpa using hx
    simp [h x, this, Ne.symm hq]

theorem getPath_modPathIn_self (p : Nat) (f : Path → Path) (g : Group) (h : KeepsIdx f) (hp : (findPath g p).isSome) :
    getPath (modPathIn p f g) p = f (getPath g p) := by
  obtain ⟨x, hx⟩ := Option.isSome_iff_exists.1 hp
  simp [getPath, findPath_modPathIn_self p f g h, hx]

theorem getPath_modPathIn_other (p q : Nat) (f : Path → Path) (g : Group) (h : KeepsIdx f) (hq : q ≠ p) :
    getPath (modPathIn p f g) q = getPath g q := by
  simp [getPath, findPath_modPathIn_other p q f g h hq]

/-- A field of a path that the change keeps. -/
theorem getPath_modPathIn_field {α : Type} (r : Path → α) (p q : Nat) (f : Path → Path) (g : Group) (h : KeepsIdx f)
    (hr : ∀ x, r (f x) = r x) : r (getPath (modPathIn p f g) q) = r (getPath g q) := by
  by_cases hq : q = p
  · subst hq
    simp only [getPath, findPath_modPathIn_self q f g h]
    cases findPath g q <;> simp [hr]
  · rw [getPath_modPathIn_other p q f g h hq]

theorem findPath_modPathIn_isSome (p q : Nat) (f : Path → Path) (g : Group) (h : KeepsIdx f) :
    (findPath (modPathIn p f g) q).isSome = (findPath g q).isSome := by
  by_cases hq : q = p
  · subst hq
    simp [findPath_modPathIn_self q f g h]
  · rw [findPath_modPathIn_other p q f g h hq]

/-- A path exists. -/
def hasPath (s : State) (w : Who) : Bool :=
  hasGroup s w.uid w.gidx && (findPath (getGroup s w.uid w.gidx) w.pidx).isSome

/-- The changed path, when it exists. -/
theorem pathOf_modPath_self (w : Who) (f : Path → Path) (s : State) (h : KeepsIdx f) (hw : hasPath s w = true) :
    pathOf (modPath w f s) w = f (pathOf s w) := by
  obtain ⟨hg, hp⟩ := (Bool.and_eq_true _ _).mp hw
  unfold pathOf modPath
  rw [getGroup_modGroup_self _ _ _ s (keepsGidx_modPathIn _ _) hg, getPath_modPathIn_self _ _ _ h hp]

theorem pathOf_modPath_other (w v : Who) (f : Path → Path) (s : State) (h : KeepsIdx f) (hv : v ≠ w) :
    pathOf (modPath w f s) v = pathOf s v := by
  unfold pathOf modPath
  by_cases hg : v.uid ≠ w.uid ∨ v.gidx ≠ w.gidx
  · rw [getGroup_modGroup_other _ _ _ _ _ s (keepsGidx_modPathIn _ _) hg]
  · obtain ⟨h1, h2⟩ : v.uid = w.uid ∧ v.gidx = w.gidx := by simpa using hg
    have hp : v.pidx ≠ w.pidx := fun h3 => hv (by cases v; cases w; simp_all)
    by_cases hx : hasGroup s w.uid w.gidx = true
    · rw [h1, h2, getGroup_modGroup_self _ _ _ s (keepsGidx_modPathIn _ _) hx, getPath_modPathIn_other _ _ _ _ h hp]
    · have : getGroup (modGroup w.uid w.gidx (modPathIn w.pidx f) s) v.uid v.gidx = getGroup s v.uid v.gidx := by
        rw [h1, h2]
        have hx' : hasGroup (modGroup w.uid w.gidx (modPathIn w.pidx f) s) w.uid w.gidx = hasGroup s w.uid w.gidx :=
          hasGroup_modGroup _ _ _ _ _ s (keepsGidx_modPathIn _ _)
        have none_of (t : State) (ht : ¬hasGroup t w.uid w.gidx = true) : getGroup t w.uid w.gidx = blankGroup := by
          unfold getGroup getBlock
          cases hb : findBlock t w.uid with
          | none => rfl
          | some b =>
            cases hgp : findGroup b w.gidx with
            | none => simp [hgp]
            | some x => simp [hasGroup, hb, hgp] at ht
        rw [none_of _ (by rw [hx']; exact hx), none_of _ hx]
      rw [this]

end Sys2Proof.Machine
end

