-- ==== Sys2Proof/Laws/Memory.lean ====
section
/-! SUPPORT. Physical memory, scratchpads and the weight store: canonical form, a read after a write, and what a write leaves alone. -/

namespace Sys2Proof.Machine

theorem wf_reset : Memory.wf State.reset.mem = true := rfl

theorem wf_physByte (w : Option Place) (pa : Nat) (b : Byte) (s : State) (h : Memory.wf s.mem = true) :
    Memory.wf (physByte w pa b s).mem = true := swf_sset 0 pa b s.mem h

theorem wf_physBytesSet (w : Option Place) (pa : Nat) (l : List Byte) (s : State) (h : Memory.wf s.mem = true) :
    Memory.wf (physBytesSet w pa l s).mem = true := by
  induction l generalizing pa s with
  | nil => exact h
  | cons b l ih => exact ih _ _ (wf_physByte w pa b s h)

theorem wf_physWrite (w : Option Place) (pa : Nat) (l : List Byte) (s : State) (h : Memory.wf s.mem = true) :
    Memory.wf (physWrite w pa l s).mem = true := wf_physBytesSet w pa l _ h

theorem wf_physPut (w : Option Place) (pa n x : Nat) (s : State) (h : Memory.wf s.mem = true) :
    Memory.wf (physPut w pa n x s).mem = true := wf_physWrite w pa _ s h

/-- The memory after a write of bytes, as a map. -/
theorem mem_physBytesSet (w : Option Place) (pa : Nat) (l : List Byte) (s : State) :
    (physBytesSet w pa l s).mem = ssetN 0 pa l s.mem := by
  induction l generalizing pa s with
  | nil => rfl
  | cons b l ih => exact ih _ _

theorem mem_physWrite (w : Option Place) (pa : Nat) (l : List Byte) (s : State) :
    (physWrite w pa l s).mem = ssetN 0 pa l s.mem := mem_physBytesSet w pa l _

/-- A read after a write of the same bytes. -/
theorem physBytes_physWrite (w : Option Place) (pa : Nat) (l : List Byte) (s : State) (h : Memory.wf s.mem = true) :
    physBytes (physWrite w pa l s) pa l.length = l := by
  rw [physBytes, mem_physWrite]
  exact sgetN_ssetN 0 pa l s.mem h

/-- A write leaves every byte outside it alone. -/
theorem physWrite_out (w : Option Place) (pa a : Nat) (l : List Byte) (s : State) (h : Memory.wf s.mem = true)
    (ha : a < pa ∨ pa + l.length ≤ a) : sget 0 (physWrite w pa l s).mem a = sget 0 s.mem a := by
  rw [mem_physWrite]
  exact sget_ssetN_out 0 pa a l s.mem h ha

theorem physRead_physPut (w : Option Place) (pa n x : Nat) (s : State) (h : Memory.wf s.mem = true) :
    physRead (physPut w pa n x s) pa n = x % 256 ^ n := by
  have := physBytes_physWrite w pa (toBytes n x) s h
  rw [length_toBytes] at this
  rw [physRead, physPut, this, ofBytes_toBytes]

/-- What a write of bytes changes: memory, stale lines and links. -/
theorem physBytesSet_frame (w : Option Place) (pa : Nat) (l : List Byte) (s : State) :
    physBytesSet w pa l s = { s with mem := (physBytesSet w pa l s).mem, stale := (physBytesSet w pa l s).stale } := by
  induction l generalizing pa s with
  | nil => rfl
  | cons b l ih =>
    rw [physBytesSet, ih]
    rfl

/-- What a write to memory changes, the record of what stood there included. -/
theorem physWrite_frame (w : Option Place) (pa : Nat) (l : List Byte) (s : State) :
    physWrite w pa l s =
      { notePast .phys (sget 0 s.mem) pa l.length s with
        mem := ssetN 0 pa l s.mem, stale := (physWrite w pa l s).stale, links := breakGlob pa l.length s.links } := by
  have h := physBytesSet_frame w pa l (notePast .phys (sget 0 s.mem) pa l.length s)
  rw [mem_physBytesSet] at h
  unfold physWrite
  simp only
  rw [h]
  rfl

/-- What a record of the past adds: one byte for each place, all at the stamp of the write. -/
theorem notePast_frame (at_ : Nat → Target) (val : Nat → Byte) (off n : Nat) (s : State) :
    notePast at_ val off n s = { s with past := (notePast at_ val off n s).past, stamp := s.stamp + stampGap } := rfl

/-! Scratchpads and the weight store. -/

theorem getBlock_spadWrite (uid off : Nat) (l : List Byte) (s : State) (h : (findBlock s uid).isSome) :
    getBlock (spadWrite uid off l s) uid = { getBlock s uid with spad := ssetN 0 off l (getBlock s uid).spad } :=
  getBlock_modBlock_self uid _ (notePast (.spad uid) (sget 0 (getBlock s uid).spad) off l.length s) (fun _ => rfl) h

theorem getBlock_spadWrite_other (uid v off : Nat) (l : List Byte) (s : State) (h : v ≠ uid) :
    getBlock (spadWrite uid off l s) v = getBlock s v :=
  getBlock_modBlock_other uid v _ (notePast (.spad uid) (sget 0 (getBlock s uid).spad) off l.length s) (fun _ => rfl) h

/-- A scratchpad read after a write of the same bytes. -/
theorem spad_read_write (uid off : Nat) (l : List Byte) (s : State) (h : (findBlock s uid).isSome)
    (hw : swf 0 (getBlock s uid).spad = true) : sgetN 0 (getBlock (spadWrite uid off l s) uid).spad off l.length = l := by
  rw [getBlock_spadWrite uid off l s h]
  exact sgetN_ssetN 0 off l _ hw

theorem mem_spadWrite (uid off : Nat) (l : List Byte) (s : State) : (spadWrite uid off l s).mem = s.mem := rfl

theorem mem_cellarWrite (die off : Nat) (l : List Byte) (s : State) : (cellarWrite die off l s).mem = s.mem := rfl

/-- A weight-store read after a write of the same bytes. -/
theorem cellar_read_write (die off : Nat) (l : List Byte) (s : State) (h : die < 4) (hw : swf 0 (vget s.cellar die) = true) :
    sgetN 0 (vget (cellarWrite die off l s).cellar die) off l.length = l := by
  unfold cellarWrite
  simp only
  rw [vget_vset_self _ _ _ h]
  exact sgetN_ssetN 0 off l _ hw

end Sys2Proof.Machine
end

