-- ==== Sys2Proof/Laws/PerInstr.lean ====
section
/-! SUPPORT. The round trip of every instruction: its words decode to it (R217, R218, R224 to R228). A word is a list of fields
of given widths, least significant first; each field is read back where it lies. -/

namespace Sys2Proof.Laws

open Sys2Proof

set_option linter.unusedSimpArgs false

theorem fld_eq {w lo n : Nat} {x : BitVec n} (h : w / 2 ^ lo % 2 ^ n = x.toNat) : fld w lo n = x := by
  apply BitVec.eq_of_toNat_eq; simpa [fld] using h

theorem bit_eq {w k : Nat} {e : Bool} (h : w / 2 ^ k % 2 ^ 1 = e.toNat) : bit w k = e := by
  cases e <;> simp_all [bit]

theorem eBit_eq (e : Bool) : eBit e = e.toNat * 2 ^ 31 := by cases e <;> rfl

/-- A number laid out as fields of given widths and values, the first at bit 0. -/
def pack : List Nat → List Nat → Nat
  | n :: ws, v :: vs => v + 2 ^ n * pack ws vs
  | _, _ => 0

/-- Every value is below two to its width. -/
def Fits : List Nat → List Nat → Prop
  | n :: ws, v :: vs => v < 2 ^ n ∧ Fits ws vs
  | _, _ => True

/-- The bit where field k begins. -/
def offOf (ws : List Nat) (k : Nat) : Nat := (ws.take k).sum

theorem pack_get (ws vs : List Nat) (h : Fits ws vs) (k : Nat) (hl : ws.length = vs.length) :
    pack ws vs / 2 ^ offOf ws k % 2 ^ ws.getD k 0 = vs.getD k 0 := by
  induction ws generalizing k vs with
  | nil => cases vs <;> simp_all [pack, offOf, Nat.mod_one]
  | cons n ws ih =>
    cases vs with
    | nil => simp at hl
    | cons v vs =>
      cases k with
      | zero => simp [pack, offOf, Nat.add_mod, Nat.mod_eq_of_lt h.1]
      | succ k =>
        have := ih vs h.2 k (by simpa using hl)
        simp only [offOf] at this
        simp only [pack, offOf, List.take_succ_cons, List.sum_cons, List.getD_cons_succ]
        rw [Nat.pow_add, ← Nat.div_div_eq_div_mul, Nat.add_mul_div_left _ _ (Nat.two_pow_pos n), Nat.div_eq_of_lt h.1, Nat.zero_add]
        exact this

theorem pack_lt (ws vs : List Nat) (h : Fits ws vs) : pack ws vs < 2 ^ ws.sum := by
  induction ws generalizing vs with
  | nil => simp [pack]
  | cons n ws ih =>
    cases vs with
    | nil => simpa [pack] using Nat.two_pow_pos (n + ws.sum)
    | cons v vs =>
      have h1 := h.1
      have h2 := ih vs h.2
      simp only [pack, List.sum_cons, Nat.pow_add]
      calc v + 2 ^ n * pack ws vs < 2 ^ n + 2 ^ n * pack ws vs := by omega
        _ = 2 ^ n * (pack ws vs + 1) := by rw [Nat.mul_add, Nat.mul_one, Nat.add_comm]
        _ ≤ 2 ^ n * 2 ^ ws.sum := Nat.mul_le_mul_left _ h2

/-- Field k of a word that is laid out as `ws` and `vs`. -/
theorem pk {ws vs : List Nat} {w : Nat} (hw : w = pack ws vs ∧ ws.length = vs.length) (h : Fits ws vs) (k : Nat) {o n v : Nat}
    (ho : offOf ws k = o) (hn : ws.getD k 0 = n) (hv : vs.getD k 0 = v) : w / 2 ^ o % 2 ^ n = v := by
  subst ho hn hv; rw [hw.1]; exact pack_get ws vs h k hw.2

theorem pk0 {ws vs : List Nat} {w : Nat} (hw : w = pack ws vs ∧ ws.length = vs.length) (h : Fits ws vs) {n v : Nat}
    (hn : ws.getD 0 0 = n) (hv : vs.getD 0 0 = v) : w % 2 ^ n = v := by
  simpa [offOf] using pk hw h 0 rfl hn hv

theorem pkw {ws vs : List Nat} {w : Nat} (hw : w = pack ws vs ∧ ws.length = vs.length) (h : Fits ws vs) {o : Nat}
    (ho : ws.sum = o) : w % 2 ^ o = w := by
  subst ho; rw [hw.1]; exact Nat.mod_eq_of_lt (pack_lt ws vs h)

/-- An instruction's words decode to the instruction (R217, R224). -/
def RoundTrip.Statement (i : Instr) : Prop := i.hasWord = true → i.wf = true → decode (encode i) = .ok i

theorem short_00 {w : Nat} (h : w / 2 ^ 24 % 2 ^ 7 = 0) : decode w = decMajor00 (w % 2 ^ 32) := by
  have h' : w % 2 ^ 32 / 2 ^ 24 % 2 ^ 7 = 0 := by omega
  unfold decode decodeShort; rw [h, h']; rfl

theorem short_01 {w : Nat} (h : w / 2 ^ 24 % 2 ^ 7 = 1) : decode w = decMajor01 (w % 2 ^ 32) := by
  have h' : w % 2 ^ 32 / 2 ^ 24 % 2 ^ 7 = 1 := by omega
  unfold decode decodeShort; rw [h, h']; rfl

theorem short_02 {w : Nat} (h : w / 2 ^ 24 % 2 ^ 7 = 2) : decode w = decMajor02 (w % 2 ^ 32) := by
  have h' : w % 2 ^ 32 / 2 ^ 24 % 2 ^ 7 = 2 := by omega
  unfold decode decodeShort; rw [h, h']; rfl

theorem short_03 {w : Nat} (h : w / 2 ^ 24 % 2 ^ 7 = 3) : decode w = decMajor03 (w % 2 ^ 32) := by
  have h' : w % 2 ^ 32 / 2 ^ 24 % 2 ^ 7 = 3 := by omega
  unfold decode decodeShort; rw [h, h']; rfl

theorem short_04 {w : Nat} (h : w / 2 ^ 24 % 2 ^ 7 = 4) : decode w = decMajor04 (w % 2 ^ 32) := by
  have h' : w % 2 ^ 32 / 2 ^ 24 % 2 ^ 7 = 4 := by omega
  unfold decode decodeShort; rw [h, h']; rfl

theorem short_05 {w : Nat} (h : w / 2 ^ 24 % 2 ^ 7 = 5) : decode w = decMajor05 (w % 2 ^ 32) := by
  have h' : w % 2 ^ 32 / 2 ^ 24 % 2 ^ 7 = 5 := by omega
  unfold decode decodeShort; rw [h, h']; rfl

theorem short_06 {w : Nat} (h : w / 2 ^ 24 % 2 ^ 7 = 6) : decode w = decMajor06 (w % 2 ^ 32) := by
  have h' : w % 2 ^ 32 / 2 ^ 24 % 2 ^ 7 = 6 := by omega
  unfold decode decodeShort; rw [h, h']; rfl

theorem short_07 {w : Nat} (h : w / 2 ^ 24 % 2 ^ 7 = 7) : decode w = decMajor07 (w % 2 ^ 32) := by
  have h' : w % 2 ^ 32 / 2 ^ 24 % 2 ^ 7 = 7 := by omega
  unfold decode decodeShort; rw [h, h']; rfl

theorem short_08 {w : Nat} (h : w / 2 ^ 24 % 2 ^ 7 = 8) : decode w = decMajor08 (w % 2 ^ 32) := by
  have h' : w % 2 ^ 32 / 2 ^ 24 % 2 ^ 7 = 8 := by omega
  unfold decode decodeShort; rw [h, h']; rfl

theorem short_09 {w : Nat} (h : w / 2 ^ 24 % 2 ^ 7 = 9) : decode w = decMajor09 (w % 2 ^ 32) := by
  have h' : w % 2 ^ 32 / 2 ^ 24 % 2 ^ 7 = 9 := by omega
  unfold decode decodeShort; rw [h, h']; rfl

theorem short_0A {w : Nat} (h : w / 2 ^ 24 % 2 ^ 7 = 10) : decode w = decMajor0A (w % 2 ^ 32) := by
  have h' : w % 2 ^ 32 / 2 ^ 24 % 2 ^ 7 = 10 := by omega
  unfold decode decodeShort; rw [h, h']; rfl

theorem short_20 {w : Nat} (h : w / 2 ^ 24 % 2 ^ 7 = 32) : decode w = decMajor20 (w % 2 ^ 32) := by
  have h' : w % 2 ^ 32 / 2 ^ 24 % 2 ^ 7 = 32 := by omega
  unfold decode decodeShort; rw [h, h']; rfl

theorem short_21 {w : Nat} (h : w / 2 ^ 24 % 2 ^ 7 = 33) : decode w = decMajor21 (w % 2 ^ 32) := by
  have h' : w % 2 ^ 32 / 2 ^ 24 % 2 ^ 7 = 33 := by omega
  unfold decode decodeShort; rw [h, h']; rfl

theorem short_22 {w : Nat} (h : w / 2 ^ 24 % 2 ^ 7 = 34) : decode w = decMajor22 (w % 2 ^ 32) := by
  have h' : w % 2 ^ 32 / 2 ^ 24 % 2 ^ 7 = 34 := by omega
  unfold decode decodeShort; rw [h, h']; rfl

theorem short_23 {w : Nat} (h : w / 2 ^ 24 % 2 ^ 7 = 35) : decode w = decMajor23 (w % 2 ^ 32) := by
  have h' : w % 2 ^ 32 / 2 ^ 24 % 2 ^ 7 = 35 := by omega
  unfold decode decodeShort; rw [h, h']; rfl

theorem short_24 {w : Nat} (h : w / 2 ^ 24 % 2 ^ 7 = 36) : decode w = decMajor24 (w % 2 ^ 32) := by
  have h' : w % 2 ^ 32 / 2 ^ 24 % 2 ^ 7 = 36 := by omega
  unfold decode decodeShort; rw [h, h']; rfl

theorem short_25 {w : Nat} (h : w / 2 ^ 24 % 2 ^ 7 = 37) : decode w = decMajor25 (w % 2 ^ 32) := by
  have h' : w % 2 ^ 32 / 2 ^ 24 % 2 ^ 7 = 37 := by omega
  unfold decode decodeShort; rw [h, h']; rfl

theorem short_26 {w : Nat} (h : w / 2 ^ 24 % 2 ^ 7 = 38) : decode w = decMajor26 (w % 2 ^ 32) := by
  have h' : w % 2 ^ 32 / 2 ^ 24 % 2 ^ 7 = 38 := by omega
  unfold decode decodeShort; rw [h, h']; rfl

theorem short_27 {w : Nat} (h : w / 2 ^ 24 % 2 ^ 7 = 39) : decode w = decMajor27 (w % 2 ^ 32) := by
  have h' : w % 2 ^ 32 / 2 ^ 24 % 2 ^ 7 = 39 := by omega
  unfold decode decodeShort; rw [h, h']; rfl

theorem short_28 {w : Nat} (h : w / 2 ^ 24 % 2 ^ 7 = 40) : decode w = decMajor28 (w % 2 ^ 32) := by
  have h' : w % 2 ^ 32 / 2 ^ 24 % 2 ^ 7 = 40 := by omega
  unfold decode decodeShort; rw [h, h']; rfl

theorem short_29 {w : Nat} (h : w / 2 ^ 24 % 2 ^ 7 = 41) : decode w = decMajor29 (w % 2 ^ 32) := by
  have h' : w % 2 ^ 32 / 2 ^ 24 % 2 ^ 7 = 41 := by omega
  unfold decode decodeShort; rw [h, h']; rfl

theorem short_2A {w : Nat} (h : w / 2 ^ 24 % 2 ^ 7 = 42) : decode w = decMajor2A (w % 2 ^ 32) := by
  have h' : w % 2 ^ 32 / 2 ^ 24 % 2 ^ 7 = 42 := by omega
  unfold decode decodeShort; rw [h, h']; rfl

theorem short_2B {w : Nat} (h : w / 2 ^ 24 % 2 ^ 7 = 43) : decode w = decMajor2B (w % 2 ^ 32) := by
  have h' : w % 2 ^ 32 / 2 ^ 24 % 2 ^ 7 = 43 := by omega
  unfold decode decodeShort; rw [h, h']; rfl

theorem short_2C {w : Nat} (h : w / 2 ^ 24 % 2 ^ 7 = 44) : decode w = decMajor2C (w % 2 ^ 32) := by
  have h' : w % 2 ^ 32 / 2 ^ 24 % 2 ^ 7 = 44 := by omega
  unfold decode decodeShort; rw [h, h']; rfl

theorem short_30 {w : Nat} (h : w / 2 ^ 24 % 2 ^ 7 = 48) : decode w = decMajor30 (w % 2 ^ 32) := by
  have h' : w % 2 ^ 32 / 2 ^ 24 % 2 ^ 7 = 48 := by omega
  unfold decode decodeShort; rw [h, h']; rfl

theorem short_31 {w : Nat} (h : w / 2 ^ 24 % 2 ^ 7 = 49) : decode w = decMajor31 (w % 2 ^ 32) := by
  have h' : w % 2 ^ 32 / 2 ^ 24 % 2 ^ 7 = 49 := by omega
  unfold decode decodeShort; rw [h, h']; rfl

theorem short_32 {w : Nat} (h : w / 2 ^ 24 % 2 ^ 7 = 50) : decode w = decMajor32 (w % 2 ^ 32) := by
  have h' : w % 2 ^ 32 / 2 ^ 24 % 2 ^ 7 = 50 := by omega
  unfold decode decodeShort; rw [h, h']; rfl

theorem short_33 {w : Nat} (h : w / 2 ^ 24 % 2 ^ 7 = 51) : decode w = decMajor33 (w % 2 ^ 32) := by
  have h' : w % 2 ^ 32 / 2 ^ 24 % 2 ^ 7 = 51 := by omega
  unfold decode decodeShort; rw [h, h']; rfl

theorem short_34 {w : Nat} (h : w / 2 ^ 24 % 2 ^ 7 = 52) : decode w = decMajor34 (w % 2 ^ 32) := by
  have h' : w % 2 ^ 32 / 2 ^ 24 % 2 ^ 7 = 52 := by omega
  unfold decode decodeShort; rw [h, h']; rfl

theorem short_35 {w : Nat} (h : w / 2 ^ 24 % 2 ^ 7 = 53) : decode w = decMajor35 (w % 2 ^ 32) := by
  have h' : w % 2 ^ 32 / 2 ^ 24 % 2 ^ 7 = 53 := by omega
  unfold decode decodeShort; rw [h, h']; rfl

theorem short_36 {w : Nat} (h : w / 2 ^ 24 % 2 ^ 7 = 54) : decode w = decMajor36 (w % 2 ^ 32) := by
  have h' : w % 2 ^ 32 / 2 ^ 24 % 2 ^ 7 = 54 := by omega
  unfold decode decodeShort; rw [h, h']; rfl

theorem short_37 {w : Nat} (h : w / 2 ^ 24 % 2 ^ 7 = 55) : decode w = decMajor37 (w % 2 ^ 32) := by
  have h' : w % 2 ^ 32 / 2 ^ 24 % 2 ^ 7 = 55 := by omega
  unfold decode decodeShort; rw [h, h']; rfl

theorem short_38 {w : Nat} (h : w / 2 ^ 24 % 2 ^ 7 = 56) : decode w = decMajor38 (w % 2 ^ 32) := by
  have h' : w % 2 ^ 32 / 2 ^ 24 % 2 ^ 7 = 56 := by omega
  unfold decode decodeShort; rw [h, h']; rfl

theorem short_39 {w : Nat} (h : w / 2 ^ 24 % 2 ^ 7 = 57) : decode w = decMajor39 (w % 2 ^ 32) := by
  have h' : w % 2 ^ 32 / 2 ^ 24 % 2 ^ 7 = 57 := by omega
  unfold decode decodeShort; rw [h, h']; rfl

theorem short_3A {w : Nat} (h : w / 2 ^ 24 % 2 ^ 7 = 58) : decode w = decMajor3A (w % 2 ^ 32) := by
  have h' : w % 2 ^ 32 / 2 ^ 24 % 2 ^ 7 = 58 := by omega
  unfold decode decodeShort; rw [h, h']; rfl

theorem short_3B {w : Nat} (h : w / 2 ^ 24 % 2 ^ 7 = 59) : decode w = decMajor3B (w % 2 ^ 32) := by
  have h' : w % 2 ^ 32 / 2 ^ 24 % 2 ^ 7 = 59 := by omega
  unfold decode decodeShort; rw [h, h']; rfl

theorem short_3C {w : Nat} (h : w / 2 ^ 24 % 2 ^ 7 = 60) : decode w = decMajor3C (w % 2 ^ 32) := by
  have h' : w % 2 ^ 32 / 2 ^ 24 % 2 ^ 7 = 60 := by omega
  unfold decode decodeShort; rw [h, h']; rfl

theorem short_3D {w : Nat} (h : w / 2 ^ 24 % 2 ^ 7 = 61) : decode w = decMajor3D (w % 2 ^ 32) := by
  have h' : w % 2 ^ 32 / 2 ^ 24 % 2 ^ 7 = 61 := by omega
  unfold decode decodeShort; rw [h, h']; rfl

theorem short_3E {w : Nat} (h : w / 2 ^ 24 % 2 ^ 7 = 62) : decode w = decMajor3E (w % 2 ^ 32) := by
  have h' : w % 2 ^ 32 / 2 ^ 24 % 2 ^ 7 = 62 := by omega
  unfold decode decodeShort; rw [h, h']; rfl

theorem short_3F {w : Nat} (h : w / 2 ^ 24 % 2 ^ 7 = 63) : decode w = decMajor3F (w % 2 ^ 32) := by
  have h' : w % 2 ^ 32 / 2 ^ 24 % 2 ^ 7 = 63 := by omega
  unfold decode decodeShort; rw [h, h']; rfl

theorem short_40 {w : Nat} (h : w / 2 ^ 24 % 2 ^ 7 = 64) : decode w = decMajor40 (w % 2 ^ 32) := by
  have h' : w % 2 ^ 32 / 2 ^ 24 % 2 ^ 7 = 64 := by omega
  unfold decode decodeShort; rw [h, h']; rfl

theorem short_41 {w : Nat} (h : w / 2 ^ 24 % 2 ^ 7 = 65) : decode w = decMajor41 (w % 2 ^ 32) := by
  have h' : w % 2 ^ 32 / 2 ^ 24 % 2 ^ 7 = 65 := by omega
  unfold decode decodeShort; rw [h, h']; rfl

theorem short_42 {w : Nat} (h : w / 2 ^ 24 % 2 ^ 7 = 66) : decode w = decMajor42 (w % 2 ^ 32) := by
  have h' : w % 2 ^ 32 / 2 ^ 24 % 2 ^ 7 = 66 := by omega
  unfold decode decodeShort; rw [h, h']; rfl

theorem short_43 {w : Nat} (h : w / 2 ^ 24 % 2 ^ 7 = 67) : decode w = decMajor43 (w % 2 ^ 32) := by
  have h' : w % 2 ^ 32 / 2 ^ 24 % 2 ^ 7 = 67 := by omega
  unfold decode decodeShort; rw [h, h']; rfl

theorem short_44 {w : Nat} (h : w / 2 ^ 24 % 2 ^ 7 = 68) : decode w = decMajor44 (w % 2 ^ 32) := by
  have h' : w % 2 ^ 32 / 2 ^ 24 % 2 ^ 7 = 68 := by omega
  unfold decode decodeShort; rw [h, h']; rfl

theorem short_45 {w : Nat} (h : w / 2 ^ 24 % 2 ^ 7 = 69) : decode w = decMajor45 (w % 2 ^ 32) := by
  have h' : w % 2 ^ 32 / 2 ^ 24 % 2 ^ 7 = 69 := by omega
  unfold decode decodeShort; rw [h, h']; rfl

theorem short_46 {w : Nat} (h : w / 2 ^ 24 % 2 ^ 7 = 70) : decode w = decMajor46 (w % 2 ^ 32) := by
  have h' : w % 2 ^ 32 / 2 ^ 24 % 2 ^ 7 = 70 := by omega
  unfold decode decodeShort; rw [h, h']; rfl

theorem short_47 {w : Nat} (h : w / 2 ^ 24 % 2 ^ 7 = 71) : decode w = decMajor47 (w % 2 ^ 32) := by
  have h' : w % 2 ^ 32 / 2 ^ 24 % 2 ^ 7 = 71 := by omega
  unfold decode decodeShort; rw [h, h']; rfl

theorem short_48 {w : Nat} (h : w / 2 ^ 24 % 2 ^ 7 = 72) : decode w = decMajor48 (w % 2 ^ 32) := by
  have h' : w % 2 ^ 32 / 2 ^ 24 % 2 ^ 7 = 72 := by omega
  unfold decode decodeShort; rw [h, h']; rfl

theorem short_49 {w : Nat} (h : w / 2 ^ 24 % 2 ^ 7 = 73) : decode w = decMajor49 (w % 2 ^ 32) := by
  have h' : w % 2 ^ 32 / 2 ^ 24 % 2 ^ 7 = 73 := by omega
  unfold decode decodeShort; rw [h, h']; rfl

theorem short_4A {w : Nat} (h : w / 2 ^ 24 % 2 ^ 7 = 74) : decode w = decMajor4A (w % 2 ^ 32) := by
  have h' : w % 2 ^ 32 / 2 ^ 24 % 2 ^ 7 = 74 := by omega
  unfold decode decodeShort; rw [h, h']; rfl

theorem short_4B {w : Nat} (h : w / 2 ^ 24 % 2 ^ 7 = 75) : decode w = decMajor4B (w % 2 ^ 32) := by
  have h' : w % 2 ^ 32 / 2 ^ 24 % 2 ^ 7 = 75 := by omega
  unfold decode decodeShort; rw [h, h']; rfl

theorem short_4C {w : Nat} (h : w / 2 ^ 24 % 2 ^ 7 = 76) : decode w = decMajor4C (w % 2 ^ 32) := by
  have h' : w % 2 ^ 32 / 2 ^ 24 % 2 ^ 7 = 76 := by omega
  unfold decode decodeShort; rw [h, h']; rfl

theorem short_4D {w : Nat} (h : w / 2 ^ 24 % 2 ^ 7 = 77) : decode w = decMajor4D (w % 2 ^ 32) := by
  have h' : w % 2 ^ 32 / 2 ^ 24 % 2 ^ 7 = 77 := by omega
  unfold decode decodeShort; rw [h, h']; rfl

theorem short_4E {w : Nat} (h : w / 2 ^ 24 % 2 ^ 7 = 78) : decode w = decMajor4E (w % 2 ^ 32) := by
  have h' : w % 2 ^ 32 / 2 ^ 24 % 2 ^ 7 = 78 := by omega
  unfold decode decodeShort; rw [h, h']; rfl

theorem short_4F {w : Nat} (h : w / 2 ^ 24 % 2 ^ 7 = 79) : decode w = decMajor4F (w % 2 ^ 32) := by
  have h' : w % 2 ^ 32 / 2 ^ 24 % 2 ^ 7 = 79 := by omega
  unfold decode decodeShort; rw [h, h']; rfl

theorem short_50 {w : Nat} (h : w / 2 ^ 24 % 2 ^ 7 = 80) : decode w = decMajor50 (w % 2 ^ 32) := by
  have h' : w % 2 ^ 32 / 2 ^ 24 % 2 ^ 7 = 80 := by omega
  unfold decode decodeShort; rw [h, h']; rfl

theorem short_51 {w : Nat} (h : w / 2 ^ 24 % 2 ^ 7 = 81) : decode w = decMajor51 (w % 2 ^ 32) := by
  have h' : w % 2 ^ 32 / 2 ^ 24 % 2 ^ 7 = 81 := by omega
  unfold decode decodeShort; rw [h, h']; rfl

theorem short_52 {w : Nat} (h : w / 2 ^ 24 % 2 ^ 7 = 82) : decode w = decMajor52 (w % 2 ^ 32) := by
  have h' : w % 2 ^ 32 / 2 ^ 24 % 2 ^ 7 = 82 := by omega
  unfold decode decodeShort; rw [h, h']; rfl

theorem short_53 {w : Nat} (h : w / 2 ^ 24 % 2 ^ 7 = 83) : decode w = decMajor53 (w % 2 ^ 32) := by
  have h' : w % 2 ^ 32 / 2 ^ 24 % 2 ^ 7 = 83 := by omega
  unfold decode decodeShort; rw [h, h']; rfl

theorem short_54 {w : Nat} (h : w / 2 ^ 24 % 2 ^ 7 = 84) : decode w = decMajor54 (w % 2 ^ 32) := by
  have h' : w % 2 ^ 32 / 2 ^ 24 % 2 ^ 7 = 84 := by omega
  unfold decode decodeShort; rw [h, h']; rfl

theorem short_55 {w : Nat} (h : w / 2 ^ 24 % 2 ^ 7 = 85) : decode w = decMajor55 (w % 2 ^ 32) := by
  have h' : w % 2 ^ 32 / 2 ^ 24 % 2 ^ 7 = 85 := by omega
  unfold decode decodeShort; rw [h, h']; rfl

theorem short_56 {w : Nat} (h : w / 2 ^ 24 % 2 ^ 7 = 86) : decode w = decMajor56 (w % 2 ^ 32) := by
  have h' : w % 2 ^ 32 / 2 ^ 24 % 2 ^ 7 = 86 := by omega
  unfold decode decodeShort; rw [h, h']; rfl

theorem short_57 {w : Nat} (h : w / 2 ^ 24 % 2 ^ 7 = 87) : decode w = decMajor57 (w % 2 ^ 32) := by
  have h' : w % 2 ^ 32 / 2 ^ 24 % 2 ^ 7 = 87 := by omega
  unfold decode decodeShort; rw [h, h']; rfl

theorem short_58 {w : Nat} (h : w / 2 ^ 24 % 2 ^ 7 = 88) : decode w = decMajor58 (w % 2 ^ 32) := by
  have h' : w % 2 ^ 32 / 2 ^ 24 % 2 ^ 7 = 88 := by omega
  unfold decode decodeShort; rw [h, h']; rfl

theorem short_59 {w : Nat} (h : w / 2 ^ 24 % 2 ^ 7 = 89) : decode w = decMajor59 (w % 2 ^ 32) := by
  have h' : w % 2 ^ 32 / 2 ^ 24 % 2 ^ 7 = 89 := by omega
  unfold decode decodeShort; rw [h, h']; rfl

theorem short_5A {w : Nat} (h : w / 2 ^ 24 % 2 ^ 7 = 90) : decode w = decMajor5A (w % 2 ^ 32) := by
  have h' : w % 2 ^ 32 / 2 ^ 24 % 2 ^ 7 = 90 := by omega
  unfold decode decodeShort; rw [h, h']; rfl

theorem short_5B {w : Nat} (h : w / 2 ^ 24 % 2 ^ 7 = 91) : decode w = decMajor5B (w % 2 ^ 32) := by
  have h' : w % 2 ^ 32 / 2 ^ 24 % 2 ^ 7 = 91 := by omega
  unfold decode decodeShort; rw [h, h']; rfl

theorem short_5C {w : Nat} (h : w / 2 ^ 24 % 2 ^ 7 = 92) : decode w = decMajor5C (w % 2 ^ 32) := by
  have h' : w % 2 ^ 32 / 2 ^ 24 % 2 ^ 7 = 92 := by omega
  unfold decode decodeShort; rw [h, h']; rfl

theorem short_5D {w : Nat} (h : w / 2 ^ 24 % 2 ^ 7 = 93) : decode w = decMajor5D (w % 2 ^ 32) := by
  have h' : w % 2 ^ 32 / 2 ^ 24 % 2 ^ 7 = 93 := by omega
  unfold decode decodeShort; rw [h, h']; rfl

theorem short_5E {w : Nat} (h : w / 2 ^ 24 % 2 ^ 7 = 94) : decode w = decMajor5E (w % 2 ^ 32) := by
  have h' : w % 2 ^ 32 / 2 ^ 24 % 2 ^ 7 = 94 := by omega
  unfold decode decodeShort; rw [h, h']; rfl

theorem short_5F {w : Nat} (h : w / 2 ^ 24 % 2 ^ 7 = 95) : decode w = decMajor5F (w % 2 ^ 32) := by
  have h' : w % 2 ^ 32 / 2 ^ 24 % 2 ^ 7 = 95 := by omega
  unfold decode decodeShort; rw [h, h']; rfl

theorem short_60 {w : Nat} (h : w / 2 ^ 24 % 2 ^ 7 = 96) : decode w = decMajor60 (w % 2 ^ 32) := by
  have h' : w % 2 ^ 32 / 2 ^ 24 % 2 ^ 7 = 96 := by omega
  unfold decode decodeShort; rw [h, h']; rfl

theorem short_61 {w : Nat} (h : w / 2 ^ 24 % 2 ^ 7 = 97) : decode w = decMajor61 (w % 2 ^ 32) := by
  have h' : w % 2 ^ 32 / 2 ^ 24 % 2 ^ 7 = 97 := by omega
  unfold decode decodeShort; rw [h, h']; rfl

theorem short_62 {w : Nat} (h : w / 2 ^ 24 % 2 ^ 7 = 98) : decode w = decMajor62 (w % 2 ^ 32) := by
  have h' : w % 2 ^ 32 / 2 ^ 24 % 2 ^ 7 = 98 := by omega
  unfold decode decodeShort; rw [h, h']; rfl

theorem short_63 {w : Nat} (h : w / 2 ^ 24 % 2 ^ 7 = 99) : decode w = decMajor63 (w % 2 ^ 32) := by
  have h' : w % 2 ^ 32 / 2 ^ 24 % 2 ^ 7 = 99 := by omega
  unfold decode decodeShort; rw [h, h']; rfl

theorem short_64 {w : Nat} (h : w / 2 ^ 24 % 2 ^ 7 = 100) : decode w = decMajor64 (w % 2 ^ 32) := by
  have h' : w % 2 ^ 32 / 2 ^ 24 % 2 ^ 7 = 100 := by omega
  unfold decode decodeShort; rw [h, h']; rfl

theorem short_65 {w : Nat} (h : w / 2 ^ 24 % 2 ^ 7 = 101) : decode w = decMajor65 (w % 2 ^ 32) := by
  have h' : w % 2 ^ 32 / 2 ^ 24 % 2 ^ 7 = 101 := by omega
  unfold decode decodeShort; rw [h, h']; rfl

theorem short_66 {w : Nat} (h : w / 2 ^ 24 % 2 ^ 7 = 102) : decode w = decMajor66 (w % 2 ^ 32) := by
  have h' : w % 2 ^ 32 / 2 ^ 24 % 2 ^ 7 = 102 := by omega
  unfold decode decodeShort; rw [h, h']; rfl

theorem short_67 {w : Nat} (h : w / 2 ^ 24 % 2 ^ 7 = 103) : decode w = decMajor67 (w % 2 ^ 32) := by
  have h' : w % 2 ^ 32 / 2 ^ 24 % 2 ^ 7 = 103 := by omega
  unfold decode decodeShort; rw [h, h']; rfl

theorem short_68 {w : Nat} (h : w / 2 ^ 24 % 2 ^ 7 = 104) : decode w = decMajor68 (w % 2 ^ 32) := by
  have h' : w % 2 ^ 32 / 2 ^ 24 % 2 ^ 7 = 104 := by omega
  unfold decode decodeShort; rw [h, h']; rfl

theorem short_69 {w : Nat} (h : w / 2 ^ 24 % 2 ^ 7 = 105) : decode w = decMajor69 (w % 2 ^ 32) := by
  have h' : w % 2 ^ 32 / 2 ^ 24 % 2 ^ 7 = 105 := by omega
  unfold decode decodeShort; rw [h, h']; rfl

theorem short_6A {w : Nat} (h : w / 2 ^ 24 % 2 ^ 7 = 106) : decode w = decMajor6A (w % 2 ^ 32) := by
  have h' : w % 2 ^ 32 / 2 ^ 24 % 2 ^ 7 = 106 := by omega
  unfold decode decodeShort; rw [h, h']; rfl

theorem short_6B {w : Nat} (h : w / 2 ^ 24 % 2 ^ 7 = 107) : decode w = decMajor6B (w % 2 ^ 32) := by
  have h' : w % 2 ^ 32 / 2 ^ 24 % 2 ^ 7 = 107 := by omega
  unfold decode decodeShort; rw [h, h']; rfl

theorem short_6C {w : Nat} (h : w / 2 ^ 24 % 2 ^ 7 = 108) : decode w = decMajor6C (w % 2 ^ 32) := by
  have h' : w % 2 ^ 32 / 2 ^ 24 % 2 ^ 7 = 108 := by omega
  unfold decode decodeShort; rw [h, h']; rfl

theorem short_6D {w : Nat} (h : w / 2 ^ 24 % 2 ^ 7 = 109) : decode w = decMajor6D (w % 2 ^ 32) := by
  have h' : w % 2 ^ 32 / 2 ^ 24 % 2 ^ 7 = 109 := by omega
  unfold decode decodeShort; rw [h, h']; rfl

theorem short_6E {w : Nat} (h : w / 2 ^ 24 % 2 ^ 7 = 110) : decode w = decMajor6E (w % 2 ^ 32) := by
  have h' : w % 2 ^ 32 / 2 ^ 24 % 2 ^ 7 = 110 := by omega
  unfold decode decodeShort; rw [h, h']; rfl

theorem short_6F {w : Nat} (h : w / 2 ^ 24 % 2 ^ 7 = 111) : decode w = decMajor6F (w % 2 ^ 32) := by
  have h' : w % 2 ^ 32 / 2 ^ 24 % 2 ^ 7 = 111 := by omega
  unfold decode decodeShort; rw [h, h']; rfl

theorem short_70 {w : Nat} (h : w / 2 ^ 24 % 2 ^ 7 = 112) : decode w = decMajor70 (w % 2 ^ 32) := by
  have h' : w % 2 ^ 32 / 2 ^ 24 % 2 ^ 7 = 112 := by omega
  unfold decode decodeShort; rw [h, h']; rfl

theorem short_71 {w : Nat} (h : w / 2 ^ 24 % 2 ^ 7 = 113) : decode w = decMajor71 (w % 2 ^ 32) := by
  have h' : w % 2 ^ 32 / 2 ^ 24 % 2 ^ 7 = 113 := by omega
  unfold decode decodeShort; rw [h, h']; rfl

theorem short_72 {w : Nat} (h : w / 2 ^ 24 % 2 ^ 7 = 114) : decode w = decMajor72 (w % 2 ^ 32) := by
  have h' : w % 2 ^ 32 / 2 ^ 24 % 2 ^ 7 = 114 := by omega
  unfold decode decodeShort; rw [h, h']; rfl

theorem short_73 {w : Nat} (h : w / 2 ^ 24 % 2 ^ 7 = 115) : decode w = decMajor73 (w % 2 ^ 32) := by
  have h' : w % 2 ^ 32 / 2 ^ 24 % 2 ^ 7 = 115 := by omega
  unfold decode decodeShort; rw [h, h']; rfl

theorem RoundTrip.sadd (e : Bool) (d a b : BitVec 6) : RoundTrip.Statement (.sadd e d a b) := by
  intro _ _
  have hwd : encode (.sadd e d a b) = pack [6, 6, 6, 6, 7, 1] [0, b.toNat, a.toNat, d.toNat, 0, e.toNat] := by
    show word e 0x00000000 [put d 18, put a 12, put b 6] = _
    simp only [word, put, eBit_eq, pack]
    generalize b.toNat = v1; generalize a.toNat = v2; generalize d.toNat = v3; generalize e.toNat = v5; omega
  have hfit : Fits [6, 6, 6, 6, 7, 1] [0, b.toNat, a.toNat, d.toNat, 0, e.toNat] := ⟨by decide, b.isLt, a.isLt, d.isLt, by decide, e.toNat_lt, trivial⟩
  revert hwd hfit; generalize encode _ = wd; intro hw hfit
  have hwd := And.intro hw (show ([6, 6, 6, 6, 7, 1] : List Nat).length = ([0, b.toNat, a.toNat, d.toNat, 0, e.toNat] : List Nat).length from rfl)
  have h32 : wd % 2 ^ 32 = wd := pkw hwd hfit rfl
  have k0 : wd % 2 ^ 6 = 0 := pk0 hwd hfit rfl rfl
  have f1 : fld wd 6 6 = b := fld_eq (pk hwd hfit 1 rfl rfl rfl)
  have f2 : fld wd 12 6 = a := fld_eq (pk hwd hfit 2 rfl rfl rfl)
  have f3 : fld wd 18 6 = d := fld_eq (pk hwd hfit 3 rfl rfl rfl)
  have hm : wd / 2 ^ 24 % 2 ^ 7 = 0 := pk hwd hfit 4 rfl rfl rfl
  have he : bit wd 31 = e := bit_eq (pk hwd hfit 5 rfl rfl rfl)
  rw [short_00 hm, h32]
  simp only [decMajor00, k0, f1, f2, f3, he, and_self, ite_true, ite_false, reduceIte]

theorem RoundTrip.ssub (e : Bool) (d a b : BitVec 6) : RoundTrip.Statement (.ssub e d a b) := by
  intro _ _
  have hwd : encode (.ssub e d a b) = pack [6, 6, 6, 6, 7, 1] [1, b.toNat, a.toNat, d.toNat, 0, e.toNat] := by
    show word e 0x00000001 [put d 18, put a 12, put b 6] = _
    simp only [word, put, eBit_eq, pack]
    generalize b.toNat = v1; generalize a.toNat = v2; generalize d.toNat = v3; generalize e.toNat = v5; omega
  have hfit : Fits [6, 6, 6, 6, 7, 1] [1, b.toNat, a.toNat, d.toNat, 0, e.toNat] := ⟨by decide, b.isLt, a.isLt, d.isLt, by decide, e.toNat_lt, trivial⟩
  revert hwd hfit; generalize encode _ = wd; intro hw hfit
  have hwd := And.intro hw (show ([6, 6, 6, 6, 7, 1] : List Nat).length = ([1, b.toNat, a.toNat, d.toNat, 0, e.toNat] : List Nat).length from rfl)
  have h32 : wd % 2 ^ 32 = wd := pkw hwd hfit rfl
  have k0 : wd % 2 ^ 6 = 1 := pk0 hwd hfit rfl rfl
  have f1 : fld wd 6 6 = b := fld_eq (pk hwd hfit 1 rfl rfl rfl)
  have f2 : fld wd 12 6 = a := fld_eq (pk hwd hfit 2 rfl rfl rfl)
  have f3 : fld wd 18 6 = d := fld_eq (pk hwd hfit 3 rfl rfl rfl)
  have hm : wd / 2 ^ 24 % 2 ^ 7 = 0 := pk hwd hfit 4 rfl rfl rfl
  have he : bit wd 31 = e := bit_eq (pk hwd hfit 5 rfl rfl rfl)
  rw [short_00 hm, h32]
  simp only [decMajor00, k0, f1, f2, f3, he, and_self, ite_true, ite_false, reduceIte]

theorem RoundTrip.sand (e : Bool) (d a b : BitVec 6) : RoundTrip.Statement (.sand e d a b) := by
  intro _ _
  have hwd : encode (.sand e d a b) = pack [6, 6, 6, 6, 7, 1] [2, b.toNat, a.toNat, d.toNat, 0, e.toNat] := by
    show word e 0x00000002 [put d 18, put a 12, put b 6] = _
    simp only [word, put, eBit_eq, pack]
    generalize b.toNat = v1; generalize a.toNat = v2; generalize d.toNat = v3; generalize e.toNat = v5; omega
  have hfit : Fits [6, 6, 6, 6, 7, 1] [2, b.toNat, a.toNat, d.toNat, 0, e.toNat] := ⟨by decide, b.isLt, a.isLt, d.isLt, by decide, e.toNat_lt, trivial⟩
  revert hwd hfit; generalize encode _ = wd; intro hw hfit
  have hwd := And.intro hw (show ([6, 6, 6, 6, 7, 1] : List Nat).length = ([2, b.toNat, a.toNat, d.toNat, 0, e.toNat] : List Nat).length from rfl)
  have h32 : wd % 2 ^ 32 = wd := pkw hwd hfit rfl
  have k0 : wd % 2 ^ 6 = 2 := pk0 hwd hfit rfl rfl
  have f1 : fld wd 6 6 = b := fld_eq (pk hwd hfit 1 rfl rfl rfl)
  have f2 : fld wd 12 6 = a := fld_eq (pk hwd hfit 2 rfl rfl rfl)
  have f3 : fld wd 18 6 = d := fld_eq (pk hwd hfit 3 rfl rfl rfl)
  have hm : wd / 2 ^ 24 % 2 ^ 7 = 0 := pk hwd hfit 4 rfl rfl rfl
  have he : bit wd 31 = e := bit_eq (pk hwd hfit 5 rfl rfl rfl)
  rw [short_00 hm, h32]
  simp only [decMajor00, k0, f1, f2, f3, he, and_self, ite_true, ite_false, reduceIte]

theorem RoundTrip.sandn (e : Bool) (d a b : BitVec 6) : RoundTrip.Statement (.sandn e d a b) := by
  intro _ _
  have hwd : encode (.sandn e d a b) = pack [6, 6, 6, 6, 7, 1] [3, b.toNat, a.toNat, d.toNat, 0, e.toNat] := by
    show word e 0x00000003 [put d 18, put a 12, put b 6] = _
    simp only [word, put, eBit_eq, pack]
    generalize b.toNat = v1; generalize a.toNat = v2; generalize d.toNat = v3; generalize e.toNat = v5; omega
  have hfit : Fits [6, 6, 6, 6, 7, 1] [3, b.toNat, a.toNat, d.toNat, 0, e.toNat] := ⟨by decide, b.isLt, a.isLt, d.isLt, by decide, e.toNat_lt, trivial⟩
  revert hwd hfit; generalize encode _ = wd; intro hw hfit
  have hwd := And.intro hw (show ([6, 6, 6, 6, 7, 1] : List Nat).length = ([3, b.toNat, a.toNat, d.toNat, 0, e.toNat] : List Nat).length from rfl)
  have h32 : wd % 2 ^ 32 = wd := pkw hwd hfit rfl
  have k0 : wd % 2 ^ 6 = 3 := pk0 hwd hfit rfl rfl
  have f1 : fld wd 6 6 = b := fld_eq (pk hwd hfit 1 rfl rfl rfl)
  have f2 : fld wd 12 6 = a := fld_eq (pk hwd hfit 2 rfl rfl rfl)
  have f3 : fld wd 18 6 = d := fld_eq (pk hwd hfit 3 rfl rfl rfl)
  have hm : wd / 2 ^ 24 % 2 ^ 7 = 0 := pk hwd hfit 4 rfl rfl rfl
  have he : bit wd 31 = e := bit_eq (pk hwd hfit 5 rfl rfl rfl)
  rw [short_00 hm, h32]
  simp only [decMajor00, k0, f1, f2, f3, he, and_self, ite_true, ite_false, reduceIte]

theorem RoundTrip.sor (e : Bool) (d a b : BitVec 6) : RoundTrip.Statement (.sor e d a b) := by
  intro _ _
  have hwd : encode (.sor e d a b) = pack [6, 6, 6, 6, 7, 1] [4, b.toNat, a.toNat, d.toNat, 0, e.toNat] := by
    show word e 0x00000004 [put d 18, put a 12, put b 6] = _
    simp only [word, put, eBit_eq, pack]
    generalize b.toNat = v1; generalize a.toNat = v2; generalize d.toNat = v3; generalize e.toNat = v5; omega
  have hfit : Fits [6, 6, 6, 6, 7, 1] [4, b.toNat, a.toNat, d.toNat, 0, e.toNat] := ⟨by decide, b.isLt, a.isLt, d.isLt, by decide, e.toNat_lt, trivial⟩
  revert hwd hfit; generalize encode _ = wd; intro hw hfit
  have hwd := And.intro hw (show ([6, 6, 6, 6, 7, 1] : List Nat).length = ([4, b.toNat, a.toNat, d.toNat, 0, e.toNat] : List Nat).length from rfl)
  have h32 : wd % 2 ^ 32 = wd := pkw hwd hfit rfl
  have k0 : wd % 2 ^ 6 = 4 := pk0 hwd hfit rfl rfl
  have f1 : fld wd 6 6 = b := fld_eq (pk hwd hfit 1 rfl rfl rfl)
  have f2 : fld wd 12 6 = a := fld_eq (pk hwd hfit 2 rfl rfl rfl)
  have f3 : fld wd 18 6 = d := fld_eq (pk hwd hfit 3 rfl rfl rfl)
  have hm : wd / 2 ^ 24 % 2 ^ 7 = 0 := pk hwd hfit 4 rfl rfl rfl
  have he : bit wd 31 = e := bit_eq (pk hwd hfit 5 rfl rfl rfl)
  rw [short_00 hm, h32]
  simp only [decMajor00, k0, f1, f2, f3, he, and_self, ite_true, ite_false, reduceIte]

theorem RoundTrip.sxor (e : Bool) (d a b : BitVec 6) : RoundTrip.Statement (.sxor e d a b) := by
  intro _ _
  have hwd : encode (.sxor e d a b) = pack [6, 6, 6, 6, 7, 1] [5, b.toNat, a.toNat, d.toNat, 0, e.toNat] := by
    show word e 0x00000005 [put d 18, put a 12, put b 6] = _
    simp only [word, put, eBit_eq, pack]
    generalize b.toNat = v1; generalize a.toNat = v2; generalize d.toNat = v3; generalize e.toNat = v5; omega
  have hfit : Fits [6, 6, 6, 6, 7, 1] [5, b.toNat, a.toNat, d.toNat, 0, e.toNat] := ⟨by decide, b.isLt, a.isLt, d.isLt, by decide, e.toNat_lt, trivial⟩
  revert hwd hfit; generalize encode _ = wd; intro hw hfit
  have hwd := And.intro hw (show ([6, 6, 6, 6, 7, 1] : List Nat).length = ([5, b.toNat, a.toNat, d.toNat, 0, e.toNat] : List Nat).length from rfl)
  have h32 : wd % 2 ^ 32 = wd := pkw hwd hfit rfl
  have k0 : wd % 2 ^ 6 = 5 := pk0 hwd hfit rfl rfl
  have f1 : fld wd 6 6 = b := fld_eq (pk hwd hfit 1 rfl rfl rfl)
  have f2 : fld wd 12 6 = a := fld_eq (pk hwd hfit 2 rfl rfl rfl)
  have f3 : fld wd 18 6 = d := fld_eq (pk hwd hfit 3 rfl rfl rfl)
  have hm : wd / 2 ^ 24 % 2 ^ 7 = 0 := pk hwd hfit 4 rfl rfl rfl
  have he : bit wd 31 = e := bit_eq (pk hwd hfit 5 rfl rfl rfl)
  rw [short_00 hm, h32]
  simp only [decMajor00, k0, f1, f2, f3, he, and_self, ite_true, ite_false, reduceIte]

theorem RoundTrip.sshl (e : Bool) (d a b : BitVec 6) : RoundTrip.Statement (.sshl e d a b) := by
  intro _ _
  have hwd : encode (.sshl e d a b) = pack [6, 6, 6, 6, 7, 1] [6, b.toNat, a.toNat, d.toNat, 0, e.toNat] := by
    show word e 0x00000006 [put d 18, put a 12, put b 6] = _
    simp only [word, put, eBit_eq, pack]
    generalize b.toNat = v1; generalize a.toNat = v2; generalize d.toNat = v3; generalize e.toNat = v5; omega
  have hfit : Fits [6, 6, 6, 6, 7, 1] [6, b.toNat, a.toNat, d.toNat, 0, e.toNat] := ⟨by decide, b.isLt, a.isLt, d.isLt, by decide, e.toNat_lt, trivial⟩
  revert hwd hfit; generalize encode _ = wd; intro hw hfit
  have hwd := And.intro hw (show ([6, 6, 6, 6, 7, 1] : List Nat).length = ([6, b.toNat, a.toNat, d.toNat, 0, e.toNat] : List Nat).length from rfl)
  have h32 : wd % 2 ^ 32 = wd := pkw hwd hfit rfl
  have k0 : wd % 2 ^ 6 = 6 := pk0 hwd hfit rfl rfl
  have f1 : fld wd 6 6 = b := fld_eq (pk hwd hfit 1 rfl rfl rfl)
  have f2 : fld wd 12 6 = a := fld_eq (pk hwd hfit 2 rfl rfl rfl)
  have f3 : fld wd 18 6 = d := fld_eq (pk hwd hfit 3 rfl rfl rfl)
  have hm : wd / 2 ^ 24 % 2 ^ 7 = 0 := pk hwd hfit 4 rfl rfl rfl
  have he : bit wd 31 = e := bit_eq (pk hwd hfit 5 rfl rfl rfl)
  rw [short_00 hm, h32]
  simp only [decMajor00, k0, f1, f2, f3, he, and_self, ite_true, ite_false, reduceIte]

theorem RoundTrip.sshr (e : Bool) (d a b : BitVec 6) : RoundTrip.Statement (.sshr e d a b) := by
  intro _ _
  have hwd : encode (.sshr e d a b) = pack [6, 6, 6, 6, 7, 1] [7, b.toNat, a.toNat, d.toNat, 0, e.toNat] := by
    show word e 0x00000007 [put d 18, put a 12, put b 6] = _
    simp only [word, put, eBit_eq, pack]
    generalize b.toNat = v1; generalize a.toNat = v2; generalize d.toNat = v3; generalize e.toNat = v5; omega
  have hfit : Fits [6, 6, 6, 6, 7, 1] [7, b.toNat, a.toNat, d.toNat, 0, e.toNat] := ⟨by decide, b.isLt, a.isLt, d.isLt, by decide, e.toNat_lt, trivial⟩
  revert hwd hfit; generalize encode _ = wd; intro hw hfit
  have hwd := And.intro hw (show ([6, 6, 6, 6, 7, 1] : List Nat).length = ([7, b.toNat, a.toNat, d.toNat, 0, e.toNat] : List Nat).length from rfl)
  have h32 : wd % 2 ^ 32 = wd := pkw hwd hfit rfl
  have k0 : wd % 2 ^ 6 = 7 := pk0 hwd hfit rfl rfl
  have f1 : fld wd 6 6 = b := fld_eq (pk hwd hfit 1 rfl rfl rfl)
  have f2 : fld wd 12 6 = a := fld_eq (pk hwd hfit 2 rfl rfl rfl)
  have f3 : fld wd 18 6 = d := fld_eq (pk hwd hfit 3 rfl rfl rfl)
  have hm : wd / 2 ^ 24 % 2 ^ 7 = 0 := pk hwd hfit 4 rfl rfl rfl
  have he : bit wd 31 = e := bit_eq (pk hwd hfit 5 rfl rfl rfl)
  rw [short_00 hm, h32]
  simp only [decMajor00, k0, f1, f2, f3, he, and_self, ite_true, ite_false, reduceIte]

theorem RoundTrip.ssra (e : Bool) (d a b : BitVec 6) : RoundTrip.Statement (.ssra e d a b) := by
  intro _ _
  have hwd : encode (.ssra e d a b) = pack [6, 6, 6, 6, 7, 1] [8, b.toNat, a.toNat, d.toNat, 0, e.toNat] := by
    show word e 0x00000008 [put d 18, put a 12, put b 6] = _
    simp only [word, put, eBit_eq, pack]
    generalize b.toNat = v1; generalize a.toNat = v2; generalize d.toNat = v3; generalize e.toNat = v5; omega
  have hfit : Fits [6, 6, 6, 6, 7, 1] [8, b.toNat, a.toNat, d.toNat, 0, e.toNat] := ⟨by decide, b.isLt, a.isLt, d.isLt, by decide, e.toNat_lt, trivial⟩
  revert hwd hfit; generalize encode _ = wd; intro hw hfit
  have hwd := And.intro hw (show ([6, 6, 6, 6, 7, 1] : List Nat).length = ([8, b.toNat, a.toNat, d.toNat, 0, e.toNat] : List Nat).length from rfl)
  have h32 : wd % 2 ^ 32 = wd := pkw hwd hfit rfl
  have k0 : wd % 2 ^ 6 = 8 := pk0 hwd hfit rfl rfl
  have f1 : fld wd 6 6 = b := fld_eq (pk hwd hfit 1 rfl rfl rfl)
  have f2 : fld wd 12 6 = a := fld_eq (pk hwd hfit 2 rfl rfl rfl)
  have f3 : fld wd 18 6 = d := fld_eq (pk hwd hfit 3 rfl rfl rfl)
  have hm : wd / 2 ^ 24 % 2 ^ 7 = 0 := pk hwd hfit 4 rfl rfl rfl
  have he : bit wd 31 = e := bit_eq (pk hwd hfit 5 rfl rfl rfl)
  rw [short_00 hm, h32]
  simp only [decMajor00, k0, f1, f2, f3, he, and_self, ite_true, ite_false, reduceIte]

theorem RoundTrip.smin (e : Bool) (d a b : BitVec 6) : RoundTrip.Statement (.smin e d a b) := by
  intro _ _
  have hwd : encode (.smin e d a b) = pack [6, 6, 6, 6, 7, 1] [9, b.toNat, a.toNat, d.toNat, 0, e.toNat] := by
    show word e 0x00000009 [put d 18, put a 12, put b 6] = _
    simp only [word, put, eBit_eq, pack]
    generalize b.toNat = v1; generalize a.toNat = v2; generalize d.toNat = v3; generalize e.toNat = v5; omega
  have hfit : Fits [6, 6, 6, 6, 7, 1] [9, b.toNat, a.toNat, d.toNat, 0, e.toNat] := ⟨by decide, b.isLt, a.isLt, d.isLt, by decide, e.toNat_lt, trivial⟩
  revert hwd hfit; generalize encode _ = wd; intro hw hfit
  have hwd := And.intro hw (show ([6, 6, 6, 6, 7, 1] : List Nat).length = ([9, b.toNat, a.toNat, d.toNat, 0, e.toNat] : List Nat).length from rfl)
  have h32 : wd % 2 ^ 32 = wd := pkw hwd hfit rfl
  have k0 : wd % 2 ^ 6 = 9 := pk0 hwd hfit rfl rfl
  have f1 : fld wd 6 6 = b := fld_eq (pk hwd hfit 1 rfl rfl rfl)
  have f2 : fld wd 12 6 = a := fld_eq (pk hwd hfit 2 rfl rfl rfl)
  have f3 : fld wd 18 6 = d := fld_eq (pk hwd hfit 3 rfl rfl rfl)
  have hm : wd / 2 ^ 24 % 2 ^ 7 = 0 := pk hwd hfit 4 rfl rfl rfl
  have he : bit wd 31 = e := bit_eq (pk hwd hfit 5 rfl rfl rfl)
  rw [short_00 hm, h32]
  simp only [decMajor00, k0, f1, f2, f3, he, and_self, ite_true, ite_false, reduceIte]

theorem RoundTrip.smax (e : Bool) (d a b : BitVec 6) : RoundTrip.Statement (.smax e d a b) := by
  intro _ _
  have hwd : encode (.smax e d a b) = pack [6, 6, 6, 6, 7, 1] [10, b.toNat, a.toNat, d.toNat, 0, e.toNat] := by
    show word e 0x0000000A [put d 18, put a 12, put b 6] = _
    simp only [word, put, eBit_eq, pack]
    generalize b.toNat = v1; generalize a.toNat = v2; generalize d.toNat = v3; generalize e.toNat = v5; omega
  have hfit : Fits [6, 6, 6, 6, 7, 1] [10, b.toNat, a.toNat, d.toNat, 0, e.toNat] := ⟨by decide, b.isLt, a.isLt, d.isLt, by decide, e.toNat_lt, trivial⟩
  revert hwd hfit; generalize encode _ = wd; intro hw hfit
  have hwd := And.intro hw (show ([6, 6, 6, 6, 7, 1] : List Nat).length = ([10, b.toNat, a.toNat, d.toNat, 0, e.toNat] : List Nat).length from rfl)
  have h32 : wd % 2 ^ 32 = wd := pkw hwd hfit rfl
  have k0 : wd % 2 ^ 6 = 10 := pk0 hwd hfit rfl rfl
  have f1 : fld wd 6 6 = b := fld_eq (pk hwd hfit 1 rfl rfl rfl)
  have f2 : fld wd 12 6 = a := fld_eq (pk hwd hfit 2 rfl rfl rfl)
  have f3 : fld wd 18 6 = d := fld_eq (pk hwd hfit 3 rfl rfl rfl)
  have hm : wd / 2 ^ 24 % 2 ^ 7 = 0 := pk hwd hfit 4 rfl rfl rfl
  have he : bit wd 31 = e := bit_eq (pk hwd hfit 5 rfl rfl rfl)
  rw [short_00 hm, h32]
  simp only [decMajor00, k0, f1, f2, f3, he, and_self, ite_true, ite_false, reduceIte]

theorem RoundTrip.sminu (e : Bool) (d a b : BitVec 6) : RoundTrip.Statement (.sminu e d a b) := by
  intro _ _
  have hwd : encode (.sminu e d a b) = pack [6, 6, 6, 6, 7, 1] [11, b.toNat, a.toNat, d.toNat, 0, e.toNat] := by
    show word e 0x0000000B [put d 18, put a 12, put b 6] = _
    simp only [word, put, eBit_eq, pack]
    generalize b.toNat = v1; generalize a.toNat = v2; generalize d.toNat = v3; generalize e.toNat = v5; omega
  have hfit : Fits [6, 6, 6, 6, 7, 1] [11, b.toNat, a.toNat, d.toNat, 0, e.toNat] := ⟨by decide, b.isLt, a.isLt, d.isLt, by decide, e.toNat_lt, trivial⟩
  revert hwd hfit; generalize encode _ = wd; intro hw hfit
  have hwd := And.intro hw (show ([6, 6, 6, 6, 7, 1] : List Nat).length = ([11, b.toNat, a.toNat, d.toNat, 0, e.toNat] : List Nat).length from rfl)
  have h32 : wd % 2 ^ 32 = wd := pkw hwd hfit rfl
  have k0 : wd % 2 ^ 6 = 11 := pk0 hwd hfit rfl rfl
  have f1 : fld wd 6 6 = b := fld_eq (pk hwd hfit 1 rfl rfl rfl)
  have f2 : fld wd 12 6 = a := fld_eq (pk hwd hfit 2 rfl rfl rfl)
  have f3 : fld wd 18 6 = d := fld_eq (pk hwd hfit 3 rfl rfl rfl)
  have hm : wd / 2 ^ 24 % 2 ^ 7 = 0 := pk hwd hfit 4 rfl rfl rfl
  have he : bit wd 31 = e := bit_eq (pk hwd hfit 5 rfl rfl rfl)
  rw [short_00 hm, h32]
  simp only [decMajor00, k0, f1, f2, f3, he, and_self, ite_true, ite_false, reduceIte]

theorem RoundTrip.smaxu (e : Bool) (d a b : BitVec 6) : RoundTrip.Statement (.smaxu e d a b) := by
  intro _ _
  have hwd : encode (.smaxu e d a b) = pack [6, 6, 6, 6, 7, 1] [12, b.toNat, a.toNat, d.toNat, 0, e.toNat] := by
    show word e 0x0000000C [put d 18, put a 12, put b 6] = _
    simp only [word, put, eBit_eq, pack]
    generalize b.toNat = v1; generalize a.toNat = v2; generalize d.toNat = v3; generalize e.toNat = v5; omega
  have hfit : Fits [6, 6, 6, 6, 7, 1] [12, b.toNat, a.toNat, d.toNat, 0, e.toNat] := ⟨by decide, b.isLt, a.isLt, d.isLt, by decide, e.toNat_lt, trivial⟩
  revert hwd hfit; generalize encode _ = wd; intro hw hfit
  have hwd := And.intro hw (show ([6, 6, 6, 6, 7, 1] : List Nat).length = ([12, b.toNat, a.toNat, d.toNat, 0, e.toNat] : List Nat).length from rfl)
  have h32 : wd % 2 ^ 32 = wd := pkw hwd hfit rfl
  have k0 : wd % 2 ^ 6 = 12 := pk0 hwd hfit rfl rfl
  have f1 : fld wd 6 6 = b := fld_eq (pk hwd hfit 1 rfl rfl rfl)
  have f2 : fld wd 12 6 = a := fld_eq (pk hwd hfit 2 rfl rfl rfl)
  have f3 : fld wd 18 6 = d := fld_eq (pk hwd hfit 3 rfl rfl rfl)
  have hm : wd / 2 ^ 24 % 2 ^ 7 = 0 := pk hwd hfit 4 rfl rfl rfl
  have he : bit wd 31 = e := bit_eq (pk hwd hfit 5 rfl rfl rfl)
  rw [short_00 hm, h32]
  simp only [decMajor00, k0, f1, f2, f3, he, and_self, ite_true, ite_false, reduceIte]

theorem RoundTrip.smul (e : Bool) (d a b : BitVec 6) : RoundTrip.Statement (.smul e d a b) := by
  intro _ _
  have hwd : encode (.smul e d a b) = pack [6, 6, 6, 6, 7, 1] [13, b.toNat, a.toNat, d.toNat, 0, e.toNat] := by
    show word e 0x0000000D [put d 18, put a 12, put b 6] = _
    simp only [word, put, eBit_eq, pack]
    generalize b.toNat = v1; generalize a.toNat = v2; generalize d.toNat = v3; generalize e.toNat = v5; omega
  have hfit : Fits [6, 6, 6, 6, 7, 1] [13, b.toNat, a.toNat, d.toNat, 0, e.toNat] := ⟨by decide, b.isLt, a.isLt, d.isLt, by decide, e.toNat_lt, trivial⟩
  revert hwd hfit; generalize encode _ = wd; intro hw hfit
  have hwd := And.intro hw (show ([6, 6, 6, 6, 7, 1] : List Nat).length = ([13, b.toNat, a.toNat, d.toNat, 0, e.toNat] : List Nat).length from rfl)
  have h32 : wd % 2 ^ 32 = wd := pkw hwd hfit rfl
  have k0 : wd % 2 ^ 6 = 13 := pk0 hwd hfit rfl rfl
  have f1 : fld wd 6 6 = b := fld_eq (pk hwd hfit 1 rfl rfl rfl)
  have f2 : fld wd 12 6 = a := fld_eq (pk hwd hfit 2 rfl rfl rfl)
  have f3 : fld wd 18 6 = d := fld_eq (pk hwd hfit 3 rfl rfl rfl)
  have hm : wd / 2 ^ 24 % 2 ^ 7 = 0 := pk hwd hfit 4 rfl rfl rfl
  have he : bit wd 31 = e := bit_eq (pk hwd hfit 5 rfl rfl rfl)
  rw [short_00 hm, h32]
  simp only [decMajor00, k0, f1, f2, f3, he, and_self, ite_true, ite_false, reduceIte]

theorem RoundTrip.smulh (e : Bool) (d a b : BitVec 6) : RoundTrip.Statement (.smulh e d a b) := by
  intro _ _
  have hwd : encode (.smulh e d a b) = pack [6, 6, 6, 6, 7, 1] [14, b.toNat, a.toNat, d.toNat, 0, e.toNat] := by
    show word e 0x0000000E [put d 18, put a 12, put b 6] = _
    simp only [word, put, eBit_eq, pack]
    generalize b.toNat = v1; generalize a.toNat = v2; generalize d.toNat = v3; generalize e.toNat = v5; omega
  have hfit : Fits [6, 6, 6, 6, 7, 1] [14, b.toNat, a.toNat, d.toNat, 0, e.toNat] := ⟨by decide, b.isLt, a.isLt, d.isLt, by decide, e.toNat_lt, trivial⟩
  revert hwd hfit; generalize encode _ = wd; intro hw hfit
  have hwd := And.intro hw (show ([6, 6, 6, 6, 7, 1] : List Nat).length = ([14, b.toNat, a.toNat, d.toNat, 0, e.toNat] : List Nat).length from rfl)
  have h32 : wd % 2 ^ 32 = wd := pkw hwd hfit rfl
  have k0 : wd % 2 ^ 6 = 14 := pk0 hwd hfit rfl rfl
  have f1 : fld wd 6 6 = b := fld_eq (pk hwd hfit 1 rfl rfl rfl)
  have f2 : fld wd 12 6 = a := fld_eq (pk hwd hfit 2 rfl rfl rfl)
  have f3 : fld wd 18 6 = d := fld_eq (pk hwd hfit 3 rfl rfl rfl)
  have hm : wd / 2 ^ 24 % 2 ^ 7 = 0 := pk hwd hfit 4 rfl rfl rfl
  have he : bit wd 31 = e := bit_eq (pk hwd hfit 5 rfl rfl rfl)
  rw [short_00 hm, h32]
  simp only [decMajor00, k0, f1, f2, f3, he, and_self, ite_true, ite_false, reduceIte]

theorem RoundTrip.smulhu (e : Bool) (d a b : BitVec 6) : RoundTrip.Statement (.smulhu e d a b) := by
  intro _ _
  have hwd : encode (.smulhu e d a b) = pack [6, 6, 6, 6, 7, 1] [15, b.toNat, a.toNat, d.toNat, 0, e.toNat] := by
    show word e 0x0000000F [put d 18, put a 12, put b 6] = _
    simp only [word, put, eBit_eq, pack]
    generalize b.toNat = v1; generalize a.toNat = v2; generalize d.toNat = v3; generalize e.toNat = v5; omega
  have hfit : Fits [6, 6, 6, 6, 7, 1] [15, b.toNat, a.toNat, d.toNat, 0, e.toNat] := ⟨by decide, b.isLt, a.isLt, d.isLt, by decide, e.toNat_lt, trivial⟩
  revert hwd hfit; generalize encode _ = wd; intro hw hfit
  have hwd := And.intro hw (show ([6, 6, 6, 6, 7, 1] : List Nat).length = ([15, b.toNat, a.toNat, d.toNat, 0, e.toNat] : List Nat).length from rfl)
  have h32 : wd % 2 ^ 32 = wd := pkw hwd hfit rfl
  have k0 : wd % 2 ^ 6 = 15 := pk0 hwd hfit rfl rfl
  have f1 : fld wd 6 6 = b := fld_eq (pk hwd hfit 1 rfl rfl rfl)
  have f2 : fld wd 12 6 = a := fld_eq (pk hwd hfit 2 rfl rfl rfl)
  have f3 : fld wd 18 6 = d := fld_eq (pk hwd hfit 3 rfl rfl rfl)
  have hm : wd / 2 ^ 24 % 2 ^ 7 = 0 := pk hwd hfit 4 rfl rfl rfl
  have he : bit wd 31 = e := bit_eq (pk hwd hfit 5 rfl rfl rfl)
  rw [short_00 hm, h32]
  simp only [decMajor00, k0, f1, f2, f3, he, and_self, ite_true, ite_false, reduceIte]

theorem RoundTrip.sdiv (e : Bool) (d a b : BitVec 6) : RoundTrip.Statement (.sdiv e d a b) := by
  intro _ _
  have hwd : encode (.sdiv e d a b) = pack [6, 6, 6, 6, 7, 1] [16, b.toNat, a.toNat, d.toNat, 0, e.toNat] := by
    show word e 0x00000010 [put d 18, put a 12, put b 6] = _
    simp only [word, put, eBit_eq, pack]
    generalize b.toNat = v1; generalize a.toNat = v2; generalize d.toNat = v3; generalize e.toNat = v5; omega
  have hfit : Fits [6, 6, 6, 6, 7, 1] [16, b.toNat, a.toNat, d.toNat, 0, e.toNat] := ⟨by decide, b.isLt, a.isLt, d.isLt, by decide, e.toNat_lt, trivial⟩
  revert hwd hfit; generalize encode _ = wd; intro hw hfit
  have hwd := And.intro hw (show ([6, 6, 6, 6, 7, 1] : List Nat).length = ([16, b.toNat, a.toNat, d.toNat, 0, e.toNat] : List Nat).length from rfl)
  have h32 : wd % 2 ^ 32 = wd := pkw hwd hfit rfl
  have k0 : wd % 2 ^ 6 = 16 := pk0 hwd hfit rfl rfl
  have f1 : fld wd 6 6 = b := fld_eq (pk hwd hfit 1 rfl rfl rfl)
  have f2 : fld wd 12 6 = a := fld_eq (pk hwd hfit 2 rfl rfl rfl)
  have f3 : fld wd 18 6 = d := fld_eq (pk hwd hfit 3 rfl rfl rfl)
  have hm : wd / 2 ^ 24 % 2 ^ 7 = 0 := pk hwd hfit 4 rfl rfl rfl
  have he : bit wd 31 = e := bit_eq (pk hwd hfit 5 rfl rfl rfl)
  rw [short_00 hm, h32]
  simp only [decMajor00, k0, f1, f2, f3, he, and_self, ite_true, ite_false, reduceIte]

theorem RoundTrip.sdivu (e : Bool) (d a b : BitVec 6) : RoundTrip.Statement (.sdivu e d a b) := by
  intro _ _
  have hwd : encode (.sdivu e d a b) = pack [6, 6, 6, 6, 7, 1] [17, b.toNat, a.toNat, d.toNat, 0, e.toNat] := by
    show word e 0x00000011 [put d 18, put a 12, put b 6] = _
    simp only [word, put, eBit_eq, pack]
    generalize b.toNat = v1; generalize a.toNat = v2; generalize d.toNat = v3; generalize e.toNat = v5; omega
  have hfit : Fits [6, 6, 6, 6, 7, 1] [17, b.toNat, a.toNat, d.toNat, 0, e.toNat] := ⟨by decide, b.isLt, a.isLt, d.isLt, by decide, e.toNat_lt, trivial⟩
  revert hwd hfit; generalize encode _ = wd; intro hw hfit
  have hwd := And.intro hw (show ([6, 6, 6, 6, 7, 1] : List Nat).length = ([17, b.toNat, a.toNat, d.toNat, 0, e.toNat] : List Nat).length from rfl)
  have h32 : wd % 2 ^ 32 = wd := pkw hwd hfit rfl
  have k0 : wd % 2 ^ 6 = 17 := pk0 hwd hfit rfl rfl
  have f1 : fld wd 6 6 = b := fld_eq (pk hwd hfit 1 rfl rfl rfl)
  have f2 : fld wd 12 6 = a := fld_eq (pk hwd hfit 2 rfl rfl rfl)
  have f3 : fld wd 18 6 = d := fld_eq (pk hwd hfit 3 rfl rfl rfl)
  have hm : wd / 2 ^ 24 % 2 ^ 7 = 0 := pk hwd hfit 4 rfl rfl rfl
  have he : bit wd 31 = e := bit_eq (pk hwd hfit 5 rfl rfl rfl)
  rw [short_00 hm, h32]
  simp only [decMajor00, k0, f1, f2, f3, he, and_self, ite_true, ite_false, reduceIte]

theorem RoundTrip.srem (e : Bool) (d a b : BitVec 6) : RoundTrip.Statement (.srem e d a b) := by
  intro _ _
  have hwd : encode (.srem e d a b) = pack [6, 6, 6, 6, 7, 1] [18, b.toNat, a.toNat, d.toNat, 0, e.toNat] := by
    show word e 0x00000012 [put d 18, put a 12, put b 6] = _
    simp only [word, put, eBit_eq, pack]
    generalize b.toNat = v1; generalize a.toNat = v2; generalize d.toNat = v3; generalize e.toNat = v5; omega
  have hfit : Fits [6, 6, 6, 6, 7, 1] [18, b.toNat, a.toNat, d.toNat, 0, e.toNat] := ⟨by decide, b.isLt, a.isLt, d.isLt, by decide, e.toNat_lt, trivial⟩
  revert hwd hfit; generalize encode _ = wd; intro hw hfit
  have hwd := And.intro hw (show ([6, 6, 6, 6, 7, 1] : List Nat).length = ([18, b.toNat, a.toNat, d.toNat, 0, e.toNat] : List Nat).length from rfl)
  have h32 : wd % 2 ^ 32 = wd := pkw hwd hfit rfl
  have k0 : wd % 2 ^ 6 = 18 := pk0 hwd hfit rfl rfl
  have f1 : fld wd 6 6 = b := fld_eq (pk hwd hfit 1 rfl rfl rfl)
  have f2 : fld wd 12 6 = a := fld_eq (pk hwd hfit 2 rfl rfl rfl)
  have f3 : fld wd 18 6 = d := fld_eq (pk hwd hfit 3 rfl rfl rfl)
  have hm : wd / 2 ^ 24 % 2 ^ 7 = 0 := pk hwd hfit 4 rfl rfl rfl
  have he : bit wd 31 = e := bit_eq (pk hwd hfit 5 rfl rfl rfl)
  rw [short_00 hm, h32]
  simp only [decMajor00, k0, f1, f2, f3, he, and_self, ite_true, ite_false, reduceIte]

theorem RoundTrip.sremu (e : Bool) (d a b : BitVec 6) : RoundTrip.Statement (.sremu e d a b) := by
  intro _ _
  have hwd : encode (.sremu e d a b) = pack [6, 6, 6, 6, 7, 1] [19, b.toNat, a.toNat, d.toNat, 0, e.toNat] := by
    show word e 0x00000013 [put d 18, put a 12, put b 6] = _
    simp only [word, put, eBit_eq, pack]
    generalize b.toNat = v1; generalize a.toNat = v2; generalize d.toNat = v3; generalize e.toNat = v5; omega
  have hfit : Fits [6, 6, 6, 6, 7, 1] [19, b.toNat, a.toNat, d.toNat, 0, e.toNat] := ⟨by decide, b.isLt, a.isLt, d.isLt, by decide, e.toNat_lt, trivial⟩
  revert hwd hfit; generalize encode _ = wd; intro hw hfit
  have hwd := And.intro hw (show ([6, 6, 6, 6, 7, 1] : List Nat).length = ([19, b.toNat, a.toNat, d.toNat, 0, e.toNat] : List Nat).length from rfl)
  have h32 : wd % 2 ^ 32 = wd := pkw hwd hfit rfl
  have k0 : wd % 2 ^ 6 = 19 := pk0 hwd hfit rfl rfl
  have f1 : fld wd 6 6 = b := fld_eq (pk hwd hfit 1 rfl rfl rfl)
  have f2 : fld wd 12 6 = a := fld_eq (pk hwd hfit 2 rfl rfl rfl)
  have f3 : fld wd 18 6 = d := fld_eq (pk hwd hfit 3 rfl rfl rfl)
  have hm : wd / 2 ^ 24 % 2 ^ 7 = 0 := pk hwd hfit 4 rfl rfl rfl
  have he : bit wd 31 = e := bit_eq (pk hwd hfit 5 rfl rfl rfl)
  rw [short_00 hm, h32]
  simp only [decMajor00, k0, f1, f2, f3, he, and_self, ite_true, ite_false, reduceIte]

theorem RoundTrip.sseq (e : Bool) (d a b : BitVec 6) : RoundTrip.Statement (.sseq e d a b) := by
  intro _ _
  have hwd : encode (.sseq e d a b) = pack [6, 6, 6, 6, 7, 1] [20, b.toNat, a.toNat, d.toNat, 0, e.toNat] := by
    show word e 0x00000014 [put d 18, put a 12, put b 6] = _
    simp only [word, put, eBit_eq, pack]
    generalize b.toNat = v1; generalize a.toNat = v2; generalize d.toNat = v3; generalize e.toNat = v5; omega
  have hfit : Fits [6, 6, 6, 6, 7, 1] [20, b.toNat, a.toNat, d.toNat, 0, e.toNat] := ⟨by decide, b.isLt, a.isLt, d.isLt, by decide, e.toNat_lt, trivial⟩
  revert hwd hfit; generalize encode _ = wd; intro hw hfit
  have hwd := And.intro hw (show ([6, 6, 6, 6, 7, 1] : List Nat).length = ([20, b.toNat, a.toNat, d.toNat, 0, e.toNat] : List Nat).length from rfl)
  have h32 : wd % 2 ^ 32 = wd := pkw hwd hfit rfl
  have k0 : wd % 2 ^ 6 = 20 := pk0 hwd hfit rfl rfl
  have f1 : fld wd 6 6 = b := fld_eq (pk hwd hfit 1 rfl rfl rfl)
  have f2 : fld wd 12 6 = a := fld_eq (pk hwd hfit 2 rfl rfl rfl)
  have f3 : fld wd 18 6 = d := fld_eq (pk hwd hfit 3 rfl rfl rfl)
  have hm : wd / 2 ^ 24 % 2 ^ 7 = 0 := pk hwd hfit 4 rfl rfl rfl
  have he : bit wd 31 = e := bit_eq (pk hwd hfit 5 rfl rfl rfl)
  rw [short_00 hm, h32]
  simp only [decMajor00, k0, f1, f2, f3, he, and_self, ite_true, ite_false, reduceIte]

theorem RoundTrip.ssne (e : Bool) (d a b : BitVec 6) : RoundTrip.Statement (.ssne e d a b) := by
  intro _ _
  have hwd : encode (.ssne e d a b) = pack [6, 6, 6, 6, 7, 1] [21, b.toNat, a.toNat, d.toNat, 0, e.toNat] := by
    show word e 0x00000015 [put d 18, put a 12, put b 6] = _
    simp only [word, put, eBit_eq, pack]
    generalize b.toNat = v1; generalize a.toNat = v2; generalize d.toNat = v3; generalize e.toNat = v5; omega
  have hfit : Fits [6, 6, 6, 6, 7, 1] [21, b.toNat, a.toNat, d.toNat, 0, e.toNat] := ⟨by decide, b.isLt, a.isLt, d.isLt, by decide, e.toNat_lt, trivial⟩
  revert hwd hfit; generalize encode _ = wd; intro hw hfit
  have hwd := And.intro hw (show ([6, 6, 6, 6, 7, 1] : List Nat).length = ([21, b.toNat, a.toNat, d.toNat, 0, e.toNat] : List Nat).length from rfl)
  have h32 : wd % 2 ^ 32 = wd := pkw hwd hfit rfl
  have k0 : wd % 2 ^ 6 = 21 := pk0 hwd hfit rfl rfl
  have f1 : fld wd 6 6 = b := fld_eq (pk hwd hfit 1 rfl rfl rfl)
  have f2 : fld wd 12 6 = a := fld_eq (pk hwd hfit 2 rfl rfl rfl)
  have f3 : fld wd 18 6 = d := fld_eq (pk hwd hfit 3 rfl rfl rfl)
  have hm : wd / 2 ^ 24 % 2 ^ 7 = 0 := pk hwd hfit 4 rfl rfl rfl
  have he : bit wd 31 = e := bit_eq (pk hwd hfit 5 rfl rfl rfl)
  rw [short_00 hm, h32]
  simp only [decMajor00, k0, f1, f2, f3, he, and_self, ite_true, ite_false, reduceIte]

theorem RoundTrip.sslt (e : Bool) (d a b : BitVec 6) : RoundTrip.Statement (.sslt e d a b) := by
  intro _ _
  have hwd : encode (.sslt e d a b) = pack [6, 6, 6, 6, 7, 1] [22, b.toNat, a.toNat, d.toNat, 0, e.toNat] := by
    show word e 0x00000016 [put d 18, put a 12, put b 6] = _
    simp only [word, put, eBit_eq, pack]
    generalize b.toNat = v1; generalize a.toNat = v2; generalize d.toNat = v3; generalize e.toNat = v5; omega
  have hfit : Fits [6, 6, 6, 6, 7, 1] [22, b.toNat, a.toNat, d.toNat, 0, e.toNat] := ⟨by decide, b.isLt, a.isLt, d.isLt, by decide, e.toNat_lt, trivial⟩
  revert hwd hfit; generalize encode _ = wd; intro hw hfit
  have hwd := And.intro hw (show ([6, 6, 6, 6, 7, 1] : List Nat).length = ([22, b.toNat, a.toNat, d.toNat, 0, e.toNat] : List Nat).length from rfl)
  have h32 : wd % 2 ^ 32 = wd := pkw hwd hfit rfl
  have k0 : wd % 2 ^ 6 = 22 := pk0 hwd hfit rfl rfl
  have f1 : fld wd 6 6 = b := fld_eq (pk hwd hfit 1 rfl rfl rfl)
  have f2 : fld wd 12 6 = a := fld_eq (pk hwd hfit 2 rfl rfl rfl)
  have f3 : fld wd 18 6 = d := fld_eq (pk hwd hfit 3 rfl rfl rfl)
  have hm : wd / 2 ^ 24 % 2 ^ 7 = 0 := pk hwd hfit 4 rfl rfl rfl
  have he : bit wd 31 = e := bit_eq (pk hwd hfit 5 rfl rfl rfl)
  rw [short_00 hm, h32]
  simp only [decMajor00, k0, f1, f2, f3, he, and_self, ite_true, ite_false, reduceIte]

theorem RoundTrip.ssltu (e : Bool) (d a b : BitVec 6) : RoundTrip.Statement (.ssltu e d a b) := by
  intro _ _
  have hwd : encode (.ssltu e d a b) = pack [6, 6, 6, 6, 7, 1] [23, b.toNat, a.toNat, d.toNat, 0, e.toNat] := by
    show word e 0x00000017 [put d 18, put a 12, put b 6] = _
    simp only [word, put, eBit_eq, pack]
    generalize b.toNat = v1; generalize a.toNat = v2; generalize d.toNat = v3; generalize e.toNat = v5; omega
  have hfit : Fits [6, 6, 6, 6, 7, 1] [23, b.toNat, a.toNat, d.toNat, 0, e.toNat] := ⟨by decide, b.isLt, a.isLt, d.isLt, by decide, e.toNat_lt, trivial⟩
  revert hwd hfit; generalize encode _ = wd; intro hw hfit
  have hwd := And.intro hw (show ([6, 6, 6, 6, 7, 1] : List Nat).length = ([23, b.toNat, a.toNat, d.toNat, 0, e.toNat] : List Nat).length from rfl)
  have h32 : wd % 2 ^ 32 = wd := pkw hwd hfit rfl
  have k0 : wd % 2 ^ 6 = 23 := pk0 hwd hfit rfl rfl
  have f1 : fld wd 6 6 = b := fld_eq (pk hwd hfit 1 rfl rfl rfl)
  have f2 : fld wd 12 6 = a := fld_eq (pk hwd hfit 2 rfl rfl rfl)
  have f3 : fld wd 18 6 = d := fld_eq (pk hwd hfit 3 rfl rfl rfl)
  have hm : wd / 2 ^ 24 % 2 ^ 7 = 0 := pk hwd hfit 4 rfl rfl rfl
  have he : bit wd 31 = e := bit_eq (pk hwd hfit 5 rfl rfl rfl)
  rw [short_00 hm, h32]
  simp only [decMajor00, k0, f1, f2, f3, he, and_self, ite_true, ite_false, reduceIte]

theorem RoundTrip.ssle (e : Bool) (d a b : BitVec 6) : RoundTrip.Statement (.ssle e d a b) := by
  intro _ _
  have hwd : encode (.ssle e d a b) = pack [6, 6, 6, 6, 7, 1] [24, b.toNat, a.toNat, d.toNat, 0, e.toNat] := by
    show word e 0x00000018 [put d 18, put a 12, put b 6] = _
    simp only [word, put, eBit_eq, pack]
    generalize b.toNat = v1; generalize a.toNat = v2; generalize d.toNat = v3; generalize e.toNat = v5; omega
  have hfit : Fits [6, 6, 6, 6, 7, 1] [24, b.toNat, a.toNat, d.toNat, 0, e.toNat] := ⟨by decide, b.isLt, a.isLt, d.isLt, by decide, e.toNat_lt, trivial⟩
  revert hwd hfit; generalize encode _ = wd; intro hw hfit
  have hwd := And.intro hw (show ([6, 6, 6, 6, 7, 1] : List Nat).length = ([24, b.toNat, a.toNat, d.toNat, 0, e.toNat] : List Nat).length from rfl)
  have h32 : wd % 2 ^ 32 = wd := pkw hwd hfit rfl
  have k0 : wd % 2 ^ 6 = 24 := pk0 hwd hfit rfl rfl
  have f1 : fld wd 6 6 = b := fld_eq (pk hwd hfit 1 rfl rfl rfl)
  have f2 : fld wd 12 6 = a := fld_eq (pk hwd hfit 2 rfl rfl rfl)
  have f3 : fld wd 18 6 = d := fld_eq (pk hwd hfit 3 rfl rfl rfl)
  have hm : wd / 2 ^ 24 % 2 ^ 7 = 0 := pk hwd hfit 4 rfl rfl rfl
  have he : bit wd 31 = e := bit_eq (pk hwd hfit 5 rfl rfl rfl)
  rw [short_00 hm, h32]
  simp only [decMajor00, k0, f1, f2, f3, he, and_self, ite_true, ite_false, reduceIte]

theorem RoundTrip.ssleu (e : Bool) (d a b : BitVec 6) : RoundTrip.Statement (.ssleu e d a b) := by
  intro _ _
  have hwd : encode (.ssleu e d a b) = pack [6, 6, 6, 6, 7, 1] [25, b.toNat, a.toNat, d.toNat, 0, e.toNat] := by
    show word e 0x00000019 [put d 18, put a 12, put b 6] = _
    simp only [word, put, eBit_eq, pack]
    generalize b.toNat = v1; generalize a.toNat = v2; generalize d.toNat = v3; generalize e.toNat = v5; omega
  have hfit : Fits [6, 6, 6, 6, 7, 1] [25, b.toNat, a.toNat, d.toNat, 0, e.toNat] := ⟨by decide, b.isLt, a.isLt, d.isLt, by decide, e.toNat_lt, trivial⟩
  revert hwd hfit; generalize encode _ = wd; intro hw hfit
  have hwd := And.intro hw (show ([6, 6, 6, 6, 7, 1] : List Nat).length = ([25, b.toNat, a.toNat, d.toNat, 0, e.toNat] : List Nat).length from rfl)
  have h32 : wd % 2 ^ 32 = wd := pkw hwd hfit rfl
  have k0 : wd % 2 ^ 6 = 25 := pk0 hwd hfit rfl rfl
  have f1 : fld wd 6 6 = b := fld_eq (pk hwd hfit 1 rfl rfl rfl)
  have f2 : fld wd 12 6 = a := fld_eq (pk hwd hfit 2 rfl rfl rfl)
  have f3 : fld wd 18 6 = d := fld_eq (pk hwd hfit 3 rfl rfl rfl)
  have hm : wd / 2 ^ 24 % 2 ^ 7 = 0 := pk hwd hfit 4 rfl rfl rfl
  have he : bit wd 31 = e := bit_eq (pk hwd hfit 5 rfl rfl rfl)
  rw [short_00 hm, h32]
  simp only [decMajor00, k0, f1, f2, f3, he, and_self, ite_true, ite_false, reduceIte]

theorem RoundTrip.sclz (e : Bool) (d a : BitVec 6) : RoundTrip.Statement (.sclz e d a) := by
  intro _ _
  have hwd : encode (.sclz e d a) = pack [6, 6, 6, 6, 7, 1] [26, 0, a.toNat, d.toNat, 0, e.toNat] := by
    show word e 0x0000001A [put d 18, put a 12] = _
    simp only [word, put, eBit_eq, pack]
    generalize a.toNat = v2; generalize d.toNat = v3; generalize e.toNat = v5; omega
  have hfit : Fits [6, 6, 6, 6, 7, 1] [26, 0, a.toNat, d.toNat, 0, e.toNat] := ⟨by decide, by decide, a.isLt, d.isLt, by decide, e.toNat_lt, trivial⟩
  revert hwd hfit; generalize encode _ = wd; intro hw hfit
  have hwd := And.intro hw (show ([6, 6, 6, 6, 7, 1] : List Nat).length = ([26, 0, a.toNat, d.toNat, 0, e.toNat] : List Nat).length from rfl)
  have h32 : wd % 2 ^ 32 = wd := pkw hwd hfit rfl
  have k0 : wd % 2 ^ 6 = 26 := pk0 hwd hfit rfl rfl
  have k1 : wd / 2 ^ 6 % 2 ^ 6 = 0 := pk hwd hfit 1 rfl rfl rfl
  have f2 : fld wd 12 6 = a := fld_eq (pk hwd hfit 2 rfl rfl rfl)
  have f3 : fld wd 18 6 = d := fld_eq (pk hwd hfit 3 rfl rfl rfl)
  have hm : wd / 2 ^ 24 % 2 ^ 7 = 0 := pk hwd hfit 4 rfl rfl rfl
  have he : bit wd 31 = e := bit_eq (pk hwd hfit 5 rfl rfl rfl)
  rw [short_00 hm, h32]
  simp only [decMajor00, k0, k1, f2, f3, he, and_self, ite_true, ite_false, reduceIte]

theorem RoundTrip.sctz (e : Bool) (d a : BitVec 6) : RoundTrip.Statement (.sctz e d a) := by
  intro _ _
  have hwd : encode (.sctz e d a) = pack [6, 6, 6, 6, 7, 1] [27, 0, a.toNat, d.toNat, 0, e.toNat] := by
    show word e 0x0000001B [put d 18, put a 12] = _
    simp only [word, put, eBit_eq, pack]
    generalize a.toNat = v2; generalize d.toNat = v3; generalize e.toNat = v5; omega
  have hfit : Fits [6, 6, 6, 6, 7, 1] [27, 0, a.toNat, d.toNat, 0, e.toNat] := ⟨by decide, by decide, a.isLt, d.isLt, by decide, e.toNat_lt, trivial⟩
  revert hwd hfit; generalize encode _ = wd; intro hw hfit
  have hwd := And.intro hw (show ([6, 6, 6, 6, 7, 1] : List Nat).length = ([27, 0, a.toNat, d.toNat, 0, e.toNat] : List Nat).length from rfl)
  have h32 : wd % 2 ^ 32 = wd := pkw hwd hfit rfl
  have k0 : wd % 2 ^ 6 = 27 := pk0 hwd hfit rfl rfl
  have k1 : wd / 2 ^ 6 % 2 ^ 6 = 0 := pk hwd hfit 1 rfl rfl rfl
  have f2 : fld wd 12 6 = a := fld_eq (pk hwd hfit 2 rfl rfl rfl)
  have f3 : fld wd 18 6 = d := fld_eq (pk hwd hfit 3 rfl rfl rfl)
  have hm : wd / 2 ^ 24 % 2 ^ 7 = 0 := pk hwd hfit 4 rfl rfl rfl
  have he : bit wd 31 = e := bit_eq (pk hwd hfit 5 rfl rfl rfl)
  rw [short_00 hm, h32]
  simp only [decMajor00, k0, k1, f2, f3, he, and_self, ite_true, ite_false, reduceIte]

theorem RoundTrip.spopc (e : Bool) (d a : BitVec 6) : RoundTrip.Statement (.spopc e d a) := by
  intro _ _
  have hwd : encode (.spopc e d a) = pack [6, 6, 6, 6, 7, 1] [28, 0, a.toNat, d.toNat, 0, e.toNat] := by
    show word e 0x0000001C [put d 18, put a 12] = _
    simp only [word, put, eBit_eq, pack]
    generalize a.toNat = v2; generalize d.toNat = v3; generalize e.toNat = v5; omega
  have hfit : Fits [6, 6, 6, 6, 7, 1] [28, 0, a.toNat, d.toNat, 0, e.toNat] := ⟨by decide, by decide, a.isLt, d.isLt, by decide, e.toNat_lt, trivial⟩
  revert hwd hfit; generalize encode _ = wd; intro hw hfit
  have hwd := And.intro hw (show ([6, 6, 6, 6, 7, 1] : List Nat).length = ([28, 0, a.toNat, d.toNat, 0, e.toNat] : List Nat).length from rfl)
  have h32 : wd % 2 ^ 32 = wd := pkw hwd hfit rfl
  have k0 : wd % 2 ^ 6 = 28 := pk0 hwd hfit rfl rfl
  have k1 : wd / 2 ^ 6 % 2 ^ 6 = 0 := pk hwd hfit 1 rfl rfl rfl
  have f2 : fld wd 12 6 = a := fld_eq (pk hwd hfit 2 rfl rfl rfl)
  have f3 : fld wd 18 6 = d := fld_eq (pk hwd hfit 3 rfl rfl rfl)
  have hm : wd / 2 ^ 24 % 2 ^ 7 = 0 := pk hwd hfit 4 rfl rfl rfl
  have he : bit wd 31 = e := bit_eq (pk hwd hfit 5 rfl rfl rfl)
  rw [short_00 hm, h32]
  simp only [decMajor00, k0, k1, f2, f3, he, and_self, ite_true, ite_false, reduceIte]

theorem RoundTrip.sbrev (e : Bool) (d a : BitVec 6) : RoundTrip.Statement (.sbrev e d a) := by
  intro _ _
  have hwd : encode (.sbrev e d a) = pack [6, 6, 6, 6, 7, 1] [29, 0, a.toNat, d.toNat, 0, e.toNat] := by
    show word e 0x0000001D [put d 18, put a 12] = _
    simp only [word, put, eBit_eq, pack]
    generalize a.toNat = v2; generalize d.toNat = v3; generalize e.toNat = v5; omega
  have hfit : Fits [6, 6, 6, 6, 7, 1] [29, 0, a.toNat, d.toNat, 0, e.toNat] := ⟨by decide, by decide, a.isLt, d.isLt, by decide, e.toNat_lt, trivial⟩
  revert hwd hfit; generalize encode _ = wd; intro hw hfit
  have hwd := And.intro hw (show ([6, 6, 6, 6, 7, 1] : List Nat).length = ([29, 0, a.toNat, d.toNat, 0, e.toNat] : List Nat).length from rfl)
  have h32 : wd % 2 ^ 32 = wd := pkw hwd hfit rfl
  have k0 : wd % 2 ^ 6 = 29 := pk0 hwd hfit rfl rfl
  have k1 : wd / 2 ^ 6 % 2 ^ 6 = 0 := pk hwd hfit 1 rfl rfl rfl
  have f2 : fld wd 12 6 = a := fld_eq (pk hwd hfit 2 rfl rfl rfl)
  have f3 : fld wd 18 6 = d := fld_eq (pk hwd hfit 3 rfl rfl rfl)
  have hm : wd / 2 ^ 24 % 2 ^ 7 = 0 := pk hwd hfit 4 rfl rfl rfl
  have he : bit wd 31 = e := bit_eq (pk hwd hfit 5 rfl rfl rfl)
  rw [short_00 hm, h32]
  simp only [decMajor00, k0, k1, f2, f3, he, and_self, ite_true, ite_false, reduceIte]

theorem RoundTrip.ssext (e : Bool) (d a w : BitVec 6) : RoundTrip.Statement (.ssext e d a w) := by
  intro _ _
  have hwd : encode (.ssext e d a w) = pack [6, 6, 6, 6, 7, 1] [30, w.toNat, a.toNat, d.toNat, 0, e.toNat] := by
    show word e 0x0000001E [put d 18, put a 12, put w 6] = _
    simp only [word, put, eBit_eq, pack]
    generalize w.toNat = v1; generalize a.toNat = v2; generalize d.toNat = v3; generalize e.toNat = v5; omega
  have hfit : Fits [6, 6, 6, 6, 7, 1] [30, w.toNat, a.toNat, d.toNat, 0, e.toNat] := ⟨by decide, w.isLt, a.isLt, d.isLt, by decide, e.toNat_lt, trivial⟩
  revert hwd hfit; generalize encode _ = wd; intro hw hfit
  have hwd := And.intro hw (show ([6, 6, 6, 6, 7, 1] : List Nat).length = ([30, w.toNat, a.toNat, d.toNat, 0, e.toNat] : List Nat).length from rfl)
  have h32 : wd % 2 ^ 32 = wd := pkw hwd hfit rfl
  have k0 : wd % 2 ^ 6 = 30 := pk0 hwd hfit rfl rfl
  have f1 : fld wd 6 6 = w := fld_eq (pk hwd hfit 1 rfl rfl rfl)
  have f2 : fld wd 12 6 = a := fld_eq (pk hwd hfit 2 rfl rfl rfl)
  have f3 : fld wd 18 6 = d := fld_eq (pk hwd hfit 3 rfl rfl rfl)
  have hm : wd / 2 ^ 24 % 2 ^ 7 = 0 := pk hwd hfit 4 rfl rfl rfl
  have he : bit wd 31 = e := bit_eq (pk hwd hfit 5 rfl rfl rfl)
  rw [short_00 hm, h32]
  simp only [decMajor00, k0, f1, f2, f3, he, and_self, ite_true, ite_false, reduceIte]

theorem RoundTrip.szext (e : Bool) (d a w : BitVec 6) : RoundTrip.Statement (.szext e d a w) := by
  intro _ _
  have hwd : encode (.szext e d a w) = pack [6, 6, 6, 6, 7, 1] [31, w.toNat, a.toNat, d.toNat, 0, e.toNat] := by
    show word e 0x0000001F [put d 18, put a 12, put w 6] = _
    simp only [word, put, eBit_eq, pack]
    generalize w.toNat = v1; generalize a.toNat = v2; generalize d.toNat = v3; generalize e.toNat = v5; omega
  have hfit : Fits [6, 6, 6, 6, 7, 1] [31, w.toNat, a.toNat, d.toNat, 0, e.toNat] := ⟨by decide, w.isLt, a.isLt, d.isLt, by decide, e.toNat_lt, trivial⟩
  revert hwd hfit; generalize encode _ = wd; intro hw hfit
  have hwd := And.intro hw (show ([6, 6, 6, 6, 7, 1] : List Nat).length = ([31, w.toNat, a.toNat, d.toNat, 0, e.toNat] : List Nat).length from rfl)
  have h32 : wd % 2 ^ 32 = wd := pkw hwd hfit rfl
  have k0 : wd % 2 ^ 6 = 31 := pk0 hwd hfit rfl rfl
  have f1 : fld wd 6 6 = w := fld_eq (pk hwd hfit 1 rfl rfl rfl)
  have f2 : fld wd 12 6 = a := fld_eq (pk hwd hfit 2 rfl rfl rfl)
  have f3 : fld wd 18 6 = d := fld_eq (pk hwd hfit 3 rfl rfl rfl)
  have hm : wd / 2 ^ 24 % 2 ^ 7 = 0 := pk hwd hfit 4 rfl rfl rfl
  have he : bit wd 31 = e := bit_eq (pk hwd hfit 5 rfl rfl rfl)
  rw [short_00 hm, h32]
  simp only [decMajor00, k0, f1, f2, f3, he, and_self, ite_true, ite_false, reduceIte]

theorem RoundTrip.smov (e : Bool) (d a : BitVec 6) : RoundTrip.Statement (.smov e d a) := by
  intro _ _
  have hwd : encode (.smov e d a) = pack [6, 6, 6, 6, 7, 1] [32, 0, a.toNat, d.toNat, 0, e.toNat] := by
    show word e 0x00000020 [put d 18, put a 12] = _
    simp only [word, put, eBit_eq, pack]
    generalize a.toNat = v2; generalize d.toNat = v3; generalize e.toNat = v5; omega
  have hfit : Fits [6, 6, 6, 6, 7, 1] [32, 0, a.toNat, d.toNat, 0, e.toNat] := ⟨by decide, by decide, a.isLt, d.isLt, by decide, e.toNat_lt, trivial⟩
  revert hwd hfit; generalize encode _ = wd; intro hw hfit
  have hwd := And.intro hw (show ([6, 6, 6, 6, 7, 1] : List Nat).length = ([32, 0, a.toNat, d.toNat, 0, e.toNat] : List Nat).length from rfl)
  have h32 : wd % 2 ^ 32 = wd := pkw hwd hfit rfl
  have k0 : wd % 2 ^ 6 = 32 := pk0 hwd hfit rfl rfl
  have k1 : wd / 2 ^ 6 % 2 ^ 6 = 0 := pk hwd hfit 1 rfl rfl rfl
  have f2 : fld wd 12 6 = a := fld_eq (pk hwd hfit 2 rfl rfl rfl)
  have f3 : fld wd 18 6 = d := fld_eq (pk hwd hfit 3 rfl rfl rfl)
  have hm : wd / 2 ^ 24 % 2 ^ 7 = 0 := pk hwd hfit 4 rfl rfl rfl
  have he : bit wd 31 = e := bit_eq (pk hwd hfit 5 rfl rfl rfl)
  rw [short_00 hm, h32]
  simp only [decMajor00, k0, k1, f2, f3, he, and_self, ite_true, ite_false, reduceIte]

theorem RoundTrip.saddi (e : Bool) (d a : BitVec 6) (i : BitVec 12) : RoundTrip.Statement (.saddi e d a i) := by
  intro _ _
  have hwd : encode (.saddi e d a i) = pack [12, 6, 6, 7, 1] [i.toNat, a.toNat, d.toNat, 1, e.toNat] := by
    show word e 0x01000000 [put d 18, put a 12, put i 0] = _
    simp only [word, put, eBit_eq, pack]
    generalize i.toNat = v0; generalize a.toNat = v1; generalize d.toNat = v2; generalize e.toNat = v4; omega
  have hfit : Fits [12, 6, 6, 7, 1] [i.toNat, a.toNat, d.toNat, 1, e.toNat] := ⟨i.isLt, a.isLt, d.isLt, by decide, e.toNat_lt, trivial⟩
  revert hwd hfit; generalize encode _ = wd; intro hw hfit
  have hwd := And.intro hw (show ([12, 6, 6, 7, 1] : List Nat).length = ([i.toNat, a.toNat, d.toNat, 1, e.toNat] : List Nat).length from rfl)
  have h32 : wd % 2 ^ 32 = wd := pkw hwd hfit rfl
  have f0 : fld wd 0 12 = i := fld_eq (pk hwd hfit 0 rfl rfl rfl)
  have f1 : fld wd 12 6 = a := fld_eq (pk hwd hfit 1 rfl rfl rfl)
  have f2 : fld wd 18 6 = d := fld_eq (pk hwd hfit 2 rfl rfl rfl)
  have hm : wd / 2 ^ 24 % 2 ^ 7 = 1 := pk hwd hfit 3 rfl rfl rfl
  have he : bit wd 31 = e := bit_eq (pk hwd hfit 4 rfl rfl rfl)
  rw [short_01 hm, h32]
  simp only [decMajor01, f0, f1, f2, he, and_self, ite_true, ite_false, reduceIte]

theorem RoundTrip.sandi (e : Bool) (d a : BitVec 6) (i : BitVec 12) : RoundTrip.Statement (.sandi e d a i) := by
  intro _ _
  have hwd : encode (.sandi e d a i) = pack [12, 6, 6, 7, 1] [i.toNat, a.toNat, d.toNat, 2, e.toNat] := by
    show word e 0x02000000 [put d 18, put a 12, put i 0] = _
    simp only [word, put, eBit_eq, pack]
    generalize i.toNat = v0; generalize a.toNat = v1; generalize d.toNat = v2; generalize e.toNat = v4; omega
  have hfit : Fits [12, 6, 6, 7, 1] [i.toNat, a.toNat, d.toNat, 2, e.toNat] := ⟨i.isLt, a.isLt, d.isLt, by decide, e.toNat_lt, trivial⟩
  revert hwd hfit; generalize encode _ = wd; intro hw hfit
  have hwd := And.intro hw (show ([12, 6, 6, 7, 1] : List Nat).length = ([i.toNat, a.toNat, d.toNat, 2, e.toNat] : List Nat).length from rfl)
  have h32 : wd % 2 ^ 32 = wd := pkw hwd hfit rfl
  have f0 : fld wd 0 12 = i := fld_eq (pk hwd hfit 0 rfl rfl rfl)
  have f1 : fld wd 12 6 = a := fld_eq (pk hwd hfit 1 rfl rfl rfl)
  have f2 : fld wd 18 6 = d := fld_eq (pk hwd hfit 2 rfl rfl rfl)
  have hm : wd / 2 ^ 24 % 2 ^ 7 = 2 := pk hwd hfit 3 rfl rfl rfl
  have he : bit wd 31 = e := bit_eq (pk hwd hfit 4 rfl rfl rfl)
  rw [short_02 hm, h32]
  simp only [decMajor02, f0, f1, f2, he, and_self, ite_true, ite_false, reduceIte]

theorem RoundTrip.sori (e : Bool) (d a : BitVec 6) (i : BitVec 12) : RoundTrip.Statement (.sori e d a i) := by
  intro _ _
  have hwd : encode (.sori e d a i) = pack [12, 6, 6, 7, 1] [i.toNat, a.toNat, d.toNat, 3, e.toNat] := by
    show word e 0x03000000 [put d 18, put a 12, put i 0] = _
    simp only [word, put, eBit_eq, pack]
    generalize i.toNat = v0; generalize a.toNat = v1; generalize d.toNat = v2; generalize e.toNat = v4; omega
  have hfit : Fits [12, 6, 6, 7, 1] [i.toNat, a.toNat, d.toNat, 3, e.toNat] := ⟨i.isLt, a.isLt, d.isLt, by decide, e.toNat_lt, trivial⟩
  revert hwd hfit; generalize encode _ = wd; intro hw hfit
  have hwd := And.intro hw (show ([12, 6, 6, 7, 1] : List Nat).length = ([i.toNat, a.toNat, d.toNat, 3, e.toNat] : List Nat).length from rfl)
  have h32 : wd % 2 ^ 32 = wd := pkw hwd hfit rfl
  have f0 : fld wd 0 12 = i := fld_eq (pk hwd hfit 0 rfl rfl rfl)
  have f1 : fld wd 12 6 = a := fld_eq (pk hwd hfit 1 rfl rfl rfl)
  have f2 : fld wd 18 6 = d := fld_eq (pk hwd hfit 2 rfl rfl rfl)
  have hm : wd / 2 ^ 24 % 2 ^ 7 = 3 := pk hwd hfit 3 rfl rfl rfl
  have he : bit wd 31 = e := bit_eq (pk hwd hfit 4 rfl rfl rfl)
  rw [short_03 hm, h32]
  simp only [decMajor03, f0, f1, f2, he, and_self, ite_true, ite_false, reduceIte]

theorem RoundTrip.sxori (e : Bool) (d a : BitVec 6) (i : BitVec 12) : RoundTrip.Statement (.sxori e d a i) := by
  intro _ _
  have hwd : encode (.sxori e d a i) = pack [12, 6, 6, 7, 1] [i.toNat, a.toNat, d.toNat, 4, e.toNat] := by
    show word e 0x04000000 [put d 18, put a 12, put i 0] = _
    simp only [word, put, eBit_eq, pack]
    generalize i.toNat = v0; generalize a.toNat = v1; generalize d.toNat = v2; generalize e.toNat = v4; omega
  have hfit : Fits [12, 6, 6, 7, 1] [i.toNat, a.toNat, d.toNat, 4, e.toNat] := ⟨i.isLt, a.isLt, d.isLt, by decide, e.toNat_lt, trivial⟩
  revert hwd hfit; generalize encode _ = wd; intro hw hfit
  have hwd := And.intro hw (show ([12, 6, 6, 7, 1] : List Nat).length = ([i.toNat, a.toNat, d.toNat, 4, e.toNat] : List Nat).length from rfl)
  have h32 : wd % 2 ^ 32 = wd := pkw hwd hfit rfl
  have f0 : fld wd 0 12 = i := fld_eq (pk hwd hfit 0 rfl rfl rfl)
  have f1 : fld wd 12 6 = a := fld_eq (pk hwd hfit 1 rfl rfl rfl)
  have f2 : fld wd 18 6 = d := fld_eq (pk hwd hfit 2 rfl rfl rfl)
  have hm : wd / 2 ^ 24 % 2 ^ 7 = 4 := pk hwd hfit 3 rfl rfl rfl
  have he : bit wd 31 = e := bit_eq (pk hwd hfit 4 rfl rfl rfl)
  rw [short_04 hm, h32]
  simp only [decMajor04, f0, f1, f2, he, and_self, ite_true, ite_false, reduceIte]

theorem RoundTrip.sshli (e : Bool) (d a n : BitVec 6) : RoundTrip.Statement (.sshli e d a n) := by
  intro _ _
  have hwd : encode (.sshli e d a n) = pack [6, 2, 4, 6, 6, 7, 1] [n.toNat, 0, 0, a.toNat, d.toNat, 5, e.toNat] := by
    show word e 0x05000000 [put d 18, put a 12, put n 0] = _
    simp only [word, put, eBit_eq, pack]
    generalize n.toNat = v0; generalize a.toNat = v3; generalize d.toNat = v4; generalize e.toNat = v6; omega
  have hfit : Fits [6, 2, 4, 6, 6, 7, 1] [n.toNat, 0, 0, a.toNat, d.toNat, 5, e.toNat] := ⟨n.isLt, by decide, by decide, a.isLt, d.isLt, by decide, e.toNat_lt, trivial⟩
  revert hwd hfit; generalize encode _ = wd; intro hw hfit
  have hwd := And.intro hw (show ([6, 2, 4, 6, 6, 7, 1] : List Nat).length = ([n.toNat, 0, 0, a.toNat, d.toNat, 5, e.toNat] : List Nat).length from rfl)
  have h32 : wd % 2 ^ 32 = wd := pkw hwd hfit rfl
  have f0 : fld wd 0 6 = n := fld_eq (pk hwd hfit 0 rfl rfl rfl)
  have k1 : wd / 2 ^ 6 % 2 ^ 2 = 0 := pk hwd hfit 1 rfl rfl rfl
  have k2 : wd / 2 ^ 8 % 2 ^ 4 = 0 := pk hwd hfit 2 rfl rfl rfl
  have f3 : fld wd 12 6 = a := fld_eq (pk hwd hfit 3 rfl rfl rfl)
  have f4 : fld wd 18 6 = d := fld_eq (pk hwd hfit 4 rfl rfl rfl)
  have hm : wd / 2 ^ 24 % 2 ^ 7 = 5 := pk hwd hfit 5 rfl rfl rfl
  have he : bit wd 31 = e := bit_eq (pk hwd hfit 6 rfl rfl rfl)
  rw [short_05 hm, h32]
  simp only [decMajor05, f0, k1, k2, f3, f4, he, and_self, ite_true, ite_false, reduceIte]

theorem RoundTrip.sshri (e : Bool) (d a n : BitVec 6) : RoundTrip.Statement (.sshri e d a n) := by
  intro _ _
  have hwd : encode (.sshri e d a n) = pack [6, 2, 4, 6, 6, 7, 1] [n.toNat, 1, 0, a.toNat, d.toNat, 5, e.toNat] := by
    show word e 0x05000040 [put d 18, put a 12, put n 0] = _
    simp only [word, put, eBit_eq, pack]
    generalize n.toNat = v0; generalize a.toNat = v3; generalize d.toNat = v4; generalize e.toNat = v6; omega
  have hfit : Fits [6, 2, 4, 6, 6, 7, 1] [n.toNat, 1, 0, a.toNat, d.toNat, 5, e.toNat] := ⟨n.isLt, by decide, by decide, a.isLt, d.isLt, by decide, e.toNat_lt, trivial⟩
  revert hwd hfit; generalize encode _ = wd; intro hw hfit
  have hwd := And.intro hw (show ([6, 2, 4, 6, 6, 7, 1] : List Nat).length = ([n.toNat, 1, 0, a.toNat, d.toNat, 5, e.toNat] : List Nat).length from rfl)
  have h32 : wd % 2 ^ 32 = wd := pkw hwd hfit rfl
  have f0 : fld wd 0 6 = n := fld_eq (pk hwd hfit 0 rfl rfl rfl)
  have k1 : wd / 2 ^ 6 % 2 ^ 2 = 1 := pk hwd hfit 1 rfl rfl rfl
  have k2 : wd / 2 ^ 8 % 2 ^ 4 = 0 := pk hwd hfit 2 rfl rfl rfl
  have f3 : fld wd 12 6 = a := fld_eq (pk hwd hfit 3 rfl rfl rfl)
  have f4 : fld wd 18 6 = d := fld_eq (pk hwd hfit 4 rfl rfl rfl)
  have hm : wd / 2 ^ 24 % 2 ^ 7 = 5 := pk hwd hfit 5 rfl rfl rfl
  have he : bit wd 31 = e := bit_eq (pk hwd hfit 6 rfl rfl rfl)
  rw [short_05 hm, h32]
  simp only [decMajor05, f0, k1, k2, f3, f4, he, and_self, ite_true, ite_false, reduceIte]

theorem RoundTrip.ssrai (e : Bool) (d a n : BitVec 6) : RoundTrip.Statement (.ssrai e d a n) := by
  intro _ _
  have hwd : encode (.ssrai e d a n) = pack [6, 2, 4, 6, 6, 7, 1] [n.toNat, 2, 0, a.toNat, d.toNat, 5, e.toNat] := by
    show word e 0x05000080 [put d 18, put a 12, put n 0] = _
    simp only [word, put, eBit_eq, pack]
    generalize n.toNat = v0; generalize a.toNat = v3; generalize d.toNat = v4; generalize e.toNat = v6; omega
  have hfit : Fits [6, 2, 4, 6, 6, 7, 1] [n.toNat, 2, 0, a.toNat, d.toNat, 5, e.toNat] := ⟨n.isLt, by decide, by decide, a.isLt, d.isLt, by decide, e.toNat_lt, trivial⟩
  revert hwd hfit; generalize encode _ = wd; intro hw hfit
  have hwd := And.intro hw (show ([6, 2, 4, 6, 6, 7, 1] : List Nat).length = ([n.toNat, 2, 0, a.toNat, d.toNat, 5, e.toNat] : List Nat).length from rfl)
  have h32 : wd % 2 ^ 32 = wd := pkw hwd hfit rfl
  have f0 : fld wd 0 6 = n := fld_eq (pk hwd hfit 0 rfl rfl rfl)
  have k1 : wd / 2 ^ 6 % 2 ^ 2 = 2 := pk hwd hfit 1 rfl rfl rfl
  have k2 : wd / 2 ^ 8 % 2 ^ 4 = 0 := pk hwd hfit 2 rfl rfl rfl
  have f3 : fld wd 12 6 = a := fld_eq (pk hwd hfit 3 rfl rfl rfl)
  have f4 : fld wd 18 6 = d := fld_eq (pk hwd hfit 4 rfl rfl rfl)
  have hm : wd / 2 ^ 24 % 2 ^ 7 = 5 := pk hwd hfit 5 rfl rfl rfl
  have he : bit wd 31 = e := bit_eq (pk hwd hfit 6 rfl rfl rfl)
  rw [short_05 hm, h32]
  simp only [decMajor05, f0, k1, k2, f3, f4, he, and_self, ite_true, ite_false, reduceIte]

theorem RoundTrip.sslti (e : Bool) (d a : BitVec 6) (i : BitVec 11) : RoundTrip.Statement (.sslti e d a i) := by
  intro _ _
  have hwd : encode (.sslti e d a i) = pack [11, 1, 6, 6, 7, 1] [i.toNat, 0, a.toNat, d.toNat, 6, e.toNat] := by
    show word e 0x06000000 [put d 18, put a 12, put i 0] = _
    simp only [word, put, eBit_eq, pack]
    generalize i.toNat = v0; generalize a.toNat = v2; generalize d.toNat = v3; generalize e.toNat = v5; omega
  have hfit : Fits [11, 1, 6, 6, 7, 1] [i.toNat, 0, a.toNat, d.toNat, 6, e.toNat] := ⟨i.isLt, by decide, a.isLt, d.isLt, by decide, e.toNat_lt, trivial⟩
  revert hwd hfit; generalize encode _ = wd; intro hw hfit
  have hwd := And.intro hw (show ([11, 1, 6, 6, 7, 1] : List Nat).length = ([i.toNat, 0, a.toNat, d.toNat, 6, e.toNat] : List Nat).length from rfl)
  have h32 : wd % 2 ^ 32 = wd := pkw hwd hfit rfl
  have f0 : fld wd 0 11 = i := fld_eq (pk hwd hfit 0 rfl rfl rfl)
  have k1 : wd / 2 ^ 11 % 2 ^ 1 = 0 := pk hwd hfit 1 rfl rfl rfl
  have f2 : fld wd 12 6 = a := fld_eq (pk hwd hfit 2 rfl rfl rfl)
  have f3 : fld wd 18 6 = d := fld_eq (pk hwd hfit 3 rfl rfl rfl)
  have hm : wd / 2 ^ 24 % 2 ^ 7 = 6 := pk hwd hfit 4 rfl rfl rfl
  have he : bit wd 31 = e := bit_eq (pk hwd hfit 5 rfl rfl rfl)
  rw [short_06 hm, h32]
  simp only [decMajor06, f0, k1, f2, f3, he, and_self, ite_true, ite_false, reduceIte]

theorem RoundTrip.ssltui (e : Bool) (d a : BitVec 6) (i : BitVec 11) : RoundTrip.Statement (.ssltui e d a i) := by
  intro _ _
  have hwd : encode (.ssltui e d a i) = pack [11, 1, 6, 6, 7, 1] [i.toNat, 1, a.toNat, d.toNat, 6, e.toNat] := by
    show word e 0x06000800 [put d 18, put a 12, put i 0] = _
    simp only [word, put, eBit_eq, pack]
    generalize i.toNat = v0; generalize a.toNat = v2; generalize d.toNat = v3; generalize e.toNat = v5; omega
  have hfit : Fits [11, 1, 6, 6, 7, 1] [i.toNat, 1, a.toNat, d.toNat, 6, e.toNat] := ⟨i.isLt, by decide, a.isLt, d.isLt, by decide, e.toNat_lt, trivial⟩
  revert hwd hfit; generalize encode _ = wd; intro hw hfit
  have hwd := And.intro hw (show ([11, 1, 6, 6, 7, 1] : List Nat).length = ([i.toNat, 1, a.toNat, d.toNat, 6, e.toNat] : List Nat).length from rfl)
  have h32 : wd % 2 ^ 32 = wd := pkw hwd hfit rfl
  have f0 : fld wd 0 11 = i := fld_eq (pk hwd hfit 0 rfl rfl rfl)
  have k1 : wd / 2 ^ 11 % 2 ^ 1 = 1 := pk hwd hfit 1 rfl rfl rfl
  have f2 : fld wd 12 6 = a := fld_eq (pk hwd hfit 2 rfl rfl rfl)
  have f3 : fld wd 18 6 = d := fld_eq (pk hwd hfit 3 rfl rfl rfl)
  have hm : wd / 2 ^ 24 % 2 ^ 7 = 6 := pk hwd hfit 4 rfl rfl rfl
  have he : bit wd 31 = e := bit_eq (pk hwd hfit 5 rfl rfl rfl)
  rw [short_06 hm, h32]
  simp only [decMajor06, f0, k1, f2, f3, he, and_self, ite_true, ite_false, reduceIte]

theorem RoundTrip.sli (e : Bool) (d : BitVec 6) (i : BitVec 18) : RoundTrip.Statement (.sli e d i) := by
  intro _ _
  have hwd : encode (.sli e d i) = pack [18, 6, 7, 1] [i.toNat, d.toNat, 7, e.toNat] := by
    show word e 0x07000000 [put d 18, put i 0] = _
    simp only [word, put, eBit_eq, pack]
    generalize i.toNat = v0; generalize d.toNat = v1; generalize e.toNat = v3; omega
  have hfit : Fits [18, 6, 7, 1] [i.toNat, d.toNat, 7, e.toNat] := ⟨i.isLt, d.isLt, by decide, e.toNat_lt, trivial⟩
  revert hwd hfit; generalize encode _ = wd; intro hw hfit
  have hwd := And.intro hw (show ([18, 6, 7, 1] : List Nat).length = ([i.toNat, d.toNat, 7, e.toNat] : List Nat).length from rfl)
  have h32 : wd % 2 ^ 32 = wd := pkw hwd hfit rfl
  have f0 : fld wd 0 18 = i := fld_eq (pk hwd hfit 0 rfl rfl rfl)
  have f1 : fld wd 18 6 = d := fld_eq (pk hwd hfit 1 rfl rfl rfl)
  have hm : wd / 2 ^ 24 % 2 ^ 7 = 7 := pk hwd hfit 2 rfl rfl rfl
  have he : bit wd 31 = e := bit_eq (pk hwd hfit 3 rfl rfl rfl)
  rw [short_07 hm, h32]
  simp only [decMajor07, f0, f1, he, and_self, ite_true, ite_false, reduceIte]

theorem RoundTrip.slhi (e : Bool) (d : BitVec 6) (i : BitVec 18) : RoundTrip.Statement (.slhi e d i) := by
  intro _ _
  have hwd : encode (.slhi e d i) = pack [18, 6, 7, 1] [i.toNat, d.toNat, 8, e.toNat] := by
    show word e 0x08000000 [put d 18, put i 0] = _
    simp only [word, put, eBit_eq, pack]
    generalize i.toNat = v0; generalize d.toNat = v1; generalize e.toNat = v3; omega
  have hfit : Fits [18, 6, 7, 1] [i.toNat, d.toNat, 8, e.toNat] := ⟨i.isLt, d.isLt, by decide, e.toNat_lt, trivial⟩
  revert hwd hfit; generalize encode _ = wd; intro hw hfit
  have hwd := And.intro hw (show ([18, 6, 7, 1] : List Nat).length = ([i.toNat, d.toNat, 8, e.toNat] : List Nat).length from rfl)
  have h32 : wd % 2 ^ 32 = wd := pkw hwd hfit rfl
  have f0 : fld wd 0 18 = i := fld_eq (pk hwd hfit 0 rfl rfl rfl)
  have f1 : fld wd 18 6 = d := fld_eq (pk hwd hfit 1 rfl rfl rfl)
  have hm : wd / 2 ^ 24 % 2 ^ 7 = 8 := pk hwd hfit 2 rfl rfl rfl
  have he : bit wd 31 = e := bit_eq (pk hwd hfit 3 rfl rfl rfl)
  rw [short_08 hm, h32]
  simp only [decMajor08, f0, f1, he, and_self, ite_true, ite_false, reduceIte]

theorem RoundTrip.sadr (e : Bool) (d a b : BitVec 6) (s : BitVec 3) : RoundTrip.Statement (.sadr e d a b s) := by
  intro _ _
  have hwd : encode (.sadr e d a b s) = pack [3, 3, 6, 6, 6, 7, 1] [s.toNat, 0, b.toNat, a.toNat, d.toNat, 9, e.toNat] := by
    show word e 0x09000000 [put d 18, put a 12, put b 6, put s 0] = _
    simp only [word, put, eBit_eq, pack]
    generalize s.toNat = v0; generalize b.toNat = v2; generalize a.toNat = v3; generalize d.toNat = v4; generalize e.toNat = v6; omega
  have hfit : Fits [3, 3, 6, 6, 6, 7, 1] [s.toNat, 0, b.toNat, a.toNat, d.toNat, 9, e.toNat] := ⟨s.isLt, by decide, b.isLt, a.isLt, d.isLt, by decide, e.toNat_lt, trivial⟩
  revert hwd hfit; generalize encode _ = wd; intro hw hfit
  have hwd := And.intro hw (show ([3, 3, 6, 6, 6, 7, 1] : List Nat).length = ([s.toNat, 0, b.toNat, a.toNat, d.toNat, 9, e.toNat] : List Nat).length from rfl)
  have h32 : wd % 2 ^ 32 = wd := pkw hwd hfit rfl
  have f0 : fld wd 0 3 = s := fld_eq (pk hwd hfit 0 rfl rfl rfl)
  have k1 : wd / 2 ^ 3 % 2 ^ 3 = 0 := pk hwd hfit 1 rfl rfl rfl
  have f2 : fld wd 6 6 = b := fld_eq (pk hwd hfit 2 rfl rfl rfl)
  have f3 : fld wd 12 6 = a := fld_eq (pk hwd hfit 3 rfl rfl rfl)
  have f4 : fld wd 18 6 = d := fld_eq (pk hwd hfit 4 rfl rfl rfl)
  have hm : wd / 2 ^ 24 % 2 ^ 7 = 9 := pk hwd hfit 5 rfl rfl rfl
  have he : bit wd 31 = e := bit_eq (pk hwd hfit 6 rfl rfl rfl)
  rw [short_09 hm, h32]
  simp only [decMajor09, f0, k1, f2, f3, f4, he, and_self, ite_true, ite_false, reduceIte]

theorem RoundTrip.sadrPc (e : Bool) (d b : BitVec 6) (s : BitVec 3) : RoundTrip.Statement (.sadrPc e d b s) := by
  intro _ _
  have hwd : encode (.sadrPc e d b s) = pack [3, 3, 6, 6, 6, 7, 1] [s.toNat, 1, b.toNat, 0, d.toNat, 9, e.toNat] := by
    show word e 0x09000008 [put d 18, put b 6, put s 0] = _
    simp only [word, put, eBit_eq, pack]
    generalize s.toNat = v0; generalize b.toNat = v2; generalize d.toNat = v4; generalize e.toNat = v6; omega
  have hfit : Fits [3, 3, 6, 6, 6, 7, 1] [s.toNat, 1, b.toNat, 0, d.toNat, 9, e.toNat] := ⟨s.isLt, by decide, b.isLt, by decide, d.isLt, by decide, e.toNat_lt, trivial⟩
  revert hwd hfit; generalize encode _ = wd; intro hw hfit
  have hwd := And.intro hw (show ([3, 3, 6, 6, 6, 7, 1] : List Nat).length = ([s.toNat, 1, b.toNat, 0, d.toNat, 9, e.toNat] : List Nat).length from rfl)
  have h32 : wd % 2 ^ 32 = wd := pkw hwd hfit rfl
  have f0 : fld wd 0 3 = s := fld_eq (pk hwd hfit 0 rfl rfl rfl)
  have k1 : wd / 2 ^ 3 % 2 ^ 3 = 1 := pk hwd hfit 1 rfl rfl rfl
  have f2 : fld wd 6 6 = b := fld_eq (pk hwd hfit 2 rfl rfl rfl)
  have k3 : wd / 2 ^ 12 % 2 ^ 6 = 0 := pk hwd hfit 3 rfl rfl rfl
  have f4 : fld wd 18 6 = d := fld_eq (pk hwd hfit 4 rfl rfl rfl)
  have hm : wd / 2 ^ 24 % 2 ^ 7 = 9 := pk hwd hfit 5 rfl rfl rfl
  have he : bit wd 31 = e := bit_eq (pk hwd hfit 6 rfl rfl rfl)
  rw [short_09 hm, h32]
  simp only [decMajor09, f0, k1, f2, k3, f4, he, and_self, ite_true, ite_false, reduceIte]

theorem RoundTrip.sadrLoc (e : Bool) (d a b : BitVec 6) (s : BitVec 3) : RoundTrip.Statement (.sadrLoc e d a b s) := by
  intro _ _
  have hwd : encode (.sadrLoc e d a b s) = pack [3, 3, 6, 6, 6, 7, 1] [s.toNat, 2, b.toNat, a.toNat, d.toNat, 9, e.toNat] := by
    show word e 0x09000010 [put d 18, put a 12, put b 6, put s 0] = _
    simp only [word, put, eBit_eq, pack]
    generalize s.toNat = v0; generalize b.toNat = v2; generalize a.toNat = v3; generalize d.toNat = v4; generalize e.toNat = v6; omega
  have hfit : Fits [3, 3, 6, 6, 6, 7, 1] [s.toNat, 2, b.toNat, a.toNat, d.toNat, 9, e.toNat] := ⟨s.isLt, by decide, b.isLt, a.isLt, d.isLt, by decide, e.toNat_lt, trivial⟩
  revert hwd hfit; generalize encode _ = wd; intro hw hfit
  have hwd := And.intro hw (show ([3, 3, 6, 6, 6, 7, 1] : List Nat).length = ([s.toNat, 2, b.toNat, a.toNat, d.toNat, 9, e.toNat] : List Nat).length from rfl)
  have h32 : wd % 2 ^ 32 = wd := pkw hwd hfit rfl
  have f0 : fld wd 0 3 = s := fld_eq (pk hwd hfit 0 rfl rfl rfl)
  have k1 : wd / 2 ^ 3 % 2 ^ 3 = 2 := pk hwd hfit 1 rfl rfl rfl
  have f2 : fld wd 6 6 = b := fld_eq (pk hwd hfit 2 rfl rfl rfl)
  have f3 : fld wd 12 6 = a := fld_eq (pk hwd hfit 3 rfl rfl rfl)
  have f4 : fld wd 18 6 = d := fld_eq (pk hwd hfit 4 rfl rfl rfl)
  have hm : wd / 2 ^ 24 % 2 ^ 7 = 9 := pk hwd hfit 5 rfl rfl rfl
  have he : bit wd 31 = e := bit_eq (pk hwd hfit 6 rfl rfl rfl)
  rw [short_09 hm, h32]
  simp only [decMajor09, f0, k1, f2, f3, f4, he, and_self, ite_true, ite_false, reduceIte]

theorem RoundTrip.sadrCw (e : Bool) (d a b : BitVec 6) (s : BitVec 3) : RoundTrip.Statement (.sadrCw e d a b s) := by
  intro _ _
  have hwd : encode (.sadrCw e d a b s) = pack [3, 3, 6, 6, 6, 7, 1] [s.toNat, 3, b.toNat, a.toNat, d.toNat, 9, e.toNat] := by
    show word e 0x09000018 [put d 18, put a 12, put b 6, put s 0] = _
    simp only [word, put, eBit_eq, pack]
    generalize s.toNat = v0; generalize b.toNat = v2; generalize a.toNat = v3; generalize d.toNat = v4; generalize e.toNat = v6; omega
  have hfit : Fits [3, 3, 6, 6, 6, 7, 1] [s.toNat, 3, b.toNat, a.toNat, d.toNat, 9, e.toNat] := ⟨s.isLt, by decide, b.isLt, a.isLt, d.isLt, by decide, e.toNat_lt, trivial⟩
  revert hwd hfit; generalize encode _ = wd; intro hw hfit
  have hwd := And.intro hw (show ([3, 3, 6, 6, 6, 7, 1] : List Nat).length = ([s.toNat, 3, b.toNat, a.toNat, d.toNat, 9, e.toNat] : List Nat).length from rfl)
  have h32 : wd % 2 ^ 32 = wd := pkw hwd hfit rfl
  have f0 : fld wd 0 3 = s := fld_eq (pk hwd hfit 0 rfl rfl rfl)
  have k1 : wd / 2 ^ 3 % 2 ^ 3 = 3 := pk hwd hfit 1 rfl rfl rfl
  have f2 : fld wd 6 6 = b := fld_eq (pk hwd hfit 2 rfl rfl rfl)
  have f3 : fld wd 12 6 = a := fld_eq (pk hwd hfit 3 rfl rfl rfl)
  have f4 : fld wd 18 6 = d := fld_eq (pk hwd hfit 4 rfl rfl rfl)
  have hm : wd / 2 ^ 24 % 2 ^ 7 = 9 := pk hwd hfit 5 rfl rfl rfl
  have he : bit wd 31 = e := bit_eq (pk hwd hfit 6 rfl rfl rfl)
  rw [short_09 hm, h32]
  simp only [decMajor09, f0, k1, f2, f3, f4, he, and_self, ite_true, ite_false, reduceIte]

theorem RoundTrip.sadrWs (e : Bool) (d a b : BitVec 6) (s : BitVec 3) : RoundTrip.Statement (.sadrWs e d a b s) := by
  intro _ _
  have hwd : encode (.sadrWs e d a b s) = pack [3, 3, 6, 6, 6, 7, 1] [s.toNat, 4, b.toNat, a.toNat, d.toNat, 9, e.toNat] := by
    show word e 0x09000020 [put d 18, put a 12, put b 6, put s 0] = _
    simp only [word, put, eBit_eq, pack]
    generalize s.toNat = v0; generalize b.toNat = v2; generalize a.toNat = v3; generalize d.toNat = v4; generalize e.toNat = v6; omega
  have hfit : Fits [3, 3, 6, 6, 6, 7, 1] [s.toNat, 4, b.toNat, a.toNat, d.toNat, 9, e.toNat] := ⟨s.isLt, by decide, b.isLt, a.isLt, d.isLt, by decide, e.toNat_lt, trivial⟩
  revert hwd hfit; generalize encode _ = wd; intro hw hfit
  have hwd := And.intro hw (show ([3, 3, 6, 6, 6, 7, 1] : List Nat).length = ([s.toNat, 4, b.toNat, a.toNat, d.toNat, 9, e.toNat] : List Nat).length from rfl)
  have h32 : wd % 2 ^ 32 = wd := pkw hwd hfit rfl
  have f0 : fld wd 0 3 = s := fld_eq (pk hwd hfit 0 rfl rfl rfl)
  have k1 : wd / 2 ^ 3 % 2 ^ 3 = 4 := pk hwd hfit 1 rfl rfl rfl
  have f2 : fld wd 6 6 = b := fld_eq (pk hwd hfit 2 rfl rfl rfl)
  have f3 : fld wd 12 6 = a := fld_eq (pk hwd hfit 3 rfl rfl rfl)
  have f4 : fld wd 18 6 = d := fld_eq (pk hwd hfit 4 rfl rfl rfl)
  have hm : wd / 2 ^ 24 % 2 ^ 7 = 9 := pk hwd hfit 5 rfl rfl rfl
  have he : bit wd 31 = e := bit_eq (pk hwd hfit 6 rfl rfl rfl)
  rw [short_09 hm, h32]
  simp only [decMajor09, f0, k1, f2, f3, f4, he, and_self, ite_true, ite_false, reduceIte]

theorem RoundTrip.sfadd (e : Bool) (d a b : BitVec 6) (t : BitVec 1) : RoundTrip.Statement (.sfadd e d a b t) := by
  intro _ _
  have hwd : encode (.sfadd e d a b t) = pack [1, 5, 6, 6, 6, 7, 1] [t.toNat, 0, b.toNat, a.toNat, d.toNat, 10, e.toNat] := by
    show word e 0x0A000000 [put d 18, put a 12, put b 6, put t 0] = _
    simp only [word, put, eBit_eq, pack]
    generalize t.toNat = v0; generalize b.toNat = v2; generalize a.toNat = v3; generalize d.toNat = v4; generalize e.toNat = v6; omega
  have hfit : Fits [1, 5, 6, 6, 6, 7, 1] [t.toNat, 0, b.toNat, a.toNat, d.toNat, 10, e.toNat] := ⟨t.isLt, by decide, b.isLt, a.isLt, d.isLt, by decide, e.toNat_lt, trivial⟩
  revert hwd hfit; generalize encode _ = wd; intro hw hfit
  have hwd := And.intro hw (show ([1, 5, 6, 6, 6, 7, 1] : List Nat).length = ([t.toNat, 0, b.toNat, a.toNat, d.toNat, 10, e.toNat] : List Nat).length from rfl)
  have h32 : wd % 2 ^ 32 = wd := pkw hwd hfit rfl
  have f0 : fld wd 0 1 = t := fld_eq (pk hwd hfit 0 rfl rfl rfl)
  have k1 : wd / 2 ^ 1 % 2 ^ 5 = 0 := pk hwd hfit 1 rfl rfl rfl
  have f2 : fld wd 6 6 = b := fld_eq (pk hwd hfit 2 rfl rfl rfl)
  have f3 : fld wd 12 6 = a := fld_eq (pk hwd hfit 3 rfl rfl rfl)
  have f4 : fld wd 18 6 = d := fld_eq (pk hwd hfit 4 rfl rfl rfl)
  have hm : wd / 2 ^ 24 % 2 ^ 7 = 10 := pk hwd hfit 5 rfl rfl rfl
  have he : bit wd 31 = e := bit_eq (pk hwd hfit 6 rfl rfl rfl)
  rw [short_0A hm, h32]
  simp only [decMajor0A, f0, k1, f2, f3, f4, he, and_self, ite_true, ite_false, reduceIte]

theorem RoundTrip.sfsub (e : Bool) (d a b : BitVec 6) (t : BitVec 1) : RoundTrip.Statement (.sfsub e d a b t) := by
  intro _ _
  have hwd : encode (.sfsub e d a b t) = pack [1, 5, 6, 6, 6, 7, 1] [t.toNat, 1, b.toNat, a.toNat, d.toNat, 10, e.toNat] := by
    show word e 0x0A000002 [put d 18, put a 12, put b 6, put t 0] = _
    simp only [word, put, eBit_eq, pack]
    generalize t.toNat = v0; generalize b.toNat = v2; generalize a.toNat = v3; generalize d.toNat = v4; generalize e.toNat = v6; omega
  have hfit : Fits [1, 5, 6, 6, 6, 7, 1] [t.toNat, 1, b.toNat, a.toNat, d.toNat, 10, e.toNat] := ⟨t.isLt, by decide, b.isLt, a.isLt, d.isLt, by decide, e.toNat_lt, trivial⟩
  revert hwd hfit; generalize encode _ = wd; intro hw hfit
  have hwd := And.intro hw (show ([1, 5, 6, 6, 6, 7, 1] : List Nat).length = ([t.toNat, 1, b.toNat, a.toNat, d.toNat, 10, e.toNat] : List Nat).length from rfl)
  have h32 : wd % 2 ^ 32 = wd := pkw hwd hfit rfl
  have f0 : fld wd 0 1 = t := fld_eq (pk hwd hfit 0 rfl rfl rfl)
  have k1 : wd / 2 ^ 1 % 2 ^ 5 = 1 := pk hwd hfit 1 rfl rfl rfl
  have f2 : fld wd 6 6 = b := fld_eq (pk hwd hfit 2 rfl rfl rfl)
  have f3 : fld wd 12 6 = a := fld_eq (pk hwd hfit 3 rfl rfl rfl)
  have f4 : fld wd 18 6 = d := fld_eq (pk hwd hfit 4 rfl rfl rfl)
  have hm : wd / 2 ^ 24 % 2 ^ 7 = 10 := pk hwd hfit 5 rfl rfl rfl
  have he : bit wd 31 = e := bit_eq (pk hwd hfit 6 rfl rfl rfl)
  rw [short_0A hm, h32]
  simp only [decMajor0A, f0, k1, f2, f3, f4, he, and_self, ite_true, ite_false, reduceIte]

theorem RoundTrip.sfmul (e : Bool) (d a b : BitVec 6) (t : BitVec 1) : RoundTrip.Statement (.sfmul e d a b t) := by
  intro _ _
  have hwd : encode (.sfmul e d a b t) = pack [1, 5, 6, 6, 6, 7, 1] [t.toNat, 2, b.toNat, a.toNat, d.toNat, 10, e.toNat] := by
    show word e 0x0A000004 [put d 18, put a 12, put b 6, put t 0] = _
    simp only [word, put, eBit_eq, pack]
    generalize t.toNat = v0; generalize b.toNat = v2; generalize a.toNat = v3; generalize d.toNat = v4; generalize e.toNat = v6; omega
  have hfit : Fits [1, 5, 6, 6, 6, 7, 1] [t.toNat, 2, b.toNat, a.toNat, d.toNat, 10, e.toNat] := ⟨t.isLt, by decide, b.isLt, a.isLt, d.isLt, by decide, e.toNat_lt, trivial⟩
  revert hwd hfit; generalize encode _ = wd; intro hw hfit
  have hwd := And.intro hw (show ([1, 5, 6, 6, 6, 7, 1] : List Nat).length = ([t.toNat, 2, b.toNat, a.toNat, d.toNat, 10, e.toNat] : List Nat).length from rfl)
  have h32 : wd % 2 ^ 32 = wd := pkw hwd hfit rfl
  have f0 : fld wd 0 1 = t := fld_eq (pk hwd hfit 0 rfl rfl rfl)
  have k1 : wd / 2 ^ 1 % 2 ^ 5 = 2 := pk hwd hfit 1 rfl rfl rfl
  have f2 : fld wd 6 6 = b := fld_eq (pk hwd hfit 2 rfl rfl rfl)
  have f3 : fld wd 12 6 = a := fld_eq (pk hwd hfit 3 rfl rfl rfl)
  have f4 : fld wd 18 6 = d := fld_eq (pk hwd hfit 4 rfl rfl rfl)
  have hm : wd / 2 ^ 24 % 2 ^ 7 = 10 := pk hwd hfit 5 rfl rfl rfl
  have he : bit wd 31 = e := bit_eq (pk hwd hfit 6 rfl rfl rfl)
  rw [short_0A hm, h32]
  simp only [decMajor0A, f0, k1, f2, f3, f4, he, and_self, ite_true, ite_false, reduceIte]

theorem RoundTrip.sffma (e : Bool) (d a b : BitVec 6) (t : BitVec 1) : RoundTrip.Statement (.sffma e d a b t) := by
  intro _ _
  have hwd : encode (.sffma e d a b t) = pack [1, 5, 6, 6, 6, 7, 1] [t.toNat, 3, b.toNat, a.toNat, d.toNat, 10, e.toNat] := by
    show word e 0x0A000006 [put d 18, put a 12, put b 6, put t 0] = _
    simp only [word, put, eBit_eq, pack]
    generalize t.toNat = v0; generalize b.toNat = v2; generalize a.toNat = v3; generalize d.toNat = v4; generalize e.toNat = v6; omega
  have hfit : Fits [1, 5, 6, 6, 6, 7, 1] [t.toNat, 3, b.toNat, a.toNat, d.toNat, 10, e.toNat] := ⟨t.isLt, by decide, b.isLt, a.isLt, d.isLt, by decide, e.toNat_lt, trivial⟩
  revert hwd hfit; generalize encode _ = wd; intro hw hfit
  have hwd := And.intro hw (show ([1, 5, 6, 6, 6, 7, 1] : List Nat).length = ([t.toNat, 3, b.toNat, a.toNat, d.toNat, 10, e.toNat] : List Nat).length from rfl)
  have h32 : wd % 2 ^ 32 = wd := pkw hwd hfit rfl
  have f0 : fld wd 0 1 = t := fld_eq (pk hwd hfit 0 rfl rfl rfl)
  have k1 : wd / 2 ^ 1 % 2 ^ 5 = 3 := pk hwd hfit 1 rfl rfl rfl
  have f2 : fld wd 6 6 = b := fld_eq (pk hwd hfit 2 rfl rfl rfl)
  have f3 : fld wd 12 6 = a := fld_eq (pk hwd hfit 3 rfl rfl rfl)
  have f4 : fld wd 18 6 = d := fld_eq (pk hwd hfit 4 rfl rfl rfl)
  have hm : wd / 2 ^ 24 % 2 ^ 7 = 10 := pk hwd hfit 5 rfl rfl rfl
  have he : bit wd 31 = e := bit_eq (pk hwd hfit 6 rfl rfl rfl)
  rw [short_0A hm, h32]
  simp only [decMajor0A, f0, k1, f2, f3, f4, he, and_self, ite_true, ite_false, reduceIte]

theorem RoundTrip.sfdiv (e : Bool) (d a b : BitVec 6) (t : BitVec 1) : RoundTrip.Statement (.sfdiv e d a b t) := by
  intro _ _
  have hwd : encode (.sfdiv e d a b t) = pack [1, 5, 6, 6, 6, 7, 1] [t.toNat, 4, b.toNat, a.toNat, d.toNat, 10, e.toNat] := by
    show word e 0x0A000008 [put d 18, put a 12, put b 6, put t 0] = _
    simp only [word, put, eBit_eq, pack]
    generalize t.toNat = v0; generalize b.toNat = v2; generalize a.toNat = v3; generalize d.toNat = v4; generalize e.toNat = v6; omega
  have hfit : Fits [1, 5, 6, 6, 6, 7, 1] [t.toNat, 4, b.toNat, a.toNat, d.toNat, 10, e.toNat] := ⟨t.isLt, by decide, b.isLt, a.isLt, d.isLt, by decide, e.toNat_lt, trivial⟩
  revert hwd hfit; generalize encode _ = wd; intro hw hfit
  have hwd := And.intro hw (show ([1, 5, 6, 6, 6, 7, 1] : List Nat).length = ([t.toNat, 4, b.toNat, a.toNat, d.toNat, 10, e.toNat] : List Nat).length from rfl)
  have h32 : wd % 2 ^ 32 = wd := pkw hwd hfit rfl
  have f0 : fld wd 0 1 = t := fld_eq (pk hwd hfit 0 rfl rfl rfl)
  have k1 : wd / 2 ^ 1 % 2 ^ 5 = 4 := pk hwd hfit 1 rfl rfl rfl
  have f2 : fld wd 6 6 = b := fld_eq (pk hwd hfit 2 rfl rfl rfl)
  have f3 : fld wd 12 6 = a := fld_eq (pk hwd hfit 3 rfl rfl rfl)
  have f4 : fld wd 18 6 = d := fld_eq (pk hwd hfit 4 rfl rfl rfl)
  have hm : wd / 2 ^ 24 % 2 ^ 7 = 10 := pk hwd hfit 5 rfl rfl rfl
  have he : bit wd 31 = e := bit_eq (pk hwd hfit 6 rfl rfl rfl)
  rw [short_0A hm, h32]
  simp only [decMajor0A, f0, k1, f2, f3, f4, he, and_self, ite_true, ite_false, reduceIte]

theorem RoundTrip.sfsqrt (e : Bool) (d a : BitVec 6) (t : BitVec 1) : RoundTrip.Statement (.sfsqrt e d a t) := by
  intro _ _
  have hwd : encode (.sfsqrt e d a t) = pack [1, 5, 6, 6, 6, 7, 1] [t.toNat, 5, 0, a.toNat, d.toNat, 10, e.toNat] := by
    show word e 0x0A00000A [put d 18, put a 12, put t 0] = _
    simp only [word, put, eBit_eq, pack]
    generalize t.toNat = v0; generalize a.toNat = v3; generalize d.toNat = v4; generalize e.toNat = v6; omega
  have hfit : Fits [1, 5, 6, 6, 6, 7, 1] [t.toNat, 5, 0, a.toNat, d.toNat, 10, e.toNat] := ⟨t.isLt, by decide, by decide, a.isLt, d.isLt, by decide, e.toNat_lt, trivial⟩
  revert hwd hfit; generalize encode _ = wd; intro hw hfit
  have hwd := And.intro hw (show ([1, 5, 6, 6, 6, 7, 1] : List Nat).length = ([t.toNat, 5, 0, a.toNat, d.toNat, 10, e.toNat] : List Nat).length from rfl)
  have h32 : wd % 2 ^ 32 = wd := pkw hwd hfit rfl
  have f0 : fld wd 0 1 = t := fld_eq (pk hwd hfit 0 rfl rfl rfl)
  have k1 : wd / 2 ^ 1 % 2 ^ 5 = 5 := pk hwd hfit 1 rfl rfl rfl
  have k2 : wd / 2 ^ 6 % 2 ^ 6 = 0 := pk hwd hfit 2 rfl rfl rfl
  have f3 : fld wd 12 6 = a := fld_eq (pk hwd hfit 3 rfl rfl rfl)
  have f4 : fld wd 18 6 = d := fld_eq (pk hwd hfit 4 rfl rfl rfl)
  have hm : wd / 2 ^ 24 % 2 ^ 7 = 10 := pk hwd hfit 5 rfl rfl rfl
  have he : bit wd 31 = e := bit_eq (pk hwd hfit 6 rfl rfl rfl)
  rw [short_0A hm, h32]
  simp only [decMajor0A, f0, k1, k2, f3, f4, he, and_self, ite_true, ite_false, reduceIte]

theorem RoundTrip.sfmin (e : Bool) (d a b : BitVec 6) (t : BitVec 1) : RoundTrip.Statement (.sfmin e d a b t) := by
  intro _ _
  have hwd : encode (.sfmin e d a b t) = pack [1, 5, 6, 6, 6, 7, 1] [t.toNat, 6, b.toNat, a.toNat, d.toNat, 10, e.toNat] := by
    show word e 0x0A00000C [put d 18, put a 12, put b 6, put t 0] = _
    simp only [word, put, eBit_eq, pack]
    generalize t.toNat = v0; generalize b.toNat = v2; generalize a.toNat = v3; generalize d.toNat = v4; generalize e.toNat = v6; omega
  have hfit : Fits [1, 5, 6, 6, 6, 7, 1] [t.toNat, 6, b.toNat, a.toNat, d.toNat, 10, e.toNat] := ⟨t.isLt, by decide, b.isLt, a.isLt, d.isLt, by decide, e.toNat_lt, trivial⟩
  revert hwd hfit; generalize encode _ = wd; intro hw hfit
  have hwd := And.intro hw (show ([1, 5, 6, 6, 6, 7, 1] : List Nat).length = ([t.toNat, 6, b.toNat, a.toNat, d.toNat, 10, e.toNat] : List Nat).length from rfl)
  have h32 : wd % 2 ^ 32 = wd := pkw hwd hfit rfl
  have f0 : fld wd 0 1 = t := fld_eq (pk hwd hfit 0 rfl rfl rfl)
  have k1 : wd / 2 ^ 1 % 2 ^ 5 = 6 := pk hwd hfit 1 rfl rfl rfl
  have f2 : fld wd 6 6 = b := fld_eq (pk hwd hfit 2 rfl rfl rfl)
  have f3 : fld wd 12 6 = a := fld_eq (pk hwd hfit 3 rfl rfl rfl)
  have f4 : fld wd 18 6 = d := fld_eq (pk hwd hfit 4 rfl rfl rfl)
  have hm : wd / 2 ^ 24 % 2 ^ 7 = 10 := pk hwd hfit 5 rfl rfl rfl
  have he : bit wd 31 = e := bit_eq (pk hwd hfit 6 rfl rfl rfl)
  rw [short_0A hm, h32]
  simp only [decMajor0A, f0, k1, f2, f3, f4, he, and_self, ite_true, ite_false, reduceIte]

theorem RoundTrip.sfmax (e : Bool) (d a b : BitVec 6) (t : BitVec 1) : RoundTrip.Statement (.sfmax e d a b t) := by
  intro _ _
  have hwd : encode (.sfmax e d a b t) = pack [1, 5, 6, 6, 6, 7, 1] [t.toNat, 7, b.toNat, a.toNat, d.toNat, 10, e.toNat] := by
    show word e 0x0A00000E [put d 18, put a 12, put b 6, put t 0] = _
    simp only [word, put, eBit_eq, pack]
    generalize t.toNat = v0; generalize b.toNat = v2; generalize a.toNat = v3; generalize d.toNat = v4; generalize e.toNat = v6; omega
  have hfit : Fits [1, 5, 6, 6, 6, 7, 1] [t.toNat, 7, b.toNat, a.toNat, d.toNat, 10, e.toNat] := ⟨t.isLt, by decide, b.isLt, a.isLt, d.isLt, by decide, e.toNat_lt, trivial⟩
  revert hwd hfit; generalize encode _ = wd; intro hw hfit
  have hwd := And.intro hw (show ([1, 5, 6, 6, 6, 7, 1] : List Nat).length = ([t.toNat, 7, b.toNat, a.toNat, d.toNat, 10, e.toNat] : List Nat).length from rfl)
  have h32 : wd % 2 ^ 32 = wd := pkw hwd hfit rfl
  have f0 : fld wd 0 1 = t := fld_eq (pk hwd hfit 0 rfl rfl rfl)
  have k1 : wd / 2 ^ 1 % 2 ^ 5 = 7 := pk hwd hfit 1 rfl rfl rfl
  have f2 : fld wd 6 6 = b := fld_eq (pk hwd hfit 2 rfl rfl rfl)
  have f3 : fld wd 12 6 = a := fld_eq (pk hwd hfit 3 rfl rfl rfl)
  have f4 : fld wd 18 6 = d := fld_eq (pk hwd hfit 4 rfl rfl rfl)
  have hm : wd / 2 ^ 24 % 2 ^ 7 = 10 := pk hwd hfit 5 rfl rfl rfl
  have he : bit wd 31 = e := bit_eq (pk hwd hfit 6 rfl rfl rfl)
  rw [short_0A hm, h32]
  simp only [decMajor0A, f0, k1, f2, f3, f4, he, and_self, ite_true, ite_false, reduceIte]

theorem RoundTrip.sfcmpEq (e : Bool) (d a b : BitVec 6) (t : BitVec 1) : RoundTrip.Statement (.sfcmpEq e d a b t) := by
  intro _ _
  have hwd : encode (.sfcmpEq e d a b t) = pack [1, 5, 6, 6, 6, 7, 1] [t.toNat, 8, b.toNat, a.toNat, d.toNat, 10, e.toNat] := by
    show word e 0x0A000010 [put d 18, put a 12, put b 6, put t 0] = _
    simp only [word, put, eBit_eq, pack]
    generalize t.toNat = v0; generalize b.toNat = v2; generalize a.toNat = v3; generalize d.toNat = v4; generalize e.toNat = v6; omega
  have hfit : Fits [1, 5, 6, 6, 6, 7, 1] [t.toNat, 8, b.toNat, a.toNat, d.toNat, 10, e.toNat] := ⟨t.isLt, by decide, b.isLt, a.isLt, d.isLt, by decide, e.toNat_lt, trivial⟩
  revert hwd hfit; generalize encode _ = wd; intro hw hfit
  have hwd := And.intro hw (show ([1, 5, 6, 6, 6, 7, 1] : List Nat).length = ([t.toNat, 8, b.toNat, a.toNat, d.toNat, 10, e.toNat] : List Nat).length from rfl)
  have h32 : wd % 2 ^ 32 = wd := pkw hwd hfit rfl
  have f0 : fld wd 0 1 = t := fld_eq (pk hwd hfit 0 rfl rfl rfl)
  have k1 : wd / 2 ^ 1 % 2 ^ 5 = 8 := pk hwd hfit 1 rfl rfl rfl
  have f2 : fld wd 6 6 = b := fld_eq (pk hwd hfit 2 rfl rfl rfl)
  have f3 : fld wd 12 6 = a := fld_eq (pk hwd hfit 3 rfl rfl rfl)
  have f4 : fld wd 18 6 = d := fld_eq (pk hwd hfit 4 rfl rfl rfl)
  have hm : wd / 2 ^ 24 % 2 ^ 7 = 10 := pk hwd hfit 5 rfl rfl rfl
  have he : bit wd 31 = e := bit_eq (pk hwd hfit 6 rfl rfl rfl)
  rw [short_0A hm, h32]
  simp only [decMajor0A, f0, k1, f2, f3, f4, he, and_self, ite_true, ite_false, reduceIte]

theorem RoundTrip.sfcmpLt (e : Bool) (d a b : BitVec 6) (t : BitVec 1) : RoundTrip.Statement (.sfcmpLt e d a b t) := by
  intro _ _
  have hwd : encode (.sfcmpLt e d a b t) = pack [1, 5, 6, 6, 6, 7, 1] [t.toNat, 9, b.toNat, a.toNat, d.toNat, 10, e.toNat] := by
    show word e 0x0A000012 [put d 18, put a 12, put b 6, put t 0] = _
    simp only [word, put, eBit_eq, pack]
    generalize t.toNat = v0; generalize b.toNat = v2; generalize a.toNat = v3; generalize d.toNat = v4; generalize e.toNat = v6; omega
  have hfit : Fits [1, 5, 6, 6, 6, 7, 1] [t.toNat, 9, b.toNat, a.toNat, d.toNat, 10, e.toNat] := ⟨t.isLt, by decide, b.isLt, a.isLt, d.isLt, by decide, e.toNat_lt, trivial⟩
  revert hwd hfit; generalize encode _ = wd; intro hw hfit
  have hwd := And.intro hw (show ([1, 5, 6, 6, 6, 7, 1] : List Nat).length = ([t.toNat, 9, b.toNat, a.toNat, d.toNat, 10, e.toNat] : List Nat).length from rfl)
  have h32 : wd % 2 ^ 32 = wd := pkw hwd hfit rfl
  have f0 : fld wd 0 1 = t := fld_eq (pk hwd hfit 0 rfl rfl rfl)
  have k1 : wd / 2 ^ 1 % 2 ^ 5 = 9 := pk hwd hfit 1 rfl rfl rfl
  have f2 : fld wd 6 6 = b := fld_eq (pk hwd hfit 2 rfl rfl rfl)
  have f3 : fld wd 12 6 = a := fld_eq (pk hwd hfit 3 rfl rfl rfl)
  have f4 : fld wd 18 6 = d := fld_eq (pk hwd hfit 4 rfl rfl rfl)
  have hm : wd / 2 ^ 24 % 2 ^ 7 = 10 := pk hwd hfit 5 rfl rfl rfl
  have he : bit wd 31 = e := bit_eq (pk hwd hfit 6 rfl rfl rfl)
  rw [short_0A hm, h32]
  simp only [decMajor0A, f0, k1, f2, f3, f4, he, and_self, ite_true, ite_false, reduceIte]

theorem RoundTrip.sfcmpLe (e : Bool) (d a b : BitVec 6) (t : BitVec 1) : RoundTrip.Statement (.sfcmpLe e d a b t) := by
  intro _ _
  have hwd : encode (.sfcmpLe e d a b t) = pack [1, 5, 6, 6, 6, 7, 1] [t.toNat, 10, b.toNat, a.toNat, d.toNat, 10, e.toNat] := by
    show word e 0x0A000014 [put d 18, put a 12, put b 6, put t 0] = _
    simp only [word, put, eBit_eq, pack]
    generalize t.toNat = v0; generalize b.toNat = v2; generalize a.toNat = v3; generalize d.toNat = v4; generalize e.toNat = v6; omega
  have hfit : Fits [1, 5, 6, 6, 6, 7, 1] [t.toNat, 10, b.toNat, a.toNat, d.toNat, 10, e.toNat] := ⟨t.isLt, by decide, b.isLt, a.isLt, d.isLt, by decide, e.toNat_lt, trivial⟩
  revert hwd hfit; generalize encode _ = wd; intro hw hfit
  have hwd := And.intro hw (show ([1, 5, 6, 6, 6, 7, 1] : List Nat).length = ([t.toNat, 10, b.toNat, a.toNat, d.toNat, 10, e.toNat] : List Nat).length from rfl)
  have h32 : wd % 2 ^ 32 = wd := pkw hwd hfit rfl
  have f0 : fld wd 0 1 = t := fld_eq (pk hwd hfit 0 rfl rfl rfl)
  have k1 : wd / 2 ^ 1 % 2 ^ 5 = 10 := pk hwd hfit 1 rfl rfl rfl
  have f2 : fld wd 6 6 = b := fld_eq (pk hwd hfit 2 rfl rfl rfl)
  have f3 : fld wd 12 6 = a := fld_eq (pk hwd hfit 3 rfl rfl rfl)
  have f4 : fld wd 18 6 = d := fld_eq (pk hwd hfit 4 rfl rfl rfl)
  have hm : wd / 2 ^ 24 % 2 ^ 7 = 10 := pk hwd hfit 5 rfl rfl rfl
  have he : bit wd 31 = e := bit_eq (pk hwd hfit 6 rfl rfl rfl)
  rw [short_0A hm, h32]
  simp only [decMajor0A, f0, k1, f2, f3, f4, he, and_self, ite_true, ite_false, reduceIte]

theorem RoundTrip.sfcmpUn (e : Bool) (d a b : BitVec 6) (t : BitVec 1) : RoundTrip.Statement (.sfcmpUn e d a b t) := by
  intro _ _
  have hwd : encode (.sfcmpUn e d a b t) = pack [1, 5, 6, 6, 6, 7, 1] [t.toNat, 11, b.toNat, a.toNat, d.toNat, 10, e.toNat] := by
    show word e 0x0A000016 [put d 18, put a 12, put b 6, put t 0] = _
    simp only [word, put, eBit_eq, pack]
    generalize t.toNat = v0; generalize b.toNat = v2; generalize a.toNat = v3; generalize d.toNat = v4; generalize e.toNat = v6; omega
  have hfit : Fits [1, 5, 6, 6, 6, 7, 1] [t.toNat, 11, b.toNat, a.toNat, d.toNat, 10, e.toNat] := ⟨t.isLt, by decide, b.isLt, a.isLt, d.isLt, by decide, e.toNat_lt, trivial⟩
  revert hwd hfit; generalize encode _ = wd; intro hw hfit
  have hwd := And.intro hw (show ([1, 5, 6, 6, 6, 7, 1] : List Nat).length = ([t.toNat, 11, b.toNat, a.toNat, d.toNat, 10, e.toNat] : List Nat).length from rfl)
  have h32 : wd % 2 ^ 32 = wd := pkw hwd hfit rfl
  have f0 : fld wd 0 1 = t := fld_eq (pk hwd hfit 0 rfl rfl rfl)
  have k1 : wd / 2 ^ 1 % 2 ^ 5 = 11 := pk hwd hfit 1 rfl rfl rfl
  have f2 : fld wd 6 6 = b := fld_eq (pk hwd hfit 2 rfl rfl rfl)
  have f3 : fld wd 12 6 = a := fld_eq (pk hwd hfit 3 rfl rfl rfl)
  have f4 : fld wd 18 6 = d := fld_eq (pk hwd hfit 4 rfl rfl rfl)
  have hm : wd / 2 ^ 24 % 2 ^ 7 = 10 := pk hwd hfit 5 rfl rfl rfl
  have he : bit wd 31 = e := bit_eq (pk hwd hfit 6 rfl rfl rfl)
  rw [short_0A hm, h32]
  simp only [decMajor0A, f0, k1, f2, f3, f4, he, and_self, ite_true, ite_false, reduceIte]

theorem RoundTrip.sfcvt (e : Bool) (d a : BitVec 6) (x y : BitVec 3) : RoundTrip.Statement (.sfcvt e d a x y) := by
  intro _ _
  have hwd : encode (.sfcvt e d a x y) = pack [1, 5, 3, 3, 6, 6, 7, 1] [0, 12, y.toNat, x.toNat, a.toNat, d.toNat, 10, e.toNat] := by
    show word e 0x0A000018 [put d 18, put a 12, put x 9, put y 6] = _
    simp only [word, put, eBit_eq, pack]
    generalize y.toNat = v2; generalize x.toNat = v3; generalize a.toNat = v4; generalize d.toNat = v5; generalize e.toNat = v7; omega
  have hfit : Fits [1, 5, 3, 3, 6, 6, 7, 1] [0, 12, y.toNat, x.toNat, a.toNat, d.toNat, 10, e.toNat] := ⟨by decide, by decide, y.isLt, x.isLt, a.isLt, d.isLt, by decide, e.toNat_lt, trivial⟩
  revert hwd hfit; generalize encode _ = wd; intro hw hfit
  have hwd := And.intro hw (show ([1, 5, 3, 3, 6, 6, 7, 1] : List Nat).length = ([0, 12, y.toNat, x.toNat, a.toNat, d.toNat, 10, e.toNat] : List Nat).length from rfl)
  have h32 : wd % 2 ^ 32 = wd := pkw hwd hfit rfl
  have k0 : wd % 2 = 0 := pk0 hwd hfit rfl rfl
  have k1 : wd / 2 ^ 1 % 2 ^ 5 = 12 := pk hwd hfit 1 rfl rfl rfl
  have f2 : fld wd 6 3 = y := fld_eq (pk hwd hfit 2 rfl rfl rfl)
  have f3 : fld wd 9 3 = x := fld_eq (pk hwd hfit 3 rfl rfl rfl)
  have f4 : fld wd 12 6 = a := fld_eq (pk hwd hfit 4 rfl rfl rfl)
  have f5 : fld wd 18 6 = d := fld_eq (pk hwd hfit 5 rfl rfl rfl)
  have hm : wd / 2 ^ 24 % 2 ^ 7 = 10 := pk hwd hfit 6 rfl rfl rfl
  have he : bit wd 31 = e := bit_eq (pk hwd hfit 7 rfl rfl rfl)
  simp only [Nat.reducePow] at k0 k1
  rw [short_0A hm, h32]
  simp only [decMajor0A, k0, k1, f2, f3, f4, f5, he, Nat.reducePow, Nat.zero_ne_one, and_self, ite_true, ite_false, reduceIte]

theorem RoundTrip.br (e : Bool) (o : BitVec 24) : RoundTrip.Statement (.br e o) := by
  intro _ _
  have hwd : encode (.br e o) = pack [24, 7, 1] [o.toNat, 32, e.toNat] := by
    show word e 0x20000000 [put o 0] = _
    simp only [word, put, eBit_eq, pack]
    generalize o.toNat = v0; generalize e.toNat = v2; omega
  have hfit : Fits [24, 7, 1] [o.toNat, 32, e.toNat] := ⟨o.isLt, by decide, e.toNat_lt, trivial⟩
  revert hwd hfit; generalize encode _ = wd; intro hw hfit
  have hwd := And.intro hw (show ([24, 7, 1] : List Nat).length = ([o.toNat, 32, e.toNat] : List Nat).length from rfl)
  have h32 : wd % 2 ^ 32 = wd := pkw hwd hfit rfl
  have f0 : fld wd 0 24 = o := fld_eq (pk hwd hfit 0 rfl rfl rfl)
  have hm : wd / 2 ^ 24 % 2 ^ 7 = 32 := pk hwd hfit 1 rfl rfl rfl
  have he : bit wd 31 = e := bit_eq (pk hwd hfit 2 rfl rfl rfl)
  rw [short_20 hm, h32]
  simp only [decMajor20, f0, he, and_self, ite_true, ite_false, reduceIte]

theorem RoundTrip.bnz (e : Bool) (s : BitVec 6) (o : BitVec 18) : RoundTrip.Statement (.bnz e s o) := by
  intro _ _
  have hwd : encode (.bnz e s o) = pack [18, 6, 7, 1] [o.toNat, s.toNat, 33, e.toNat] := by
    show word e 0x21000000 [put s 18, put o 0] = _
    simp only [word, put, eBit_eq, pack]
    generalize o.toNat = v0; generalize s.toNat = v1; generalize e.toNat = v3; omega
  have hfit : Fits [18, 6, 7, 1] [o.toNat, s.toNat, 33, e.toNat] := ⟨o.isLt, s.isLt, by decide, e.toNat_lt, trivial⟩
  revert hwd hfit; generalize encode _ = wd; intro hw hfit
  have hwd := And.intro hw (show ([18, 6, 7, 1] : List Nat).length = ([o.toNat, s.toNat, 33, e.toNat] : List Nat).length from rfl)
  have h32 : wd % 2 ^ 32 = wd := pkw hwd hfit rfl
  have f0 : fld wd 0 18 = o := fld_eq (pk hwd hfit 0 rfl rfl rfl)
  have f1 : fld wd 18 6 = s := fld_eq (pk hwd hfit 1 rfl rfl rfl)
  have hm : wd / 2 ^ 24 % 2 ^ 7 = 33 := pk hwd hfit 2 rfl rfl rfl
  have he : bit wd 31 = e := bit_eq (pk hwd hfit 3 rfl rfl rfl)
  rw [short_21 hm, h32]
  simp only [decMajor21, f0, f1, he, and_self, ite_true, ite_false, reduceIte]

theorem RoundTrip.bz (e : Bool) (s : BitVec 6) (o : BitVec 18) : RoundTrip.Statement (.bz e s o) := by
  intro _ _
  have hwd : encode (.bz e s o) = pack [18, 6, 7, 1] [o.toNat, s.toNat, 34, e.toNat] := by
    show word e 0x22000000 [put s 18, put o 0] = _
    simp only [word, put, eBit_eq, pack]
    generalize o.toNat = v0; generalize s.toNat = v1; generalize e.toNat = v3; omega
  have hfit : Fits [18, 6, 7, 1] [o.toNat, s.toNat, 34, e.toNat] := ⟨o.isLt, s.isLt, by decide, e.toNat_lt, trivial⟩
  revert hwd hfit; generalize encode _ = wd; intro hw hfit
  have hwd := And.intro hw (show ([18, 6, 7, 1] : List Nat).length = ([o.toNat, s.toNat, 34, e.toNat] : List Nat).length from rfl)
  have h32 : wd % 2 ^ 32 = wd := pkw hwd hfit rfl
  have f0 : fld wd 0 18 = o := fld_eq (pk hwd hfit 0 rfl rfl rfl)
  have f1 : fld wd 18 6 = s := fld_eq (pk hwd hfit 1 rfl rfl rfl)
  have hm : wd / 2 ^ 24 % 2 ^ 7 = 34 := pk hwd hfit 2 rfl rfl rfl
  have he : bit wd 31 = e := bit_eq (pk hwd hfit 3 rfl rfl rfl)
  rw [short_22 hm, h32]
  simp only [decMajor22, f0, f1, he, and_self, ite_true, ite_false, reduceIte]

theorem RoundTrip.call (e : Bool) (o : BitVec 24) : RoundTrip.Statement (.call e o) := by
  intro _ _
  have hwd : encode (.call e o) = pack [24, 7, 1] [o.toNat, 35, e.toNat] := by
    show word e 0x23000000 [put o 0] = _
    simp only [word, put, eBit_eq, pack]
    generalize o.toNat = v0; generalize e.toNat = v2; omega
  have hfit : Fits [24, 7, 1] [o.toNat, 35, e.toNat] := ⟨o.isLt, by decide, e.toNat_lt, trivial⟩
  revert hwd hfit; generalize encode _ = wd; intro hw hfit
  have hwd := And.intro hw (show ([24, 7, 1] : List Nat).length = ([o.toNat, 35, e.toNat] : List Nat).length from rfl)
  have h32 : wd % 2 ^ 32 = wd := pkw hwd hfit rfl
  have f0 : fld wd 0 24 = o := fld_eq (pk hwd hfit 0 rfl rfl rfl)
  have hm : wd / 2 ^ 24 % 2 ^ 7 = 35 := pk hwd hfit 1 rfl rfl rfl
  have he : bit wd 31 = e := bit_eq (pk hwd hfit 2 rfl rfl rfl)
  rw [short_23 hm, h32]
  simp only [decMajor23, f0, he, and_self, ite_true, ite_false, reduceIte]

theorem RoundTrip.jr (e : Bool) (a : BitVec 6) : RoundTrip.Statement (.jr e a) := by
  intro _ _
  have hwd : encode (.jr e a) = pack [6, 6, 6, 6, 7, 1] [0, 0, a.toNat, 0, 36, e.toNat] := by
    show word e 0x24000000 [put a 12] = _
    simp only [word, put, eBit_eq, pack]
    generalize a.toNat = v2; generalize e.toNat = v5; omega
  have hfit : Fits [6, 6, 6, 6, 7, 1] [0, 0, a.toNat, 0, 36, e.toNat] := ⟨by decide, by decide, a.isLt, by decide, by decide, e.toNat_lt, trivial⟩
  revert hwd hfit; generalize encode _ = wd; intro hw hfit
  have hwd := And.intro hw (show ([6, 6, 6, 6, 7, 1] : List Nat).length = ([0, 0, a.toNat, 0, 36, e.toNat] : List Nat).length from rfl)
  have h32 : wd % 2 ^ 32 = wd := pkw hwd hfit rfl
  have k0 : wd % 2 ^ 6 = 0 := pk0 hwd hfit rfl rfl
  have k1 : wd / 2 ^ 6 % 2 ^ 6 = 0 := pk hwd hfit 1 rfl rfl rfl
  have f2 : fld wd 12 6 = a := fld_eq (pk hwd hfit 2 rfl rfl rfl)
  have k3 : wd / 2 ^ 18 % 2 ^ 6 = 0 := pk hwd hfit 3 rfl rfl rfl
  have hm : wd / 2 ^ 24 % 2 ^ 7 = 36 := pk hwd hfit 4 rfl rfl rfl
  have he : bit wd 31 = e := bit_eq (pk hwd hfit 5 rfl rfl rfl)
  rw [short_24 hm, h32]
  simp only [decMajor24, k0, k1, f2, k3, he, and_self, ite_true, ite_false, reduceIte]

theorem RoundTrip.callr (e : Bool) (a : BitVec 6) : RoundTrip.Statement (.callr e a) := by
  intro _ _
  have hwd : encode (.callr e a) = pack [6, 6, 6, 6, 7, 1] [1, 0, a.toNat, 0, 36, e.toNat] := by
    show word e 0x24000001 [put a 12] = _
    simp only [word, put, eBit_eq, pack]
    generalize a.toNat = v2; generalize e.toNat = v5; omega
  have hfit : Fits [6, 6, 6, 6, 7, 1] [1, 0, a.toNat, 0, 36, e.toNat] := ⟨by decide, by decide, a.isLt, by decide, by decide, e.toNat_lt, trivial⟩
  revert hwd hfit; generalize encode _ = wd; intro hw hfit
  have hwd := And.intro hw (show ([6, 6, 6, 6, 7, 1] : List Nat).length = ([1, 0, a.toNat, 0, 36, e.toNat] : List Nat).length from rfl)
  have h32 : wd % 2 ^ 32 = wd := pkw hwd hfit rfl
  have k0 : wd % 2 ^ 6 = 1 := pk0 hwd hfit rfl rfl
  have k1 : wd / 2 ^ 6 % 2 ^ 6 = 0 := pk hwd hfit 1 rfl rfl rfl
  have f2 : fld wd 12 6 = a := fld_eq (pk hwd hfit 2 rfl rfl rfl)
  have k3 : wd / 2 ^ 18 % 2 ^ 6 = 0 := pk hwd hfit 3 rfl rfl rfl
  have hm : wd / 2 ^ 24 % 2 ^ 7 = 36 := pk hwd hfit 4 rfl rfl rfl
  have he : bit wd 31 = e := bit_eq (pk hwd hfit 5 rfl rfl rfl)
  rw [short_24 hm, h32]
  simp only [decMajor24, k0, k1, f2, k3, he, and_self, ite_true, ite_false, reduceIte]

theorem RoundTrip.ret (e : Bool) : RoundTrip.Statement (.ret e) := by
  intro _ _
  have hwd : encode (.ret e) = pack [6, 18, 7, 1] [2, 0, 36, e.toNat] := by
    show word e 0x24000002 [] = _
    simp only [word, put, eBit_eq, pack]
    generalize e.toNat = v3; omega
  have hfit : Fits [6, 18, 7, 1] [2, 0, 36, e.toNat] := ⟨by decide, by decide, by decide, e.toNat_lt, trivial⟩
  revert hwd hfit; generalize encode _ = wd; intro hw hfit
  have hwd := And.intro hw (show ([6, 18, 7, 1] : List Nat).length = ([2, 0, 36, e.toNat] : List Nat).length from rfl)
  have h32 : wd % 2 ^ 32 = wd := pkw hwd hfit rfl
  have k0 : wd % 2 ^ 6 = 2 := pk0 hwd hfit rfl rfl
  have k1 : wd / 2 ^ 6 % 2 ^ 18 = 0 := pk hwd hfit 1 rfl rfl rfl
  have hm : wd / 2 ^ 24 % 2 ^ 7 = 36 := pk hwd hfit 2 rfl rfl rfl
  have he : bit wd 31 = e := bit_eq (pk hwd hfit 3 rfl rfl rfl)
  rw [short_24 hm, h32]
  simp only [decMajor24, k0, k1, he, and_self, ite_true, ite_false, reduceIte]

theorem RoundTrip.loop (e : Bool) (s : BitVec 6) (o : BitVec 18) : RoundTrip.Statement (.loop e s o) := by
  intro _ _
  have hwd : encode (.loop e s o) = pack [18, 6, 7, 1] [o.toNat, s.toNat, 37, e.toNat] := by
    show word e 0x25000000 [put s 18, put o 0] = _
    simp only [word, put, eBit_eq, pack]
    generalize o.toNat = v0; generalize s.toNat = v1; generalize e.toNat = v3; omega
  have hfit : Fits [18, 6, 7, 1] [o.toNat, s.toNat, 37, e.toNat] := ⟨o.isLt, s.isLt, by decide, e.toNat_lt, trivial⟩
  revert hwd hfit; generalize encode _ = wd; intro hw hfit
  have hwd := And.intro hw (show ([18, 6, 7, 1] : List Nat).length = ([o.toNat, s.toNat, 37, e.toNat] : List Nat).length from rfl)
  have h32 : wd % 2 ^ 32 = wd := pkw hwd hfit rfl
  have f0 : fld wd 0 18 = o := fld_eq (pk hwd hfit 0 rfl rfl rfl)
  have f1 : fld wd 18 6 = s := fld_eq (pk hwd hfit 1 rfl rfl rfl)
  have hm : wd / 2 ^ 24 % 2 ^ 7 = 37 := pk hwd hfit 2 rfl rfl rfl
  have he : bit wd 31 = e := bit_eq (pk hwd hfit 3 rfl rfl rfl)
  rw [short_25 hm, h32]
  simp only [decMajor25, f0, f1, he, and_self, ite_true, ite_false, reduceIte]

theorem RoundTrip.rpt (e : Bool) (s : BitVec 6) (l : BitVec 4) (n : BitVec 9) : RoundTrip.Statement (.rpt e s l n) := by
  intro _ _
  have hwd : encode (.rpt e s l n) = pack [9, 3, 4, 2, 6, 7, 1] [n.toNat, 0, l.toNat, 0, s.toNat, 38, e.toNat] := by
    show word e 0x26000000 [put s 18, put l 12, put n 0] = _
    simp only [word, put, eBit_eq, pack]
    generalize n.toNat = v0; generalize l.toNat = v2; generalize s.toNat = v4; generalize e.toNat = v6; omega
  have hfit : Fits [9, 3, 4, 2, 6, 7, 1] [n.toNat, 0, l.toNat, 0, s.toNat, 38, e.toNat] := ⟨n.isLt, by decide, l.isLt, by decide, s.isLt, by decide, e.toNat_lt, trivial⟩
  revert hwd hfit; generalize encode _ = wd; intro hw hfit
  have hwd := And.intro hw (show ([9, 3, 4, 2, 6, 7, 1] : List Nat).length = ([n.toNat, 0, l.toNat, 0, s.toNat, 38, e.toNat] : List Nat).length from rfl)
  have h32 : wd % 2 ^ 32 = wd := pkw hwd hfit rfl
  have f0 : fld wd 0 9 = n := fld_eq (pk hwd hfit 0 rfl rfl rfl)
  have k1 : wd / 2 ^ 9 % 2 ^ 3 = 0 := pk hwd hfit 1 rfl rfl rfl
  have f2 : fld wd 12 4 = l := fld_eq (pk hwd hfit 2 rfl rfl rfl)
  have k3 : wd / 2 ^ 16 % 2 ^ 2 = 0 := pk hwd hfit 3 rfl rfl rfl
  have f4 : fld wd 18 6 = s := fld_eq (pk hwd hfit 4 rfl rfl rfl)
  have hm : wd / 2 ^ 24 % 2 ^ 7 = 38 := pk hwd hfit 5 rfl rfl rfl
  have he : bit wd 31 = e := bit_eq (pk hwd hfit 6 rfl rfl rfl)
  rw [short_26 hm, h32]
  simp only [decMajor26, f0, k1, f2, k3, f4, he, and_self, ite_true, ite_false, reduceIte]

theorem RoundTrip.vbr (e : Bool) (p t : BitVec 4) (o : BitVec 16) : RoundTrip.Statement (.vbr e p t o) := by
  intro _ _
  have hwd : encode (.vbr e p t o) = pack [16, 4, 4, 7, 1] [o.toNat, t.toNat, p.toNat, 39, e.toNat] := by
    show word e 0x27000000 [put p 20, put t 16, put o 0] = _
    simp only [word, put, eBit_eq, pack]
    generalize o.toNat = v0; generalize t.toNat = v1; generalize p.toNat = v2; generalize e.toNat = v4; omega
  have hfit : Fits [16, 4, 4, 7, 1] [o.toNat, t.toNat, p.toNat, 39, e.toNat] := ⟨o.isLt, t.isLt, p.isLt, by decide, e.toNat_lt, trivial⟩
  revert hwd hfit; generalize encode _ = wd; intro hw hfit
  have hwd := And.intro hw (show ([16, 4, 4, 7, 1] : List Nat).length = ([o.toNat, t.toNat, p.toNat, 39, e.toNat] : List Nat).length from rfl)
  have h32 : wd % 2 ^ 32 = wd := pkw hwd hfit rfl
  have f0 : fld wd 0 16 = o := fld_eq (pk hwd hfit 0 rfl rfl rfl)
  have f1 : fld wd 16 4 = t := fld_eq (pk hwd hfit 1 rfl rfl rfl)
  have f2 : fld wd 20 4 = p := fld_eq (pk hwd hfit 2 rfl rfl rfl)
  have hm : wd / 2 ^ 24 % 2 ^ 7 = 39 := pk hwd hfit 3 rfl rfl rfl
  have he : bit wd 31 = e := bit_eq (pk hwd hfit 4 rfl rfl rfl)
  rw [short_27 hm, h32]
  simp only [decMajor27, f0, f1, f2, he, and_self, ite_true, ite_false, reduceIte]

theorem RoundTrip.vjoin (e : Bool) (t : BitVec 4) : RoundTrip.Statement (.vjoin e t) := by
  intro _ _
  have hwd : encode (.vjoin e t) = pack [4, 20, 7, 1] [t.toNat, 0, 40, e.toNat] := by
    show word e 0x28000000 [put t 0] = _
    simp only [word, put, eBit_eq, pack]
    generalize t.toNat = v0; generalize e.toNat = v3; omega
  have hfit : Fits [4, 20, 7, 1] [t.toNat, 0, 40, e.toNat] := ⟨t.isLt, by decide, by decide, e.toNat_lt, trivial⟩
  revert hwd hfit; generalize encode _ = wd; intro hw hfit
  have hwd := And.intro hw (show ([4, 20, 7, 1] : List Nat).length = ([t.toNat, 0, 40, e.toNat] : List Nat).length from rfl)
  have h32 : wd % 2 ^ 32 = wd := pkw hwd hfit rfl
  have f0 : fld wd 0 4 = t := fld_eq (pk hwd hfit 0 rfl rfl rfl)
  have k1 : wd / 2 ^ 4 % 2 ^ 20 = 0 := pk hwd hfit 1 rfl rfl rfl
  have hm : wd / 2 ^ 24 % 2 ^ 7 = 40 := pk hwd hfit 2 rfl rfl rfl
  have he : bit wd 31 = e := bit_eq (pk hwd hfit 3 rfl rfl rfl)
  rw [short_28 hm, h32]
  simp only [decMajor28, f0, k1, he, and_self, ite_true, ite_false, reduceIte]

theorem RoundTrip.vmeld (e : Bool) (t : BitVec 4) (o : BitVec 18) : RoundTrip.Statement (.vmeld e t o) := by
  intro _ _
  have hwd : encode (.vmeld e t o) = pack [18, 1, 4, 1, 7, 1] [o.toNat, 0, t.toNat, 0, 41, e.toNat] := by
    show word e 0x29000000 [put t 19, put o 0] = _
    simp only [word, put, eBit_eq, pack]
    generalize o.toNat = v0; generalize t.toNat = v2; generalize e.toNat = v5; omega
  have hfit : Fits [18, 1, 4, 1, 7, 1] [o.toNat, 0, t.toNat, 0, 41, e.toNat] := ⟨o.isLt, by decide, t.isLt, by decide, by decide, e.toNat_lt, trivial⟩
  revert hwd hfit; generalize encode _ = wd; intro hw hfit
  have hwd := And.intro hw (show ([18, 1, 4, 1, 7, 1] : List Nat).length = ([o.toNat, 0, t.toNat, 0, 41, e.toNat] : List Nat).length from rfl)
  have h32 : wd % 2 ^ 32 = wd := pkw hwd hfit rfl
  have f0 : fld wd 0 18 = o := fld_eq (pk hwd hfit 0 rfl rfl rfl)
  have k1 : wd / 2 ^ 18 % 2 ^ 1 = 0 := pk hwd hfit 1 rfl rfl rfl
  have f2 : fld wd 19 4 = t := fld_eq (pk hwd hfit 2 rfl rfl rfl)
  have k3 : wd / 2 ^ 23 % 2 ^ 1 = 0 := pk hwd hfit 3 rfl rfl rfl
  have hm : wd / 2 ^ 24 % 2 ^ 7 = 41 := pk hwd hfit 4 rfl rfl rfl
  have he : bit wd 31 = e := bit_eq (pk hwd hfit 5 rfl rfl rfl)
  rw [short_29 hm, h32]
  simp only [decMajor29, f0, k1, f2, k3, he, and_self, ite_true, ite_false, reduceIte]

theorem RoundTrip.vunmeld (e : Bool) (t : BitVec 4) : RoundTrip.Statement (.vunmeld e t) := by
  intro _ _
  have hwd : encode (.vunmeld e t) = pack [19, 4, 1, 7, 1] [0, t.toNat, 1, 41, e.toNat] := by
    show word e 0x29800000 [put t 19] = _
    simp only [word, put, eBit_eq, pack]
    generalize t.toNat = v1; generalize e.toNat = v4; omega
  have hfit : Fits [19, 4, 1, 7, 1] [0, t.toNat, 1, 41, e.toNat] := ⟨by decide, t.isLt, by decide, by decide, e.toNat_lt, trivial⟩
  revert hwd hfit; generalize encode _ = wd; intro hw hfit
  have hwd := And.intro hw (show ([19, 4, 1, 7, 1] : List Nat).length = ([0, t.toNat, 1, 41, e.toNat] : List Nat).length from rfl)
  have h32 : wd % 2 ^ 32 = wd := pkw hwd hfit rfl
  have k0 : wd % 2 ^ 19 = 0 := pk0 hwd hfit rfl rfl
  have f1 : fld wd 19 4 = t := fld_eq (pk hwd hfit 1 rfl rfl rfl)
  have k2 : wd / 2 ^ 23 % 2 ^ 1 = 1 := pk hwd hfit 2 rfl rfl rfl
  have hm : wd / 2 ^ 24 % 2 ^ 7 = 41 := pk hwd hfit 3 rfl rfl rfl
  have he : bit wd 31 = e := bit_eq (pk hwd hfit 4 rfl rfl rfl)
  rw [short_29 hm, h32]
  simp only [decMajor29, k0, f1, k2, he, and_self, ite_true, ite_false, reduceIte]

theorem RoundTrip.vexit (e : Bool) (p : BitVec 4) : RoundTrip.Statement (.vexit e p) := by
  intro _ _
  have hwd : encode (.vexit e p) = pack [4, 12, 2, 6, 7, 1] [p.toNat, 0, 0, 0, 42, e.toNat] := by
    show word e 0x2A000000 [put p 0] = _
    simp only [word, put, eBit_eq, pack]
    generalize p.toNat = v0; generalize e.toNat = v5; omega
  have hfit : Fits [4, 12, 2, 6, 7, 1] [p.toNat, 0, 0, 0, 42, e.toNat] := ⟨p.isLt, by decide, by decide, by decide, by decide, e.toNat_lt, trivial⟩
  revert hwd hfit; generalize encode _ = wd; intro hw hfit
  have hwd := And.intro hw (show ([4, 12, 2, 6, 7, 1] : List Nat).length = ([p.toNat, 0, 0, 0, 42, e.toNat] : List Nat).length from rfl)
  have h32 : wd % 2 ^ 32 = wd := pkw hwd hfit rfl
  have f0 : fld wd 0 4 = p := fld_eq (pk hwd hfit 0 rfl rfl rfl)
  have k1 : wd / 2 ^ 4 % 2 ^ 12 = 0 := pk hwd hfit 1 rfl rfl rfl
  have k2 : wd / 2 ^ 16 % 2 ^ 2 = 0 := pk hwd hfit 2 rfl rfl rfl
  have k3 : wd / 2 ^ 18 % 2 ^ 6 = 0 := pk hwd hfit 3 rfl rfl rfl
  have hm : wd / 2 ^ 24 % 2 ^ 7 = 42 := pk hwd hfit 4 rfl rfl rfl
  have he : bit wd 31 = e := bit_eq (pk hwd hfit 5 rfl rfl rfl)
  rw [short_2A hm, h32]
  simp only [decMajor2A, f0, k1, k2, k3, he, and_self, ite_true, ite_false, reduceIte]

theorem RoundTrip.vbrk (e : Bool) (p : BitVec 4) : RoundTrip.Statement (.vbrk e p) := by
  intro _ _
  have hwd : encode (.vbrk e p) = pack [4, 12, 2, 6, 7, 1] [p.toNat, 0, 1, 0, 42, e.toNat] := by
    show word e 0x2A010000 [put p 0] = _
    simp only [word, put, eBit_eq, pack]
    generalize p.toNat = v0; generalize e.toNat = v5; omega
  have hfit : Fits [4, 12, 2, 6, 7, 1] [p.toNat, 0, 1, 0, 42, e.toNat] := ⟨p.isLt, by decide, by decide, by decide, by decide, e.toNat_lt, trivial⟩
  revert hwd hfit; generalize encode _ = wd; intro hw hfit
  have hwd := And.intro hw (show ([4, 12, 2, 6, 7, 1] : List Nat).length = ([p.toNat, 0, 1, 0, 42, e.toNat] : List Nat).length from rfl)
  have h32 : wd % 2 ^ 32 = wd := pkw hwd hfit rfl
  have f0 : fld wd 0 4 = p := fld_eq (pk hwd hfit 0 rfl rfl rfl)
  have k1 : wd / 2 ^ 4 % 2 ^ 12 = 0 := pk hwd hfit 1 rfl rfl rfl
  have k2 : wd / 2 ^ 16 % 2 ^ 2 = 1 := pk hwd hfit 2 rfl rfl rfl
  have k3 : wd / 2 ^ 18 % 2 ^ 6 = 0 := pk hwd hfit 3 rfl rfl rfl
  have hm : wd / 2 ^ 24 % 2 ^ 7 = 42 := pk hwd hfit 4 rfl rfl rfl
  have he : bit wd 31 = e := bit_eq (pk hwd hfit 5 rfl rfl rfl)
  rw [short_2A hm, h32]
  simp only [decMajor2A, f0, k1, k2, k3, he, and_self, ite_true, ite_false, reduceIte]

theorem RoundTrip.vany (e : Bool) (d : BitVec 6) (p m : BitVec 4) : RoundTrip.Statement (.vany e d p m) := by
  intro _ _
  have hwd : encode (.vany e d p m) = pack [6, 4, 2, 4, 2, 6, 7, 1] [0, m.toNat, 0, p.toNat, 0, d.toNat, 43, e.toNat] := by
    show word e 0x2B000000 [put d 18, put p 12, put m 6] = _
    simp only [word, put, eBit_eq, pack]
    generalize m.toNat = v1; generalize p.toNat = v3; generalize d.toNat = v5; generalize e.toNat = v7; omega
  have hfit : Fits [6, 4, 2, 4, 2, 6, 7, 1] [0, m.toNat, 0, p.toNat, 0, d.toNat, 43, e.toNat] := ⟨by decide, m.isLt, by decide, p.isLt, by decide, d.isLt, by decide, e.toNat_lt, trivial⟩
  revert hwd hfit; generalize encode _ = wd; intro hw hfit
  have hwd := And.intro hw (show ([6, 4, 2, 4, 2, 6, 7, 1] : List Nat).length = ([0, m.toNat, 0, p.toNat, 0, d.toNat, 43, e.toNat] : List Nat).length from rfl)
  have h32 : wd % 2 ^ 32 = wd := pkw hwd hfit rfl
  have k0 : wd % 2 ^ 6 = 0 := pk0 hwd hfit rfl rfl
  have f1 : fld wd 6 4 = m := fld_eq (pk hwd hfit 1 rfl rfl rfl)
  have k2 : wd / 2 ^ 10 % 2 ^ 2 = 0 := pk hwd hfit 2 rfl rfl rfl
  have f3 : fld wd 12 4 = p := fld_eq (pk hwd hfit 3 rfl rfl rfl)
  have k4 : wd / 2 ^ 16 % 2 ^ 2 = 0 := pk hwd hfit 4 rfl rfl rfl
  have f5 : fld wd 18 6 = d := fld_eq (pk hwd hfit 5 rfl rfl rfl)
  have hm : wd / 2 ^ 24 % 2 ^ 7 = 43 := pk hwd hfit 6 rfl rfl rfl
  have he : bit wd 31 = e := bit_eq (pk hwd hfit 7 rfl rfl rfl)
  rw [short_2B hm, h32]
  simp only [decMajor2B, k0, f1, k2, f3, k4, f5, he, and_self, ite_true, ite_false, reduceIte]

theorem RoundTrip.vall (e : Bool) (d : BitVec 6) (p m : BitVec 4) : RoundTrip.Statement (.vall e d p m) := by
  intro _ _
  have hwd : encode (.vall e d p m) = pack [6, 4, 2, 4, 2, 6, 7, 1] [1, m.toNat, 0, p.toNat, 0, d.toNat, 43, e.toNat] := by
    show word e 0x2B000001 [put d 18, put p 12, put m 6] = _
    simp only [word, put, eBit_eq, pack]
    generalize m.toNat = v1; generalize p.toNat = v3; generalize d.toNat = v5; generalize e.toNat = v7; omega
  have hfit : Fits [6, 4, 2, 4, 2, 6, 7, 1] [1, m.toNat, 0, p.toNat, 0, d.toNat, 43, e.toNat] := ⟨by decide, m.isLt, by decide, p.isLt, by decide, d.isLt, by decide, e.toNat_lt, trivial⟩
  revert hwd hfit; generalize encode _ = wd; intro hw hfit
  have hwd := And.intro hw (show ([6, 4, 2, 4, 2, 6, 7, 1] : List Nat).length = ([1, m.toNat, 0, p.toNat, 0, d.toNat, 43, e.toNat] : List Nat).length from rfl)
  have h32 : wd % 2 ^ 32 = wd := pkw hwd hfit rfl
  have k0 : wd % 2 ^ 6 = 1 := pk0 hwd hfit rfl rfl
  have f1 : fld wd 6 4 = m := fld_eq (pk hwd hfit 1 rfl rfl rfl)
  have k2 : wd / 2 ^ 10 % 2 ^ 2 = 0 := pk hwd hfit 2 rfl rfl rfl
  have f3 : fld wd 12 4 = p := fld_eq (pk hwd hfit 3 rfl rfl rfl)
  have k4 : wd / 2 ^ 16 % 2 ^ 2 = 0 := pk hwd hfit 4 rfl rfl rfl
  have f5 : fld wd 18 6 = d := fld_eq (pk hwd hfit 5 rfl rfl rfl)
  have hm : wd / 2 ^ 24 % 2 ^ 7 = 43 := pk hwd hfit 6 rfl rfl rfl
  have he : bit wd 31 = e := bit_eq (pk hwd hfit 7 rfl rfl rfl)
  rw [short_2B hm, h32]
  simp only [decMajor2B, k0, f1, k2, f3, k4, f5, he, and_self, ite_true, ite_false, reduceIte]

theorem RoundTrip.vnone (e : Bool) (d : BitVec 6) (p m : BitVec 4) : RoundTrip.Statement (.vnone e d p m) := by
  intro _ _
  have hwd : encode (.vnone e d p m) = pack [6, 4, 2, 4, 2, 6, 7, 1] [2, m.toNat, 0, p.toNat, 0, d.toNat, 43, e.toNat] := by
    show word e 0x2B000002 [put d 18, put p 12, put m 6] = _
    simp only [word, put, eBit_eq, pack]
    generalize m.toNat = v1; generalize p.toNat = v3; generalize d.toNat = v5; generalize e.toNat = v7; omega
  have hfit : Fits [6, 4, 2, 4, 2, 6, 7, 1] [2, m.toNat, 0, p.toNat, 0, d.toNat, 43, e.toNat] := ⟨by decide, m.isLt, by decide, p.isLt, by decide, d.isLt, by decide, e.toNat_lt, trivial⟩
  revert hwd hfit; generalize encode _ = wd; intro hw hfit
  have hwd := And.intro hw (show ([6, 4, 2, 4, 2, 6, 7, 1] : List Nat).length = ([2, m.toNat, 0, p.toNat, 0, d.toNat, 43, e.toNat] : List Nat).length from rfl)
  have h32 : wd % 2 ^ 32 = wd := pkw hwd hfit rfl
  have k0 : wd % 2 ^ 6 = 2 := pk0 hwd hfit rfl rfl
  have f1 : fld wd 6 4 = m := fld_eq (pk hwd hfit 1 rfl rfl rfl)
  have k2 : wd / 2 ^ 10 % 2 ^ 2 = 0 := pk hwd hfit 2 rfl rfl rfl
  have f3 : fld wd 12 4 = p := fld_eq (pk hwd hfit 3 rfl rfl rfl)
  have k4 : wd / 2 ^ 16 % 2 ^ 2 = 0 := pk hwd hfit 4 rfl rfl rfl
  have f5 : fld wd 18 6 = d := fld_eq (pk hwd hfit 5 rfl rfl rfl)
  have hm : wd / 2 ^ 24 % 2 ^ 7 = 43 := pk hwd hfit 6 rfl rfl rfl
  have he : bit wd 31 = e := bit_eq (pk hwd hfit 7 rfl rfl rfl)
  rw [short_2B hm, h32]
  simp only [decMajor2B, k0, f1, k2, f3, k4, f5, he, and_self, ite_true, ite_false, reduceIte]

theorem RoundTrip.vcfg (e : Bool) (d : BitVec 6) (n : BitVec 2) : RoundTrip.Statement (.vcfg e d n) := by
  intro _ _
  have hwd : encode (.vcfg e d n) = pack [2, 9, 1, 6, 6, 7, 1] [n.toNat, 0, 0, 0, d.toNat, 44, e.toNat] := by
    show word e 0x2C000000 [put d 18, put n 0] = _
    simp only [word, put, eBit_eq, pack]
    generalize n.toNat = v0; generalize d.toNat = v4; generalize e.toNat = v6; omega
  have hfit : Fits [2, 9, 1, 6, 6, 7, 1] [n.toNat, 0, 0, 0, d.toNat, 44, e.toNat] := ⟨n.isLt, by decide, by decide, by decide, d.isLt, by decide, e.toNat_lt, trivial⟩
  revert hwd hfit; generalize encode _ = wd; intro hw hfit
  have hwd := And.intro hw (show ([2, 9, 1, 6, 6, 7, 1] : List Nat).length = ([n.toNat, 0, 0, 0, d.toNat, 44, e.toNat] : List Nat).length from rfl)
  have h32 : wd % 2 ^ 32 = wd := pkw hwd hfit rfl
  have f0 : fld wd 0 2 = n := fld_eq (pk hwd hfit 0 rfl rfl rfl)
  have k1 : wd / 2 ^ 2 % 2 ^ 9 = 0 := pk hwd hfit 1 rfl rfl rfl
  have k2 : wd / 2 ^ 11 % 2 ^ 1 = 0 := pk hwd hfit 2 rfl rfl rfl
  have k3 : wd / 2 ^ 12 % 2 ^ 6 = 0 := pk hwd hfit 3 rfl rfl rfl
  have f4 : fld wd 18 6 = d := fld_eq (pk hwd hfit 4 rfl rfl rfl)
  have hm : wd / 2 ^ 24 % 2 ^ 7 = 44 := pk hwd hfit 5 rfl rfl rfl
  have he : bit wd 31 = e := bit_eq (pk hwd hfit 6 rfl rfl rfl)
  rw [short_2C hm, h32]
  simp only [decMajor2C, f0, k1, k2, k3, f4, he, and_self, ite_true, ite_false, reduceIte]

theorem RoundTrip.vgrant (e : Bool) (d a : BitVec 6) : RoundTrip.Statement (.vgrant e d a) := by
  intro _ _
  have hwd : encode (.vgrant e d a) = pack [11, 1, 6, 6, 7, 1] [0, 1, a.toNat, d.toNat, 44, e.toNat] := by
    show word e 0x2C000800 [put d 18, put a 12] = _
    simp only [word, put, eBit_eq, pack]
    generalize a.toNat = v2; generalize d.toNat = v3; generalize e.toNat = v5; omega
  have hfit : Fits [11, 1, 6, 6, 7, 1] [0, 1, a.toNat, d.toNat, 44, e.toNat] := ⟨by decide, by decide, a.isLt, d.isLt, by decide, e.toNat_lt, trivial⟩
  revert hwd hfit; generalize encode _ = wd; intro hw hfit
  have hwd := And.intro hw (show ([11, 1, 6, 6, 7, 1] : List Nat).length = ([0, 1, a.toNat, d.toNat, 44, e.toNat] : List Nat).length from rfl)
  have h32 : wd % 2 ^ 32 = wd := pkw hwd hfit rfl
  have k0 : wd % 2 ^ 11 = 0 := pk0 hwd hfit rfl rfl
  have k1 : wd / 2 ^ 11 % 2 ^ 1 = 1 := pk hwd hfit 1 rfl rfl rfl
  have f2 : fld wd 12 6 = a := fld_eq (pk hwd hfit 2 rfl rfl rfl)
  have f3 : fld wd 18 6 = d := fld_eq (pk hwd hfit 3 rfl rfl rfl)
  have hm : wd / 2 ^ 24 % 2 ^ 7 = 44 := pk hwd hfit 4 rfl rfl rfl
  have he : bit wd 31 = e := bit_eq (pk hwd hfit 5 rfl rfl rfl)
  rw [short_2C hm, h32]
  simp only [decMajor2C, k0, k1, f2, f3, he, and_self, ite_true, ite_false, reduceIte]

theorem RoundTrip.vadd (e : Bool) (d a b : BitVec 6) (m l : BitVec 2) (w : BitVec 1) : RoundTrip.Statement (.vadd e d a b m l w) := by
  intro _ _
  have hwd : encode (.vadd e d a b m l w) = pack [1, 1, 2, 2, 6, 6, 6, 7, 1] [0, w.toNat, l.toNat, m.toNat, b.toNat, a.toNat, d.toNat, 48, e.toNat] := by
    show word e 0x30000000 [put d 18, put a 12, put b 6, put m 4, put l 2, put w 1] = _
    simp only [word, put, eBit_eq, pack]
    generalize w.toNat = v1; generalize l.toNat = v2; generalize m.toNat = v3; generalize b.toNat = v4; generalize a.toNat = v5; generalize d.toNat = v6; generalize e.toNat = v8; omega
  have hfit : Fits [1, 1, 2, 2, 6, 6, 6, 7, 1] [0, w.toNat, l.toNat, m.toNat, b.toNat, a.toNat, d.toNat, 48, e.toNat] := ⟨by decide, w.isLt, l.isLt, m.isLt, b.isLt, a.isLt, d.isLt, by decide, e.toNat_lt, trivial⟩
  revert hwd hfit; generalize encode _ = wd; intro hw hfit
  have hwd := And.intro hw (show ([1, 1, 2, 2, 6, 6, 6, 7, 1] : List Nat).length = ([0, w.toNat, l.toNat, m.toNat, b.toNat, a.toNat, d.toNat, 48, e.toNat] : List Nat).length from rfl)
  have h32 : wd % 2 ^ 32 = wd := pkw hwd hfit rfl
  have k0 : wd % 2 ^ 1 = 0 := pk0 hwd hfit rfl rfl
  have f1 : fld wd 1 1 = w := fld_eq (pk hwd hfit 1 rfl rfl rfl)
  have f2 : fld wd 2 2 = l := fld_eq (pk hwd hfit 2 rfl rfl rfl)
  have f3 : fld wd 4 2 = m := fld_eq (pk hwd hfit 3 rfl rfl rfl)
  have f4 : fld wd 6 6 = b := fld_eq (pk hwd hfit 4 rfl rfl rfl)
  have f5 : fld wd 12 6 = a := fld_eq (pk hwd hfit 5 rfl rfl rfl)
  have f6 : fld wd 18 6 = d := fld_eq (pk hwd hfit 6 rfl rfl rfl)
  have hm : wd / 2 ^ 24 % 2 ^ 7 = 48 := pk hwd hfit 7 rfl rfl rfl
  have he : bit wd 31 = e := bit_eq (pk hwd hfit 8 rfl rfl rfl)
  rw [short_30 hm, h32]
  simp only [decMajor30, k0, f1, f2, f3, f4, f5, f6, he, and_self, ite_true, ite_false, reduceIte]

theorem RoundTrip.vsub (e : Bool) (d a b : BitVec 6) (m l : BitVec 2) (w : BitVec 1) : RoundTrip.Statement (.vsub e d a b m l w) := by
  intro _ _
  have hwd : encode (.vsub e d a b m l w) = pack [1, 1, 2, 2, 6, 6, 6, 7, 1] [1, w.toNat, l.toNat, m.toNat, b.toNat, a.toNat, d.toNat, 48, e.toNat] := by
    show word e 0x30000001 [put d 18, put a 12, put b 6, put m 4, put l 2, put w 1] = _
    simp only [word, put, eBit_eq, pack]
    generalize w.toNat = v1; generalize l.toNat = v2; generalize m.toNat = v3; generalize b.toNat = v4; generalize a.toNat = v5; generalize d.toNat = v6; generalize e.toNat = v8; omega
  have hfit : Fits [1, 1, 2, 2, 6, 6, 6, 7, 1] [1, w.toNat, l.toNat, m.toNat, b.toNat, a.toNat, d.toNat, 48, e.toNat] := ⟨by decide, w.isLt, l.isLt, m.isLt, b.isLt, a.isLt, d.isLt, by decide, e.toNat_lt, trivial⟩
  revert hwd hfit; generalize encode _ = wd; intro hw hfit
  have hwd := And.intro hw (show ([1, 1, 2, 2, 6, 6, 6, 7, 1] : List Nat).length = ([1, w.toNat, l.toNat, m.toNat, b.toNat, a.toNat, d.toNat, 48, e.toNat] : List Nat).length from rfl)
  have h32 : wd % 2 ^ 32 = wd := pkw hwd hfit rfl
  have k0 : wd % 2 ^ 1 = 1 := pk0 hwd hfit rfl rfl
  have f1 : fld wd 1 1 = w := fld_eq (pk hwd hfit 1 rfl rfl rfl)
  have f2 : fld wd 2 2 = l := fld_eq (pk hwd hfit 2 rfl rfl rfl)
  have f3 : fld wd 4 2 = m := fld_eq (pk hwd hfit 3 rfl rfl rfl)
  have f4 : fld wd 6 6 = b := fld_eq (pk hwd hfit 4 rfl rfl rfl)
  have f5 : fld wd 12 6 = a := fld_eq (pk hwd hfit 5 rfl rfl rfl)
  have f6 : fld wd 18 6 = d := fld_eq (pk hwd hfit 6 rfl rfl rfl)
  have hm : wd / 2 ^ 24 % 2 ^ 7 = 48 := pk hwd hfit 7 rfl rfl rfl
  have he : bit wd 31 = e := bit_eq (pk hwd hfit 8 rfl rfl rfl)
  rw [short_30 hm, h32]
  simp only [decMajor30, k0, f1, f2, f3, f4, f5, f6, he, and_self, ite_true, ite_false, reduceIte]

theorem RoundTrip.vmul (e : Bool) (d a b : BitVec 6) (m l : BitVec 2) (w : BitVec 1) : RoundTrip.Statement (.vmul e d a b m l w) := by
  intro _ _
  have hwd : encode (.vmul e d a b m l w) = pack [1, 1, 2, 2, 6, 6, 6, 7, 1] [0, w.toNat, l.toNat, m.toNat, b.toNat, a.toNat, d.toNat, 49, e.toNat] := by
    show word e 0x31000000 [put d 18, put a 12, put b 6, put m 4, put l 2, put w 1] = _
    simp only [word, put, eBit_eq, pack]
    generalize w.toNat = v1; generalize l.toNat = v2; generalize m.toNat = v3; generalize b.toNat = v4; generalize a.toNat = v5; generalize d.toNat = v6; generalize e.toNat = v8; omega
  have hfit : Fits [1, 1, 2, 2, 6, 6, 6, 7, 1] [0, w.toNat, l.toNat, m.toNat, b.toNat, a.toNat, d.toNat, 49, e.toNat] := ⟨by decide, w.isLt, l.isLt, m.isLt, b.isLt, a.isLt, d.isLt, by decide, e.toNat_lt, trivial⟩
  revert hwd hfit; generalize encode _ = wd; intro hw hfit
  have hwd := And.intro hw (show ([1, 1, 2, 2, 6, 6, 6, 7, 1] : List Nat).length = ([0, w.toNat, l.toNat, m.toNat, b.toNat, a.toNat, d.toNat, 49, e.toNat] : List Nat).length from rfl)
  have h32 : wd % 2 ^ 32 = wd := pkw hwd hfit rfl
  have k0 : wd % 2 ^ 1 = 0 := pk0 hwd hfit rfl rfl
  have f1 : fld wd 1 1 = w := fld_eq (pk hwd hfit 1 rfl rfl rfl)
  have f2 : fld wd 2 2 = l := fld_eq (pk hwd hfit 2 rfl rfl rfl)
  have f3 : fld wd 4 2 = m := fld_eq (pk hwd hfit 3 rfl rfl rfl)
  have f4 : fld wd 6 6 = b := fld_eq (pk hwd hfit 4 rfl rfl rfl)
  have f5 : fld wd 12 6 = a := fld_eq (pk hwd hfit 5 rfl rfl rfl)
  have f6 : fld wd 18 6 = d := fld_eq (pk hwd hfit 6 rfl rfl rfl)
  have hm : wd / 2 ^ 24 % 2 ^ 7 = 49 := pk hwd hfit 7 rfl rfl rfl
  have he : bit wd 31 = e := bit_eq (pk hwd hfit 8 rfl rfl rfl)
  rw [short_31 hm, h32]
  simp only [decMajor31, k0, f1, f2, f3, f4, f5, f6, he, and_self, ite_true, ite_false, reduceIte]

theorem RoundTrip.vmulh (e : Bool) (d a b : BitVec 6) (m l : BitVec 2) (w : BitVec 1) : RoundTrip.Statement (.vmulh e d a b m l w) := by
  intro _ _
  have hwd : encode (.vmulh e d a b m l w) = pack [1, 1, 2, 2, 6, 6, 6, 7, 1] [1, w.toNat, l.toNat, m.toNat, b.toNat, a.toNat, d.toNat, 49, e.toNat] := by
    show word e 0x31000001 [put d 18, put a 12, put b 6, put m 4, put l 2, put w 1] = _
    simp only [word, put, eBit_eq, pack]
    generalize w.toNat = v1; generalize l.toNat = v2; generalize m.toNat = v3; generalize b.toNat = v4; generalize a.toNat = v5; generalize d.toNat = v6; generalize e.toNat = v8; omega
  have hfit : Fits [1, 1, 2, 2, 6, 6, 6, 7, 1] [1, w.toNat, l.toNat, m.toNat, b.toNat, a.toNat, d.toNat, 49, e.toNat] := ⟨by decide, w.isLt, l.isLt, m.isLt, b.isLt, a.isLt, d.isLt, by decide, e.toNat_lt, trivial⟩
  revert hwd hfit; generalize encode _ = wd; intro hw hfit
  have hwd := And.intro hw (show ([1, 1, 2, 2, 6, 6, 6, 7, 1] : List Nat).length = ([1, w.toNat, l.toNat, m.toNat, b.toNat, a.toNat, d.toNat, 49, e.toNat] : List Nat).length from rfl)
  have h32 : wd % 2 ^ 32 = wd := pkw hwd hfit rfl
  have k0 : wd % 2 ^ 1 = 1 := pk0 hwd hfit rfl rfl
  have f1 : fld wd 1 1 = w := fld_eq (pk hwd hfit 1 rfl rfl rfl)
  have f2 : fld wd 2 2 = l := fld_eq (pk hwd hfit 2 rfl rfl rfl)
  have f3 : fld wd 4 2 = m := fld_eq (pk hwd hfit 3 rfl rfl rfl)
  have f4 : fld wd 6 6 = b := fld_eq (pk hwd hfit 4 rfl rfl rfl)
  have f5 : fld wd 12 6 = a := fld_eq (pk hwd hfit 5 rfl rfl rfl)
  have f6 : fld wd 18 6 = d := fld_eq (pk hwd hfit 6 rfl rfl rfl)
  have hm : wd / 2 ^ 24 % 2 ^ 7 = 49 := pk hwd hfit 7 rfl rfl rfl
  have he : bit wd 31 = e := bit_eq (pk hwd hfit 8 rfl rfl rfl)
  rw [short_31 hm, h32]
  simp only [decMajor31, k0, f1, f2, f3, f4, f5, f6, he, and_self, ite_true, ite_false, reduceIte]

theorem RoundTrip.vmulhu (e : Bool) (d a b : BitVec 6) (m l : BitVec 2) (w : BitVec 1) : RoundTrip.Statement (.vmulhu e d a b m l w) := by
  intro _ _
  have hwd : encode (.vmulhu e d a b m l w) = pack [1, 1, 2, 2, 6, 6, 6, 7, 1] [0, w.toNat, l.toNat, m.toNat, b.toNat, a.toNat, d.toNat, 50, e.toNat] := by
    show word e 0x32000000 [put d 18, put a 12, put b 6, put m 4, put l 2, put w 1] = _
    simp only [word, put, eBit_eq, pack]
    generalize w.toNat = v1; generalize l.toNat = v2; generalize m.toNat = v3; generalize b.toNat = v4; generalize a.toNat = v5; generalize d.toNat = v6; generalize e.toNat = v8; omega
  have hfit : Fits [1, 1, 2, 2, 6, 6, 6, 7, 1] [0, w.toNat, l.toNat, m.toNat, b.toNat, a.toNat, d.toNat, 50, e.toNat] := ⟨by decide, w.isLt, l.isLt, m.isLt, b.isLt, a.isLt, d.isLt, by decide, e.toNat_lt, trivial⟩
  revert hwd hfit; generalize encode _ = wd; intro hw hfit
  have hwd := And.intro hw (show ([1, 1, 2, 2, 6, 6, 6, 7, 1] : List Nat).length = ([0, w.toNat, l.toNat, m.toNat, b.toNat, a.toNat, d.toNat, 50, e.toNat] : List Nat).length from rfl)
  have h32 : wd % 2 ^ 32 = wd := pkw hwd hfit rfl
  have k0 : wd % 2 ^ 1 = 0 := pk0 hwd hfit rfl rfl
  have f1 : fld wd 1 1 = w := fld_eq (pk hwd hfit 1 rfl rfl rfl)
  have f2 : fld wd 2 2 = l := fld_eq (pk hwd hfit 2 rfl rfl rfl)
  have f3 : fld wd 4 2 = m := fld_eq (pk hwd hfit 3 rfl rfl rfl)
  have f4 : fld wd 6 6 = b := fld_eq (pk hwd hfit 4 rfl rfl rfl)
  have f5 : fld wd 12 6 = a := fld_eq (pk hwd hfit 5 rfl rfl rfl)
  have f6 : fld wd 18 6 = d := fld_eq (pk hwd hfit 6 rfl rfl rfl)
  have hm : wd / 2 ^ 24 % 2 ^ 7 = 50 := pk hwd hfit 7 rfl rfl rfl
  have he : bit wd 31 = e := bit_eq (pk hwd hfit 8 rfl rfl rfl)
  rw [short_32 hm, h32]
  simp only [decMajor32, k0, f1, f2, f3, f4, f5, f6, he, and_self, ite_true, ite_false, reduceIte]

theorem RoundTrip.vmad (e : Bool) (d a b : BitVec 6) (m l : BitVec 2) (w : BitVec 1) : RoundTrip.Statement (.vmad e d a b m l w) := by
  intro _ _
  have hwd : encode (.vmad e d a b m l w) = pack [1, 1, 2, 2, 6, 6, 6, 7, 1] [1, w.toNat, l.toNat, m.toNat, b.toNat, a.toNat, d.toNat, 50, e.toNat] := by
    show word e 0x32000001 [put d 18, put a 12, put b 6, put m 4, put l 2, put w 1] = _
    simp only [word, put, eBit_eq, pack]
    generalize w.toNat = v1; generalize l.toNat = v2; generalize m.toNat = v3; generalize b.toNat = v4; generalize a.toNat = v5; generalize d.toNat = v6; generalize e.toNat = v8; omega
  have hfit : Fits [1, 1, 2, 2, 6, 6, 6, 7, 1] [1, w.toNat, l.toNat, m.toNat, b.toNat, a.toNat, d.toNat, 50, e.toNat] := ⟨by decide, w.isLt, l.isLt, m.isLt, b.isLt, a.isLt, d.isLt, by decide, e.toNat_lt, trivial⟩
  revert hwd hfit; generalize encode _ = wd; intro hw hfit
  have hwd := And.intro hw (show ([1, 1, 2, 2, 6, 6, 6, 7, 1] : List Nat).length = ([1, w.toNat, l.toNat, m.toNat, b.toNat, a.toNat, d.toNat, 50, e.toNat] : List Nat).length from rfl)
  have h32 : wd % 2 ^ 32 = wd := pkw hwd hfit rfl
  have k0 : wd % 2 ^ 1 = 1 := pk0 hwd hfit rfl rfl
  have f1 : fld wd 1 1 = w := fld_eq (pk hwd hfit 1 rfl rfl rfl)
  have f2 : fld wd 2 2 = l := fld_eq (pk hwd hfit 2 rfl rfl rfl)
  have f3 : fld wd 4 2 = m := fld_eq (pk hwd hfit 3 rfl rfl rfl)
  have f4 : fld wd 6 6 = b := fld_eq (pk hwd hfit 4 rfl rfl rfl)
  have f5 : fld wd 12 6 = a := fld_eq (pk hwd hfit 5 rfl rfl rfl)
  have f6 : fld wd 18 6 = d := fld_eq (pk hwd hfit 6 rfl rfl rfl)
  have hm : wd / 2 ^ 24 % 2 ^ 7 = 50 := pk hwd hfit 7 rfl rfl rfl
  have he : bit wd 31 = e := bit_eq (pk hwd hfit 8 rfl rfl rfl)
  rw [short_32 hm, h32]
  simp only [decMajor32, k0, f1, f2, f3, f4, f5, f6, he, and_self, ite_true, ite_false, reduceIte]

theorem RoundTrip.vand (e : Bool) (d a b : BitVec 6) (m l : BitVec 2) (w : BitVec 1) : RoundTrip.Statement (.vand e d a b m l w) := by
  intro _ _
  have hwd : encode (.vand e d a b m l w) = pack [1, 1, 2, 2, 6, 6, 6, 7, 1] [0, w.toNat, l.toNat, m.toNat, b.toNat, a.toNat, d.toNat, 51, e.toNat] := by
    show word e 0x33000000 [put d 18, put a 12, put b 6, put m 4, put l 2, put w 1] = _
    simp only [word, put, eBit_eq, pack]
    generalize w.toNat = v1; generalize l.toNat = v2; generalize m.toNat = v3; generalize b.toNat = v4; generalize a.toNat = v5; generalize d.toNat = v6; generalize e.toNat = v8; omega
  have hfit : Fits [1, 1, 2, 2, 6, 6, 6, 7, 1] [0, w.toNat, l.toNat, m.toNat, b.toNat, a.toNat, d.toNat, 51, e.toNat] := ⟨by decide, w.isLt, l.isLt, m.isLt, b.isLt, a.isLt, d.isLt, by decide, e.toNat_lt, trivial⟩
  revert hwd hfit; generalize encode _ = wd; intro hw hfit
  have hwd := And.intro hw (show ([1, 1, 2, 2, 6, 6, 6, 7, 1] : List Nat).length = ([0, w.toNat, l.toNat, m.toNat, b.toNat, a.toNat, d.toNat, 51, e.toNat] : List Nat).length from rfl)
  have h32 : wd % 2 ^ 32 = wd := pkw hwd hfit rfl
  have k0 : wd % 2 ^ 1 = 0 := pk0 hwd hfit rfl rfl
  have f1 : fld wd 1 1 = w := fld_eq (pk hwd hfit 1 rfl rfl rfl)
  have f2 : fld wd 2 2 = l := fld_eq (pk hwd hfit 2 rfl rfl rfl)
  have f3 : fld wd 4 2 = m := fld_eq (pk hwd hfit 3 rfl rfl rfl)
  have f4 : fld wd 6 6 = b := fld_eq (pk hwd hfit 4 rfl rfl rfl)
  have f5 : fld wd 12 6 = a := fld_eq (pk hwd hfit 5 rfl rfl rfl)
  have f6 : fld wd 18 6 = d := fld_eq (pk hwd hfit 6 rfl rfl rfl)
  have hm : wd / 2 ^ 24 % 2 ^ 7 = 51 := pk hwd hfit 7 rfl rfl rfl
  have he : bit wd 31 = e := bit_eq (pk hwd hfit 8 rfl rfl rfl)
  rw [short_33 hm, h32]
  simp only [decMajor33, k0, f1, f2, f3, f4, f5, f6, he, and_self, ite_true, ite_false, reduceIte]

theorem RoundTrip.vor (e : Bool) (d a b : BitVec 6) (m l : BitVec 2) (w : BitVec 1) : RoundTrip.Statement (.vor e d a b m l w) := by
  intro _ _
  have hwd : encode (.vor e d a b m l w) = pack [1, 1, 2, 2, 6, 6, 6, 7, 1] [1, w.toNat, l.toNat, m.toNat, b.toNat, a.toNat, d.toNat, 51, e.toNat] := by
    show word e 0x33000001 [put d 18, put a 12, put b 6, put m 4, put l 2, put w 1] = _
    simp only [word, put, eBit_eq, pack]
    generalize w.toNat = v1; generalize l.toNat = v2; generalize m.toNat = v3; generalize b.toNat = v4; generalize a.toNat = v5; generalize d.toNat = v6; generalize e.toNat = v8; omega
  have hfit : Fits [1, 1, 2, 2, 6, 6, 6, 7, 1] [1, w.toNat, l.toNat, m.toNat, b.toNat, a.toNat, d.toNat, 51, e.toNat] := ⟨by decide, w.isLt, l.isLt, m.isLt, b.isLt, a.isLt, d.isLt, by decide, e.toNat_lt, trivial⟩
  revert hwd hfit; generalize encode _ = wd; intro hw hfit
  have hwd := And.intro hw (show ([1, 1, 2, 2, 6, 6, 6, 7, 1] : List Nat).length = ([1, w.toNat, l.toNat, m.toNat, b.toNat, a.toNat, d.toNat, 51, e.toNat] : List Nat).length from rfl)
  have h32 : wd % 2 ^ 32 = wd := pkw hwd hfit rfl
  have k0 : wd % 2 ^ 1 = 1 := pk0 hwd hfit rfl rfl
  have f1 : fld wd 1 1 = w := fld_eq (pk hwd hfit 1 rfl rfl rfl)
  have f2 : fld wd 2 2 = l := fld_eq (pk hwd hfit 2 rfl rfl rfl)
  have f3 : fld wd 4 2 = m := fld_eq (pk hwd hfit 3 rfl rfl rfl)
  have f4 : fld wd 6 6 = b := fld_eq (pk hwd hfit 4 rfl rfl rfl)
  have f5 : fld wd 12 6 = a := fld_eq (pk hwd hfit 5 rfl rfl rfl)
  have f6 : fld wd 18 6 = d := fld_eq (pk hwd hfit 6 rfl rfl rfl)
  have hm : wd / 2 ^ 24 % 2 ^ 7 = 51 := pk hwd hfit 7 rfl rfl rfl
  have he : bit wd 31 = e := bit_eq (pk hwd hfit 8 rfl rfl rfl)
  rw [short_33 hm, h32]
  simp only [decMajor33, k0, f1, f2, f3, f4, f5, f6, he, and_self, ite_true, ite_false, reduceIte]

theorem RoundTrip.vxor (e : Bool) (d a b : BitVec 6) (m l : BitVec 2) (w : BitVec 1) : RoundTrip.Statement (.vxor e d a b m l w) := by
  intro _ _
  have hwd : encode (.vxor e d a b m l w) = pack [1, 1, 2, 2, 6, 6, 6, 7, 1] [0, w.toNat, l.toNat, m.toNat, b.toNat, a.toNat, d.toNat, 52, e.toNat] := by
    show word e 0x34000000 [put d 18, put a 12, put b 6, put m 4, put l 2, put w 1] = _
    simp only [word, put, eBit_eq, pack]
    generalize w.toNat = v1; generalize l.toNat = v2; generalize m.toNat = v3; generalize b.toNat = v4; generalize a.toNat = v5; generalize d.toNat = v6; generalize e.toNat = v8; omega
  have hfit : Fits [1, 1, 2, 2, 6, 6, 6, 7, 1] [0, w.toNat, l.toNat, m.toNat, b.toNat, a.toNat, d.toNat, 52, e.toNat] := ⟨by decide, w.isLt, l.isLt, m.isLt, b.isLt, a.isLt, d.isLt, by decide, e.toNat_lt, trivial⟩
  revert hwd hfit; generalize encode _ = wd; intro hw hfit
  have hwd := And.intro hw (show ([1, 1, 2, 2, 6, 6, 6, 7, 1] : List Nat).length = ([0, w.toNat, l.toNat, m.toNat, b.toNat, a.toNat, d.toNat, 52, e.toNat] : List Nat).length from rfl)
  have h32 : wd % 2 ^ 32 = wd := pkw hwd hfit rfl
  have k0 : wd % 2 ^ 1 = 0 := pk0 hwd hfit rfl rfl
  have f1 : fld wd 1 1 = w := fld_eq (pk hwd hfit 1 rfl rfl rfl)
  have f2 : fld wd 2 2 = l := fld_eq (pk hwd hfit 2 rfl rfl rfl)
  have f3 : fld wd 4 2 = m := fld_eq (pk hwd hfit 3 rfl rfl rfl)
  have f4 : fld wd 6 6 = b := fld_eq (pk hwd hfit 4 rfl rfl rfl)
  have f5 : fld wd 12 6 = a := fld_eq (pk hwd hfit 5 rfl rfl rfl)
  have f6 : fld wd 18 6 = d := fld_eq (pk hwd hfit 6 rfl rfl rfl)
  have hm : wd / 2 ^ 24 % 2 ^ 7 = 52 := pk hwd hfit 7 rfl rfl rfl
  have he : bit wd 31 = e := bit_eq (pk hwd hfit 8 rfl rfl rfl)
  rw [short_34 hm, h32]
  simp only [decMajor34, k0, f1, f2, f3, f4, f5, f6, he, and_self, ite_true, ite_false, reduceIte]

theorem RoundTrip.vandn (e : Bool) (d a b : BitVec 6) (m l : BitVec 2) (w : BitVec 1) : RoundTrip.Statement (.vandn e d a b m l w) := by
  intro _ _
  have hwd : encode (.vandn e d a b m l w) = pack [1, 1, 2, 2, 6, 6, 6, 7, 1] [1, w.toNat, l.toNat, m.toNat, b.toNat, a.toNat, d.toNat, 52, e.toNat] := by
    show word e 0x34000001 [put d 18, put a 12, put b 6, put m 4, put l 2, put w 1] = _
    simp only [word, put, eBit_eq, pack]
    generalize w.toNat = v1; generalize l.toNat = v2; generalize m.toNat = v3; generalize b.toNat = v4; generalize a.toNat = v5; generalize d.toNat = v6; generalize e.toNat = v8; omega
  have hfit : Fits [1, 1, 2, 2, 6, 6, 6, 7, 1] [1, w.toNat, l.toNat, m.toNat, b.toNat, a.toNat, d.toNat, 52, e.toNat] := ⟨by decide, w.isLt, l.isLt, m.isLt, b.isLt, a.isLt, d.isLt, by decide, e.toNat_lt, trivial⟩
  revert hwd hfit; generalize encode _ = wd; intro hw hfit
  have hwd := And.intro hw (show ([1, 1, 2, 2, 6, 6, 6, 7, 1] : List Nat).length = ([1, w.toNat, l.toNat, m.toNat, b.toNat, a.toNat, d.toNat, 52, e.toNat] : List Nat).length from rfl)
  have h32 : wd % 2 ^ 32 = wd := pkw hwd hfit rfl
  have k0 : wd % 2 ^ 1 = 1 := pk0 hwd hfit rfl rfl
  have f1 : fld wd 1 1 = w := fld_eq (pk hwd hfit 1 rfl rfl rfl)
  have f2 : fld wd 2 2 = l := fld_eq (pk hwd hfit 2 rfl rfl rfl)
  have f3 : fld wd 4 2 = m := fld_eq (pk hwd hfit 3 rfl rfl rfl)
  have f4 : fld wd 6 6 = b := fld_eq (pk hwd hfit 4 rfl rfl rfl)
  have f5 : fld wd 12 6 = a := fld_eq (pk hwd hfit 5 rfl rfl rfl)
  have f6 : fld wd 18 6 = d := fld_eq (pk hwd hfit 6 rfl rfl rfl)
  have hm : wd / 2 ^ 24 % 2 ^ 7 = 52 := pk hwd hfit 7 rfl rfl rfl
  have he : bit wd 31 = e := bit_eq (pk hwd hfit 8 rfl rfl rfl)
  rw [short_34 hm, h32]
  simp only [decMajor34, k0, f1, f2, f3, f4, f5, f6, he, and_self, ite_true, ite_false, reduceIte]

theorem RoundTrip.vshl (e : Bool) (d a b : BitVec 6) (m l : BitVec 2) (w : BitVec 1) : RoundTrip.Statement (.vshl e d a b m l w) := by
  intro _ _
  have hwd : encode (.vshl e d a b m l w) = pack [1, 1, 2, 2, 6, 6, 6, 7, 1] [0, w.toNat, l.toNat, m.toNat, b.toNat, a.toNat, d.toNat, 53, e.toNat] := by
    show word e 0x35000000 [put d 18, put a 12, put b 6, put m 4, put l 2, put w 1] = _
    simp only [word, put, eBit_eq, pack]
    generalize w.toNat = v1; generalize l.toNat = v2; generalize m.toNat = v3; generalize b.toNat = v4; generalize a.toNat = v5; generalize d.toNat = v6; generalize e.toNat = v8; omega
  have hfit : Fits [1, 1, 2, 2, 6, 6, 6, 7, 1] [0, w.toNat, l.toNat, m.toNat, b.toNat, a.toNat, d.toNat, 53, e.toNat] := ⟨by decide, w.isLt, l.isLt, m.isLt, b.isLt, a.isLt, d.isLt, by decide, e.toNat_lt, trivial⟩
  revert hwd hfit; generalize encode _ = wd; intro hw hfit
  have hwd := And.intro hw (show ([1, 1, 2, 2, 6, 6, 6, 7, 1] : List Nat).length = ([0, w.toNat, l.toNat, m.toNat, b.toNat, a.toNat, d.toNat, 53, e.toNat] : List Nat).length from rfl)
  have h32 : wd % 2 ^ 32 = wd := pkw hwd hfit rfl
  have k0 : wd % 2 ^ 1 = 0 := pk0 hwd hfit rfl rfl
  have f1 : fld wd 1 1 = w := fld_eq (pk hwd hfit 1 rfl rfl rfl)
  have f2 : fld wd 2 2 = l := fld_eq (pk hwd hfit 2 rfl rfl rfl)
  have f3 : fld wd 4 2 = m := fld_eq (pk hwd hfit 3 rfl rfl rfl)
  have f4 : fld wd 6 6 = b := fld_eq (pk hwd hfit 4 rfl rfl rfl)
  have f5 : fld wd 12 6 = a := fld_eq (pk hwd hfit 5 rfl rfl rfl)
  have f6 : fld wd 18 6 = d := fld_eq (pk hwd hfit 6 rfl rfl rfl)
  have hm : wd / 2 ^ 24 % 2 ^ 7 = 53 := pk hwd hfit 7 rfl rfl rfl
  have he : bit wd 31 = e := bit_eq (pk hwd hfit 8 rfl rfl rfl)
  rw [short_35 hm, h32]
  simp only [decMajor35, k0, f1, f2, f3, f4, f5, f6, he, and_self, ite_true, ite_false, reduceIte]

theorem RoundTrip.vshr (e : Bool) (d a b : BitVec 6) (m l : BitVec 2) (w : BitVec 1) : RoundTrip.Statement (.vshr e d a b m l w) := by
  intro _ _
  have hwd : encode (.vshr e d a b m l w) = pack [1, 1, 2, 2, 6, 6, 6, 7, 1] [1, w.toNat, l.toNat, m.toNat, b.toNat, a.toNat, d.toNat, 53, e.toNat] := by
    show word e 0x35000001 [put d 18, put a 12, put b 6, put m 4, put l 2, put w 1] = _
    simp only [word, put, eBit_eq, pack]
    generalize w.toNat = v1; generalize l.toNat = v2; generalize m.toNat = v3; generalize b.toNat = v4; generalize a.toNat = v5; generalize d.toNat = v6; generalize e.toNat = v8; omega
  have hfit : Fits [1, 1, 2, 2, 6, 6, 6, 7, 1] [1, w.toNat, l.toNat, m.toNat, b.toNat, a.toNat, d.toNat, 53, e.toNat] := ⟨by decide, w.isLt, l.isLt, m.isLt, b.isLt, a.isLt, d.isLt, by decide, e.toNat_lt, trivial⟩
  revert hwd hfit; generalize encode _ = wd; intro hw hfit
  have hwd := And.intro hw (show ([1, 1, 2, 2, 6, 6, 6, 7, 1] : List Nat).length = ([1, w.toNat, l.toNat, m.toNat, b.toNat, a.toNat, d.toNat, 53, e.toNat] : List Nat).length from rfl)
  have h32 : wd % 2 ^ 32 = wd := pkw hwd hfit rfl
  have k0 : wd % 2 ^ 1 = 1 := pk0 hwd hfit rfl rfl
  have f1 : fld wd 1 1 = w := fld_eq (pk hwd hfit 1 rfl rfl rfl)
  have f2 : fld wd 2 2 = l := fld_eq (pk hwd hfit 2 rfl rfl rfl)
  have f3 : fld wd 4 2 = m := fld_eq (pk hwd hfit 3 rfl rfl rfl)
  have f4 : fld wd 6 6 = b := fld_eq (pk hwd hfit 4 rfl rfl rfl)
  have f5 : fld wd 12 6 = a := fld_eq (pk hwd hfit 5 rfl rfl rfl)
  have f6 : fld wd 18 6 = d := fld_eq (pk hwd hfit 6 rfl rfl rfl)
  have hm : wd / 2 ^ 24 % 2 ^ 7 = 53 := pk hwd hfit 7 rfl rfl rfl
  have he : bit wd 31 = e := bit_eq (pk hwd hfit 8 rfl rfl rfl)
  rw [short_35 hm, h32]
  simp only [decMajor35, k0, f1, f2, f3, f4, f5, f6, he, and_self, ite_true, ite_false, reduceIte]

theorem RoundTrip.vsra (e : Bool) (d a b : BitVec 6) (m l : BitVec 2) (w : BitVec 1) : RoundTrip.Statement (.vsra e d a b m l w) := by
  intro _ _
  have hwd : encode (.vsra e d a b m l w) = pack [1, 1, 2, 2, 6, 6, 6, 7, 1] [0, w.toNat, l.toNat, m.toNat, b.toNat, a.toNat, d.toNat, 54, e.toNat] := by
    show word e 0x36000000 [put d 18, put a 12, put b 6, put m 4, put l 2, put w 1] = _
    simp only [word, put, eBit_eq, pack]
    generalize w.toNat = v1; generalize l.toNat = v2; generalize m.toNat = v3; generalize b.toNat = v4; generalize a.toNat = v5; generalize d.toNat = v6; generalize e.toNat = v8; omega
  have hfit : Fits [1, 1, 2, 2, 6, 6, 6, 7, 1] [0, w.toNat, l.toNat, m.toNat, b.toNat, a.toNat, d.toNat, 54, e.toNat] := ⟨by decide, w.isLt, l.isLt, m.isLt, b.isLt, a.isLt, d.isLt, by decide, e.toNat_lt, trivial⟩
  revert hwd hfit; generalize encode _ = wd; intro hw hfit
  have hwd := And.intro hw (show ([1, 1, 2, 2, 6, 6, 6, 7, 1] : List Nat).length = ([0, w.toNat, l.toNat, m.toNat, b.toNat, a.toNat, d.toNat, 54, e.toNat] : List Nat).length from rfl)
  have h32 : wd % 2 ^ 32 = wd := pkw hwd hfit rfl
  have k0 : wd % 2 ^ 1 = 0 := pk0 hwd hfit rfl rfl
  have f1 : fld wd 1 1 = w := fld_eq (pk hwd hfit 1 rfl rfl rfl)
  have f2 : fld wd 2 2 = l := fld_eq (pk hwd hfit 2 rfl rfl rfl)
  have f3 : fld wd 4 2 = m := fld_eq (pk hwd hfit 3 rfl rfl rfl)
  have f4 : fld wd 6 6 = b := fld_eq (pk hwd hfit 4 rfl rfl rfl)
  have f5 : fld wd 12 6 = a := fld_eq (pk hwd hfit 5 rfl rfl rfl)
  have f6 : fld wd 18 6 = d := fld_eq (pk hwd hfit 6 rfl rfl rfl)
  have hm : wd / 2 ^ 24 % 2 ^ 7 = 54 := pk hwd hfit 7 rfl rfl rfl
  have he : bit wd 31 = e := bit_eq (pk hwd hfit 8 rfl rfl rfl)
  rw [short_36 hm, h32]
  simp only [decMajor36, k0, f1, f2, f3, f4, f5, f6, he, and_self, ite_true, ite_false, reduceIte]

theorem RoundTrip.vrot (e : Bool) (d a b : BitVec 6) (m l : BitVec 2) (w : BitVec 1) : RoundTrip.Statement (.vrot e d a b m l w) := by
  intro _ _
  have hwd : encode (.vrot e d a b m l w) = pack [1, 1, 2, 2, 6, 6, 6, 7, 1] [1, w.toNat, l.toNat, m.toNat, b.toNat, a.toNat, d.toNat, 54, e.toNat] := by
    show word e 0x36000001 [put d 18, put a 12, put b 6, put m 4, put l 2, put w 1] = _
    simp only [word, put, eBit_eq, pack]
    generalize w.toNat = v1; generalize l.toNat = v2; generalize m.toNat = v3; generalize b.toNat = v4; generalize a.toNat = v5; generalize d.toNat = v6; generalize e.toNat = v8; omega
  have hfit : Fits [1, 1, 2, 2, 6, 6, 6, 7, 1] [1, w.toNat, l.toNat, m.toNat, b.toNat, a.toNat, d.toNat, 54, e.toNat] := ⟨by decide, w.isLt, l.isLt, m.isLt, b.isLt, a.isLt, d.isLt, by decide, e.toNat_lt, trivial⟩
  revert hwd hfit; generalize encode _ = wd; intro hw hfit
  have hwd := And.intro hw (show ([1, 1, 2, 2, 6, 6, 6, 7, 1] : List Nat).length = ([1, w.toNat, l.toNat, m.toNat, b.toNat, a.toNat, d.toNat, 54, e.toNat] : List Nat).length from rfl)
  have h32 : wd % 2 ^ 32 = wd := pkw hwd hfit rfl
  have k0 : wd % 2 ^ 1 = 1 := pk0 hwd hfit rfl rfl
  have f1 : fld wd 1 1 = w := fld_eq (pk hwd hfit 1 rfl rfl rfl)
  have f2 : fld wd 2 2 = l := fld_eq (pk hwd hfit 2 rfl rfl rfl)
  have f3 : fld wd 4 2 = m := fld_eq (pk hwd hfit 3 rfl rfl rfl)
  have f4 : fld wd 6 6 = b := fld_eq (pk hwd hfit 4 rfl rfl rfl)
  have f5 : fld wd 12 6 = a := fld_eq (pk hwd hfit 5 rfl rfl rfl)
  have f6 : fld wd 18 6 = d := fld_eq (pk hwd hfit 6 rfl rfl rfl)
  have hm : wd / 2 ^ 24 % 2 ^ 7 = 54 := pk hwd hfit 7 rfl rfl rfl
  have he : bit wd 31 = e := bit_eq (pk hwd hfit 8 rfl rfl rfl)
  rw [short_36 hm, h32]
  simp only [decMajor36, k0, f1, f2, f3, f4, f5, f6, he, and_self, ite_true, ite_false, reduceIte]

theorem RoundTrip.vmin (e : Bool) (d a b : BitVec 6) (m l : BitVec 2) (w : BitVec 1) : RoundTrip.Statement (.vmin e d a b m l w) := by
  intro _ _
  have hwd : encode (.vmin e d a b m l w) = pack [1, 1, 2, 2, 6, 6, 6, 7, 1] [0, w.toNat, l.toNat, m.toNat, b.toNat, a.toNat, d.toNat, 55, e.toNat] := by
    show word e 0x37000000 [put d 18, put a 12, put b 6, put m 4, put l 2, put w 1] = _
    simp only [word, put, eBit_eq, pack]
    generalize w.toNat = v1; generalize l.toNat = v2; generalize m.toNat = v3; generalize b.toNat = v4; generalize a.toNat = v5; generalize d.toNat = v6; generalize e.toNat = v8; omega
  have hfit : Fits [1, 1, 2, 2, 6, 6, 6, 7, 1] [0, w.toNat, l.toNat, m.toNat, b.toNat, a.toNat, d.toNat, 55, e.toNat] := ⟨by decide, w.isLt, l.isLt, m.isLt, b.isLt, a.isLt, d.isLt, by decide, e.toNat_lt, trivial⟩
  revert hwd hfit; generalize encode _ = wd; intro hw hfit
  have hwd := And.intro hw (show ([1, 1, 2, 2, 6, 6, 6, 7, 1] : List Nat).length = ([0, w.toNat, l.toNat, m.toNat, b.toNat, a.toNat, d.toNat, 55, e.toNat] : List Nat).length from rfl)
  have h32 : wd % 2 ^ 32 = wd := pkw hwd hfit rfl
  have k0 : wd % 2 ^ 1 = 0 := pk0 hwd hfit rfl rfl
  have f1 : fld wd 1 1 = w := fld_eq (pk hwd hfit 1 rfl rfl rfl)
  have f2 : fld wd 2 2 = l := fld_eq (pk hwd hfit 2 rfl rfl rfl)
  have f3 : fld wd 4 2 = m := fld_eq (pk hwd hfit 3 rfl rfl rfl)
  have f4 : fld wd 6 6 = b := fld_eq (pk hwd hfit 4 rfl rfl rfl)
  have f5 : fld wd 12 6 = a := fld_eq (pk hwd hfit 5 rfl rfl rfl)
  have f6 : fld wd 18 6 = d := fld_eq (pk hwd hfit 6 rfl rfl rfl)
  have hm : wd / 2 ^ 24 % 2 ^ 7 = 55 := pk hwd hfit 7 rfl rfl rfl
  have he : bit wd 31 = e := bit_eq (pk hwd hfit 8 rfl rfl rfl)
  rw [short_37 hm, h32]
  simp only [decMajor37, k0, f1, f2, f3, f4, f5, f6, he, and_self, ite_true, ite_false, reduceIte]

theorem RoundTrip.vmax (e : Bool) (d a b : BitVec 6) (m l : BitVec 2) (w : BitVec 1) : RoundTrip.Statement (.vmax e d a b m l w) := by
  intro _ _
  have hwd : encode (.vmax e d a b m l w) = pack [1, 1, 2, 2, 6, 6, 6, 7, 1] [1, w.toNat, l.toNat, m.toNat, b.toNat, a.toNat, d.toNat, 55, e.toNat] := by
    show word e 0x37000001 [put d 18, put a 12, put b 6, put m 4, put l 2, put w 1] = _
    simp only [word, put, eBit_eq, pack]
    generalize w.toNat = v1; generalize l.toNat = v2; generalize m.toNat = v3; generalize b.toNat = v4; generalize a.toNat = v5; generalize d.toNat = v6; generalize e.toNat = v8; omega
  have hfit : Fits [1, 1, 2, 2, 6, 6, 6, 7, 1] [1, w.toNat, l.toNat, m.toNat, b.toNat, a.toNat, d.toNat, 55, e.toNat] := ⟨by decide, w.isLt, l.isLt, m.isLt, b.isLt, a.isLt, d.isLt, by decide, e.toNat_lt, trivial⟩
  revert hwd hfit; generalize encode _ = wd; intro hw hfit
  have hwd := And.intro hw (show ([1, 1, 2, 2, 6, 6, 6, 7, 1] : List Nat).length = ([1, w.toNat, l.toNat, m.toNat, b.toNat, a.toNat, d.toNat, 55, e.toNat] : List Nat).length from rfl)
  have h32 : wd % 2 ^ 32 = wd := pkw hwd hfit rfl
  have k0 : wd % 2 ^ 1 = 1 := pk0 hwd hfit rfl rfl
  have f1 : fld wd 1 1 = w := fld_eq (pk hwd hfit 1 rfl rfl rfl)
  have f2 : fld wd 2 2 = l := fld_eq (pk hwd hfit 2 rfl rfl rfl)
  have f3 : fld wd 4 2 = m := fld_eq (pk hwd hfit 3 rfl rfl rfl)
  have f4 : fld wd 6 6 = b := fld_eq (pk hwd hfit 4 rfl rfl rfl)
  have f5 : fld wd 12 6 = a := fld_eq (pk hwd hfit 5 rfl rfl rfl)
  have f6 : fld wd 18 6 = d := fld_eq (pk hwd hfit 6 rfl rfl rfl)
  have hm : wd / 2 ^ 24 % 2 ^ 7 = 55 := pk hwd hfit 7 rfl rfl rfl
  have he : bit wd 31 = e := bit_eq (pk hwd hfit 8 rfl rfl rfl)
  rw [short_37 hm, h32]
  simp only [decMajor37, k0, f1, f2, f3, f4, f5, f6, he, and_self, ite_true, ite_false, reduceIte]

theorem RoundTrip.vminu (e : Bool) (d a b : BitVec 6) (m l : BitVec 2) (w : BitVec 1) : RoundTrip.Statement (.vminu e d a b m l w) := by
  intro _ _
  have hwd : encode (.vminu e d a b m l w) = pack [1, 1, 2, 2, 6, 6, 6, 7, 1] [0, w.toNat, l.toNat, m.toNat, b.toNat, a.toNat, d.toNat, 56, e.toNat] := by
    show word e 0x38000000 [put d 18, put a 12, put b 6, put m 4, put l 2, put w 1] = _
    simp only [word, put, eBit_eq, pack]
    generalize w.toNat = v1; generalize l.toNat = v2; generalize m.toNat = v3; generalize b.toNat = v4; generalize a.toNat = v5; generalize d.toNat = v6; generalize e.toNat = v8; omega
  have hfit : Fits [1, 1, 2, 2, 6, 6, 6, 7, 1] [0, w.toNat, l.toNat, m.toNat, b.toNat, a.toNat, d.toNat, 56, e.toNat] := ⟨by decide, w.isLt, l.isLt, m.isLt, b.isLt, a.isLt, d.isLt, by decide, e.toNat_lt, trivial⟩
  revert hwd hfit; generalize encode _ = wd; intro hw hfit
  have hwd := And.intro hw (show ([1, 1, 2, 2, 6, 6, 6, 7, 1] : List Nat).length = ([0, w.toNat, l.toNat, m.toNat, b.toNat, a.toNat, d.toNat, 56, e.toNat] : List Nat).length from rfl)
  have h32 : wd % 2 ^ 32 = wd := pkw hwd hfit rfl
  have k0 : wd % 2 ^ 1 = 0 := pk0 hwd hfit rfl rfl
  have f1 : fld wd 1 1 = w := fld_eq (pk hwd hfit 1 rfl rfl rfl)
  have f2 : fld wd 2 2 = l := fld_eq (pk hwd hfit 2 rfl rfl rfl)
  have f3 : fld wd 4 2 = m := fld_eq (pk hwd hfit 3 rfl rfl rfl)
  have f4 : fld wd 6 6 = b := fld_eq (pk hwd hfit 4 rfl rfl rfl)
  have f5 : fld wd 12 6 = a := fld_eq (pk hwd hfit 5 rfl rfl rfl)
  have f6 : fld wd 18 6 = d := fld_eq (pk hwd hfit 6 rfl rfl rfl)
  have hm : wd / 2 ^ 24 % 2 ^ 7 = 56 := pk hwd hfit 7 rfl rfl rfl
  have he : bit wd 31 = e := bit_eq (pk hwd hfit 8 rfl rfl rfl)
  rw [short_38 hm, h32]
  simp only [decMajor38, k0, f1, f2, f3, f4, f5, f6, he, and_self, ite_true, ite_false, reduceIte]

theorem RoundTrip.vmaxu (e : Bool) (d a b : BitVec 6) (m l : BitVec 2) (w : BitVec 1) : RoundTrip.Statement (.vmaxu e d a b m l w) := by
  intro _ _
  have hwd : encode (.vmaxu e d a b m l w) = pack [1, 1, 2, 2, 6, 6, 6, 7, 1] [1, w.toNat, l.toNat, m.toNat, b.toNat, a.toNat, d.toNat, 56, e.toNat] := by
    show word e 0x38000001 [put d 18, put a 12, put b 6, put m 4, put l 2, put w 1] = _
    simp only [word, put, eBit_eq, pack]
    generalize w.toNat = v1; generalize l.toNat = v2; generalize m.toNat = v3; generalize b.toNat = v4; generalize a.toNat = v5; generalize d.toNat = v6; generalize e.toNat = v8; omega
  have hfit : Fits [1, 1, 2, 2, 6, 6, 6, 7, 1] [1, w.toNat, l.toNat, m.toNat, b.toNat, a.toNat, d.toNat, 56, e.toNat] := ⟨by decide, w.isLt, l.isLt, m.isLt, b.isLt, a.isLt, d.isLt, by decide, e.toNat_lt, trivial⟩
  revert hwd hfit; generalize encode _ = wd; intro hw hfit
  have hwd := And.intro hw (show ([1, 1, 2, 2, 6, 6, 6, 7, 1] : List Nat).length = ([1, w.toNat, l.toNat, m.toNat, b.toNat, a.toNat, d.toNat, 56, e.toNat] : List Nat).length from rfl)
  have h32 : wd % 2 ^ 32 = wd := pkw hwd hfit rfl
  have k0 : wd % 2 ^ 1 = 1 := pk0 hwd hfit rfl rfl
  have f1 : fld wd 1 1 = w := fld_eq (pk hwd hfit 1 rfl rfl rfl)
  have f2 : fld wd 2 2 = l := fld_eq (pk hwd hfit 2 rfl rfl rfl)
  have f3 : fld wd 4 2 = m := fld_eq (pk hwd hfit 3 rfl rfl rfl)
  have f4 : fld wd 6 6 = b := fld_eq (pk hwd hfit 4 rfl rfl rfl)
  have f5 : fld wd 12 6 = a := fld_eq (pk hwd hfit 5 rfl rfl rfl)
  have f6 : fld wd 18 6 = d := fld_eq (pk hwd hfit 6 rfl rfl rfl)
  have hm : wd / 2 ^ 24 % 2 ^ 7 = 56 := pk hwd hfit 7 rfl rfl rfl
  have he : bit wd 31 = e := bit_eq (pk hwd hfit 8 rfl rfl rfl)
  rw [short_38 hm, h32]
  simp only [decMajor38, k0, f1, f2, f3, f4, f5, f6, he, and_self, ite_true, ite_false, reduceIte]

theorem RoundTrip.vadds (e : Bool) (d a b : BitVec 6) (m l : BitVec 2) (w : BitVec 1) : RoundTrip.Statement (.vadds e d a b m l w) := by
  intro _ _
  have hwd : encode (.vadds e d a b m l w) = pack [1, 1, 2, 2, 6, 6, 6, 7, 1] [0, w.toNat, l.toNat, m.toNat, b.toNat, a.toNat, d.toNat, 57, e.toNat] := by
    show word e 0x39000000 [put d 18, put a 12, put b 6, put m 4, put l 2, put w 1] = _
    simp only [word, put, eBit_eq, pack]
    generalize w.toNat = v1; generalize l.toNat = v2; generalize m.toNat = v3; generalize b.toNat = v4; generalize a.toNat = v5; generalize d.toNat = v6; generalize e.toNat = v8; omega
  have hfit : Fits [1, 1, 2, 2, 6, 6, 6, 7, 1] [0, w.toNat, l.toNat, m.toNat, b.toNat, a.toNat, d.toNat, 57, e.toNat] := ⟨by decide, w.isLt, l.isLt, m.isLt, b.isLt, a.isLt, d.isLt, by decide, e.toNat_lt, trivial⟩
  revert hwd hfit; generalize encode _ = wd; intro hw hfit
  have hwd := And.intro hw (show ([1, 1, 2, 2, 6, 6, 6, 7, 1] : List Nat).length = ([0, w.toNat, l.toNat, m.toNat, b.toNat, a.toNat, d.toNat, 57, e.toNat] : List Nat).length from rfl)
  have h32 : wd % 2 ^ 32 = wd := pkw hwd hfit rfl
  have k0 : wd % 2 ^ 1 = 0 := pk0 hwd hfit rfl rfl
  have f1 : fld wd 1 1 = w := fld_eq (pk hwd hfit 1 rfl rfl rfl)
  have f2 : fld wd 2 2 = l := fld_eq (pk hwd hfit 2 rfl rfl rfl)
  have f3 : fld wd 4 2 = m := fld_eq (pk hwd hfit 3 rfl rfl rfl)
  have f4 : fld wd 6 6 = b := fld_eq (pk hwd hfit 4 rfl rfl rfl)
  have f5 : fld wd 12 6 = a := fld_eq (pk hwd hfit 5 rfl rfl rfl)
  have f6 : fld wd 18 6 = d := fld_eq (pk hwd hfit 6 rfl rfl rfl)
  have hm : wd / 2 ^ 24 % 2 ^ 7 = 57 := pk hwd hfit 7 rfl rfl rfl
  have he : bit wd 31 = e := bit_eq (pk hwd hfit 8 rfl rfl rfl)
  rw [short_39 hm, h32]
  simp only [decMajor39, k0, f1, f2, f3, f4, f5, f6, he, and_self, ite_true, ite_false, reduceIte]

theorem RoundTrip.vsubs (e : Bool) (d a b : BitVec 6) (m l : BitVec 2) (w : BitVec 1) : RoundTrip.Statement (.vsubs e d a b m l w) := by
  intro _ _
  have hwd : encode (.vsubs e d a b m l w) = pack [1, 1, 2, 2, 6, 6, 6, 7, 1] [1, w.toNat, l.toNat, m.toNat, b.toNat, a.toNat, d.toNat, 57, e.toNat] := by
    show word e 0x39000001 [put d 18, put a 12, put b 6, put m 4, put l 2, put w 1] = _
    simp only [word, put, eBit_eq, pack]
    generalize w.toNat = v1; generalize l.toNat = v2; generalize m.toNat = v3; generalize b.toNat = v4; generalize a.toNat = v5; generalize d.toNat = v6; generalize e.toNat = v8; omega
  have hfit : Fits [1, 1, 2, 2, 6, 6, 6, 7, 1] [1, w.toNat, l.toNat, m.toNat, b.toNat, a.toNat, d.toNat, 57, e.toNat] := ⟨by decide, w.isLt, l.isLt, m.isLt, b.isLt, a.isLt, d.isLt, by decide, e.toNat_lt, trivial⟩
  revert hwd hfit; generalize encode _ = wd; intro hw hfit
  have hwd := And.intro hw (show ([1, 1, 2, 2, 6, 6, 6, 7, 1] : List Nat).length = ([1, w.toNat, l.toNat, m.toNat, b.toNat, a.toNat, d.toNat, 57, e.toNat] : List Nat).length from rfl)
  have h32 : wd % 2 ^ 32 = wd := pkw hwd hfit rfl
  have k0 : wd % 2 ^ 1 = 1 := pk0 hwd hfit rfl rfl
  have f1 : fld wd 1 1 = w := fld_eq (pk hwd hfit 1 rfl rfl rfl)
  have f2 : fld wd 2 2 = l := fld_eq (pk hwd hfit 2 rfl rfl rfl)
  have f3 : fld wd 4 2 = m := fld_eq (pk hwd hfit 3 rfl rfl rfl)
  have f4 : fld wd 6 6 = b := fld_eq (pk hwd hfit 4 rfl rfl rfl)
  have f5 : fld wd 12 6 = a := fld_eq (pk hwd hfit 5 rfl rfl rfl)
  have f6 : fld wd 18 6 = d := fld_eq (pk hwd hfit 6 rfl rfl rfl)
  have hm : wd / 2 ^ 24 % 2 ^ 7 = 57 := pk hwd hfit 7 rfl rfl rfl
  have he : bit wd 31 = e := bit_eq (pk hwd hfit 8 rfl rfl rfl)
  rw [short_39 hm, h32]
  simp only [decMajor39, k0, f1, f2, f3, f4, f5, f6, he, and_self, ite_true, ite_false, reduceIte]

theorem RoundTrip.vaddsu (e : Bool) (d a b : BitVec 6) (m l : BitVec 2) (w : BitVec 1) : RoundTrip.Statement (.vaddsu e d a b m l w) := by
  intro _ _
  have hwd : encode (.vaddsu e d a b m l w) = pack [1, 1, 2, 2, 6, 6, 6, 7, 1] [0, w.toNat, l.toNat, m.toNat, b.toNat, a.toNat, d.toNat, 58, e.toNat] := by
    show word e 0x3A000000 [put d 18, put a 12, put b 6, put m 4, put l 2, put w 1] = _
    simp only [word, put, eBit_eq, pack]
    generalize w.toNat = v1; generalize l.toNat = v2; generalize m.toNat = v3; generalize b.toNat = v4; generalize a.toNat = v5; generalize d.toNat = v6; generalize e.toNat = v8; omega
  have hfit : Fits [1, 1, 2, 2, 6, 6, 6, 7, 1] [0, w.toNat, l.toNat, m.toNat, b.toNat, a.toNat, d.toNat, 58, e.toNat] := ⟨by decide, w.isLt, l.isLt, m.isLt, b.isLt, a.isLt, d.isLt, by decide, e.toNat_lt, trivial⟩
  revert hwd hfit; generalize encode _ = wd; intro hw hfit
  have hwd := And.intro hw (show ([1, 1, 2, 2, 6, 6, 6, 7, 1] : List Nat).length = ([0, w.toNat, l.toNat, m.toNat, b.toNat, a.toNat, d.toNat, 58, e.toNat] : List Nat).length from rfl)
  have h32 : wd % 2 ^ 32 = wd := pkw hwd hfit rfl
  have k0 : wd % 2 ^ 1 = 0 := pk0 hwd hfit rfl rfl
  have f1 : fld wd 1 1 = w := fld_eq (pk hwd hfit 1 rfl rfl rfl)
  have f2 : fld wd 2 2 = l := fld_eq (pk hwd hfit 2 rfl rfl rfl)
  have f3 : fld wd 4 2 = m := fld_eq (pk hwd hfit 3 rfl rfl rfl)
  have f4 : fld wd 6 6 = b := fld_eq (pk hwd hfit 4 rfl rfl rfl)
  have f5 : fld wd 12 6 = a := fld_eq (pk hwd hfit 5 rfl rfl rfl)
  have f6 : fld wd 18 6 = d := fld_eq (pk hwd hfit 6 rfl rfl rfl)
  have hm : wd / 2 ^ 24 % 2 ^ 7 = 58 := pk hwd hfit 7 rfl rfl rfl
  have he : bit wd 31 = e := bit_eq (pk hwd hfit 8 rfl rfl rfl)
  rw [short_3A hm, h32]
  simp only [decMajor3A, k0, f1, f2, f3, f4, f5, f6, he, and_self, ite_true, ite_false, reduceIte]

theorem RoundTrip.vsubsu (e : Bool) (d a b : BitVec 6) (m l : BitVec 2) (w : BitVec 1) : RoundTrip.Statement (.vsubsu e d a b m l w) := by
  intro _ _
  have hwd : encode (.vsubsu e d a b m l w) = pack [1, 1, 2, 2, 6, 6, 6, 7, 1] [1, w.toNat, l.toNat, m.toNat, b.toNat, a.toNat, d.toNat, 58, e.toNat] := by
    show word e 0x3A000001 [put d 18, put a 12, put b 6, put m 4, put l 2, put w 1] = _
    simp only [word, put, eBit_eq, pack]
    generalize w.toNat = v1; generalize l.toNat = v2; generalize m.toNat = v3; generalize b.toNat = v4; generalize a.toNat = v5; generalize d.toNat = v6; generalize e.toNat = v8; omega
  have hfit : Fits [1, 1, 2, 2, 6, 6, 6, 7, 1] [1, w.toNat, l.toNat, m.toNat, b.toNat, a.toNat, d.toNat, 58, e.toNat] := ⟨by decide, w.isLt, l.isLt, m.isLt, b.isLt, a.isLt, d.isLt, by decide, e.toNat_lt, trivial⟩
  revert hwd hfit; generalize encode _ = wd; intro hw hfit
  have hwd := And.intro hw (show ([1, 1, 2, 2, 6, 6, 6, 7, 1] : List Nat).length = ([1, w.toNat, l.toNat, m.toNat, b.toNat, a.toNat, d.toNat, 58, e.toNat] : List Nat).length from rfl)
  have h32 : wd % 2 ^ 32 = wd := pkw hwd hfit rfl
  have k0 : wd % 2 ^ 1 = 1 := pk0 hwd hfit rfl rfl
  have f1 : fld wd 1 1 = w := fld_eq (pk hwd hfit 1 rfl rfl rfl)
  have f2 : fld wd 2 2 = l := fld_eq (pk hwd hfit 2 rfl rfl rfl)
  have f3 : fld wd 4 2 = m := fld_eq (pk hwd hfit 3 rfl rfl rfl)
  have f4 : fld wd 6 6 = b := fld_eq (pk hwd hfit 4 rfl rfl rfl)
  have f5 : fld wd 12 6 = a := fld_eq (pk hwd hfit 5 rfl rfl rfl)
  have f6 : fld wd 18 6 = d := fld_eq (pk hwd hfit 6 rfl rfl rfl)
  have hm : wd / 2 ^ 24 % 2 ^ 7 = 58 := pk hwd hfit 7 rfl rfl rfl
  have he : bit wd 31 = e := bit_eq (pk hwd hfit 8 rfl rfl rfl)
  rw [short_3A hm, h32]
  simp only [decMajor3A, k0, f1, f2, f3, f4, f5, f6, he, and_self, ite_true, ite_false, reduceIte]

theorem RoundTrip.vcmp (e : Bool) (p c : BitVec 4) (a b : BitVec 6) (m l : BitVec 2) : RoundTrip.Statement (.vcmp e p c a b m l) := by
  intro _ _
  have hwd : encode (.vcmp e p c a b m l) = pack [2, 2, 6, 6, 4, 4, 7, 1] [l.toNat, m.toNat, b.toNat, a.toNat, c.toNat, p.toNat, 59, e.toNat] := by
    show word e 0x3B000000 [put p 20, put c 16, put a 10, put b 4, put m 2, put l 0] = _
    simp only [word, put, eBit_eq, pack]
    generalize l.toNat = v0; generalize m.toNat = v1; generalize b.toNat = v2; generalize a.toNat = v3; generalize c.toNat = v4; generalize p.toNat = v5; generalize e.toNat = v7; omega
  have hfit : Fits [2, 2, 6, 6, 4, 4, 7, 1] [l.toNat, m.toNat, b.toNat, a.toNat, c.toNat, p.toNat, 59, e.toNat] := ⟨l.isLt, m.isLt, b.isLt, a.isLt, c.isLt, p.isLt, by decide, e.toNat_lt, trivial⟩
  revert hwd hfit; generalize encode _ = wd; intro hw hfit
  have hwd := And.intro hw (show ([2, 2, 6, 6, 4, 4, 7, 1] : List Nat).length = ([l.toNat, m.toNat, b.toNat, a.toNat, c.toNat, p.toNat, 59, e.toNat] : List Nat).length from rfl)
  have h32 : wd % 2 ^ 32 = wd := pkw hwd hfit rfl
  have f0 : fld wd 0 2 = l := fld_eq (pk hwd hfit 0 rfl rfl rfl)
  have f1 : fld wd 2 2 = m := fld_eq (pk hwd hfit 1 rfl rfl rfl)
  have f2 : fld wd 4 6 = b := fld_eq (pk hwd hfit 2 rfl rfl rfl)
  have f3 : fld wd 10 6 = a := fld_eq (pk hwd hfit 3 rfl rfl rfl)
  have f4 : fld wd 16 4 = c := fld_eq (pk hwd hfit 4 rfl rfl rfl)
  have f5 : fld wd 20 4 = p := fld_eq (pk hwd hfit 5 rfl rfl rfl)
  have hm : wd / 2 ^ 24 % 2 ^ 7 = 59 := pk hwd hfit 6 rfl rfl rfl
  have he : bit wd 31 = e := bit_eq (pk hwd hfit 7 rfl rfl rfl)
  rw [short_3B hm, h32]
  simp only [decMajor3B, f0, f1, f2, f3, f4, f5, he, and_self, ite_true, ite_false, reduceIte]

theorem RoundTrip.vsel (e : Bool) (d a b : BitVec 6) (m l : BitVec 2) (w : BitVec 1) : RoundTrip.Statement (.vsel e d a b m l w) := by
  intro _ _
  have hwd : encode (.vsel e d a b m l w) = pack [1, 1, 2, 2, 6, 6, 6, 7, 1] [0, w.toNat, l.toNat, m.toNat, b.toNat, a.toNat, d.toNat, 60, e.toNat] := by
    show word e 0x3C000000 [put d 18, put a 12, put b 6, put m 4, put l 2, put w 1] = _
    simp only [word, put, eBit_eq, pack]
    generalize w.toNat = v1; generalize l.toNat = v2; generalize m.toNat = v3; generalize b.toNat = v4; generalize a.toNat = v5; generalize d.toNat = v6; generalize e.toNat = v8; omega
  have hfit : Fits [1, 1, 2, 2, 6, 6, 6, 7, 1] [0, w.toNat, l.toNat, m.toNat, b.toNat, a.toNat, d.toNat, 60, e.toNat] := ⟨by decide, w.isLt, l.isLt, m.isLt, b.isLt, a.isLt, d.isLt, by decide, e.toNat_lt, trivial⟩
  revert hwd hfit; generalize encode _ = wd; intro hw hfit
  have hwd := And.intro hw (show ([1, 1, 2, 2, 6, 6, 6, 7, 1] : List Nat).length = ([0, w.toNat, l.toNat, m.toNat, b.toNat, a.toNat, d.toNat, 60, e.toNat] : List Nat).length from rfl)
  have h32 : wd % 2 ^ 32 = wd := pkw hwd hfit rfl
  have k0 : wd % 2 ^ 1 = 0 := pk0 hwd hfit rfl rfl
  have f1 : fld wd 1 1 = w := fld_eq (pk hwd hfit 1 rfl rfl rfl)
  have f2 : fld wd 2 2 = l := fld_eq (pk hwd hfit 2 rfl rfl rfl)
  have f3 : fld wd 4 2 = m := fld_eq (pk hwd hfit 3 rfl rfl rfl)
  have f4 : fld wd 6 6 = b := fld_eq (pk hwd hfit 4 rfl rfl rfl)
  have f5 : fld wd 12 6 = a := fld_eq (pk hwd hfit 5 rfl rfl rfl)
  have f6 : fld wd 18 6 = d := fld_eq (pk hwd hfit 6 rfl rfl rfl)
  have hm : wd / 2 ^ 24 % 2 ^ 7 = 60 := pk hwd hfit 7 rfl rfl rfl
  have he : bit wd 31 = e := bit_eq (pk hwd hfit 8 rfl rfl rfl)
  rw [short_3C hm, h32]
  simp only [decMajor3C, k0, f1, f2, f3, f4, f5, f6, he, and_self, ite_true, ite_false, reduceIte]

theorem RoundTrip.vmov (e : Bool) (d a : BitVec 6) (m : BitVec 2) (l w : BitVec 1) : RoundTrip.Statement (.vmov e d a m l w) := by
  intro _ _
  have hwd : encode (.vmov e d a m l w) = pack [1, 1, 1, 1, 2, 6, 6, 6, 7, 1] [1, w.toNat, l.toNat, 0, m.toNat, 0, a.toNat, d.toNat, 60, e.toNat] := by
    show word e 0x3C000001 [put d 18, put a 12, put m 4, put l 2, put w 1] = _
    simp only [word, put, eBit_eq, pack]
    generalize w.toNat = v1; generalize l.toNat = v2; generalize m.toNat = v4; generalize a.toNat = v6; generalize d.toNat = v7; generalize e.toNat = v9; omega
  have hfit : Fits [1, 1, 1, 1, 2, 6, 6, 6, 7, 1] [1, w.toNat, l.toNat, 0, m.toNat, 0, a.toNat, d.toNat, 60, e.toNat] := ⟨by decide, w.isLt, l.isLt, by decide, m.isLt, by decide, a.isLt, d.isLt, by decide, e.toNat_lt, trivial⟩
  revert hwd hfit; generalize encode _ = wd; intro hw hfit
  have hwd := And.intro hw (show ([1, 1, 1, 1, 2, 6, 6, 6, 7, 1] : List Nat).length = ([1, w.toNat, l.toNat, 0, m.toNat, 0, a.toNat, d.toNat, 60, e.toNat] : List Nat).length from rfl)
  have h32 : wd % 2 ^ 32 = wd := pkw hwd hfit rfl
  have k0 : wd % 2 ^ 1 = 1 := pk0 hwd hfit rfl rfl
  have f1 : fld wd 1 1 = w := fld_eq (pk hwd hfit 1 rfl rfl rfl)
  have f2 : fld wd 2 1 = l := fld_eq (pk hwd hfit 2 rfl rfl rfl)
  have k3 : wd / 2 ^ 3 % 2 ^ 1 = 0 := pk hwd hfit 3 rfl rfl rfl
  have f4 : fld wd 4 2 = m := fld_eq (pk hwd hfit 4 rfl rfl rfl)
  have k5 : wd / 2 ^ 6 % 2 ^ 6 = 0 := pk hwd hfit 5 rfl rfl rfl
  have f6 : fld wd 12 6 = a := fld_eq (pk hwd hfit 6 rfl rfl rfl)
  have f7 : fld wd 18 6 = d := fld_eq (pk hwd hfit 7 rfl rfl rfl)
  have hm : wd / 2 ^ 24 % 2 ^ 7 = 60 := pk hwd hfit 8 rfl rfl rfl
  have he : bit wd 31 = e := bit_eq (pk hwd hfit 9 rfl rfl rfl)
  rw [short_3C hm, h32]
  simp only [decMajor3C, k0, f1, f2, k3, f4, k5, f6, f7, he, and_self, ite_true, ite_false, reduceIte]

theorem RoundTrip.vbcast (e : Bool) (d a : BitVec 6) (m : BitVec 2) (w : BitVec 1) : RoundTrip.Statement (.vbcast e d a m w) := by
  intro _ _
  have hwd : encode (.vbcast e d a m w) = pack [1, 1, 2, 2, 6, 6, 6, 7, 1] [0, w.toNat, 0, m.toNat, 0, a.toNat, d.toNat, 61, e.toNat] := by
    show word e 0x3D000000 [put d 18, put a 12, put m 4, put w 1] = _
    simp only [word, put, eBit_eq, pack]
    generalize w.toNat = v1; generalize m.toNat = v3; generalize a.toNat = v5; generalize d.toNat = v6; generalize e.toNat = v8; omega
  have hfit : Fits [1, 1, 2, 2, 6, 6, 6, 7, 1] [0, w.toNat, 0, m.toNat, 0, a.toNat, d.toNat, 61, e.toNat] := ⟨by decide, w.isLt, by decide, m.isLt, by decide, a.isLt, d.isLt, by decide, e.toNat_lt, trivial⟩
  revert hwd hfit; generalize encode _ = wd; intro hw hfit
  have hwd := And.intro hw (show ([1, 1, 2, 2, 6, 6, 6, 7, 1] : List Nat).length = ([0, w.toNat, 0, m.toNat, 0, a.toNat, d.toNat, 61, e.toNat] : List Nat).length from rfl)
  have h32 : wd % 2 ^ 32 = wd := pkw hwd hfit rfl
  have k0 : wd % 2 ^ 1 = 0 := pk0 hwd hfit rfl rfl
  have f1 : fld wd 1 1 = w := fld_eq (pk hwd hfit 1 rfl rfl rfl)
  have k2 : wd / 2 ^ 2 % 2 ^ 2 = 0 := pk hwd hfit 2 rfl rfl rfl
  have f3 : fld wd 4 2 = m := fld_eq (pk hwd hfit 3 rfl rfl rfl)
  have k4 : wd / 2 ^ 6 % 2 ^ 6 = 0 := pk hwd hfit 4 rfl rfl rfl
  have f5 : fld wd 12 6 = a := fld_eq (pk hwd hfit 5 rfl rfl rfl)
  have f6 : fld wd 18 6 = d := fld_eq (pk hwd hfit 6 rfl rfl rfl)
  have hm : wd / 2 ^ 24 % 2 ^ 7 = 61 := pk hwd hfit 7 rfl rfl rfl
  have he : bit wd 31 = e := bit_eq (pk hwd hfit 8 rfl rfl rfl)
  rw [short_3D hm, h32]
  simp only [decMajor3D, k0, f1, k2, f3, k4, f5, f6, he, and_self, ite_true, ite_false, reduceIte]

theorem RoundTrip.vid (e : Bool) (d : BitVec 6) (m : BitVec 2) (w : BitVec 1) : RoundTrip.Statement (.vid e d m w) := by
  intro _ _
  have hwd : encode (.vid e d m w) = pack [1, 1, 2, 2, 12, 6, 7, 1] [1, w.toNat, 0, m.toNat, 0, d.toNat, 61, e.toNat] := by
    show word e 0x3D000001 [put d 18, put m 4, put w 1] = _
    simp only [word, put, eBit_eq, pack]
    generalize w.toNat = v1; generalize m.toNat = v3; generalize d.toNat = v5; generalize e.toNat = v7; omega
  have hfit : Fits [1, 1, 2, 2, 12, 6, 7, 1] [1, w.toNat, 0, m.toNat, 0, d.toNat, 61, e.toNat] := ⟨by decide, w.isLt, by decide, m.isLt, by decide, d.isLt, by decide, e.toNat_lt, trivial⟩
  revert hwd hfit; generalize encode _ = wd; intro hw hfit
  have hwd := And.intro hw (show ([1, 1, 2, 2, 12, 6, 7, 1] : List Nat).length = ([1, w.toNat, 0, m.toNat, 0, d.toNat, 61, e.toNat] : List Nat).length from rfl)
  have h32 : wd % 2 ^ 32 = wd := pkw hwd hfit rfl
  have k0 : wd % 2 ^ 1 = 1 := pk0 hwd hfit rfl rfl
  have f1 : fld wd 1 1 = w := fld_eq (pk hwd hfit 1 rfl rfl rfl)
  have k2 : wd / 2 ^ 2 % 2 ^ 2 = 0 := pk hwd hfit 2 rfl rfl rfl
  have f3 : fld wd 4 2 = m := fld_eq (pk hwd hfit 3 rfl rfl rfl)
  have k4 : wd / 2 ^ 6 % 2 ^ 12 = 0 := pk hwd hfit 4 rfl rfl rfl
  have f5 : fld wd 18 6 = d := fld_eq (pk hwd hfit 5 rfl rfl rfl)
  have hm : wd / 2 ^ 24 % 2 ^ 7 = 61 := pk hwd hfit 6 rfl rfl rfl
  have he : bit wd 31 = e := bit_eq (pk hwd hfit 7 rfl rfl rfl)
  rw [short_3D hm, h32]
  simp only [decMajor3D, k0, f1, k2, f3, k4, f5, he, and_self, ite_true, ite_false, reduceIte]

theorem RoundTrip.vext (e : Bool) (d a b : BitVec 6) (l : BitVec 1) : RoundTrip.Statement (.vext e d a b l) := by
  intro _ _
  have hwd : encode (.vext e d a b l) = pack [1, 1, 1, 3, 6, 6, 6, 7, 1] [0, 0, l.toNat, 0, b.toNat, a.toNat, d.toNat, 62, e.toNat] := by
    show word e 0x3E000000 [put d 18, put a 12, put b 6, put l 2] = _
    simp only [word, put, eBit_eq, pack]
    generalize l.toNat = v2; generalize b.toNat = v4; generalize a.toNat = v5; generalize d.toNat = v6; generalize e.toNat = v8; omega
  have hfit : Fits [1, 1, 1, 3, 6, 6, 6, 7, 1] [0, 0, l.toNat, 0, b.toNat, a.toNat, d.toNat, 62, e.toNat] := ⟨by decide, by decide, l.isLt, by decide, b.isLt, a.isLt, d.isLt, by decide, e.toNat_lt, trivial⟩
  revert hwd hfit; generalize encode _ = wd; intro hw hfit
  have hwd := And.intro hw (show ([1, 1, 1, 3, 6, 6, 6, 7, 1] : List Nat).length = ([0, 0, l.toNat, 0, b.toNat, a.toNat, d.toNat, 62, e.toNat] : List Nat).length from rfl)
  have h32 : wd % 2 ^ 32 = wd := pkw hwd hfit rfl
  have k0 : wd % 2 ^ 1 = 0 := pk0 hwd hfit rfl rfl
  have k1 : wd / 2 ^ 1 % 2 ^ 1 = 0 := pk hwd hfit 1 rfl rfl rfl
  have f2 : fld wd 2 1 = l := fld_eq (pk hwd hfit 2 rfl rfl rfl)
  have k3 : wd / 2 ^ 3 % 2 ^ 3 = 0 := pk hwd hfit 3 rfl rfl rfl
  have f4 : fld wd 6 6 = b := fld_eq (pk hwd hfit 4 rfl rfl rfl)
  have f5 : fld wd 12 6 = a := fld_eq (pk hwd hfit 5 rfl rfl rfl)
  have f6 : fld wd 18 6 = d := fld_eq (pk hwd hfit 6 rfl rfl rfl)
  have hm : wd / 2 ^ 24 % 2 ^ 7 = 62 := pk hwd hfit 7 rfl rfl rfl
  have he : bit wd 31 = e := bit_eq (pk hwd hfit 8 rfl rfl rfl)
  rw [short_3E hm, h32]
  simp only [decMajor3E, k0, k1, f2, k3, f4, f5, f6, he, and_self, ite_true, ite_false, reduceIte]

theorem RoundTrip.vins (e : Bool) (d a b : BitVec 6) (w : BitVec 1) : RoundTrip.Statement (.vins e d a b w) := by
  intro _ _
  have hwd : encode (.vins e d a b w) = pack [1, 1, 4, 6, 6, 6, 7, 1] [1, w.toNat, 0, b.toNat, a.toNat, d.toNat, 62, e.toNat] := by
    show word e 0x3E000001 [put d 18, put a 12, put b 6, put w 1] = _
    simp only [word, put, eBit_eq, pack]
    generalize w.toNat = v1; generalize b.toNat = v3; generalize a.toNat = v4; generalize d.toNat = v5; generalize e.toNat = v7; omega
  have hfit : Fits [1, 1, 4, 6, 6, 6, 7, 1] [1, w.toNat, 0, b.toNat, a.toNat, d.toNat, 62, e.toNat] := ⟨by decide, w.isLt, by decide, b.isLt, a.isLt, d.isLt, by decide, e.toNat_lt, trivial⟩
  revert hwd hfit; generalize encode _ = wd; intro hw hfit
  have hwd := And.intro hw (show ([1, 1, 4, 6, 6, 6, 7, 1] : List Nat).length = ([1, w.toNat, 0, b.toNat, a.toNat, d.toNat, 62, e.toNat] : List Nat).length from rfl)
  have h32 : wd % 2 ^ 32 = wd := pkw hwd hfit rfl
  have k0 : wd % 2 ^ 1 = 1 := pk0 hwd hfit rfl rfl
  have f1 : fld wd 1 1 = w := fld_eq (pk hwd hfit 1 rfl rfl rfl)
  have k2 : wd / 2 ^ 2 % 2 ^ 4 = 0 := pk hwd hfit 2 rfl rfl rfl
  have f3 : fld wd 6 6 = b := fld_eq (pk hwd hfit 3 rfl rfl rfl)
  have f4 : fld wd 12 6 = a := fld_eq (pk hwd hfit 4 rfl rfl rfl)
  have f5 : fld wd 18 6 = d := fld_eq (pk hwd hfit 5 rfl rfl rfl)
  have hm : wd / 2 ^ 24 % 2 ^ 7 = 62 := pk hwd hfit 6 rfl rfl rfl
  have he : bit wd 31 = e := bit_eq (pk hwd hfit 7 rfl rfl rfl)
  rw [short_3E hm, h32]
  simp only [decMajor3E, k0, f1, k2, f3, f4, f5, he, and_self, ite_true, ite_false, reduceIte]

theorem RoundTrip.vcvt (e : Bool) (d a c : BitVec 6) (m : BitVec 2) (l w : BitVec 1) : RoundTrip.Statement (.vcvt e d a c m l w) := by
  intro _ _
  have hwd : encode (.vcvt e d a c m l w) = pack [1, 1, 1, 1, 2, 6, 6, 6, 7, 1] [0, w.toNat, l.toNat, 0, m.toNat, c.toNat, a.toNat, d.toNat, 63, e.toNat] := by
    show word e 0x3F000000 [put d 18, put a 12, put c 6, put m 4, put l 2, put w 1] = _
    simp only [word, put, eBit_eq, pack]
    generalize w.toNat = v1; generalize l.toNat = v2; generalize m.toNat = v4; generalize c.toNat = v5; generalize a.toNat = v6; generalize d.toNat = v7; generalize e.toNat = v9; omega
  have hfit : Fits [1, 1, 1, 1, 2, 6, 6, 6, 7, 1] [0, w.toNat, l.toNat, 0, m.toNat, c.toNat, a.toNat, d.toNat, 63, e.toNat] := ⟨by decide, w.isLt, l.isLt, by decide, m.isLt, c.isLt, a.isLt, d.isLt, by decide, e.toNat_lt, trivial⟩
  revert hwd hfit; generalize encode _ = wd; intro hw hfit
  have hwd := And.intro hw (show ([1, 1, 1, 1, 2, 6, 6, 6, 7, 1] : List Nat).length = ([0, w.toNat, l.toNat, 0, m.toNat, c.toNat, a.toNat, d.toNat, 63, e.toNat] : List Nat).length from rfl)
  have h32 : wd % 2 ^ 32 = wd := pkw hwd hfit rfl
  have k0 : wd % 2 ^ 1 = 0 := pk0 hwd hfit rfl rfl
  have f1 : fld wd 1 1 = w := fld_eq (pk hwd hfit 1 rfl rfl rfl)
  have f2 : fld wd 2 1 = l := fld_eq (pk hwd hfit 2 rfl rfl rfl)
  have k3 : wd / 2 ^ 3 % 2 ^ 1 = 0 := pk hwd hfit 3 rfl rfl rfl
  have f4 : fld wd 4 2 = m := fld_eq (pk hwd hfit 4 rfl rfl rfl)
  have f5 : fld wd 6 6 = c := fld_eq (pk hwd hfit 5 rfl rfl rfl)
  have f6 : fld wd 12 6 = a := fld_eq (pk hwd hfit 6 rfl rfl rfl)
  have f7 : fld wd 18 6 = d := fld_eq (pk hwd hfit 7 rfl rfl rfl)
  have hm : wd / 2 ^ 24 % 2 ^ 7 = 63 := pk hwd hfit 8 rfl rfl rfl
  have he : bit wd 31 = e := bit_eq (pk hwd hfit 9 rfl rfl rfl)
  rw [short_3F hm, h32]
  simp only [decMajor3F, k0, f1, f2, k3, f4, f5, f6, f7, he, and_self, ite_true, ite_false, reduceIte]

theorem RoundTrip.vfadd (e : Bool) (d a b : BitVec 6) (m l : BitVec 2) (w : BitVec 1) : RoundTrip.Statement (.vfadd e d a b m l w) := by
  intro _ _
  have hwd : encode (.vfadd e d a b m l w) = pack [1, 1, 2, 2, 6, 6, 6, 7, 1] [0, w.toNat, l.toNat, m.toNat, b.toNat, a.toNat, d.toNat, 64, e.toNat] := by
    show word e 0x40000000 [put d 18, put a 12, put b 6, put m 4, put l 2, put w 1] = _
    simp only [word, put, eBit_eq, pack]
    generalize w.toNat = v1; generalize l.toNat = v2; generalize m.toNat = v3; generalize b.toNat = v4; generalize a.toNat = v5; generalize d.toNat = v6; generalize e.toNat = v8; omega
  have hfit : Fits [1, 1, 2, 2, 6, 6, 6, 7, 1] [0, w.toNat, l.toNat, m.toNat, b.toNat, a.toNat, d.toNat, 64, e.toNat] := ⟨by decide, w.isLt, l.isLt, m.isLt, b.isLt, a.isLt, d.isLt, by decide, e.toNat_lt, trivial⟩
  revert hwd hfit; generalize encode _ = wd; intro hw hfit
  have hwd := And.intro hw (show ([1, 1, 2, 2, 6, 6, 6, 7, 1] : List Nat).length = ([0, w.toNat, l.toNat, m.toNat, b.toNat, a.toNat, d.toNat, 64, e.toNat] : List Nat).length from rfl)
  have h32 : wd % 2 ^ 32 = wd := pkw hwd hfit rfl
  have k0 : wd % 2 ^ 1 = 0 := pk0 hwd hfit rfl rfl
  have f1 : fld wd 1 1 = w := fld_eq (pk hwd hfit 1 rfl rfl rfl)
  have f2 : fld wd 2 2 = l := fld_eq (pk hwd hfit 2 rfl rfl rfl)
  have f3 : fld wd 4 2 = m := fld_eq (pk hwd hfit 3 rfl rfl rfl)
  have f4 : fld wd 6 6 = b := fld_eq (pk hwd hfit 4 rfl rfl rfl)
  have f5 : fld wd 12 6 = a := fld_eq (pk hwd hfit 5 rfl rfl rfl)
  have f6 : fld wd 18 6 = d := fld_eq (pk hwd hfit 6 rfl rfl rfl)
  have hm : wd / 2 ^ 24 % 2 ^ 7 = 64 := pk hwd hfit 7 rfl rfl rfl
  have he : bit wd 31 = e := bit_eq (pk hwd hfit 8 rfl rfl rfl)
  rw [short_40 hm, h32]
  simp only [decMajor40, k0, f1, f2, f3, f4, f5, f6, he, and_self, ite_true, ite_false, reduceIte]

theorem RoundTrip.vfsub (e : Bool) (d a b : BitVec 6) (m l : BitVec 2) (w : BitVec 1) : RoundTrip.Statement (.vfsub e d a b m l w) := by
  intro _ _
  have hwd : encode (.vfsub e d a b m l w) = pack [1, 1, 2, 2, 6, 6, 6, 7, 1] [1, w.toNat, l.toNat, m.toNat, b.toNat, a.toNat, d.toNat, 64, e.toNat] := by
    show word e 0x40000001 [put d 18, put a 12, put b 6, put m 4, put l 2, put w 1] = _
    simp only [word, put, eBit_eq, pack]
    generalize w.toNat = v1; generalize l.toNat = v2; generalize m.toNat = v3; generalize b.toNat = v4; generalize a.toNat = v5; generalize d.toNat = v6; generalize e.toNat = v8; omega
  have hfit : Fits [1, 1, 2, 2, 6, 6, 6, 7, 1] [1, w.toNat, l.toNat, m.toNat, b.toNat, a.toNat, d.toNat, 64, e.toNat] := ⟨by decide, w.isLt, l.isLt, m.isLt, b.isLt, a.isLt, d.isLt, by decide, e.toNat_lt, trivial⟩
  revert hwd hfit; generalize encode _ = wd; intro hw hfit
  have hwd := And.intro hw (show ([1, 1, 2, 2, 6, 6, 6, 7, 1] : List Nat).length = ([1, w.toNat, l.toNat, m.toNat, b.toNat, a.toNat, d.toNat, 64, e.toNat] : List Nat).length from rfl)
  have h32 : wd % 2 ^ 32 = wd := pkw hwd hfit rfl
  have k0 : wd % 2 ^ 1 = 1 := pk0 hwd hfit rfl rfl
  have f1 : fld wd 1 1 = w := fld_eq (pk hwd hfit 1 rfl rfl rfl)
  have f2 : fld wd 2 2 = l := fld_eq (pk hwd hfit 2 rfl rfl rfl)
  have f3 : fld wd 4 2 = m := fld_eq (pk hwd hfit 3 rfl rfl rfl)
  have f4 : fld wd 6 6 = b := fld_eq (pk hwd hfit 4 rfl rfl rfl)
  have f5 : fld wd 12 6 = a := fld_eq (pk hwd hfit 5 rfl rfl rfl)
  have f6 : fld wd 18 6 = d := fld_eq (pk hwd hfit 6 rfl rfl rfl)
  have hm : wd / 2 ^ 24 % 2 ^ 7 = 64 := pk hwd hfit 7 rfl rfl rfl
  have he : bit wd 31 = e := bit_eq (pk hwd hfit 8 rfl rfl rfl)
  rw [short_40 hm, h32]
  simp only [decMajor40, k0, f1, f2, f3, f4, f5, f6, he, and_self, ite_true, ite_false, reduceIte]

theorem RoundTrip.vfmul (e : Bool) (d a b : BitVec 6) (m l : BitVec 2) (w : BitVec 1) : RoundTrip.Statement (.vfmul e d a b m l w) := by
  intro _ _
  have hwd : encode (.vfmul e d a b m l w) = pack [1, 1, 2, 2, 6, 6, 6, 7, 1] [0, w.toNat, l.toNat, m.toNat, b.toNat, a.toNat, d.toNat, 65, e.toNat] := by
    show word e 0x41000000 [put d 18, put a 12, put b 6, put m 4, put l 2, put w 1] = _
    simp only [word, put, eBit_eq, pack]
    generalize w.toNat = v1; generalize l.toNat = v2; generalize m.toNat = v3; generalize b.toNat = v4; generalize a.toNat = v5; generalize d.toNat = v6; generalize e.toNat = v8; omega
  have hfit : Fits [1, 1, 2, 2, 6, 6, 6, 7, 1] [0, w.toNat, l.toNat, m.toNat, b.toNat, a.toNat, d.toNat, 65, e.toNat] := ⟨by decide, w.isLt, l.isLt, m.isLt, b.isLt, a.isLt, d.isLt, by decide, e.toNat_lt, trivial⟩
  revert hwd hfit; generalize encode _ = wd; intro hw hfit
  have hwd := And.intro hw (show ([1, 1, 2, 2, 6, 6, 6, 7, 1] : List Nat).length = ([0, w.toNat, l.toNat, m.toNat, b.toNat, a.toNat, d.toNat, 65, e.toNat] : List Nat).length from rfl)
  have h32 : wd % 2 ^ 32 = wd := pkw hwd hfit rfl
  have k0 : wd % 2 ^ 1 = 0 := pk0 hwd hfit rfl rfl
  have f1 : fld wd 1 1 = w := fld_eq (pk hwd hfit 1 rfl rfl rfl)
  have f2 : fld wd 2 2 = l := fld_eq (pk hwd hfit 2 rfl rfl rfl)
  have f3 : fld wd 4 2 = m := fld_eq (pk hwd hfit 3 rfl rfl rfl)
  have f4 : fld wd 6 6 = b := fld_eq (pk hwd hfit 4 rfl rfl rfl)
  have f5 : fld wd 12 6 = a := fld_eq (pk hwd hfit 5 rfl rfl rfl)
  have f6 : fld wd 18 6 = d := fld_eq (pk hwd hfit 6 rfl rfl rfl)
  have hm : wd / 2 ^ 24 % 2 ^ 7 = 65 := pk hwd hfit 7 rfl rfl rfl
  have he : bit wd 31 = e := bit_eq (pk hwd hfit 8 rfl rfl rfl)
  rw [short_41 hm, h32]
  simp only [decMajor41, k0, f1, f2, f3, f4, f5, f6, he, and_self, ite_true, ite_false, reduceIte]

theorem RoundTrip.vfdiv (e : Bool) (d a b : BitVec 6) (m l : BitVec 2) (w : BitVec 1) : RoundTrip.Statement (.vfdiv e d a b m l w) := by
  intro _ _
  have hwd : encode (.vfdiv e d a b m l w) = pack [1, 1, 2, 2, 6, 6, 6, 7, 1] [1, w.toNat, l.toNat, m.toNat, b.toNat, a.toNat, d.toNat, 65, e.toNat] := by
    show word e 0x41000001 [put d 18, put a 12, put b 6, put m 4, put l 2, put w 1] = _
    simp only [word, put, eBit_eq, pack]
    generalize w.toNat = v1; generalize l.toNat = v2; generalize m.toNat = v3; generalize b.toNat = v4; generalize a.toNat = v5; generalize d.toNat = v6; generalize e.toNat = v8; omega
  have hfit : Fits [1, 1, 2, 2, 6, 6, 6, 7, 1] [1, w.toNat, l.toNat, m.toNat, b.toNat, a.toNat, d.toNat, 65, e.toNat] := ⟨by decide, w.isLt, l.isLt, m.isLt, b.isLt, a.isLt, d.isLt, by decide, e.toNat_lt, trivial⟩
  revert hwd hfit; generalize encode _ = wd; intro hw hfit
  have hwd := And.intro hw (show ([1, 1, 2, 2, 6, 6, 6, 7, 1] : List Nat).length = ([1, w.toNat, l.toNat, m.toNat, b.toNat, a.toNat, d.toNat, 65, e.toNat] : List Nat).length from rfl)
  have h32 : wd % 2 ^ 32 = wd := pkw hwd hfit rfl
  have k0 : wd % 2 ^ 1 = 1 := pk0 hwd hfit rfl rfl
  have f1 : fld wd 1 1 = w := fld_eq (pk hwd hfit 1 rfl rfl rfl)
  have f2 : fld wd 2 2 = l := fld_eq (pk hwd hfit 2 rfl rfl rfl)
  have f3 : fld wd 4 2 = m := fld_eq (pk hwd hfit 3 rfl rfl rfl)
  have f4 : fld wd 6 6 = b := fld_eq (pk hwd hfit 4 rfl rfl rfl)
  have f5 : fld wd 12 6 = a := fld_eq (pk hwd hfit 5 rfl rfl rfl)
  have f6 : fld wd 18 6 = d := fld_eq (pk hwd hfit 6 rfl rfl rfl)
  have hm : wd / 2 ^ 24 % 2 ^ 7 = 65 := pk hwd hfit 7 rfl rfl rfl
  have he : bit wd 31 = e := bit_eq (pk hwd hfit 8 rfl rfl rfl)
  rw [short_41 hm, h32]
  simp only [decMajor41, k0, f1, f2, f3, f4, f5, f6, he, and_self, ite_true, ite_false, reduceIte]

theorem RoundTrip.vffma (e : Bool) (d a b : BitVec 6) (m l : BitVec 2) (w : BitVec 1) : RoundTrip.Statement (.vffma e d a b m l w) := by
  intro _ _
  have hwd : encode (.vffma e d a b m l w) = pack [1, 1, 2, 2, 6, 6, 6, 7, 1] [0, w.toNat, l.toNat, m.toNat, b.toNat, a.toNat, d.toNat, 66, e.toNat] := by
    show word e 0x42000000 [put d 18, put a 12, put b 6, put m 4, put l 2, put w 1] = _
    simp only [word, put, eBit_eq, pack]
    generalize w.toNat = v1; generalize l.toNat = v2; generalize m.toNat = v3; generalize b.toNat = v4; generalize a.toNat = v5; generalize d.toNat = v6; generalize e.toNat = v8; omega
  have hfit : Fits [1, 1, 2, 2, 6, 6, 6, 7, 1] [0, w.toNat, l.toNat, m.toNat, b.toNat, a.toNat, d.toNat, 66, e.toNat] := ⟨by decide, w.isLt, l.isLt, m.isLt, b.isLt, a.isLt, d.isLt, by decide, e.toNat_lt, trivial⟩
  revert hwd hfit; generalize encode _ = wd; intro hw hfit
  have hwd := And.intro hw (show ([1, 1, 2, 2, 6, 6, 6, 7, 1] : List Nat).length = ([0, w.toNat, l.toNat, m.toNat, b.toNat, a.toNat, d.toNat, 66, e.toNat] : List Nat).length from rfl)
  have h32 : wd % 2 ^ 32 = wd := pkw hwd hfit rfl
  have k0 : wd % 2 ^ 1 = 0 := pk0 hwd hfit rfl rfl
  have f1 : fld wd 1 1 = w := fld_eq (pk hwd hfit 1 rfl rfl rfl)
  have f2 : fld wd 2 2 = l := fld_eq (pk hwd hfit 2 rfl rfl rfl)
  have f3 : fld wd 4 2 = m := fld_eq (pk hwd hfit 3 rfl rfl rfl)
  have f4 : fld wd 6 6 = b := fld_eq (pk hwd hfit 4 rfl rfl rfl)
  have f5 : fld wd 12 6 = a := fld_eq (pk hwd hfit 5 rfl rfl rfl)
  have f6 : fld wd 18 6 = d := fld_eq (pk hwd hfit 6 rfl rfl rfl)
  have hm : wd / 2 ^ 24 % 2 ^ 7 = 66 := pk hwd hfit 7 rfl rfl rfl
  have he : bit wd 31 = e := bit_eq (pk hwd hfit 8 rfl rfl rfl)
  rw [short_42 hm, h32]
  simp only [decMajor42, k0, f1, f2, f3, f4, f5, f6, he, and_self, ite_true, ite_false, reduceIte]

theorem RoundTrip.vffms (e : Bool) (d a b : BitVec 6) (m l : BitVec 2) (w : BitVec 1) : RoundTrip.Statement (.vffms e d a b m l w) := by
  intro _ _
  have hwd : encode (.vffms e d a b m l w) = pack [1, 1, 2, 2, 6, 6, 6, 7, 1] [1, w.toNat, l.toNat, m.toNat, b.toNat, a.toNat, d.toNat, 66, e.toNat] := by
    show word e 0x42000001 [put d 18, put a 12, put b 6, put m 4, put l 2, put w 1] = _
    simp only [word, put, eBit_eq, pack]
    generalize w.toNat = v1; generalize l.toNat = v2; generalize m.toNat = v3; generalize b.toNat = v4; generalize a.toNat = v5; generalize d.toNat = v6; generalize e.toNat = v8; omega
  have hfit : Fits [1, 1, 2, 2, 6, 6, 6, 7, 1] [1, w.toNat, l.toNat, m.toNat, b.toNat, a.toNat, d.toNat, 66, e.toNat] := ⟨by decide, w.isLt, l.isLt, m.isLt, b.isLt, a.isLt, d.isLt, by decide, e.toNat_lt, trivial⟩
  revert hwd hfit; generalize encode _ = wd; intro hw hfit
  have hwd := And.intro hw (show ([1, 1, 2, 2, 6, 6, 6, 7, 1] : List Nat).length = ([1, w.toNat, l.toNat, m.toNat, b.toNat, a.toNat, d.toNat, 66, e.toNat] : List Nat).length from rfl)
  have h32 : wd % 2 ^ 32 = wd := pkw hwd hfit rfl
  have k0 : wd % 2 ^ 1 = 1 := pk0 hwd hfit rfl rfl
  have f1 : fld wd 1 1 = w := fld_eq (pk hwd hfit 1 rfl rfl rfl)
  have f2 : fld wd 2 2 = l := fld_eq (pk hwd hfit 2 rfl rfl rfl)
  have f3 : fld wd 4 2 = m := fld_eq (pk hwd hfit 3 rfl rfl rfl)
  have f4 : fld wd 6 6 = b := fld_eq (pk hwd hfit 4 rfl rfl rfl)
  have f5 : fld wd 12 6 = a := fld_eq (pk hwd hfit 5 rfl rfl rfl)
  have f6 : fld wd 18 6 = d := fld_eq (pk hwd hfit 6 rfl rfl rfl)
  have hm : wd / 2 ^ 24 % 2 ^ 7 = 66 := pk hwd hfit 7 rfl rfl rfl
  have he : bit wd 31 = e := bit_eq (pk hwd hfit 8 rfl rfl rfl)
  rw [short_42 hm, h32]
  simp only [decMajor42, k0, f1, f2, f3, f4, f5, f6, he, and_self, ite_true, ite_false, reduceIte]

theorem RoundTrip.vfnma (e : Bool) (d a b : BitVec 6) (m l : BitVec 2) (w : BitVec 1) : RoundTrip.Statement (.vfnma e d a b m l w) := by
  intro _ _
  have hwd : encode (.vfnma e d a b m l w) = pack [1, 1, 2, 2, 6, 6, 6, 7, 1] [0, w.toNat, l.toNat, m.toNat, b.toNat, a.toNat, d.toNat, 67, e.toNat] := by
    show word e 0x43000000 [put d 18, put a 12, put b 6, put m 4, put l 2, put w 1] = _
    simp only [word, put, eBit_eq, pack]
    generalize w.toNat = v1; generalize l.toNat = v2; generalize m.toNat = v3; generalize b.toNat = v4; generalize a.toNat = v5; generalize d.toNat = v6; generalize e.toNat = v8; omega
  have hfit : Fits [1, 1, 2, 2, 6, 6, 6, 7, 1] [0, w.toNat, l.toNat, m.toNat, b.toNat, a.toNat, d.toNat, 67, e.toNat] := ⟨by decide, w.isLt, l.isLt, m.isLt, b.isLt, a.isLt, d.isLt, by decide, e.toNat_lt, trivial⟩
  revert hwd hfit; generalize encode _ = wd; intro hw hfit
  have hwd := And.intro hw (show ([1, 1, 2, 2, 6, 6, 6, 7, 1] : List Nat).length = ([0, w.toNat, l.toNat, m.toNat, b.toNat, a.toNat, d.toNat, 67, e.toNat] : List Nat).length from rfl)
  have h32 : wd % 2 ^ 32 = wd := pkw hwd hfit rfl
  have k0 : wd % 2 ^ 1 = 0 := pk0 hwd hfit rfl rfl
  have f1 : fld wd 1 1 = w := fld_eq (pk hwd hfit 1 rfl rfl rfl)
  have f2 : fld wd 2 2 = l := fld_eq (pk hwd hfit 2 rfl rfl rfl)
  have f3 : fld wd 4 2 = m := fld_eq (pk hwd hfit 3 rfl rfl rfl)
  have f4 : fld wd 6 6 = b := fld_eq (pk hwd hfit 4 rfl rfl rfl)
  have f5 : fld wd 12 6 = a := fld_eq (pk hwd hfit 5 rfl rfl rfl)
  have f6 : fld wd 18 6 = d := fld_eq (pk hwd hfit 6 rfl rfl rfl)
  have hm : wd / 2 ^ 24 % 2 ^ 7 = 67 := pk hwd hfit 7 rfl rfl rfl
  have he : bit wd 31 = e := bit_eq (pk hwd hfit 8 rfl rfl rfl)
  rw [short_43 hm, h32]
  simp only [decMajor43, k0, f1, f2, f3, f4, f5, f6, he, and_self, ite_true, ite_false, reduceIte]

theorem RoundTrip.vfnms (e : Bool) (d a b : BitVec 6) (m l : BitVec 2) (w : BitVec 1) : RoundTrip.Statement (.vfnms e d a b m l w) := by
  intro _ _
  have hwd : encode (.vfnms e d a b m l w) = pack [1, 1, 2, 2, 6, 6, 6, 7, 1] [1, w.toNat, l.toNat, m.toNat, b.toNat, a.toNat, d.toNat, 67, e.toNat] := by
    show word e 0x43000001 [put d 18, put a 12, put b 6, put m 4, put l 2, put w 1] = _
    simp only [word, put, eBit_eq, pack]
    generalize w.toNat = v1; generalize l.toNat = v2; generalize m.toNat = v3; generalize b.toNat = v4; generalize a.toNat = v5; generalize d.toNat = v6; generalize e.toNat = v8; omega
  have hfit : Fits [1, 1, 2, 2, 6, 6, 6, 7, 1] [1, w.toNat, l.toNat, m.toNat, b.toNat, a.toNat, d.toNat, 67, e.toNat] := ⟨by decide, w.isLt, l.isLt, m.isLt, b.isLt, a.isLt, d.isLt, by decide, e.toNat_lt, trivial⟩
  revert hwd hfit; generalize encode _ = wd; intro hw hfit
  have hwd := And.intro hw (show ([1, 1, 2, 2, 6, 6, 6, 7, 1] : List Nat).length = ([1, w.toNat, l.toNat, m.toNat, b.toNat, a.toNat, d.toNat, 67, e.toNat] : List Nat).length from rfl)
  have h32 : wd % 2 ^ 32 = wd := pkw hwd hfit rfl
  have k0 : wd % 2 ^ 1 = 1 := pk0 hwd hfit rfl rfl
  have f1 : fld wd 1 1 = w := fld_eq (pk hwd hfit 1 rfl rfl rfl)
  have f2 : fld wd 2 2 = l := fld_eq (pk hwd hfit 2 rfl rfl rfl)
  have f3 : fld wd 4 2 = m := fld_eq (pk hwd hfit 3 rfl rfl rfl)
  have f4 : fld wd 6 6 = b := fld_eq (pk hwd hfit 4 rfl rfl rfl)
  have f5 : fld wd 12 6 = a := fld_eq (pk hwd hfit 5 rfl rfl rfl)
  have f6 : fld wd 18 6 = d := fld_eq (pk hwd hfit 6 rfl rfl rfl)
  have hm : wd / 2 ^ 24 % 2 ^ 7 = 67 := pk hwd hfit 7 rfl rfl rfl
  have he : bit wd 31 = e := bit_eq (pk hwd hfit 8 rfl rfl rfl)
  rw [short_43 hm, h32]
  simp only [decMajor43, k0, f1, f2, f3, f4, f5, f6, he, and_self, ite_true, ite_false, reduceIte]

theorem RoundTrip.vfmin (e : Bool) (d a b : BitVec 6) (m l : BitVec 2) (w : BitVec 1) : RoundTrip.Statement (.vfmin e d a b m l w) := by
  intro _ _
  have hwd : encode (.vfmin e d a b m l w) = pack [1, 1, 2, 2, 6, 6, 6, 7, 1] [0, w.toNat, l.toNat, m.toNat, b.toNat, a.toNat, d.toNat, 68, e.toNat] := by
    show word e 0x44000000 [put d 18, put a 12, put b 6, put m 4, put l 2, put w 1] = _
    simp only [word, put, eBit_eq, pack]
    generalize w.toNat = v1; generalize l.toNat = v2; generalize m.toNat = v3; generalize b.toNat = v4; generalize a.toNat = v5; generalize d.toNat = v6; generalize e.toNat = v8; omega
  have hfit : Fits [1, 1, 2, 2, 6, 6, 6, 7, 1] [0, w.toNat, l.toNat, m.toNat, b.toNat, a.toNat, d.toNat, 68, e.toNat] := ⟨by decide, w.isLt, l.isLt, m.isLt, b.isLt, a.isLt, d.isLt, by decide, e.toNat_lt, trivial⟩
  revert hwd hfit; generalize encode _ = wd; intro hw hfit
  have hwd := And.intro hw (show ([1, 1, 2, 2, 6, 6, 6, 7, 1] : List Nat).length = ([0, w.toNat, l.toNat, m.toNat, b.toNat, a.toNat, d.toNat, 68, e.toNat] : List Nat).length from rfl)
  have h32 : wd % 2 ^ 32 = wd := pkw hwd hfit rfl
  have k0 : wd % 2 ^ 1 = 0 := pk0 hwd hfit rfl rfl
  have f1 : fld wd 1 1 = w := fld_eq (pk hwd hfit 1 rfl rfl rfl)
  have f2 : fld wd 2 2 = l := fld_eq (pk hwd hfit 2 rfl rfl rfl)
  have f3 : fld wd 4 2 = m := fld_eq (pk hwd hfit 3 rfl rfl rfl)
  have f4 : fld wd 6 6 = b := fld_eq (pk hwd hfit 4 rfl rfl rfl)
  have f5 : fld wd 12 6 = a := fld_eq (pk hwd hfit 5 rfl rfl rfl)
  have f6 : fld wd 18 6 = d := fld_eq (pk hwd hfit 6 rfl rfl rfl)
  have hm : wd / 2 ^ 24 % 2 ^ 7 = 68 := pk hwd hfit 7 rfl rfl rfl
  have he : bit wd 31 = e := bit_eq (pk hwd hfit 8 rfl rfl rfl)
  rw [short_44 hm, h32]
  simp only [decMajor44, k0, f1, f2, f3, f4, f5, f6, he, and_self, ite_true, ite_false, reduceIte]

theorem RoundTrip.vfmax (e : Bool) (d a b : BitVec 6) (m l : BitVec 2) (w : BitVec 1) : RoundTrip.Statement (.vfmax e d a b m l w) := by
  intro _ _
  have hwd : encode (.vfmax e d a b m l w) = pack [1, 1, 2, 2, 6, 6, 6, 7, 1] [1, w.toNat, l.toNat, m.toNat, b.toNat, a.toNat, d.toNat, 68, e.toNat] := by
    show word e 0x44000001 [put d 18, put a 12, put b 6, put m 4, put l 2, put w 1] = _
    simp only [word, put, eBit_eq, pack]
    generalize w.toNat = v1; generalize l.toNat = v2; generalize m.toNat = v3; generalize b.toNat = v4; generalize a.toNat = v5; generalize d.toNat = v6; generalize e.toNat = v8; omega
  have hfit : Fits [1, 1, 2, 2, 6, 6, 6, 7, 1] [1, w.toNat, l.toNat, m.toNat, b.toNat, a.toNat, d.toNat, 68, e.toNat] := ⟨by decide, w.isLt, l.isLt, m.isLt, b.isLt, a.isLt, d.isLt, by decide, e.toNat_lt, trivial⟩
  revert hwd hfit; generalize encode _ = wd; intro hw hfit
  have hwd := And.intro hw (show ([1, 1, 2, 2, 6, 6, 6, 7, 1] : List Nat).length = ([1, w.toNat, l.toNat, m.toNat, b.toNat, a.toNat, d.toNat, 68, e.toNat] : List Nat).length from rfl)
  have h32 : wd % 2 ^ 32 = wd := pkw hwd hfit rfl
  have k0 : wd % 2 ^ 1 = 1 := pk0 hwd hfit rfl rfl
  have f1 : fld wd 1 1 = w := fld_eq (pk hwd hfit 1 rfl rfl rfl)
  have f2 : fld wd 2 2 = l := fld_eq (pk hwd hfit 2 rfl rfl rfl)
  have f3 : fld wd 4 2 = m := fld_eq (pk hwd hfit 3 rfl rfl rfl)
  have f4 : fld wd 6 6 = b := fld_eq (pk hwd hfit 4 rfl rfl rfl)
  have f5 : fld wd 12 6 = a := fld_eq (pk hwd hfit 5 rfl rfl rfl)
  have f6 : fld wd 18 6 = d := fld_eq (pk hwd hfit 6 rfl rfl rfl)
  have hm : wd / 2 ^ 24 % 2 ^ 7 = 68 := pk hwd hfit 7 rfl rfl rfl
  have he : bit wd 31 = e := bit_eq (pk hwd hfit 8 rfl rfl rfl)
  rw [short_44 hm, h32]
  simp only [decMajor44, k0, f1, f2, f3, f4, f5, f6, he, and_self, ite_true, ite_false, reduceIte]

theorem RoundTrip.vfcmp (e : Bool) (p c : BitVec 4) (a b : BitVec 6) (m l : BitVec 2) : RoundTrip.Statement (.vfcmp e p c a b m l) := by
  intro _ _
  have hwd : encode (.vfcmp e p c a b m l) = pack [2, 2, 6, 6, 4, 4, 7, 1] [l.toNat, m.toNat, b.toNat, a.toNat, c.toNat, p.toNat, 69, e.toNat] := by
    show word e 0x45000000 [put p 20, put c 16, put a 10, put b 4, put m 2, put l 0] = _
    simp only [word, put, eBit_eq, pack]
    generalize l.toNat = v0; generalize m.toNat = v1; generalize b.toNat = v2; generalize a.toNat = v3; generalize c.toNat = v4; generalize p.toNat = v5; generalize e.toNat = v7; omega
  have hfit : Fits [2, 2, 6, 6, 4, 4, 7, 1] [l.toNat, m.toNat, b.toNat, a.toNat, c.toNat, p.toNat, 69, e.toNat] := ⟨l.isLt, m.isLt, b.isLt, a.isLt, c.isLt, p.isLt, by decide, e.toNat_lt, trivial⟩
  revert hwd hfit; generalize encode _ = wd; intro hw hfit
  have hwd := And.intro hw (show ([2, 2, 6, 6, 4, 4, 7, 1] : List Nat).length = ([l.toNat, m.toNat, b.toNat, a.toNat, c.toNat, p.toNat, 69, e.toNat] : List Nat).length from rfl)
  have h32 : wd % 2 ^ 32 = wd := pkw hwd hfit rfl
  have f0 : fld wd 0 2 = l := fld_eq (pk hwd hfit 0 rfl rfl rfl)
  have f1 : fld wd 2 2 = m := fld_eq (pk hwd hfit 1 rfl rfl rfl)
  have f2 : fld wd 4 6 = b := fld_eq (pk hwd hfit 2 rfl rfl rfl)
  have f3 : fld wd 10 6 = a := fld_eq (pk hwd hfit 3 rfl rfl rfl)
  have f4 : fld wd 16 4 = c := fld_eq (pk hwd hfit 4 rfl rfl rfl)
  have f5 : fld wd 20 4 = p := fld_eq (pk hwd hfit 5 rfl rfl rfl)
  have hm : wd / 2 ^ 24 % 2 ^ 7 = 69 := pk hwd hfit 6 rfl rfl rfl
  have he : bit wd 31 = e := bit_eq (pk hwd hfit 7 rfl rfl rfl)
  rw [short_45 hm, h32]
  simp only [decMajor45, f0, f1, f2, f3, f4, f5, he, and_self, ite_true, ite_false, reduceIte]

theorem RoundTrip.vfsqrt (e : Bool) (d a : BitVec 6) (m : BitVec 2) (l w : BitVec 1) : RoundTrip.Statement (.vfsqrt e d a m l w) := by
  intro _ _
  have hwd : encode (.vfsqrt e d a m l w) = pack [1, 1, 1, 1, 2, 6, 6, 6, 7, 1] [0, w.toNat, l.toNat, 0, m.toNat, 0, a.toNat, d.toNat, 70, e.toNat] := by
    show word e 0x46000000 [put d 18, put a 12, put m 4, put l 2, put w 1] = _
    simp only [word, put, eBit_eq, pack]
    generalize w.toNat = v1; generalize l.toNat = v2; generalize m.toNat = v4; generalize a.toNat = v6; generalize d.toNat = v7; generalize e.toNat = v9; omega
  have hfit : Fits [1, 1, 1, 1, 2, 6, 6, 6, 7, 1] [0, w.toNat, l.toNat, 0, m.toNat, 0, a.toNat, d.toNat, 70, e.toNat] := ⟨by decide, w.isLt, l.isLt, by decide, m.isLt, by decide, a.isLt, d.isLt, by decide, e.toNat_lt, trivial⟩
  revert hwd hfit; generalize encode _ = wd; intro hw hfit
  have hwd := And.intro hw (show ([1, 1, 1, 1, 2, 6, 6, 6, 7, 1] : List Nat).length = ([0, w.toNat, l.toNat, 0, m.toNat, 0, a.toNat, d.toNat, 70, e.toNat] : List Nat).length from rfl)
  have h32 : wd % 2 ^ 32 = wd := pkw hwd hfit rfl
  have k0 : wd % 2 ^ 1 = 0 := pk0 hwd hfit rfl rfl
  have f1 : fld wd 1 1 = w := fld_eq (pk hwd hfit 1 rfl rfl rfl)
  have f2 : fld wd 2 1 = l := fld_eq (pk hwd hfit 2 rfl rfl rfl)
  have k3 : wd / 2 ^ 3 % 2 ^ 1 = 0 := pk hwd hfit 3 rfl rfl rfl
  have f4 : fld wd 4 2 = m := fld_eq (pk hwd hfit 4 rfl rfl rfl)
  have k5 : wd / 2 ^ 6 % 2 ^ 6 = 0 := pk hwd hfit 5 rfl rfl rfl
  have f6 : fld wd 12 6 = a := fld_eq (pk hwd hfit 6 rfl rfl rfl)
  have f7 : fld wd 18 6 = d := fld_eq (pk hwd hfit 7 rfl rfl rfl)
  have hm : wd / 2 ^ 24 % 2 ^ 7 = 70 := pk hwd hfit 8 rfl rfl rfl
  have he : bit wd 31 = e := bit_eq (pk hwd hfit 9 rfl rfl rfl)
  rw [short_46 hm, h32]
  simp only [decMajor46, k0, f1, f2, k3, f4, k5, f6, f7, he, and_self, ite_true, ite_false, reduceIte]

theorem RoundTrip.vfrcp (e : Bool) (d a : BitVec 6) (m : BitVec 2) (l w : BitVec 1) : RoundTrip.Statement (.vfrcp e d a m l w) := by
  intro _ _
  have hwd : encode (.vfrcp e d a m l w) = pack [1, 1, 1, 1, 2, 6, 6, 6, 7, 1] [0, w.toNat, l.toNat, 0, m.toNat, 1, a.toNat, d.toNat, 70, e.toNat] := by
    show word e 0x46000040 [put d 18, put a 12, put m 4, put l 2, put w 1] = _
    simp only [word, put, eBit_eq, pack]
    generalize w.toNat = v1; generalize l.toNat = v2; generalize m.toNat = v4; generalize a.toNat = v6; generalize d.toNat = v7; generalize e.toNat = v9; omega
  have hfit : Fits [1, 1, 1, 1, 2, 6, 6, 6, 7, 1] [0, w.toNat, l.toNat, 0, m.toNat, 1, a.toNat, d.toNat, 70, e.toNat] := ⟨by decide, w.isLt, l.isLt, by decide, m.isLt, by decide, a.isLt, d.isLt, by decide, e.toNat_lt, trivial⟩
  revert hwd hfit; generalize encode _ = wd; intro hw hfit
  have hwd := And.intro hw (show ([1, 1, 1, 1, 2, 6, 6, 6, 7, 1] : List Nat).length = ([0, w.toNat, l.toNat, 0, m.toNat, 1, a.toNat, d.toNat, 70, e.toNat] : List Nat).length from rfl)
  have h32 : wd % 2 ^ 32 = wd := pkw hwd hfit rfl
  have k0 : wd % 2 ^ 1 = 0 := pk0 hwd hfit rfl rfl
  have f1 : fld wd 1 1 = w := fld_eq (pk hwd hfit 1 rfl rfl rfl)
  have f2 : fld wd 2 1 = l := fld_eq (pk hwd hfit 2 rfl rfl rfl)
  have k3 : wd / 2 ^ 3 % 2 ^ 1 = 0 := pk hwd hfit 3 rfl rfl rfl
  have f4 : fld wd 4 2 = m := fld_eq (pk hwd hfit 4 rfl rfl rfl)
  have k5 : wd / 2 ^ 6 % 2 ^ 6 = 1 := pk hwd hfit 5 rfl rfl rfl
  have f6 : fld wd 12 6 = a := fld_eq (pk hwd hfit 6 rfl rfl rfl)
  have f7 : fld wd 18 6 = d := fld_eq (pk hwd hfit 7 rfl rfl rfl)
  have hm : wd / 2 ^ 24 % 2 ^ 7 = 70 := pk hwd hfit 8 rfl rfl rfl
  have he : bit wd 31 = e := bit_eq (pk hwd hfit 9 rfl rfl rfl)
  rw [short_46 hm, h32]
  simp only [decMajor46, k0, f1, f2, k3, f4, k5, f6, f7, he, and_self, ite_true, ite_false, reduceIte]

theorem RoundTrip.vfrsq (e : Bool) (d a : BitVec 6) (m : BitVec 2) (l w : BitVec 1) : RoundTrip.Statement (.vfrsq e d a m l w) := by
  intro _ _
  have hwd : encode (.vfrsq e d a m l w) = pack [1, 1, 1, 1, 2, 6, 6, 6, 7, 1] [0, w.toNat, l.toNat, 0, m.toNat, 2, a.toNat, d.toNat, 70, e.toNat] := by
    show word e 0x46000080 [put d 18, put a 12, put m 4, put l 2, put w 1] = _
    simp only [word, put, eBit_eq, pack]
    generalize w.toNat = v1; generalize l.toNat = v2; generalize m.toNat = v4; generalize a.toNat = v6; generalize d.toNat = v7; generalize e.toNat = v9; omega
  have hfit : Fits [1, 1, 1, 1, 2, 6, 6, 6, 7, 1] [0, w.toNat, l.toNat, 0, m.toNat, 2, a.toNat, d.toNat, 70, e.toNat] := ⟨by decide, w.isLt, l.isLt, by decide, m.isLt, by decide, a.isLt, d.isLt, by decide, e.toNat_lt, trivial⟩
  revert hwd hfit; generalize encode _ = wd; intro hw hfit
  have hwd := And.intro hw (show ([1, 1, 1, 1, 2, 6, 6, 6, 7, 1] : List Nat).length = ([0, w.toNat, l.toNat, 0, m.toNat, 2, a.toNat, d.toNat, 70, e.toNat] : List Nat).length from rfl)
  have h32 : wd % 2 ^ 32 = wd := pkw hwd hfit rfl
  have k0 : wd % 2 ^ 1 = 0 := pk0 hwd hfit rfl rfl
  have f1 : fld wd 1 1 = w := fld_eq (pk hwd hfit 1 rfl rfl rfl)
  have f2 : fld wd 2 1 = l := fld_eq (pk hwd hfit 2 rfl rfl rfl)
  have k3 : wd / 2 ^ 3 % 2 ^ 1 = 0 := pk hwd hfit 3 rfl rfl rfl
  have f4 : fld wd 4 2 = m := fld_eq (pk hwd hfit 4 rfl rfl rfl)
  have k5 : wd / 2 ^ 6 % 2 ^ 6 = 2 := pk hwd hfit 5 rfl rfl rfl
  have f6 : fld wd 12 6 = a := fld_eq (pk hwd hfit 6 rfl rfl rfl)
  have f7 : fld wd 18 6 = d := fld_eq (pk hwd hfit 7 rfl rfl rfl)
  have hm : wd / 2 ^ 24 % 2 ^ 7 = 70 := pk hwd hfit 8 rfl rfl rfl
  have he : bit wd 31 = e := bit_eq (pk hwd hfit 9 rfl rfl rfl)
  rw [short_46 hm, h32]
  simp only [decMajor46, k0, f1, f2, k3, f4, k5, f6, f7, he, and_self, ite_true, ite_false, reduceIte]

theorem RoundTrip.vfexp2f (e : Bool) (d a : BitVec 6) (m : BitVec 2) (l w : BitVec 1) : RoundTrip.Statement (.vfexp2f e d a m l w) := by
  intro _ _
  have hwd : encode (.vfexp2f e d a m l w) = pack [1, 1, 1, 1, 2, 6, 6, 6, 7, 1] [0, w.toNat, l.toNat, 0, m.toNat, 3, a.toNat, d.toNat, 70, e.toNat] := by
    show word e 0x460000C0 [put d 18, put a 12, put m 4, put l 2, put w 1] = _
    simp only [word, put, eBit_eq, pack]
    generalize w.toNat = v1; generalize l.toNat = v2; generalize m.toNat = v4; generalize a.toNat = v6; generalize d.toNat = v7; generalize e.toNat = v9; omega
  have hfit : Fits [1, 1, 1, 1, 2, 6, 6, 6, 7, 1] [0, w.toNat, l.toNat, 0, m.toNat, 3, a.toNat, d.toNat, 70, e.toNat] := ⟨by decide, w.isLt, l.isLt, by decide, m.isLt, by decide, a.isLt, d.isLt, by decide, e.toNat_lt, trivial⟩
  revert hwd hfit; generalize encode _ = wd; intro hw hfit
  have hwd := And.intro hw (show ([1, 1, 1, 1, 2, 6, 6, 6, 7, 1] : List Nat).length = ([0, w.toNat, l.toNat, 0, m.toNat, 3, a.toNat, d.toNat, 70, e.toNat] : List Nat).length from rfl)
  have h32 : wd % 2 ^ 32 = wd := pkw hwd hfit rfl
  have k0 : wd % 2 ^ 1 = 0 := pk0 hwd hfit rfl rfl
  have f1 : fld wd 1 1 = w := fld_eq (pk hwd hfit 1 rfl rfl rfl)
  have f2 : fld wd 2 1 = l := fld_eq (pk hwd hfit 2 rfl rfl rfl)
  have k3 : wd / 2 ^ 3 % 2 ^ 1 = 0 := pk hwd hfit 3 rfl rfl rfl
  have f4 : fld wd 4 2 = m := fld_eq (pk hwd hfit 4 rfl rfl rfl)
  have k5 : wd / 2 ^ 6 % 2 ^ 6 = 3 := pk hwd hfit 5 rfl rfl rfl
  have f6 : fld wd 12 6 = a := fld_eq (pk hwd hfit 6 rfl rfl rfl)
  have f7 : fld wd 18 6 = d := fld_eq (pk hwd hfit 7 rfl rfl rfl)
  have hm : wd / 2 ^ 24 % 2 ^ 7 = 70 := pk hwd hfit 8 rfl rfl rfl
  have he : bit wd 31 = e := bit_eq (pk hwd hfit 9 rfl rfl rfl)
  rw [short_46 hm, h32]
  simp only [decMajor46, k0, f1, f2, k3, f4, k5, f6, f7, he, and_self, ite_true, ite_false, reduceIte]

theorem RoundTrip.vfgetexp (e : Bool) (d a : BitVec 6) (m : BitVec 2) (l w : BitVec 1) : RoundTrip.Statement (.vfgetexp e d a m l w) := by
  intro _ _
  have hwd : encode (.vfgetexp e d a m l w) = pack [1, 1, 1, 1, 2, 6, 6, 6, 7, 1] [0, w.toNat, l.toNat, 0, m.toNat, 4, a.toNat, d.toNat, 70, e.toNat] := by
    show word e 0x46000100 [put d 18, put a 12, put m 4, put l 2, put w 1] = _
    simp only [word, put, eBit_eq, pack]
    generalize w.toNat = v1; generalize l.toNat = v2; generalize m.toNat = v4; generalize a.toNat = v6; generalize d.toNat = v7; generalize e.toNat = v9; omega
  have hfit : Fits [1, 1, 1, 1, 2, 6, 6, 6, 7, 1] [0, w.toNat, l.toNat, 0, m.toNat, 4, a.toNat, d.toNat, 70, e.toNat] := ⟨by decide, w.isLt, l.isLt, by decide, m.isLt, by decide, a.isLt, d.isLt, by decide, e.toNat_lt, trivial⟩
  revert hwd hfit; generalize encode _ = wd; intro hw hfit
  have hwd := And.intro hw (show ([1, 1, 1, 1, 2, 6, 6, 6, 7, 1] : List Nat).length = ([0, w.toNat, l.toNat, 0, m.toNat, 4, a.toNat, d.toNat, 70, e.toNat] : List Nat).length from rfl)
  have h32 : wd % 2 ^ 32 = wd := pkw hwd hfit rfl
  have k0 : wd % 2 ^ 1 = 0 := pk0 hwd hfit rfl rfl
  have f1 : fld wd 1 1 = w := fld_eq (pk hwd hfit 1 rfl rfl rfl)
  have f2 : fld wd 2 1 = l := fld_eq (pk hwd hfit 2 rfl rfl rfl)
  have k3 : wd / 2 ^ 3 % 2 ^ 1 = 0 := pk hwd hfit 3 rfl rfl rfl
  have f4 : fld wd 4 2 = m := fld_eq (pk hwd hfit 4 rfl rfl rfl)
  have k5 : wd / 2 ^ 6 % 2 ^ 6 = 4 := pk hwd hfit 5 rfl rfl rfl
  have f6 : fld wd 12 6 = a := fld_eq (pk hwd hfit 6 rfl rfl rfl)
  have f7 : fld wd 18 6 = d := fld_eq (pk hwd hfit 7 rfl rfl rfl)
  have hm : wd / 2 ^ 24 % 2 ^ 7 = 70 := pk hwd hfit 8 rfl rfl rfl
  have he : bit wd 31 = e := bit_eq (pk hwd hfit 9 rfl rfl rfl)
  rw [short_46 hm, h32]
  simp only [decMajor46, k0, f1, f2, k3, f4, k5, f6, f7, he, and_self, ite_true, ite_false, reduceIte]

theorem RoundTrip.vfgetman (e : Bool) (d a : BitVec 6) (m : BitVec 2) (l w : BitVec 1) : RoundTrip.Statement (.vfgetman e d a m l w) := by
  intro _ _
  have hwd : encode (.vfgetman e d a m l w) = pack [1, 1, 1, 1, 2, 6, 6, 6, 7, 1] [0, w.toNat, l.toNat, 0, m.toNat, 5, a.toNat, d.toNat, 70, e.toNat] := by
    show word e 0x46000140 [put d 18, put a 12, put m 4, put l 2, put w 1] = _
    simp only [word, put, eBit_eq, pack]
    generalize w.toNat = v1; generalize l.toNat = v2; generalize m.toNat = v4; generalize a.toNat = v6; generalize d.toNat = v7; generalize e.toNat = v9; omega
  have hfit : Fits [1, 1, 1, 1, 2, 6, 6, 6, 7, 1] [0, w.toNat, l.toNat, 0, m.toNat, 5, a.toNat, d.toNat, 70, e.toNat] := ⟨by decide, w.isLt, l.isLt, by decide, m.isLt, by decide, a.isLt, d.isLt, by decide, e.toNat_lt, trivial⟩
  revert hwd hfit; generalize encode _ = wd; intro hw hfit
  have hwd := And.intro hw (show ([1, 1, 1, 1, 2, 6, 6, 6, 7, 1] : List Nat).length = ([0, w.toNat, l.toNat, 0, m.toNat, 5, a.toNat, d.toNat, 70, e.toNat] : List Nat).length from rfl)
  have h32 : wd % 2 ^ 32 = wd := pkw hwd hfit rfl
  have k0 : wd % 2 ^ 1 = 0 := pk0 hwd hfit rfl rfl
  have f1 : fld wd 1 1 = w := fld_eq (pk hwd hfit 1 rfl rfl rfl)
  have f2 : fld wd 2 1 = l := fld_eq (pk hwd hfit 2 rfl rfl rfl)
  have k3 : wd / 2 ^ 3 % 2 ^ 1 = 0 := pk hwd hfit 3 rfl rfl rfl
  have f4 : fld wd 4 2 = m := fld_eq (pk hwd hfit 4 rfl rfl rfl)
  have k5 : wd / 2 ^ 6 % 2 ^ 6 = 5 := pk hwd hfit 5 rfl rfl rfl
  have f6 : fld wd 12 6 = a := fld_eq (pk hwd hfit 6 rfl rfl rfl)
  have f7 : fld wd 18 6 = d := fld_eq (pk hwd hfit 7 rfl rfl rfl)
  have hm : wd / 2 ^ 24 % 2 ^ 7 = 70 := pk hwd hfit 8 rfl rfl rfl
  have he : bit wd 31 = e := bit_eq (pk hwd hfit 9 rfl rfl rfl)
  rw [short_46 hm, h32]
  simp only [decMajor46, k0, f1, f2, k3, f4, k5, f6, f7, he, and_self, ite_true, ite_false, reduceIte]

theorem RoundTrip.vfclass (e : Bool) (d a : BitVec 6) (m : BitVec 2) (l w : BitVec 1) : RoundTrip.Statement (.vfclass e d a m l w) := by
  intro _ _
  have hwd : encode (.vfclass e d a m l w) = pack [1, 1, 1, 1, 2, 6, 6, 6, 7, 1] [0, w.toNat, l.toNat, 0, m.toNat, 6, a.toNat, d.toNat, 70, e.toNat] := by
    show word e 0x46000180 [put d 18, put a 12, put m 4, put l 2, put w 1] = _
    simp only [word, put, eBit_eq, pack]
    generalize w.toNat = v1; generalize l.toNat = v2; generalize m.toNat = v4; generalize a.toNat = v6; generalize d.toNat = v7; generalize e.toNat = v9; omega
  have hfit : Fits [1, 1, 1, 1, 2, 6, 6, 6, 7, 1] [0, w.toNat, l.toNat, 0, m.toNat, 6, a.toNat, d.toNat, 70, e.toNat] := ⟨by decide, w.isLt, l.isLt, by decide, m.isLt, by decide, a.isLt, d.isLt, by decide, e.toNat_lt, trivial⟩
  revert hwd hfit; generalize encode _ = wd; intro hw hfit
  have hwd := And.intro hw (show ([1, 1, 1, 1, 2, 6, 6, 6, 7, 1] : List Nat).length = ([0, w.toNat, l.toNat, 0, m.toNat, 6, a.toNat, d.toNat, 70, e.toNat] : List Nat).length from rfl)
  have h32 : wd % 2 ^ 32 = wd := pkw hwd hfit rfl
  have k0 : wd % 2 ^ 1 = 0 := pk0 hwd hfit rfl rfl
  have f1 : fld wd 1 1 = w := fld_eq (pk hwd hfit 1 rfl rfl rfl)
  have f2 : fld wd 2 1 = l := fld_eq (pk hwd hfit 2 rfl rfl rfl)
  have k3 : wd / 2 ^ 3 % 2 ^ 1 = 0 := pk hwd hfit 3 rfl rfl rfl
  have f4 : fld wd 4 2 = m := fld_eq (pk hwd hfit 4 rfl rfl rfl)
  have k5 : wd / 2 ^ 6 % 2 ^ 6 = 6 := pk hwd hfit 5 rfl rfl rfl
  have f6 : fld wd 12 6 = a := fld_eq (pk hwd hfit 6 rfl rfl rfl)
  have f7 : fld wd 18 6 = d := fld_eq (pk hwd hfit 7 rfl rfl rfl)
  have hm : wd / 2 ^ 24 % 2 ^ 7 = 70 := pk hwd hfit 8 rfl rfl rfl
  have he : bit wd 31 = e := bit_eq (pk hwd hfit 9 rfl rfl rfl)
  rw [short_46 hm, h32]
  simp only [decMajor46, k0, f1, f2, k3, f4, k5, f6, f7, he, and_self, ite_true, ite_false, reduceIte]

theorem RoundTrip.vfabs (e : Bool) (d a : BitVec 6) (m : BitVec 2) (l w : BitVec 1) : RoundTrip.Statement (.vfabs e d a m l w) := by
  intro _ _
  have hwd : encode (.vfabs e d a m l w) = pack [1, 1, 1, 1, 2, 6, 6, 6, 7, 1] [0, w.toNat, l.toNat, 0, m.toNat, 7, a.toNat, d.toNat, 70, e.toNat] := by
    show word e 0x460001C0 [put d 18, put a 12, put m 4, put l 2, put w 1] = _
    simp only [word, put, eBit_eq, pack]
    generalize w.toNat = v1; generalize l.toNat = v2; generalize m.toNat = v4; generalize a.toNat = v6; generalize d.toNat = v7; generalize e.toNat = v9; omega
  have hfit : Fits [1, 1, 1, 1, 2, 6, 6, 6, 7, 1] [0, w.toNat, l.toNat, 0, m.toNat, 7, a.toNat, d.toNat, 70, e.toNat] := ⟨by decide, w.isLt, l.isLt, by decide, m.isLt, by decide, a.isLt, d.isLt, by decide, e.toNat_lt, trivial⟩
  revert hwd hfit; generalize encode _ = wd; intro hw hfit
  have hwd := And.intro hw (show ([1, 1, 1, 1, 2, 6, 6, 6, 7, 1] : List Nat).length = ([0, w.toNat, l.toNat, 0, m.toNat, 7, a.toNat, d.toNat, 70, e.toNat] : List Nat).length from rfl)
  have h32 : wd % 2 ^ 32 = wd := pkw hwd hfit rfl
  have k0 : wd % 2 ^ 1 = 0 := pk0 hwd hfit rfl rfl
  have f1 : fld wd 1 1 = w := fld_eq (pk hwd hfit 1 rfl rfl rfl)
  have f2 : fld wd 2 1 = l := fld_eq (pk hwd hfit 2 rfl rfl rfl)
  have k3 : wd / 2 ^ 3 % 2 ^ 1 = 0 := pk hwd hfit 3 rfl rfl rfl
  have f4 : fld wd 4 2 = m := fld_eq (pk hwd hfit 4 rfl rfl rfl)
  have k5 : wd / 2 ^ 6 % 2 ^ 6 = 7 := pk hwd hfit 5 rfl rfl rfl
  have f6 : fld wd 12 6 = a := fld_eq (pk hwd hfit 6 rfl rfl rfl)
  have f7 : fld wd 18 6 = d := fld_eq (pk hwd hfit 7 rfl rfl rfl)
  have hm : wd / 2 ^ 24 % 2 ^ 7 = 70 := pk hwd hfit 8 rfl rfl rfl
  have he : bit wd 31 = e := bit_eq (pk hwd hfit 9 rfl rfl rfl)
  rw [short_46 hm, h32]
  simp only [decMajor46, k0, f1, f2, k3, f4, k5, f6, f7, he, and_self, ite_true, ite_false, reduceIte]

theorem RoundTrip.vfneg (e : Bool) (d a : BitVec 6) (m : BitVec 2) (l w : BitVec 1) : RoundTrip.Statement (.vfneg e d a m l w) := by
  intro _ _
  have hwd : encode (.vfneg e d a m l w) = pack [1, 1, 1, 1, 2, 6, 6, 6, 7, 1] [0, w.toNat, l.toNat, 0, m.toNat, 8, a.toNat, d.toNat, 70, e.toNat] := by
    show word e 0x46000200 [put d 18, put a 12, put m 4, put l 2, put w 1] = _
    simp only [word, put, eBit_eq, pack]
    generalize w.toNat = v1; generalize l.toNat = v2; generalize m.toNat = v4; generalize a.toNat = v6; generalize d.toNat = v7; generalize e.toNat = v9; omega
  have hfit : Fits [1, 1, 1, 1, 2, 6, 6, 6, 7, 1] [0, w.toNat, l.toNat, 0, m.toNat, 8, a.toNat, d.toNat, 70, e.toNat] := ⟨by decide, w.isLt, l.isLt, by decide, m.isLt, by decide, a.isLt, d.isLt, by decide, e.toNat_lt, trivial⟩
  revert hwd hfit; generalize encode _ = wd; intro hw hfit
  have hwd := And.intro hw (show ([1, 1, 1, 1, 2, 6, 6, 6, 7, 1] : List Nat).length = ([0, w.toNat, l.toNat, 0, m.toNat, 8, a.toNat, d.toNat, 70, e.toNat] : List Nat).length from rfl)
  have h32 : wd % 2 ^ 32 = wd := pkw hwd hfit rfl
  have k0 : wd % 2 ^ 1 = 0 := pk0 hwd hfit rfl rfl
  have f1 : fld wd 1 1 = w := fld_eq (pk hwd hfit 1 rfl rfl rfl)
  have f2 : fld wd 2 1 = l := fld_eq (pk hwd hfit 2 rfl rfl rfl)
  have k3 : wd / 2 ^ 3 % 2 ^ 1 = 0 := pk hwd hfit 3 rfl rfl rfl
  have f4 : fld wd 4 2 = m := fld_eq (pk hwd hfit 4 rfl rfl rfl)
  have k5 : wd / 2 ^ 6 % 2 ^ 6 = 8 := pk hwd hfit 5 rfl rfl rfl
  have f6 : fld wd 12 6 = a := fld_eq (pk hwd hfit 6 rfl rfl rfl)
  have f7 : fld wd 18 6 = d := fld_eq (pk hwd hfit 7 rfl rfl rfl)
  have hm : wd / 2 ^ 24 % 2 ^ 7 = 70 := pk hwd hfit 8 rfl rfl rfl
  have he : bit wd 31 = e := bit_eq (pk hwd hfit 9 rfl rfl rfl)
  rw [short_46 hm, h32]
  simp only [decMajor46, k0, f1, f2, k3, f4, k5, f6, f7, he, and_self, ite_true, ite_false, reduceIte]

theorem RoundTrip.vfround (e : Bool) (d a : BitVec 6) (m : BitVec 2) (l w : BitVec 1) : RoundTrip.Statement (.vfround e d a m l w) := by
  intro _ _
  have hwd : encode (.vfround e d a m l w) = pack [1, 1, 1, 1, 2, 6, 6, 6, 7, 1] [0, w.toNat, l.toNat, 0, m.toNat, 9, a.toNat, d.toNat, 70, e.toNat] := by
    show word e 0x46000240 [put d 18, put a 12, put m 4, put l 2, put w 1] = _
    simp only [word, put, eBit_eq, pack]
    generalize w.toNat = v1; generalize l.toNat = v2; generalize m.toNat = v4; generalize a.toNat = v6; generalize d.toNat = v7; generalize e.toNat = v9; omega
  have hfit : Fits [1, 1, 1, 1, 2, 6, 6, 6, 7, 1] [0, w.toNat, l.toNat, 0, m.toNat, 9, a.toNat, d.toNat, 70, e.toNat] := ⟨by decide, w.isLt, l.isLt, by decide, m.isLt, by decide, a.isLt, d.isLt, by decide, e.toNat_lt, trivial⟩
  revert hwd hfit; generalize encode _ = wd; intro hw hfit
  have hwd := And.intro hw (show ([1, 1, 1, 1, 2, 6, 6, 6, 7, 1] : List Nat).length = ([0, w.toNat, l.toNat, 0, m.toNat, 9, a.toNat, d.toNat, 70, e.toNat] : List Nat).length from rfl)
  have h32 : wd % 2 ^ 32 = wd := pkw hwd hfit rfl
  have k0 : wd % 2 ^ 1 = 0 := pk0 hwd hfit rfl rfl
  have f1 : fld wd 1 1 = w := fld_eq (pk hwd hfit 1 rfl rfl rfl)
  have f2 : fld wd 2 1 = l := fld_eq (pk hwd hfit 2 rfl rfl rfl)
  have k3 : wd / 2 ^ 3 % 2 ^ 1 = 0 := pk hwd hfit 3 rfl rfl rfl
  have f4 : fld wd 4 2 = m := fld_eq (pk hwd hfit 4 rfl rfl rfl)
  have k5 : wd / 2 ^ 6 % 2 ^ 6 = 9 := pk hwd hfit 5 rfl rfl rfl
  have f6 : fld wd 12 6 = a := fld_eq (pk hwd hfit 6 rfl rfl rfl)
  have f7 : fld wd 18 6 = d := fld_eq (pk hwd hfit 7 rfl rfl rfl)
  have hm : wd / 2 ^ 24 % 2 ^ 7 = 70 := pk hwd hfit 8 rfl rfl rfl
  have he : bit wd 31 = e := bit_eq (pk hwd hfit 9 rfl rfl rfl)
  rw [short_46 hm, h32]
  simp only [decMajor46, k0, f1, f2, k3, f4, k5, f6, f7, he, and_self, ite_true, ite_false, reduceIte]

theorem RoundTrip.vfroundRne (e : Bool) (d a : BitVec 6) (m : BitVec 2) (l w : BitVec 1) : RoundTrip.Statement (.vfroundRne e d a m l w) := by
  intro _ _
  have hwd : encode (.vfroundRne e d a m l w) = pack [1, 1, 1, 1, 2, 6, 6, 6, 7, 1] [0, w.toNat, l.toNat, 0, m.toNat, 10, a.toNat, d.toNat, 70, e.toNat] := by
    show word e 0x46000280 [put d 18, put a 12, put m 4, put l 2, put w 1] = _
    simp only [word, put, eBit_eq, pack]
    generalize w.toNat = v1; generalize l.toNat = v2; generalize m.toNat = v4; generalize a.toNat = v6; generalize d.toNat = v7; generalize e.toNat = v9; omega
  have hfit : Fits [1, 1, 1, 1, 2, 6, 6, 6, 7, 1] [0, w.toNat, l.toNat, 0, m.toNat, 10, a.toNat, d.toNat, 70, e.toNat] := ⟨by decide, w.isLt, l.isLt, by decide, m.isLt, by decide, a.isLt, d.isLt, by decide, e.toNat_lt, trivial⟩
  revert hwd hfit; generalize encode _ = wd; intro hw hfit
  have hwd := And.intro hw (show ([1, 1, 1, 1, 2, 6, 6, 6, 7, 1] : List Nat).length = ([0, w.toNat, l.toNat, 0, m.toNat, 10, a.toNat, d.toNat, 70, e.toNat] : List Nat).length from rfl)
  have h32 : wd % 2 ^ 32 = wd := pkw hwd hfit rfl
  have k0 : wd % 2 ^ 1 = 0 := pk0 hwd hfit rfl rfl
  have f1 : fld wd 1 1 = w := fld_eq (pk hwd hfit 1 rfl rfl rfl)
  have f2 : fld wd 2 1 = l := fld_eq (pk hwd hfit 2 rfl rfl rfl)
  have k3 : wd / 2 ^ 3 % 2 ^ 1 = 0 := pk hwd hfit 3 rfl rfl rfl
  have f4 : fld wd 4 2 = m := fld_eq (pk hwd hfit 4 rfl rfl rfl)
  have k5 : wd / 2 ^ 6 % 2 ^ 6 = 10 := pk hwd hfit 5 rfl rfl rfl
  have f6 : fld wd 12 6 = a := fld_eq (pk hwd hfit 6 rfl rfl rfl)
  have f7 : fld wd 18 6 = d := fld_eq (pk hwd hfit 7 rfl rfl rfl)
  have hm : wd / 2 ^ 24 % 2 ^ 7 = 70 := pk hwd hfit 8 rfl rfl rfl
  have he : bit wd 31 = e := bit_eq (pk hwd hfit 9 rfl rfl rfl)
  rw [short_46 hm, h32]
  simp only [decMajor46, k0, f1, f2, k3, f4, k5, f6, f7, he, and_self, ite_true, ite_false, reduceIte]

theorem RoundTrip.vfroundRtz (e : Bool) (d a : BitVec 6) (m : BitVec 2) (l w : BitVec 1) : RoundTrip.Statement (.vfroundRtz e d a m l w) := by
  intro _ _
  have hwd : encode (.vfroundRtz e d a m l w) = pack [1, 1, 1, 1, 2, 6, 6, 6, 7, 1] [0, w.toNat, l.toNat, 0, m.toNat, 11, a.toNat, d.toNat, 70, e.toNat] := by
    show word e 0x460002C0 [put d 18, put a 12, put m 4, put l 2, put w 1] = _
    simp only [word, put, eBit_eq, pack]
    generalize w.toNat = v1; generalize l.toNat = v2; generalize m.toNat = v4; generalize a.toNat = v6; generalize d.toNat = v7; generalize e.toNat = v9; omega
  have hfit : Fits [1, 1, 1, 1, 2, 6, 6, 6, 7, 1] [0, w.toNat, l.toNat, 0, m.toNat, 11, a.toNat, d.toNat, 70, e.toNat] := ⟨by decide, w.isLt, l.isLt, by decide, m.isLt, by decide, a.isLt, d.isLt, by decide, e.toNat_lt, trivial⟩
  revert hwd hfit; generalize encode _ = wd; intro hw hfit
  have hwd := And.intro hw (show ([1, 1, 1, 1, 2, 6, 6, 6, 7, 1] : List Nat).length = ([0, w.toNat, l.toNat, 0, m.toNat, 11, a.toNat, d.toNat, 70, e.toNat] : List Nat).length from rfl)
  have h32 : wd % 2 ^ 32 = wd := pkw hwd hfit rfl
  have k0 : wd % 2 ^ 1 = 0 := pk0 hwd hfit rfl rfl
  have f1 : fld wd 1 1 = w := fld_eq (pk hwd hfit 1 rfl rfl rfl)
  have f2 : fld wd 2 1 = l := fld_eq (pk hwd hfit 2 rfl rfl rfl)
  have k3 : wd / 2 ^ 3 % 2 ^ 1 = 0 := pk hwd hfit 3 rfl rfl rfl
  have f4 : fld wd 4 2 = m := fld_eq (pk hwd hfit 4 rfl rfl rfl)
  have k5 : wd / 2 ^ 6 % 2 ^ 6 = 11 := pk hwd hfit 5 rfl rfl rfl
  have f6 : fld wd 12 6 = a := fld_eq (pk hwd hfit 6 rfl rfl rfl)
  have f7 : fld wd 18 6 = d := fld_eq (pk hwd hfit 7 rfl rfl rfl)
  have hm : wd / 2 ^ 24 % 2 ^ 7 = 70 := pk hwd hfit 8 rfl rfl rfl
  have he : bit wd 31 = e := bit_eq (pk hwd hfit 9 rfl rfl rfl)
  rw [short_46 hm, h32]
  simp only [decMajor46, k0, f1, f2, k3, f4, k5, f6, f7, he, and_self, ite_true, ite_false, reduceIte]

theorem RoundTrip.vfroundRdn (e : Bool) (d a : BitVec 6) (m : BitVec 2) (l w : BitVec 1) : RoundTrip.Statement (.vfroundRdn e d a m l w) := by
  intro _ _
  have hwd : encode (.vfroundRdn e d a m l w) = pack [1, 1, 1, 1, 2, 6, 6, 6, 7, 1] [0, w.toNat, l.toNat, 0, m.toNat, 12, a.toNat, d.toNat, 70, e.toNat] := by
    show word e 0x46000300 [put d 18, put a 12, put m 4, put l 2, put w 1] = _
    simp only [word, put, eBit_eq, pack]
    generalize w.toNat = v1; generalize l.toNat = v2; generalize m.toNat = v4; generalize a.toNat = v6; generalize d.toNat = v7; generalize e.toNat = v9; omega
  have hfit : Fits [1, 1, 1, 1, 2, 6, 6, 6, 7, 1] [0, w.toNat, l.toNat, 0, m.toNat, 12, a.toNat, d.toNat, 70, e.toNat] := ⟨by decide, w.isLt, l.isLt, by decide, m.isLt, by decide, a.isLt, d.isLt, by decide, e.toNat_lt, trivial⟩
  revert hwd hfit; generalize encode _ = wd; intro hw hfit
  have hwd := And.intro hw (show ([1, 1, 1, 1, 2, 6, 6, 6, 7, 1] : List Nat).length = ([0, w.toNat, l.toNat, 0, m.toNat, 12, a.toNat, d.toNat, 70, e.toNat] : List Nat).length from rfl)
  have h32 : wd % 2 ^ 32 = wd := pkw hwd hfit rfl
  have k0 : wd % 2 ^ 1 = 0 := pk0 hwd hfit rfl rfl
  have f1 : fld wd 1 1 = w := fld_eq (pk hwd hfit 1 rfl rfl rfl)
  have f2 : fld wd 2 1 = l := fld_eq (pk hwd hfit 2 rfl rfl rfl)
  have k3 : wd / 2 ^ 3 % 2 ^ 1 = 0 := pk hwd hfit 3 rfl rfl rfl
  have f4 : fld wd 4 2 = m := fld_eq (pk hwd hfit 4 rfl rfl rfl)
  have k5 : wd / 2 ^ 6 % 2 ^ 6 = 12 := pk hwd hfit 5 rfl rfl rfl
  have f6 : fld wd 12 6 = a := fld_eq (pk hwd hfit 6 rfl rfl rfl)
  have f7 : fld wd 18 6 = d := fld_eq (pk hwd hfit 7 rfl rfl rfl)
  have hm : wd / 2 ^ 24 % 2 ^ 7 = 70 := pk hwd hfit 8 rfl rfl rfl
  have he : bit wd 31 = e := bit_eq (pk hwd hfit 9 rfl rfl rfl)
  rw [short_46 hm, h32]
  simp only [decMajor46, k0, f1, f2, k3, f4, k5, f6, f7, he, and_self, ite_true, ite_false, reduceIte]

theorem RoundTrip.vfroundRup (e : Bool) (d a : BitVec 6) (m : BitVec 2) (l w : BitVec 1) : RoundTrip.Statement (.vfroundRup e d a m l w) := by
  intro _ _
  have hwd : encode (.vfroundRup e d a m l w) = pack [1, 1, 1, 1, 2, 6, 6, 6, 7, 1] [0, w.toNat, l.toNat, 0, m.toNat, 13, a.toNat, d.toNat, 70, e.toNat] := by
    show word e 0x46000340 [put d 18, put a 12, put m 4, put l 2, put w 1] = _
    simp only [word, put, eBit_eq, pack]
    generalize w.toNat = v1; generalize l.toNat = v2; generalize m.toNat = v4; generalize a.toNat = v6; generalize d.toNat = v7; generalize e.toNat = v9; omega
  have hfit : Fits [1, 1, 1, 1, 2, 6, 6, 6, 7, 1] [0, w.toNat, l.toNat, 0, m.toNat, 13, a.toNat, d.toNat, 70, e.toNat] := ⟨by decide, w.isLt, l.isLt, by decide, m.isLt, by decide, a.isLt, d.isLt, by decide, e.toNat_lt, trivial⟩
  revert hwd hfit; generalize encode _ = wd; intro hw hfit
  have hwd := And.intro hw (show ([1, 1, 1, 1, 2, 6, 6, 6, 7, 1] : List Nat).length = ([0, w.toNat, l.toNat, 0, m.toNat, 13, a.toNat, d.toNat, 70, e.toNat] : List Nat).length from rfl)
  have h32 : wd % 2 ^ 32 = wd := pkw hwd hfit rfl
  have k0 : wd % 2 ^ 1 = 0 := pk0 hwd hfit rfl rfl
  have f1 : fld wd 1 1 = w := fld_eq (pk hwd hfit 1 rfl rfl rfl)
  have f2 : fld wd 2 1 = l := fld_eq (pk hwd hfit 2 rfl rfl rfl)
  have k3 : wd / 2 ^ 3 % 2 ^ 1 = 0 := pk hwd hfit 3 rfl rfl rfl
  have f4 : fld wd 4 2 = m := fld_eq (pk hwd hfit 4 rfl rfl rfl)
  have k5 : wd / 2 ^ 6 % 2 ^ 6 = 13 := pk hwd hfit 5 rfl rfl rfl
  have f6 : fld wd 12 6 = a := fld_eq (pk hwd hfit 6 rfl rfl rfl)
  have f7 : fld wd 18 6 = d := fld_eq (pk hwd hfit 7 rfl rfl rfl)
  have hm : wd / 2 ^ 24 % 2 ^ 7 = 70 := pk hwd hfit 8 rfl rfl rfl
  have he : bit wd 31 = e := bit_eq (pk hwd hfit 9 rfl rfl rfl)
  rw [short_46 hm, h32]
  simp only [decMajor46, k0, f1, f2, k3, f4, k5, f6, f7, he, and_self, ite_true, ite_false, reduceIte]

theorem RoundTrip.vfscaleb (e : Bool) (d a b : BitVec 6) (m l : BitVec 2) (w : BitVec 1) : RoundTrip.Statement (.vfscaleb e d a b m l w) := by
  intro _ _
  have hwd : encode (.vfscaleb e d a b m l w) = pack [1, 1, 2, 2, 6, 6, 6, 7, 1] [0, w.toNat, l.toNat, m.toNat, b.toNat, a.toNat, d.toNat, 71, e.toNat] := by
    show word e 0x47000000 [put d 18, put a 12, put b 6, put m 4, put l 2, put w 1] = _
    simp only [word, put, eBit_eq, pack]
    generalize w.toNat = v1; generalize l.toNat = v2; generalize m.toNat = v3; generalize b.toNat = v4; generalize a.toNat = v5; generalize d.toNat = v6; generalize e.toNat = v8; omega
  have hfit : Fits [1, 1, 2, 2, 6, 6, 6, 7, 1] [0, w.toNat, l.toNat, m.toNat, b.toNat, a.toNat, d.toNat, 71, e.toNat] := ⟨by decide, w.isLt, l.isLt, m.isLt, b.isLt, a.isLt, d.isLt, by decide, e.toNat_lt, trivial⟩
  revert hwd hfit; generalize encode _ = wd; intro hw hfit
  have hwd := And.intro hw (show ([1, 1, 2, 2, 6, 6, 6, 7, 1] : List Nat).length = ([0, w.toNat, l.toNat, m.toNat, b.toNat, a.toNat, d.toNat, 71, e.toNat] : List Nat).length from rfl)
  have h32 : wd % 2 ^ 32 = wd := pkw hwd hfit rfl
  have k0 : wd % 2 ^ 1 = 0 := pk0 hwd hfit rfl rfl
  have f1 : fld wd 1 1 = w := fld_eq (pk hwd hfit 1 rfl rfl rfl)
  have f2 : fld wd 2 2 = l := fld_eq (pk hwd hfit 2 rfl rfl rfl)
  have f3 : fld wd 4 2 = m := fld_eq (pk hwd hfit 3 rfl rfl rfl)
  have f4 : fld wd 6 6 = b := fld_eq (pk hwd hfit 4 rfl rfl rfl)
  have f5 : fld wd 12 6 = a := fld_eq (pk hwd hfit 5 rfl rfl rfl)
  have f6 : fld wd 18 6 = d := fld_eq (pk hwd hfit 6 rfl rfl rfl)
  have hm : wd / 2 ^ 24 % 2 ^ 7 = 71 := pk hwd hfit 7 rfl rfl rfl
  have he : bit wd 31 = e := bit_eq (pk hwd hfit 8 rfl rfl rfl)
  rw [short_47 hm, h32]
  simp only [decMajor47, k0, f1, f2, f3, f4, f5, f6, he, and_self, ite_true, ite_false, reduceIte]

theorem RoundTrip.vfsgnj (e : Bool) (d a b : BitVec 6) (m l : BitVec 2) (w : BitVec 1) : RoundTrip.Statement (.vfsgnj e d a b m l w) := by
  intro _ _
  have hwd : encode (.vfsgnj e d a b m l w) = pack [1, 1, 2, 2, 6, 6, 6, 7, 1] [1, w.toNat, l.toNat, m.toNat, b.toNat, a.toNat, d.toNat, 71, e.toNat] := by
    show word e 0x47000001 [put d 18, put a 12, put b 6, put m 4, put l 2, put w 1] = _
    simp only [word, put, eBit_eq, pack]
    generalize w.toNat = v1; generalize l.toNat = v2; generalize m.toNat = v3; generalize b.toNat = v4; generalize a.toNat = v5; generalize d.toNat = v6; generalize e.toNat = v8; omega
  have hfit : Fits [1, 1, 2, 2, 6, 6, 6, 7, 1] [1, w.toNat, l.toNat, m.toNat, b.toNat, a.toNat, d.toNat, 71, e.toNat] := ⟨by decide, w.isLt, l.isLt, m.isLt, b.isLt, a.isLt, d.isLt, by decide, e.toNat_lt, trivial⟩
  revert hwd hfit; generalize encode _ = wd; intro hw hfit
  have hwd := And.intro hw (show ([1, 1, 2, 2, 6, 6, 6, 7, 1] : List Nat).length = ([1, w.toNat, l.toNat, m.toNat, b.toNat, a.toNat, d.toNat, 71, e.toNat] : List Nat).length from rfl)
  have h32 : wd % 2 ^ 32 = wd := pkw hwd hfit rfl
  have k0 : wd % 2 ^ 1 = 1 := pk0 hwd hfit rfl rfl
  have f1 : fld wd 1 1 = w := fld_eq (pk hwd hfit 1 rfl rfl rfl)
  have f2 : fld wd 2 2 = l := fld_eq (pk hwd hfit 2 rfl rfl rfl)
  have f3 : fld wd 4 2 = m := fld_eq (pk hwd hfit 3 rfl rfl rfl)
  have f4 : fld wd 6 6 = b := fld_eq (pk hwd hfit 4 rfl rfl rfl)
  have f5 : fld wd 12 6 = a := fld_eq (pk hwd hfit 5 rfl rfl rfl)
  have f6 : fld wd 18 6 = d := fld_eq (pk hwd hfit 6 rfl rfl rfl)
  have hm : wd / 2 ^ 24 % 2 ^ 7 = 71 := pk hwd hfit 7 rfl rfl rfl
  have he : bit wd 31 = e := bit_eq (pk hwd hfit 8 rfl rfl rfl)
  rw [short_47 hm, h32]
  simp only [decMajor47, k0, f1, f2, f3, f4, f5, f6, he, and_self, ite_true, ite_false, reduceIte]

theorem RoundTrip.vfcvt (e : Bool) (d a : BitVec 6) (x y : BitVec 3) (m : BitVec 2) (l w : BitVec 1) : RoundTrip.Statement (.vfcvt e d a x y m l w) := by
  intro _ _
  have hwd : encode (.vfcvt e d a x y m l w) = pack [1, 1, 1, 1, 2, 3, 3, 6, 6, 7, 1] [0, w.toNat, l.toNat, 0, m.toNat, y.toNat, x.toNat, a.toNat, d.toNat, 72, e.toNat] := by
    show word e 0x48000000 [put d 18, put a 12, put x 9, put y 6, put m 4, put l 2, put w 1] = _
    simp only [word, put, eBit_eq, pack]
    generalize w.toNat = v1; generalize l.toNat = v2; generalize m.toNat = v4; generalize y.toNat = v5; generalize x.toNat = v6; generalize a.toNat = v7; generalize d.toNat = v8; generalize e.toNat = v10; omega
  have hfit : Fits [1, 1, 1, 1, 2, 3, 3, 6, 6, 7, 1] [0, w.toNat, l.toNat, 0, m.toNat, y.toNat, x.toNat, a.toNat, d.toNat, 72, e.toNat] := ⟨by decide, w.isLt, l.isLt, by decide, m.isLt, y.isLt, x.isLt, a.isLt, d.isLt, by decide, e.toNat_lt, trivial⟩
  revert hwd hfit; generalize encode _ = wd; intro hw hfit
  have hwd := And.intro hw (show ([1, 1, 1, 1, 2, 3, 3, 6, 6, 7, 1] : List Nat).length = ([0, w.toNat, l.toNat, 0, m.toNat, y.toNat, x.toNat, a.toNat, d.toNat, 72, e.toNat] : List Nat).length from rfl)
  have h32 : wd % 2 ^ 32 = wd := pkw hwd hfit rfl
  have k0 : wd % 2 ^ 1 = 0 := pk0 hwd hfit rfl rfl
  have f1 : fld wd 1 1 = w := fld_eq (pk hwd hfit 1 rfl rfl rfl)
  have f2 : fld wd 2 1 = l := fld_eq (pk hwd hfit 2 rfl rfl rfl)
  have k3 : wd / 2 ^ 3 % 2 ^ 1 = 0 := pk hwd hfit 3 rfl rfl rfl
  have f4 : fld wd 4 2 = m := fld_eq (pk hwd hfit 4 rfl rfl rfl)
  have f5 : fld wd 6 3 = y := fld_eq (pk hwd hfit 5 rfl rfl rfl)
  have f6 : fld wd 9 3 = x := fld_eq (pk hwd hfit 6 rfl rfl rfl)
  have f7 : fld wd 12 6 = a := fld_eq (pk hwd hfit 7 rfl rfl rfl)
  have f8 : fld wd 18 6 = d := fld_eq (pk hwd hfit 8 rfl rfl rfl)
  have hm : wd / 2 ^ 24 % 2 ^ 7 = 72 := pk hwd hfit 9 rfl rfl rfl
  have he : bit wd 31 = e := bit_eq (pk hwd hfit 10 rfl rfl rfl)
  rw [short_48 hm, h32]
  simp only [decMajor48, k0, f1, f2, k3, f4, f5, f6, f7, f8, he, and_self, ite_true, ite_false, reduceIte]

theorem RoundTrip.pand (e : Bool) (d a b : BitVec 4) (m : BitVec 2) : RoundTrip.Statement (.pand e d a b m) := by
  intro _ _
  have hwd : encode (.pand e d a b m) = pack [4, 2, 4, 2, 4, 2, 4, 2, 7, 1] [0, m.toNat, b.toNat, 0, a.toNat, 0, d.toNat, 0, 73, e.toNat] := by
    show word e 0x49000000 [put d 18, put a 12, put b 6, put m 4] = _
    simp only [word, put, eBit_eq, pack]
    generalize m.toNat = v1; generalize b.toNat = v2; generalize a.toNat = v4; generalize d.toNat = v6; generalize e.toNat = v9; omega
  have hfit : Fits [4, 2, 4, 2, 4, 2, 4, 2, 7, 1] [0, m.toNat, b.toNat, 0, a.toNat, 0, d.toNat, 0, 73, e.toNat] := ⟨by decide, m.isLt, b.isLt, by decide, a.isLt, by decide, d.isLt, by decide, by decide, e.toNat_lt, trivial⟩
  revert hwd hfit; generalize encode _ = wd; intro hw hfit
  have hwd := And.intro hw (show ([4, 2, 4, 2, 4, 2, 4, 2, 7, 1] : List Nat).length = ([0, m.toNat, b.toNat, 0, a.toNat, 0, d.toNat, 0, 73, e.toNat] : List Nat).length from rfl)
  have h32 : wd % 2 ^ 32 = wd := pkw hwd hfit rfl
  have k0 : wd % 2 ^ 4 = 0 := pk0 hwd hfit rfl rfl
  have f1 : fld wd 4 2 = m := fld_eq (pk hwd hfit 1 rfl rfl rfl)
  have f2 : fld wd 6 4 = b := fld_eq (pk hwd hfit 2 rfl rfl rfl)
  have k3 : wd / 2 ^ 10 % 2 ^ 2 = 0 := pk hwd hfit 3 rfl rfl rfl
  have f4 : fld wd 12 4 = a := fld_eq (pk hwd hfit 4 rfl rfl rfl)
  have k5 : wd / 2 ^ 16 % 2 ^ 2 = 0 := pk hwd hfit 5 rfl rfl rfl
  have f6 : fld wd 18 4 = d := fld_eq (pk hwd hfit 6 rfl rfl rfl)
  have k7 : wd / 2 ^ 22 % 2 ^ 2 = 0 := pk hwd hfit 7 rfl rfl rfl
  have hm : wd / 2 ^ 24 % 2 ^ 7 = 73 := pk hwd hfit 8 rfl rfl rfl
  have he : bit wd 31 = e := bit_eq (pk hwd hfit 9 rfl rfl rfl)
  rw [short_49 hm, h32]
  simp only [decMajor49, k0, f1, f2, k3, f4, k5, f6, k7, he, and_self, ite_true, ite_false, reduceIte]

theorem RoundTrip.por (e : Bool) (d a b : BitVec 4) (m : BitVec 2) : RoundTrip.Statement (.por e d a b m) := by
  intro _ _
  have hwd : encode (.por e d a b m) = pack [4, 2, 4, 2, 4, 2, 4, 2, 7, 1] [1, m.toNat, b.toNat, 0, a.toNat, 0, d.toNat, 0, 73, e.toNat] := by
    show word e 0x49000001 [put d 18, put a 12, put b 6, put m 4] = _
    simp only [word, put, eBit_eq, pack]
    generalize m.toNat = v1; generalize b.toNat = v2; generalize a.toNat = v4; generalize d.toNat = v6; generalize e.toNat = v9; omega
  have hfit : Fits [4, 2, 4, 2, 4, 2, 4, 2, 7, 1] [1, m.toNat, b.toNat, 0, a.toNat, 0, d.toNat, 0, 73, e.toNat] := ⟨by decide, m.isLt, b.isLt, by decide, a.isLt, by decide, d.isLt, by decide, by decide, e.toNat_lt, trivial⟩
  revert hwd hfit; generalize encode _ = wd; intro hw hfit
  have hwd := And.intro hw (show ([4, 2, 4, 2, 4, 2, 4, 2, 7, 1] : List Nat).length = ([1, m.toNat, b.toNat, 0, a.toNat, 0, d.toNat, 0, 73, e.toNat] : List Nat).length from rfl)
  have h32 : wd % 2 ^ 32 = wd := pkw hwd hfit rfl
  have k0 : wd % 2 ^ 4 = 1 := pk0 hwd hfit rfl rfl
  have f1 : fld wd 4 2 = m := fld_eq (pk hwd hfit 1 rfl rfl rfl)
  have f2 : fld wd 6 4 = b := fld_eq (pk hwd hfit 2 rfl rfl rfl)
  have k3 : wd / 2 ^ 10 % 2 ^ 2 = 0 := pk hwd hfit 3 rfl rfl rfl
  have f4 : fld wd 12 4 = a := fld_eq (pk hwd hfit 4 rfl rfl rfl)
  have k5 : wd / 2 ^ 16 % 2 ^ 2 = 0 := pk hwd hfit 5 rfl rfl rfl
  have f6 : fld wd 18 4 = d := fld_eq (pk hwd hfit 6 rfl rfl rfl)
  have k7 : wd / 2 ^ 22 % 2 ^ 2 = 0 := pk hwd hfit 7 rfl rfl rfl
  have hm : wd / 2 ^ 24 % 2 ^ 7 = 73 := pk hwd hfit 8 rfl rfl rfl
  have he : bit wd 31 = e := bit_eq (pk hwd hfit 9 rfl rfl rfl)
  rw [short_49 hm, h32]
  simp only [decMajor49, k0, f1, f2, k3, f4, k5, f6, k7, he, and_self, ite_true, ite_false, reduceIte]

theorem RoundTrip.pxor (e : Bool) (d a b : BitVec 4) (m : BitVec 2) : RoundTrip.Statement (.pxor e d a b m) := by
  intro _ _
  have hwd : encode (.pxor e d a b m) = pack [4, 2, 4, 2, 4, 2, 4, 2, 7, 1] [2, m.toNat, b.toNat, 0, a.toNat, 0, d.toNat, 0, 73, e.toNat] := by
    show word e 0x49000002 [put d 18, put a 12, put b 6, put m 4] = _
    simp only [word, put, eBit_eq, pack]
    generalize m.toNat = v1; generalize b.toNat = v2; generalize a.toNat = v4; generalize d.toNat = v6; generalize e.toNat = v9; omega
  have hfit : Fits [4, 2, 4, 2, 4, 2, 4, 2, 7, 1] [2, m.toNat, b.toNat, 0, a.toNat, 0, d.toNat, 0, 73, e.toNat] := ⟨by decide, m.isLt, b.isLt, by decide, a.isLt, by decide, d.isLt, by decide, by decide, e.toNat_lt, trivial⟩
  revert hwd hfit; generalize encode _ = wd; intro hw hfit
  have hwd := And.intro hw (show ([4, 2, 4, 2, 4, 2, 4, 2, 7, 1] : List Nat).length = ([2, m.toNat, b.toNat, 0, a.toNat, 0, d.toNat, 0, 73, e.toNat] : List Nat).length from rfl)
  have h32 : wd % 2 ^ 32 = wd := pkw hwd hfit rfl
  have k0 : wd % 2 ^ 4 = 2 := pk0 hwd hfit rfl rfl
  have f1 : fld wd 4 2 = m := fld_eq (pk hwd hfit 1 rfl rfl rfl)
  have f2 : fld wd 6 4 = b := fld_eq (pk hwd hfit 2 rfl rfl rfl)
  have k3 : wd / 2 ^ 10 % 2 ^ 2 = 0 := pk hwd hfit 3 rfl rfl rfl
  have f4 : fld wd 12 4 = a := fld_eq (pk hwd hfit 4 rfl rfl rfl)
  have k5 : wd / 2 ^ 16 % 2 ^ 2 = 0 := pk hwd hfit 5 rfl rfl rfl
  have f6 : fld wd 18 4 = d := fld_eq (pk hwd hfit 6 rfl rfl rfl)
  have k7 : wd / 2 ^ 22 % 2 ^ 2 = 0 := pk hwd hfit 7 rfl rfl rfl
  have hm : wd / 2 ^ 24 % 2 ^ 7 = 73 := pk hwd hfit 8 rfl rfl rfl
  have he : bit wd 31 = e := bit_eq (pk hwd hfit 9 rfl rfl rfl)
  rw [short_49 hm, h32]
  simp only [decMajor49, k0, f1, f2, k3, f4, k5, f6, k7, he, and_self, ite_true, ite_false, reduceIte]

theorem RoundTrip.pandn (e : Bool) (d a b : BitVec 4) (m : BitVec 2) : RoundTrip.Statement (.pandn e d a b m) := by
  intro _ _
  have hwd : encode (.pandn e d a b m) = pack [4, 2, 4, 2, 4, 2, 4, 2, 7, 1] [3, m.toNat, b.toNat, 0, a.toNat, 0, d.toNat, 0, 73, e.toNat] := by
    show word e 0x49000003 [put d 18, put a 12, put b 6, put m 4] = _
    simp only [word, put, eBit_eq, pack]
    generalize m.toNat = v1; generalize b.toNat = v2; generalize a.toNat = v4; generalize d.toNat = v6; generalize e.toNat = v9; omega
  have hfit : Fits [4, 2, 4, 2, 4, 2, 4, 2, 7, 1] [3, m.toNat, b.toNat, 0, a.toNat, 0, d.toNat, 0, 73, e.toNat] := ⟨by decide, m.isLt, b.isLt, by decide, a.isLt, by decide, d.isLt, by decide, by decide, e.toNat_lt, trivial⟩
  revert hwd hfit; generalize encode _ = wd; intro hw hfit
  have hwd := And.intro hw (show ([4, 2, 4, 2, 4, 2, 4, 2, 7, 1] : List Nat).length = ([3, m.toNat, b.toNat, 0, a.toNat, 0, d.toNat, 0, 73, e.toNat] : List Nat).length from rfl)
  have h32 : wd % 2 ^ 32 = wd := pkw hwd hfit rfl
  have k0 : wd % 2 ^ 4 = 3 := pk0 hwd hfit rfl rfl
  have f1 : fld wd 4 2 = m := fld_eq (pk hwd hfit 1 rfl rfl rfl)
  have f2 : fld wd 6 4 = b := fld_eq (pk hwd hfit 2 rfl rfl rfl)
  have k3 : wd / 2 ^ 10 % 2 ^ 2 = 0 := pk hwd hfit 3 rfl rfl rfl
  have f4 : fld wd 12 4 = a := fld_eq (pk hwd hfit 4 rfl rfl rfl)
  have k5 : wd / 2 ^ 16 % 2 ^ 2 = 0 := pk hwd hfit 5 rfl rfl rfl
  have f6 : fld wd 18 4 = d := fld_eq (pk hwd hfit 6 rfl rfl rfl)
  have k7 : wd / 2 ^ 22 % 2 ^ 2 = 0 := pk hwd hfit 7 rfl rfl rfl
  have hm : wd / 2 ^ 24 % 2 ^ 7 = 73 := pk hwd hfit 8 rfl rfl rfl
  have he : bit wd 31 = e := bit_eq (pk hwd hfit 9 rfl rfl rfl)
  rw [short_49 hm, h32]
  simp only [decMajor49, k0, f1, f2, k3, f4, k5, f6, k7, he, and_self, ite_true, ite_false, reduceIte]

theorem RoundTrip.pnot (e : Bool) (d a : BitVec 4) (m : BitVec 2) : RoundTrip.Statement (.pnot e d a m) := by
  intro _ _
  have hwd : encode (.pnot e d a m) = pack [4, 2, 6, 4, 2, 4, 2, 7, 1] [4, m.toNat, 0, a.toNat, 0, d.toNat, 0, 73, e.toNat] := by
    show word e 0x49000004 [put d 18, put a 12, put m 4] = _
    simp only [word, put, eBit_eq, pack]
    generalize m.toNat = v1; generalize a.toNat = v3; generalize d.toNat = v5; generalize e.toNat = v8; omega
  have hfit : Fits [4, 2, 6, 4, 2, 4, 2, 7, 1] [4, m.toNat, 0, a.toNat, 0, d.toNat, 0, 73, e.toNat] := ⟨by decide, m.isLt, by decide, a.isLt, by decide, d.isLt, by decide, by decide, e.toNat_lt, trivial⟩
  revert hwd hfit; generalize encode _ = wd; intro hw hfit
  have hwd := And.intro hw (show ([4, 2, 6, 4, 2, 4, 2, 7, 1] : List Nat).length = ([4, m.toNat, 0, a.toNat, 0, d.toNat, 0, 73, e.toNat] : List Nat).length from rfl)
  have h32 : wd % 2 ^ 32 = wd := pkw hwd hfit rfl
  have k0 : wd % 2 ^ 4 = 4 := pk0 hwd hfit rfl rfl
  have f1 : fld wd 4 2 = m := fld_eq (pk hwd hfit 1 rfl rfl rfl)
  have k2 : wd / 2 ^ 6 % 2 ^ 6 = 0 := pk hwd hfit 2 rfl rfl rfl
  have f3 : fld wd 12 4 = a := fld_eq (pk hwd hfit 3 rfl rfl rfl)
  have k4 : wd / 2 ^ 16 % 2 ^ 2 = 0 := pk hwd hfit 4 rfl rfl rfl
  have f5 : fld wd 18 4 = d := fld_eq (pk hwd hfit 5 rfl rfl rfl)
  have k6 : wd / 2 ^ 22 % 2 ^ 2 = 0 := pk hwd hfit 6 rfl rfl rfl
  have hm : wd / 2 ^ 24 % 2 ^ 7 = 73 := pk hwd hfit 7 rfl rfl rfl
  have he : bit wd 31 = e := bit_eq (pk hwd hfit 8 rfl rfl rfl)
  rw [short_49 hm, h32]
  simp only [decMajor49, k0, f1, k2, f3, k4, f5, k6, he, and_self, ite_true, ite_false, reduceIte]

theorem RoundTrip.pmov (e : Bool) (d a : BitVec 4) (m : BitVec 2) : RoundTrip.Statement (.pmov e d a m) := by
  intro _ _
  have hwd : encode (.pmov e d a m) = pack [4, 2, 6, 4, 2, 4, 2, 7, 1] [5, m.toNat, 0, a.toNat, 0, d.toNat, 0, 73, e.toNat] := by
    show word e 0x49000005 [put d 18, put a 12, put m 4] = _
    simp only [word, put, eBit_eq, pack]
    generalize m.toNat = v1; generalize a.toNat = v3; generalize d.toNat = v5; generalize e.toNat = v8; omega
  have hfit : Fits [4, 2, 6, 4, 2, 4, 2, 7, 1] [5, m.toNat, 0, a.toNat, 0, d.toNat, 0, 73, e.toNat] := ⟨by decide, m.isLt, by decide, a.isLt, by decide, d.isLt, by decide, by decide, e.toNat_lt, trivial⟩
  revert hwd hfit; generalize encode _ = wd; intro hw hfit
  have hwd := And.intro hw (show ([4, 2, 6, 4, 2, 4, 2, 7, 1] : List Nat).length = ([5, m.toNat, 0, a.toNat, 0, d.toNat, 0, 73, e.toNat] : List Nat).length from rfl)
  have h32 : wd % 2 ^ 32 = wd := pkw hwd hfit rfl
  have k0 : wd % 2 ^ 4 = 5 := pk0 hwd hfit rfl rfl
  have f1 : fld wd 4 2 = m := fld_eq (pk hwd hfit 1 rfl rfl rfl)
  have k2 : wd / 2 ^ 6 % 2 ^ 6 = 0 := pk hwd hfit 2 rfl rfl rfl
  have f3 : fld wd 12 4 = a := fld_eq (pk hwd hfit 3 rfl rfl rfl)
  have k4 : wd / 2 ^ 16 % 2 ^ 2 = 0 := pk hwd hfit 4 rfl rfl rfl
  have f5 : fld wd 18 4 = d := fld_eq (pk hwd hfit 5 rfl rfl rfl)
  have k6 : wd / 2 ^ 22 % 2 ^ 2 = 0 := pk hwd hfit 6 rfl rfl rfl
  have hm : wd / 2 ^ 24 % 2 ^ 7 = 73 := pk hwd hfit 7 rfl rfl rfl
  have he : bit wd 31 = e := bit_eq (pk hwd hfit 8 rfl rfl rfl)
  rw [short_49 hm, h32]
  simp only [decMajor49, k0, f1, k2, f3, k4, f5, k6, he, and_self, ite_true, ite_false, reduceIte]

theorem RoundTrip.psbf (e : Bool) (d a : BitVec 4) (m : BitVec 2) : RoundTrip.Statement (.psbf e d a m) := by
  intro _ _
  have hwd : encode (.psbf e d a m) = pack [4, 2, 6, 4, 2, 4, 2, 7, 1] [0, m.toNat, 0, a.toNat, 0, d.toNat, 0, 74, e.toNat] := by
    show word e 0x4A000000 [put d 18, put a 12, put m 4] = _
    simp only [word, put, eBit_eq, pack]
    generalize m.toNat = v1; generalize a.toNat = v3; generalize d.toNat = v5; generalize e.toNat = v8; omega
  have hfit : Fits [4, 2, 6, 4, 2, 4, 2, 7, 1] [0, m.toNat, 0, a.toNat, 0, d.toNat, 0, 74, e.toNat] := ⟨by decide, m.isLt, by decide, a.isLt, by decide, d.isLt, by decide, by decide, e.toNat_lt, trivial⟩
  revert hwd hfit; generalize encode _ = wd; intro hw hfit
  have hwd := And.intro hw (show ([4, 2, 6, 4, 2, 4, 2, 7, 1] : List Nat).length = ([0, m.toNat, 0, a.toNat, 0, d.toNat, 0, 74, e.toNat] : List Nat).length from rfl)
  have h32 : wd % 2 ^ 32 = wd := pkw hwd hfit rfl
  have k0 : wd % 2 ^ 4 = 0 := pk0 hwd hfit rfl rfl
  have f1 : fld wd 4 2 = m := fld_eq (pk hwd hfit 1 rfl rfl rfl)
  have k2 : wd / 2 ^ 6 % 2 ^ 6 = 0 := pk hwd hfit 2 rfl rfl rfl
  have f3 : fld wd 12 4 = a := fld_eq (pk hwd hfit 3 rfl rfl rfl)
  have k4 : wd / 2 ^ 16 % 2 ^ 2 = 0 := pk hwd hfit 4 rfl rfl rfl
  have f5 : fld wd 18 4 = d := fld_eq (pk hwd hfit 5 rfl rfl rfl)
  have k6 : wd / 2 ^ 22 % 2 ^ 2 = 0 := pk hwd hfit 6 rfl rfl rfl
  have hm : wd / 2 ^ 24 % 2 ^ 7 = 74 := pk hwd hfit 7 rfl rfl rfl
  have he : bit wd 31 = e := bit_eq (pk hwd hfit 8 rfl rfl rfl)
  rw [short_4A hm, h32]
  simp only [decMajor4A, k0, f1, k2, f3, k4, f5, k6, he, and_self, ite_true, ite_false, reduceIte]

theorem RoundTrip.psif (e : Bool) (d a : BitVec 4) (m : BitVec 2) : RoundTrip.Statement (.psif e d a m) := by
  intro _ _
  have hwd : encode (.psif e d a m) = pack [4, 2, 6, 4, 2, 4, 2, 7, 1] [1, m.toNat, 0, a.toNat, 0, d.toNat, 0, 74, e.toNat] := by
    show word e 0x4A000001 [put d 18, put a 12, put m 4] = _
    simp only [word, put, eBit_eq, pack]
    generalize m.toNat = v1; generalize a.toNat = v3; generalize d.toNat = v5; generalize e.toNat = v8; omega
  have hfit : Fits [4, 2, 6, 4, 2, 4, 2, 7, 1] [1, m.toNat, 0, a.toNat, 0, d.toNat, 0, 74, e.toNat] := ⟨by decide, m.isLt, by decide, a.isLt, by decide, d.isLt, by decide, by decide, e.toNat_lt, trivial⟩
  revert hwd hfit; generalize encode _ = wd; intro hw hfit
  have hwd := And.intro hw (show ([4, 2, 6, 4, 2, 4, 2, 7, 1] : List Nat).length = ([1, m.toNat, 0, a.toNat, 0, d.toNat, 0, 74, e.toNat] : List Nat).length from rfl)
  have h32 : wd % 2 ^ 32 = wd := pkw hwd hfit rfl
  have k0 : wd % 2 ^ 4 = 1 := pk0 hwd hfit rfl rfl
  have f1 : fld wd 4 2 = m := fld_eq (pk hwd hfit 1 rfl rfl rfl)
  have k2 : wd / 2 ^ 6 % 2 ^ 6 = 0 := pk hwd hfit 2 rfl rfl rfl
  have f3 : fld wd 12 4 = a := fld_eq (pk hwd hfit 3 rfl rfl rfl)
  have k4 : wd / 2 ^ 16 % 2 ^ 2 = 0 := pk hwd hfit 4 rfl rfl rfl
  have f5 : fld wd 18 4 = d := fld_eq (pk hwd hfit 5 rfl rfl rfl)
  have k6 : wd / 2 ^ 22 % 2 ^ 2 = 0 := pk hwd hfit 6 rfl rfl rfl
  have hm : wd / 2 ^ 24 % 2 ^ 7 = 74 := pk hwd hfit 7 rfl rfl rfl
  have he : bit wd 31 = e := bit_eq (pk hwd hfit 8 rfl rfl rfl)
  rw [short_4A hm, h32]
  simp only [decMajor4A, k0, f1, k2, f3, k4, f5, k6, he, and_self, ite_true, ite_false, reduceIte]

theorem RoundTrip.psof (e : Bool) (d a : BitVec 4) (m : BitVec 2) : RoundTrip.Statement (.psof e d a m) := by
  intro _ _
  have hwd : encode (.psof e d a m) = pack [4, 2, 6, 4, 2, 4, 2, 7, 1] [2, m.toNat, 0, a.toNat, 0, d.toNat, 0, 74, e.toNat] := by
    show word e 0x4A000002 [put d 18, put a 12, put m 4] = _
    simp only [word, put, eBit_eq, pack]
    generalize m.toNat = v1; generalize a.toNat = v3; generalize d.toNat = v5; generalize e.toNat = v8; omega
  have hfit : Fits [4, 2, 6, 4, 2, 4, 2, 7, 1] [2, m.toNat, 0, a.toNat, 0, d.toNat, 0, 74, e.toNat] := ⟨by decide, m.isLt, by decide, a.isLt, by decide, d.isLt, by decide, by decide, e.toNat_lt, trivial⟩
  revert hwd hfit; generalize encode _ = wd; intro hw hfit
  have hwd := And.intro hw (show ([4, 2, 6, 4, 2, 4, 2, 7, 1] : List Nat).length = ([2, m.toNat, 0, a.toNat, 0, d.toNat, 0, 74, e.toNat] : List Nat).length from rfl)
  have h32 : wd % 2 ^ 32 = wd := pkw hwd hfit rfl
  have k0 : wd % 2 ^ 4 = 2 := pk0 hwd hfit rfl rfl
  have f1 : fld wd 4 2 = m := fld_eq (pk hwd hfit 1 rfl rfl rfl)
  have k2 : wd / 2 ^ 6 % 2 ^ 6 = 0 := pk hwd hfit 2 rfl rfl rfl
  have f3 : fld wd 12 4 = a := fld_eq (pk hwd hfit 3 rfl rfl rfl)
  have k4 : wd / 2 ^ 16 % 2 ^ 2 = 0 := pk hwd hfit 4 rfl rfl rfl
  have f5 : fld wd 18 4 = d := fld_eq (pk hwd hfit 5 rfl rfl rfl)
  have k6 : wd / 2 ^ 22 % 2 ^ 2 = 0 := pk hwd hfit 6 rfl rfl rfl
  have hm : wd / 2 ^ 24 % 2 ^ 7 = 74 := pk hwd hfit 7 rfl rfl rfl
  have he : bit wd 31 = e := bit_eq (pk hwd hfit 8 rfl rfl rfl)
  rw [short_4A hm, h32]
  simp only [decMajor4A, k0, f1, k2, f3, k4, f5, k6, he, and_self, ite_true, ite_false, reduceIte]

theorem RoundTrip.pfirst (e : Bool) (d : BitVec 6) (a : BitVec 4) (m : BitVec 2) : RoundTrip.Statement (.pfirst e d a m) := by
  intro _ _
  have hwd : encode (.pfirst e d a m) = pack [4, 2, 6, 4, 2, 6, 7, 1] [3, m.toNat, 0, a.toNat, 0, d.toNat, 74, e.toNat] := by
    show word e 0x4A000003 [put d 18, put a 12, put m 4] = _
    simp only [word, put, eBit_eq, pack]
    generalize m.toNat = v1; generalize a.toNat = v3; generalize d.toNat = v5; generalize e.toNat = v7; omega
  have hfit : Fits [4, 2, 6, 4, 2, 6, 7, 1] [3, m.toNat, 0, a.toNat, 0, d.toNat, 74, e.toNat] := ⟨by decide, m.isLt, by decide, a.isLt, by decide, d.isLt, by decide, e.toNat_lt, trivial⟩
  revert hwd hfit; generalize encode _ = wd; intro hw hfit
  have hwd := And.intro hw (show ([4, 2, 6, 4, 2, 6, 7, 1] : List Nat).length = ([3, m.toNat, 0, a.toNat, 0, d.toNat, 74, e.toNat] : List Nat).length from rfl)
  have h32 : wd % 2 ^ 32 = wd := pkw hwd hfit rfl
  have k0 : wd % 2 ^ 4 = 3 := pk0 hwd hfit rfl rfl
  have f1 : fld wd 4 2 = m := fld_eq (pk hwd hfit 1 rfl rfl rfl)
  have k2 : wd / 2 ^ 6 % 2 ^ 6 = 0 := pk hwd hfit 2 rfl rfl rfl
  have f3 : fld wd 12 4 = a := fld_eq (pk hwd hfit 3 rfl rfl rfl)
  have k4 : wd / 2 ^ 16 % 2 ^ 2 = 0 := pk hwd hfit 4 rfl rfl rfl
  have f5 : fld wd 18 6 = d := fld_eq (pk hwd hfit 5 rfl rfl rfl)
  have hm : wd / 2 ^ 24 % 2 ^ 7 = 74 := pk hwd hfit 6 rfl rfl rfl
  have he : bit wd 31 = e := bit_eq (pk hwd hfit 7 rfl rfl rfl)
  rw [short_4A hm, h32]
  simp only [decMajor4A, k0, f1, k2, f3, k4, f5, he, and_self, ite_true, ite_false, reduceIte]

theorem RoundTrip.ppopc (e : Bool) (d : BitVec 6) (a : BitVec 4) (m : BitVec 2) : RoundTrip.Statement (.ppopc e d a m) := by
  intro _ _
  have hwd : encode (.ppopc e d a m) = pack [4, 2, 6, 4, 2, 6, 7, 1] [4, m.toNat, 0, a.toNat, 0, d.toNat, 74, e.toNat] := by
    show word e 0x4A000004 [put d 18, put a 12, put m 4] = _
    simp only [word, put, eBit_eq, pack]
    generalize m.toNat = v1; generalize a.toNat = v3; generalize d.toNat = v5; generalize e.toNat = v7; omega
  have hfit : Fits [4, 2, 6, 4, 2, 6, 7, 1] [4, m.toNat, 0, a.toNat, 0, d.toNat, 74, e.toNat] := ⟨by decide, m.isLt, by decide, a.isLt, by decide, d.isLt, by decide, e.toNat_lt, trivial⟩
  revert hwd hfit; generalize encode _ = wd; intro hw hfit
  have hwd := And.intro hw (show ([4, 2, 6, 4, 2, 6, 7, 1] : List Nat).length = ([4, m.toNat, 0, a.toNat, 0, d.toNat, 74, e.toNat] : List Nat).length from rfl)
  have h32 : wd % 2 ^ 32 = wd := pkw hwd hfit rfl
  have k0 : wd % 2 ^ 4 = 4 := pk0 hwd hfit rfl rfl
  have f1 : fld wd 4 2 = m := fld_eq (pk hwd hfit 1 rfl rfl rfl)
  have k2 : wd / 2 ^ 6 % 2 ^ 6 = 0 := pk hwd hfit 2 rfl rfl rfl
  have f3 : fld wd 12 4 = a := fld_eq (pk hwd hfit 3 rfl rfl rfl)
  have k4 : wd / 2 ^ 16 % 2 ^ 2 = 0 := pk hwd hfit 4 rfl rfl rfl
  have f5 : fld wd 18 6 = d := fld_eq (pk hwd hfit 5 rfl rfl rfl)
  have hm : wd / 2 ^ 24 % 2 ^ 7 = 74 := pk hwd hfit 6 rfl rfl rfl
  have he : bit wd 31 = e := bit_eq (pk hwd hfit 7 rfl rfl rfl)
  rw [short_4A hm, h32]
  simp only [decMajor4A, k0, f1, k2, f3, k4, f5, he, and_self, ite_true, ite_false, reduceIte]

theorem RoundTrip.piota (e : Bool) (d : BitVec 6) (a : BitVec 4) (m : BitVec 2) : RoundTrip.Statement (.piota e d a m) := by
  intro _ _
  have hwd : encode (.piota e d a m) = pack [4, 2, 6, 4, 2, 6, 7, 1] [5, m.toNat, 0, a.toNat, 0, d.toNat, 74, e.toNat] := by
    show word e 0x4A000005 [put d 18, put a 12, put m 4] = _
    simp only [word, put, eBit_eq, pack]
    generalize m.toNat = v1; generalize a.toNat = v3; generalize d.toNat = v5; generalize e.toNat = v7; omega
  have hfit : Fits [4, 2, 6, 4, 2, 6, 7, 1] [5, m.toNat, 0, a.toNat, 0, d.toNat, 74, e.toNat] := ⟨by decide, m.isLt, by decide, a.isLt, by decide, d.isLt, by decide, e.toNat_lt, trivial⟩
  revert hwd hfit; generalize encode _ = wd; intro hw hfit
  have hwd := And.intro hw (show ([4, 2, 6, 4, 2, 6, 7, 1] : List Nat).length = ([5, m.toNat, 0, a.toNat, 0, d.toNat, 74, e.toNat] : List Nat).length from rfl)
  have h32 : wd % 2 ^ 32 = wd := pkw hwd hfit rfl
  have k0 : wd % 2 ^ 4 = 5 := pk0 hwd hfit rfl rfl
  have f1 : fld wd 4 2 = m := fld_eq (pk hwd hfit 1 rfl rfl rfl)
  have k2 : wd / 2 ^ 6 % 2 ^ 6 = 0 := pk hwd hfit 2 rfl rfl rfl
  have f3 : fld wd 12 4 = a := fld_eq (pk hwd hfit 3 rfl rfl rfl)
  have k4 : wd / 2 ^ 16 % 2 ^ 2 = 0 := pk hwd hfit 4 rfl rfl rfl
  have f5 : fld wd 18 6 = d := fld_eq (pk hwd hfit 5 rfl rfl rfl)
  have hm : wd / 2 ^ 24 % 2 ^ 7 = 74 := pk hwd hfit 6 rfl rfl rfl
  have he : bit wd 31 = e := bit_eq (pk hwd hfit 7 rfl rfl rfl)
  rw [short_4A hm, h32]
  simp only [decMajor4A, k0, f1, k2, f3, k4, f5, he, and_self, ite_true, ite_false, reduceIte]

theorem RoundTrip.vshfl (e : Bool) (d a b : BitVec 6) (m l : BitVec 2) : RoundTrip.Statement (.vshfl e d a b m l) := by
  intro _ _
  have hwd : encode (.vshfl e d a b m l) = pack [2, 2, 2, 6, 6, 6, 7, 1] [0, l.toNat, m.toNat, b.toNat, a.toNat, d.toNat, 75, e.toNat] := by
    show word e 0x4B000000 [put d 18, put a 12, put b 6, put m 4, put l 2] = _
    simp only [word, put, eBit_eq, pack]
    generalize l.toNat = v1; generalize m.toNat = v2; generalize b.toNat = v3; generalize a.toNat = v4; generalize d.toNat = v5; generalize e.toNat = v7; omega
  have hfit : Fits [2, 2, 2, 6, 6, 6, 7, 1] [0, l.toNat, m.toNat, b.toNat, a.toNat, d.toNat, 75, e.toNat] := ⟨by decide, l.isLt, m.isLt, b.isLt, a.isLt, d.isLt, by decide, e.toNat_lt, trivial⟩
  revert hwd hfit; generalize encode _ = wd; intro hw hfit
  have hwd := And.intro hw (show ([2, 2, 2, 6, 6, 6, 7, 1] : List Nat).length = ([0, l.toNat, m.toNat, b.toNat, a.toNat, d.toNat, 75, e.toNat] : List Nat).length from rfl)
  have h32 : wd % 2 ^ 32 = wd := pkw hwd hfit rfl
  have k0 : wd % 2 ^ 2 = 0 := pk0 hwd hfit rfl rfl
  have f1 : fld wd 2 2 = l := fld_eq (pk hwd hfit 1 rfl rfl rfl)
  have f2 : fld wd 4 2 = m := fld_eq (pk hwd hfit 2 rfl rfl rfl)
  have f3 : fld wd 6 6 = b := fld_eq (pk hwd hfit 3 rfl rfl rfl)
  have f4 : fld wd 12 6 = a := fld_eq (pk hwd hfit 4 rfl rfl rfl)
  have f5 : fld wd 18 6 = d := fld_eq (pk hwd hfit 5 rfl rfl rfl)
  have hm : wd / 2 ^ 24 % 2 ^ 7 = 75 := pk hwd hfit 6 rfl rfl rfl
  have he : bit wd 31 = e := bit_eq (pk hwd hfit 7 rfl rfl rfl)
  rw [short_4B hm, h32]
  simp only [decMajor4B, k0, f1, f2, f3, f4, f5, he, and_self, ite_true, ite_false, reduceIte]

theorem RoundTrip.vshflx (e : Bool) (d a b : BitVec 6) (m : BitVec 2) (l : BitVec 1) : RoundTrip.Statement (.vshflx e d a b m l) := by
  intro _ _
  have hwd : encode (.vshflx e d a b m l) = pack [2, 1, 1, 2, 6, 6, 6, 7, 1] [1, l.toNat, 0, m.toNat, b.toNat, a.toNat, d.toNat, 75, e.toNat] := by
    show word e 0x4B000001 [put d 18, put a 12, put b 6, put m 4, put l 2] = _
    simp only [word, put, eBit_eq, pack]
    generalize l.toNat = v1; generalize m.toNat = v3; generalize b.toNat = v4; generalize a.toNat = v5; generalize d.toNat = v6; generalize e.toNat = v8; omega
  have hfit : Fits [2, 1, 1, 2, 6, 6, 6, 7, 1] [1, l.toNat, 0, m.toNat, b.toNat, a.toNat, d.toNat, 75, e.toNat] := ⟨by decide, l.isLt, by decide, m.isLt, b.isLt, a.isLt, d.isLt, by decide, e.toNat_lt, trivial⟩
  revert hwd hfit; generalize encode _ = wd; intro hw hfit
  have hwd := And.intro hw (show ([2, 1, 1, 2, 6, 6, 6, 7, 1] : List Nat).length = ([1, l.toNat, 0, m.toNat, b.toNat, a.toNat, d.toNat, 75, e.toNat] : List Nat).length from rfl)
  have h32 : wd % 2 ^ 32 = wd := pkw hwd hfit rfl
  have k0 : wd % 2 ^ 2 = 1 := pk0 hwd hfit rfl rfl
  have f1 : fld wd 2 1 = l := fld_eq (pk hwd hfit 1 rfl rfl rfl)
  have k2 : wd / 2 ^ 3 % 2 ^ 1 = 0 := pk hwd hfit 2 rfl rfl rfl
  have f3 : fld wd 4 2 = m := fld_eq (pk hwd hfit 3 rfl rfl rfl)
  have f4 : fld wd 6 6 = b := fld_eq (pk hwd hfit 4 rfl rfl rfl)
  have f5 : fld wd 12 6 = a := fld_eq (pk hwd hfit 5 rfl rfl rfl)
  have f6 : fld wd 18 6 = d := fld_eq (pk hwd hfit 6 rfl rfl rfl)
  have hm : wd / 2 ^ 24 % 2 ^ 7 = 75 := pk hwd hfit 7 rfl rfl rfl
  have he : bit wd 31 = e := bit_eq (pk hwd hfit 8 rfl rfl rfl)
  rw [short_4B hm, h32]
  simp only [decMajor4B, k0, f1, k2, f3, f4, f5, f6, he, and_self, ite_true, ite_false, reduceIte]

theorem RoundTrip.vlup (e : Bool) (d a b : BitVec 6) (m : BitVec 2) (l : BitVec 1) : RoundTrip.Statement (.vlup e d a b m l) := by
  intro _ _
  have hwd : encode (.vlup e d a b m l) = pack [2, 1, 1, 2, 6, 6, 6, 7, 1] [2, l.toNat, 0, m.toNat, b.toNat, a.toNat, d.toNat, 75, e.toNat] := by
    show word e 0x4B000002 [put d 18, put a 12, put b 6, put m 4, put l 2] = _
    simp only [word, put, eBit_eq, pack]
    generalize l.toNat = v1; generalize m.toNat = v3; generalize b.toNat = v4; generalize a.toNat = v5; generalize d.toNat = v6; generalize e.toNat = v8; omega
  have hfit : Fits [2, 1, 1, 2, 6, 6, 6, 7, 1] [2, l.toNat, 0, m.toNat, b.toNat, a.toNat, d.toNat, 75, e.toNat] := ⟨by decide, l.isLt, by decide, m.isLt, b.isLt, a.isLt, d.isLt, by decide, e.toNat_lt, trivial⟩
  revert hwd hfit; generalize encode _ = wd; intro hw hfit
  have hwd := And.intro hw (show ([2, 1, 1, 2, 6, 6, 6, 7, 1] : List Nat).length = ([2, l.toNat, 0, m.toNat, b.toNat, a.toNat, d.toNat, 75, e.toNat] : List Nat).length from rfl)
  have h32 : wd % 2 ^ 32 = wd := pkw hwd hfit rfl
  have k0 : wd % 2 ^ 2 = 2 := pk0 hwd hfit rfl rfl
  have f1 : fld wd 2 1 = l := fld_eq (pk hwd hfit 1 rfl rfl rfl)
  have k2 : wd / 2 ^ 3 % 2 ^ 1 = 0 := pk hwd hfit 2 rfl rfl rfl
  have f3 : fld wd 4 2 = m := fld_eq (pk hwd hfit 3 rfl rfl rfl)
  have f4 : fld wd 6 6 = b := fld_eq (pk hwd hfit 4 rfl rfl rfl)
  have f5 : fld wd 12 6 = a := fld_eq (pk hwd hfit 5 rfl rfl rfl)
  have f6 : fld wd 18 6 = d := fld_eq (pk hwd hfit 6 rfl rfl rfl)
  have hm : wd / 2 ^ 24 % 2 ^ 7 = 75 := pk hwd hfit 7 rfl rfl rfl
  have he : bit wd 31 = e := bit_eq (pk hwd hfit 8 rfl rfl rfl)
  rw [short_4B hm, h32]
  simp only [decMajor4B, k0, f1, k2, f3, f4, f5, f6, he, and_self, ite_true, ite_false, reduceIte]

theorem RoundTrip.vldn (e : Bool) (d a b : BitVec 6) (m : BitVec 2) (l : BitVec 1) : RoundTrip.Statement (.vldn e d a b m l) := by
  intro _ _
  have hwd : encode (.vldn e d a b m l) = pack [2, 1, 1, 2, 6, 6, 6, 7, 1] [3, l.toNat, 0, m.toNat, b.toNat, a.toNat, d.toNat, 75, e.toNat] := by
    show word e 0x4B000003 [put d 18, put a 12, put b 6, put m 4, put l 2] = _
    simp only [word, put, eBit_eq, pack]
    generalize l.toNat = v1; generalize m.toNat = v3; generalize b.toNat = v4; generalize a.toNat = v5; generalize d.toNat = v6; generalize e.toNat = v8; omega
  have hfit : Fits [2, 1, 1, 2, 6, 6, 6, 7, 1] [3, l.toNat, 0, m.toNat, b.toNat, a.toNat, d.toNat, 75, e.toNat] := ⟨by decide, l.isLt, by decide, m.isLt, b.isLt, a.isLt, d.isLt, by decide, e.toNat_lt, trivial⟩
  revert hwd hfit; generalize encode _ = wd; intro hw hfit
  have hwd := And.intro hw (show ([2, 1, 1, 2, 6, 6, 6, 7, 1] : List Nat).length = ([3, l.toNat, 0, m.toNat, b.toNat, a.toNat, d.toNat, 75, e.toNat] : List Nat).length from rfl)
  have h32 : wd % 2 ^ 32 = wd := pkw hwd hfit rfl
  have k0 : wd % 2 ^ 2 = 3 := pk0 hwd hfit rfl rfl
  have f1 : fld wd 2 1 = l := fld_eq (pk hwd hfit 1 rfl rfl rfl)
  have k2 : wd / 2 ^ 3 % 2 ^ 1 = 0 := pk hwd hfit 2 rfl rfl rfl
  have f3 : fld wd 4 2 = m := fld_eq (pk hwd hfit 3 rfl rfl rfl)
  have f4 : fld wd 6 6 = b := fld_eq (pk hwd hfit 4 rfl rfl rfl)
  have f5 : fld wd 12 6 = a := fld_eq (pk hwd hfit 5 rfl rfl rfl)
  have f6 : fld wd 18 6 = d := fld_eq (pk hwd hfit 6 rfl rfl rfl)
  have hm : wd / 2 ^ 24 % 2 ^ 7 = 75 := pk hwd hfit 7 rfl rfl rfl
  have he : bit wd 31 = e := bit_eq (pk hwd hfit 8 rfl rfl rfl)
  rw [short_4B hm, h32]
  simp only [decMajor4B, k0, f1, k2, f3, f4, f5, f6, he, and_self, ite_true, ite_false, reduceIte]

theorem RoundTrip.vcompress (e : Bool) (d a : BitVec 6) (m : BitVec 2) (l w : BitVec 1) : RoundTrip.Statement (.vcompress e d a m l w) := by
  intro _ _
  have hwd : encode (.vcompress e d a m l w) = pack [1, 1, 1, 1, 2, 6, 6, 6, 7, 1] [0, w.toNat, l.toNat, 0, m.toNat, 0, a.toNat, d.toNat, 76, e.toNat] := by
    show word e 0x4C000000 [put d 18, put a 12, put m 4, put l 2, put w 1] = _
    simp only [word, put, eBit_eq, pack]
    generalize w.toNat = v1; generalize l.toNat = v2; generalize m.toNat = v4; generalize a.toNat = v6; generalize d.toNat = v7; generalize e.toNat = v9; omega
  have hfit : Fits [1, 1, 1, 1, 2, 6, 6, 6, 7, 1] [0, w.toNat, l.toNat, 0, m.toNat, 0, a.toNat, d.toNat, 76, e.toNat] := ⟨by decide, w.isLt, l.isLt, by decide, m.isLt, by decide, a.isLt, d.isLt, by decide, e.toNat_lt, trivial⟩
  revert hwd hfit; generalize encode _ = wd; intro hw hfit
  have hwd := And.intro hw (show ([1, 1, 1, 1, 2, 6, 6, 6, 7, 1] : List Nat).length = ([0, w.toNat, l.toNat, 0, m.toNat, 0, a.toNat, d.toNat, 76, e.toNat] : List Nat).length from rfl)
  have h32 : wd % 2 ^ 32 = wd := pkw hwd hfit rfl
  have k0 : wd % 2 ^ 1 = 0 := pk0 hwd hfit rfl rfl
  have f1 : fld wd 1 1 = w := fld_eq (pk hwd hfit 1 rfl rfl rfl)
  have f2 : fld wd 2 1 = l := fld_eq (pk hwd hfit 2 rfl rfl rfl)
  have k3 : wd / 2 ^ 3 % 2 ^ 1 = 0 := pk hwd hfit 3 rfl rfl rfl
  have f4 : fld wd 4 2 = m := fld_eq (pk hwd hfit 4 rfl rfl rfl)
  have k5 : wd / 2 ^ 6 % 2 ^ 6 = 0 := pk hwd hfit 5 rfl rfl rfl
  have f6 : fld wd 12 6 = a := fld_eq (pk hwd hfit 6 rfl rfl rfl)
  have f7 : fld wd 18 6 = d := fld_eq (pk hwd hfit 7 rfl rfl rfl)
  have hm : wd / 2 ^ 24 % 2 ^ 7 = 76 := pk hwd hfit 8 rfl rfl rfl
  have he : bit wd 31 = e := bit_eq (pk hwd hfit 9 rfl rfl rfl)
  rw [short_4C hm, h32]
  simp only [decMajor4C, k0, f1, f2, k3, f4, k5, f6, f7, he, and_self, ite_true, ite_false, reduceIte]

theorem RoundTrip.vexpand (e : Bool) (d a : BitVec 6) (m : BitVec 2) (l w : BitVec 1) : RoundTrip.Statement (.vexpand e d a m l w) := by
  intro _ _
  have hwd : encode (.vexpand e d a m l w) = pack [1, 1, 1, 1, 2, 6, 6, 6, 7, 1] [1, w.toNat, l.toNat, 0, m.toNat, 0, a.toNat, d.toNat, 76, e.toNat] := by
    show word e 0x4C000001 [put d 18, put a 12, put m 4, put l 2, put w 1] = _
    simp only [word, put, eBit_eq, pack]
    generalize w.toNat = v1; generalize l.toNat = v2; generalize m.toNat = v4; generalize a.toNat = v6; generalize d.toNat = v7; generalize e.toNat = v9; omega
  have hfit : Fits [1, 1, 1, 1, 2, 6, 6, 6, 7, 1] [1, w.toNat, l.toNat, 0, m.toNat, 0, a.toNat, d.toNat, 76, e.toNat] := ⟨by decide, w.isLt, l.isLt, by decide, m.isLt, by decide, a.isLt, d.isLt, by decide, e.toNat_lt, trivial⟩
  revert hwd hfit; generalize encode _ = wd; intro hw hfit
  have hwd := And.intro hw (show ([1, 1, 1, 1, 2, 6, 6, 6, 7, 1] : List Nat).length = ([1, w.toNat, l.toNat, 0, m.toNat, 0, a.toNat, d.toNat, 76, e.toNat] : List Nat).length from rfl)
  have h32 : wd % 2 ^ 32 = wd := pkw hwd hfit rfl
  have k0 : wd % 2 ^ 1 = 1 := pk0 hwd hfit rfl rfl
  have f1 : fld wd 1 1 = w := fld_eq (pk hwd hfit 1 rfl rfl rfl)
  have f2 : fld wd 2 1 = l := fld_eq (pk hwd hfit 2 rfl rfl rfl)
  have k3 : wd / 2 ^ 3 % 2 ^ 1 = 0 := pk hwd hfit 3 rfl rfl rfl
  have f4 : fld wd 4 2 = m := fld_eq (pk hwd hfit 4 rfl rfl rfl)
  have k5 : wd / 2 ^ 6 % 2 ^ 6 = 0 := pk hwd hfit 5 rfl rfl rfl
  have f6 : fld wd 12 6 = a := fld_eq (pk hwd hfit 6 rfl rfl rfl)
  have f7 : fld wd 18 6 = d := fld_eq (pk hwd hfit 7 rfl rfl rfl)
  have hm : wd / 2 ^ 24 % 2 ^ 7 = 76 := pk hwd hfit 8 rfl rfl rfl
  have he : bit wd 31 = e := bit_eq (pk hwd hfit 9 rfl rfl rfl)
  rw [short_4C hm, h32]
  simp only [decMajor4C, k0, f1, f2, k3, f4, k5, f6, f7, he, and_self, ite_true, ite_false, reduceIte]

theorem RoundTrip.vredSum (e : Bool) (d a : BitVec 6) (m : BitVec 2) (l : BitVec 1) : RoundTrip.Statement (.vredSum e d a m l) := by
  intro _ _
  have hwd : encode (.vredSum e d a m l) = pack [2, 1, 1, 2, 6, 6, 6, 7, 1] [0, l.toNat, 0, m.toNat, 0, a.toNat, d.toNat, 77, e.toNat] := by
    show word e 0x4D000000 [put d 18, put a 12, put m 4, put l 2] = _
    simp only [word, put, eBit_eq, pack]
    generalize l.toNat = v1; generalize m.toNat = v3; generalize a.toNat = v5; generalize d.toNat = v6; generalize e.toNat = v8; omega
  have hfit : Fits [2, 1, 1, 2, 6, 6, 6, 7, 1] [0, l.toNat, 0, m.toNat, 0, a.toNat, d.toNat, 77, e.toNat] := ⟨by decide, l.isLt, by decide, m.isLt, by decide, a.isLt, d.isLt, by decide, e.toNat_lt, trivial⟩
  revert hwd hfit; generalize encode _ = wd; intro hw hfit
  have hwd := And.intro hw (show ([2, 1, 1, 2, 6, 6, 6, 7, 1] : List Nat).length = ([0, l.toNat, 0, m.toNat, 0, a.toNat, d.toNat, 77, e.toNat] : List Nat).length from rfl)
  have h32 : wd % 2 ^ 32 = wd := pkw hwd hfit rfl
  have k0 : wd % 2 ^ 2 = 0 := pk0 hwd hfit rfl rfl
  have f1 : fld wd 2 1 = l := fld_eq (pk hwd hfit 1 rfl rfl rfl)
  have k2 : wd / 2 ^ 3 % 2 ^ 1 = 0 := pk hwd hfit 2 rfl rfl rfl
  have f3 : fld wd 4 2 = m := fld_eq (pk hwd hfit 3 rfl rfl rfl)
  have k4 : wd / 2 ^ 6 % 2 ^ 6 = 0 := pk hwd hfit 4 rfl rfl rfl
  have f5 : fld wd 12 6 = a := fld_eq (pk hwd hfit 5 rfl rfl rfl)
  have f6 : fld wd 18 6 = d := fld_eq (pk hwd hfit 6 rfl rfl rfl)
  have hm : wd / 2 ^ 24 % 2 ^ 7 = 77 := pk hwd hfit 7 rfl rfl rfl
  have he : bit wd 31 = e := bit_eq (pk hwd hfit 8 rfl rfl rfl)
  rw [short_4D hm, h32]
  simp only [decMajor4D, k0, f1, k2, f3, k4, f5, f6, he, and_self, ite_true, ite_false, reduceIte]

theorem RoundTrip.vredMin (e : Bool) (d a : BitVec 6) (m : BitVec 2) (l : BitVec 1) : RoundTrip.Statement (.vredMin e d a m l) := by
  intro _ _
  have hwd : encode (.vredMin e d a m l) = pack [2, 1, 1, 2, 6, 6, 6, 7, 1] [0, l.toNat, 0, m.toNat, 1, a.toNat, d.toNat, 77, e.toNat] := by
    show word e 0x4D000040 [put d 18, put a 12, put m 4, put l 2] = _
    simp only [word, put, eBit_eq, pack]
    generalize l.toNat = v1; generalize m.toNat = v3; generalize a.toNat = v5; generalize d.toNat = v6; generalize e.toNat = v8; omega
  have hfit : Fits [2, 1, 1, 2, 6, 6, 6, 7, 1] [0, l.toNat, 0, m.toNat, 1, a.toNat, d.toNat, 77, e.toNat] := ⟨by decide, l.isLt, by decide, m.isLt, by decide, a.isLt, d.isLt, by decide, e.toNat_lt, trivial⟩
  revert hwd hfit; generalize encode _ = wd; intro hw hfit
  have hwd := And.intro hw (show ([2, 1, 1, 2, 6, 6, 6, 7, 1] : List Nat).length = ([0, l.toNat, 0, m.toNat, 1, a.toNat, d.toNat, 77, e.toNat] : List Nat).length from rfl)
  have h32 : wd % 2 ^ 32 = wd := pkw hwd hfit rfl
  have k0 : wd % 2 ^ 2 = 0 := pk0 hwd hfit rfl rfl
  have f1 : fld wd 2 1 = l := fld_eq (pk hwd hfit 1 rfl rfl rfl)
  have k2 : wd / 2 ^ 3 % 2 ^ 1 = 0 := pk hwd hfit 2 rfl rfl rfl
  have f3 : fld wd 4 2 = m := fld_eq (pk hwd hfit 3 rfl rfl rfl)
  have k4 : wd / 2 ^ 6 % 2 ^ 6 = 1 := pk hwd hfit 4 rfl rfl rfl
  have f5 : fld wd 12 6 = a := fld_eq (pk hwd hfit 5 rfl rfl rfl)
  have f6 : fld wd 18 6 = d := fld_eq (pk hwd hfit 6 rfl rfl rfl)
  have hm : wd / 2 ^ 24 % 2 ^ 7 = 77 := pk hwd hfit 7 rfl rfl rfl
  have he : bit wd 31 = e := bit_eq (pk hwd hfit 8 rfl rfl rfl)
  rw [short_4D hm, h32]
  simp only [decMajor4D, k0, f1, k2, f3, k4, f5, f6, he, and_self, ite_true, ite_false, reduceIte]

theorem RoundTrip.vredMax (e : Bool) (d a : BitVec 6) (m : BitVec 2) (l : BitVec 1) : RoundTrip.Statement (.vredMax e d a m l) := by
  intro _ _
  have hwd : encode (.vredMax e d a m l) = pack [2, 1, 1, 2, 6, 6, 6, 7, 1] [0, l.toNat, 0, m.toNat, 2, a.toNat, d.toNat, 77, e.toNat] := by
    show word e 0x4D000080 [put d 18, put a 12, put m 4, put l 2] = _
    simp only [word, put, eBit_eq, pack]
    generalize l.toNat = v1; generalize m.toNat = v3; generalize a.toNat = v5; generalize d.toNat = v6; generalize e.toNat = v8; omega
  have hfit : Fits [2, 1, 1, 2, 6, 6, 6, 7, 1] [0, l.toNat, 0, m.toNat, 2, a.toNat, d.toNat, 77, e.toNat] := ⟨by decide, l.isLt, by decide, m.isLt, by decide, a.isLt, d.isLt, by decide, e.toNat_lt, trivial⟩
  revert hwd hfit; generalize encode _ = wd; intro hw hfit
  have hwd := And.intro hw (show ([2, 1, 1, 2, 6, 6, 6, 7, 1] : List Nat).length = ([0, l.toNat, 0, m.toNat, 2, a.toNat, d.toNat, 77, e.toNat] : List Nat).length from rfl)
  have h32 : wd % 2 ^ 32 = wd := pkw hwd hfit rfl
  have k0 : wd % 2 ^ 2 = 0 := pk0 hwd hfit rfl rfl
  have f1 : fld wd 2 1 = l := fld_eq (pk hwd hfit 1 rfl rfl rfl)
  have k2 : wd / 2 ^ 3 % 2 ^ 1 = 0 := pk hwd hfit 2 rfl rfl rfl
  have f3 : fld wd 4 2 = m := fld_eq (pk hwd hfit 3 rfl rfl rfl)
  have k4 : wd / 2 ^ 6 % 2 ^ 6 = 2 := pk hwd hfit 4 rfl rfl rfl
  have f5 : fld wd 12 6 = a := fld_eq (pk hwd hfit 5 rfl rfl rfl)
  have f6 : fld wd 18 6 = d := fld_eq (pk hwd hfit 6 rfl rfl rfl)
  have hm : wd / 2 ^ 24 % 2 ^ 7 = 77 := pk hwd hfit 7 rfl rfl rfl
  have he : bit wd 31 = e := bit_eq (pk hwd hfit 8 rfl rfl rfl)
  rw [short_4D hm, h32]
  simp only [decMajor4D, k0, f1, k2, f3, k4, f5, f6, he, and_self, ite_true, ite_false, reduceIte]

theorem RoundTrip.vredAnd (e : Bool) (d a : BitVec 6) (m : BitVec 2) (l : BitVec 1) : RoundTrip.Statement (.vredAnd e d a m l) := by
  intro _ _
  have hwd : encode (.vredAnd e d a m l) = pack [2, 1, 1, 2, 6, 6, 6, 7, 1] [0, l.toNat, 0, m.toNat, 3, a.toNat, d.toNat, 77, e.toNat] := by
    show word e 0x4D0000C0 [put d 18, put a 12, put m 4, put l 2] = _
    simp only [word, put, eBit_eq, pack]
    generalize l.toNat = v1; generalize m.toNat = v3; generalize a.toNat = v5; generalize d.toNat = v6; generalize e.toNat = v8; omega
  have hfit : Fits [2, 1, 1, 2, 6, 6, 6, 7, 1] [0, l.toNat, 0, m.toNat, 3, a.toNat, d.toNat, 77, e.toNat] := ⟨by decide, l.isLt, by decide, m.isLt, by decide, a.isLt, d.isLt, by decide, e.toNat_lt, trivial⟩
  revert hwd hfit; generalize encode _ = wd; intro hw hfit
  have hwd := And.intro hw (show ([2, 1, 1, 2, 6, 6, 6, 7, 1] : List Nat).length = ([0, l.toNat, 0, m.toNat, 3, a.toNat, d.toNat, 77, e.toNat] : List Nat).length from rfl)
  have h32 : wd % 2 ^ 32 = wd := pkw hwd hfit rfl
  have k0 : wd % 2 ^ 2 = 0 := pk0 hwd hfit rfl rfl
  have f1 : fld wd 2 1 = l := fld_eq (pk hwd hfit 1 rfl rfl rfl)
  have k2 : wd / 2 ^ 3 % 2 ^ 1 = 0 := pk hwd hfit 2 rfl rfl rfl
  have f3 : fld wd 4 2 = m := fld_eq (pk hwd hfit 3 rfl rfl rfl)
  have k4 : wd / 2 ^ 6 % 2 ^ 6 = 3 := pk hwd hfit 4 rfl rfl rfl
  have f5 : fld wd 12 6 = a := fld_eq (pk hwd hfit 5 rfl rfl rfl)
  have f6 : fld wd 18 6 = d := fld_eq (pk hwd hfit 6 rfl rfl rfl)
  have hm : wd / 2 ^ 24 % 2 ^ 7 = 77 := pk hwd hfit 7 rfl rfl rfl
  have he : bit wd 31 = e := bit_eq (pk hwd hfit 8 rfl rfl rfl)
  rw [short_4D hm, h32]
  simp only [decMajor4D, k0, f1, k2, f3, k4, f5, f6, he, and_self, ite_true, ite_false, reduceIte]

theorem RoundTrip.vredOr (e : Bool) (d a : BitVec 6) (m : BitVec 2) (l : BitVec 1) : RoundTrip.Statement (.vredOr e d a m l) := by
  intro _ _
  have hwd : encode (.vredOr e d a m l) = pack [2, 1, 1, 2, 6, 6, 6, 7, 1] [0, l.toNat, 0, m.toNat, 4, a.toNat, d.toNat, 77, e.toNat] := by
    show word e 0x4D000100 [put d 18, put a 12, put m 4, put l 2] = _
    simp only [word, put, eBit_eq, pack]
    generalize l.toNat = v1; generalize m.toNat = v3; generalize a.toNat = v5; generalize d.toNat = v6; generalize e.toNat = v8; omega
  have hfit : Fits [2, 1, 1, 2, 6, 6, 6, 7, 1] [0, l.toNat, 0, m.toNat, 4, a.toNat, d.toNat, 77, e.toNat] := ⟨by decide, l.isLt, by decide, m.isLt, by decide, a.isLt, d.isLt, by decide, e.toNat_lt, trivial⟩
  revert hwd hfit; generalize encode _ = wd; intro hw hfit
  have hwd := And.intro hw (show ([2, 1, 1, 2, 6, 6, 6, 7, 1] : List Nat).length = ([0, l.toNat, 0, m.toNat, 4, a.toNat, d.toNat, 77, e.toNat] : List Nat).length from rfl)
  have h32 : wd % 2 ^ 32 = wd := pkw hwd hfit rfl
  have k0 : wd % 2 ^ 2 = 0 := pk0 hwd hfit rfl rfl
  have f1 : fld wd 2 1 = l := fld_eq (pk hwd hfit 1 rfl rfl rfl)
  have k2 : wd / 2 ^ 3 % 2 ^ 1 = 0 := pk hwd hfit 2 rfl rfl rfl
  have f3 : fld wd 4 2 = m := fld_eq (pk hwd hfit 3 rfl rfl rfl)
  have k4 : wd / 2 ^ 6 % 2 ^ 6 = 4 := pk hwd hfit 4 rfl rfl rfl
  have f5 : fld wd 12 6 = a := fld_eq (pk hwd hfit 5 rfl rfl rfl)
  have f6 : fld wd 18 6 = d := fld_eq (pk hwd hfit 6 rfl rfl rfl)
  have hm : wd / 2 ^ 24 % 2 ^ 7 = 77 := pk hwd hfit 7 rfl rfl rfl
  have he : bit wd 31 = e := bit_eq (pk hwd hfit 8 rfl rfl rfl)
  rw [short_4D hm, h32]
  simp only [decMajor4D, k0, f1, k2, f3, k4, f5, f6, he, and_self, ite_true, ite_false, reduceIte]

theorem RoundTrip.vredXor (e : Bool) (d a : BitVec 6) (m : BitVec 2) (l : BitVec 1) : RoundTrip.Statement (.vredXor e d a m l) := by
  intro _ _
  have hwd : encode (.vredXor e d a m l) = pack [2, 1, 1, 2, 6, 6, 6, 7, 1] [0, l.toNat, 0, m.toNat, 5, a.toNat, d.toNat, 77, e.toNat] := by
    show word e 0x4D000140 [put d 18, put a 12, put m 4, put l 2] = _
    simp only [word, put, eBit_eq, pack]
    generalize l.toNat = v1; generalize m.toNat = v3; generalize a.toNat = v5; generalize d.toNat = v6; generalize e.toNat = v8; omega
  have hfit : Fits [2, 1, 1, 2, 6, 6, 6, 7, 1] [0, l.toNat, 0, m.toNat, 5, a.toNat, d.toNat, 77, e.toNat] := ⟨by decide, l.isLt, by decide, m.isLt, by decide, a.isLt, d.isLt, by decide, e.toNat_lt, trivial⟩
  revert hwd hfit; generalize encode _ = wd; intro hw hfit
  have hwd := And.intro hw (show ([2, 1, 1, 2, 6, 6, 6, 7, 1] : List Nat).length = ([0, l.toNat, 0, m.toNat, 5, a.toNat, d.toNat, 77, e.toNat] : List Nat).length from rfl)
  have h32 : wd % 2 ^ 32 = wd := pkw hwd hfit rfl
  have k0 : wd % 2 ^ 2 = 0 := pk0 hwd hfit rfl rfl
  have f1 : fld wd 2 1 = l := fld_eq (pk hwd hfit 1 rfl rfl rfl)
  have k2 : wd / 2 ^ 3 % 2 ^ 1 = 0 := pk hwd hfit 2 rfl rfl rfl
  have f3 : fld wd 4 2 = m := fld_eq (pk hwd hfit 3 rfl rfl rfl)
  have k4 : wd / 2 ^ 6 % 2 ^ 6 = 5 := pk hwd hfit 4 rfl rfl rfl
  have f5 : fld wd 12 6 = a := fld_eq (pk hwd hfit 5 rfl rfl rfl)
  have f6 : fld wd 18 6 = d := fld_eq (pk hwd hfit 6 rfl rfl rfl)
  have hm : wd / 2 ^ 24 % 2 ^ 7 = 77 := pk hwd hfit 7 rfl rfl rfl
  have he : bit wd 31 = e := bit_eq (pk hwd hfit 8 rfl rfl rfl)
  rw [short_4D hm, h32]
  simp only [decMajor4D, k0, f1, k2, f3, k4, f5, f6, he, and_self, ite_true, ite_false, reduceIte]

theorem RoundTrip.vredFsumO (e : Bool) (d a : BitVec 6) (m : BitVec 2) (l : BitVec 1) : RoundTrip.Statement (.vredFsumO e d a m l) := by
  intro _ _
  have hwd : encode (.vredFsumO e d a m l) = pack [2, 1, 1, 2, 6, 6, 6, 7, 1] [0, l.toNat, 0, m.toNat, 6, a.toNat, d.toNat, 77, e.toNat] := by
    show word e 0x4D000180 [put d 18, put a 12, put m 4, put l 2] = _
    simp only [word, put, eBit_eq, pack]
    generalize l.toNat = v1; generalize m.toNat = v3; generalize a.toNat = v5; generalize d.toNat = v6; generalize e.toNat = v8; omega
  have hfit : Fits [2, 1, 1, 2, 6, 6, 6, 7, 1] [0, l.toNat, 0, m.toNat, 6, a.toNat, d.toNat, 77, e.toNat] := ⟨by decide, l.isLt, by decide, m.isLt, by decide, a.isLt, d.isLt, by decide, e.toNat_lt, trivial⟩
  revert hwd hfit; generalize encode _ = wd; intro hw hfit
  have hwd := And.intro hw (show ([2, 1, 1, 2, 6, 6, 6, 7, 1] : List Nat).length = ([0, l.toNat, 0, m.toNat, 6, a.toNat, d.toNat, 77, e.toNat] : List Nat).length from rfl)
  have h32 : wd % 2 ^ 32 = wd := pkw hwd hfit rfl
  have k0 : wd % 2 ^ 2 = 0 := pk0 hwd hfit rfl rfl
  have f1 : fld wd 2 1 = l := fld_eq (pk hwd hfit 1 rfl rfl rfl)
  have k2 : wd / 2 ^ 3 % 2 ^ 1 = 0 := pk hwd hfit 2 rfl rfl rfl
  have f3 : fld wd 4 2 = m := fld_eq (pk hwd hfit 3 rfl rfl rfl)
  have k4 : wd / 2 ^ 6 % 2 ^ 6 = 6 := pk hwd hfit 4 rfl rfl rfl
  have f5 : fld wd 12 6 = a := fld_eq (pk hwd hfit 5 rfl rfl rfl)
  have f6 : fld wd 18 6 = d := fld_eq (pk hwd hfit 6 rfl rfl rfl)
  have hm : wd / 2 ^ 24 % 2 ^ 7 = 77 := pk hwd hfit 7 rfl rfl rfl
  have he : bit wd 31 = e := bit_eq (pk hwd hfit 8 rfl rfl rfl)
  rw [short_4D hm, h32]
  simp only [decMajor4D, k0, f1, k2, f3, k4, f5, f6, he, and_self, ite_true, ite_false, reduceIte]

theorem RoundTrip.vredFsumU (e : Bool) (d a : BitVec 6) (m : BitVec 2) (l : BitVec 1) : RoundTrip.Statement (.vredFsumU e d a m l) := by
  intro _ _
  have hwd : encode (.vredFsumU e d a m l) = pack [2, 1, 1, 2, 6, 6, 6, 7, 1] [0, l.toNat, 0, m.toNat, 7, a.toNat, d.toNat, 77, e.toNat] := by
    show word e 0x4D0001C0 [put d 18, put a 12, put m 4, put l 2] = _
    simp only [word, put, eBit_eq, pack]
    generalize l.toNat = v1; generalize m.toNat = v3; generalize a.toNat = v5; generalize d.toNat = v6; generalize e.toNat = v8; omega
  have hfit : Fits [2, 1, 1, 2, 6, 6, 6, 7, 1] [0, l.toNat, 0, m.toNat, 7, a.toNat, d.toNat, 77, e.toNat] := ⟨by decide, l.isLt, by decide, m.isLt, by decide, a.isLt, d.isLt, by decide, e.toNat_lt, trivial⟩
  revert hwd hfit; generalize encode _ = wd; intro hw hfit
  have hwd := And.intro hw (show ([2, 1, 1, 2, 6, 6, 6, 7, 1] : List Nat).length = ([0, l.toNat, 0, m.toNat, 7, a.toNat, d.toNat, 77, e.toNat] : List Nat).length from rfl)
  have h32 : wd % 2 ^ 32 = wd := pkw hwd hfit rfl
  have k0 : wd % 2 ^ 2 = 0 := pk0 hwd hfit rfl rfl
  have f1 : fld wd 2 1 = l := fld_eq (pk hwd hfit 1 rfl rfl rfl)
  have k2 : wd / 2 ^ 3 % 2 ^ 1 = 0 := pk hwd hfit 2 rfl rfl rfl
  have f3 : fld wd 4 2 = m := fld_eq (pk hwd hfit 3 rfl rfl rfl)
  have k4 : wd / 2 ^ 6 % 2 ^ 6 = 7 := pk hwd hfit 4 rfl rfl rfl
  have f5 : fld wd 12 6 = a := fld_eq (pk hwd hfit 5 rfl rfl rfl)
  have f6 : fld wd 18 6 = d := fld_eq (pk hwd hfit 6 rfl rfl rfl)
  have hm : wd / 2 ^ 24 % 2 ^ 7 = 77 := pk hwd hfit 7 rfl rfl rfl
  have he : bit wd 31 = e := bit_eq (pk hwd hfit 8 rfl rfl rfl)
  rw [short_4D hm, h32]
  simp only [decMajor4D, k0, f1, k2, f3, k4, f5, f6, he, and_self, ite_true, ite_false, reduceIte]

theorem RoundTrip.vredFmin (e : Bool) (d a : BitVec 6) (m : BitVec 2) (l : BitVec 1) : RoundTrip.Statement (.vredFmin e d a m l) := by
  intro _ _
  have hwd : encode (.vredFmin e d a m l) = pack [2, 1, 1, 2, 6, 6, 6, 7, 1] [0, l.toNat, 0, m.toNat, 8, a.toNat, d.toNat, 77, e.toNat] := by
    show word e 0x4D000200 [put d 18, put a 12, put m 4, put l 2] = _
    simp only [word, put, eBit_eq, pack]
    generalize l.toNat = v1; generalize m.toNat = v3; generalize a.toNat = v5; generalize d.toNat = v6; generalize e.toNat = v8; omega
  have hfit : Fits [2, 1, 1, 2, 6, 6, 6, 7, 1] [0, l.toNat, 0, m.toNat, 8, a.toNat, d.toNat, 77, e.toNat] := ⟨by decide, l.isLt, by decide, m.isLt, by decide, a.isLt, d.isLt, by decide, e.toNat_lt, trivial⟩
  revert hwd hfit; generalize encode _ = wd; intro hw hfit
  have hwd := And.intro hw (show ([2, 1, 1, 2, 6, 6, 6, 7, 1] : List Nat).length = ([0, l.toNat, 0, m.toNat, 8, a.toNat, d.toNat, 77, e.toNat] : List Nat).length from rfl)
  have h32 : wd % 2 ^ 32 = wd := pkw hwd hfit rfl
  have k0 : wd % 2 ^ 2 = 0 := pk0 hwd hfit rfl rfl
  have f1 : fld wd 2 1 = l := fld_eq (pk hwd hfit 1 rfl rfl rfl)
  have k2 : wd / 2 ^ 3 % 2 ^ 1 = 0 := pk hwd hfit 2 rfl rfl rfl
  have f3 : fld wd 4 2 = m := fld_eq (pk hwd hfit 3 rfl rfl rfl)
  have k4 : wd / 2 ^ 6 % 2 ^ 6 = 8 := pk hwd hfit 4 rfl rfl rfl
  have f5 : fld wd 12 6 = a := fld_eq (pk hwd hfit 5 rfl rfl rfl)
  have f6 : fld wd 18 6 = d := fld_eq (pk hwd hfit 6 rfl rfl rfl)
  have hm : wd / 2 ^ 24 % 2 ^ 7 = 77 := pk hwd hfit 7 rfl rfl rfl
  have he : bit wd 31 = e := bit_eq (pk hwd hfit 8 rfl rfl rfl)
  rw [short_4D hm, h32]
  simp only [decMajor4D, k0, f1, k2, f3, k4, f5, f6, he, and_self, ite_true, ite_false, reduceIte]

theorem RoundTrip.vredFmax (e : Bool) (d a : BitVec 6) (m : BitVec 2) (l : BitVec 1) : RoundTrip.Statement (.vredFmax e d a m l) := by
  intro _ _
  have hwd : encode (.vredFmax e d a m l) = pack [2, 1, 1, 2, 6, 6, 6, 7, 1] [0, l.toNat, 0, m.toNat, 9, a.toNat, d.toNat, 77, e.toNat] := by
    show word e 0x4D000240 [put d 18, put a 12, put m 4, put l 2] = _
    simp only [word, put, eBit_eq, pack]
    generalize l.toNat = v1; generalize m.toNat = v3; generalize a.toNat = v5; generalize d.toNat = v6; generalize e.toNat = v8; omega
  have hfit : Fits [2, 1, 1, 2, 6, 6, 6, 7, 1] [0, l.toNat, 0, m.toNat, 9, a.toNat, d.toNat, 77, e.toNat] := ⟨by decide, l.isLt, by decide, m.isLt, by decide, a.isLt, d.isLt, by decide, e.toNat_lt, trivial⟩
  revert hwd hfit; generalize encode _ = wd; intro hw hfit
  have hwd := And.intro hw (show ([2, 1, 1, 2, 6, 6, 6, 7, 1] : List Nat).length = ([0, l.toNat, 0, m.toNat, 9, a.toNat, d.toNat, 77, e.toNat] : List Nat).length from rfl)
  have h32 : wd % 2 ^ 32 = wd := pkw hwd hfit rfl
  have k0 : wd % 2 ^ 2 = 0 := pk0 hwd hfit rfl rfl
  have f1 : fld wd 2 1 = l := fld_eq (pk hwd hfit 1 rfl rfl rfl)
  have k2 : wd / 2 ^ 3 % 2 ^ 1 = 0 := pk hwd hfit 2 rfl rfl rfl
  have f3 : fld wd 4 2 = m := fld_eq (pk hwd hfit 3 rfl rfl rfl)
  have k4 : wd / 2 ^ 6 % 2 ^ 6 = 9 := pk hwd hfit 4 rfl rfl rfl
  have f5 : fld wd 12 6 = a := fld_eq (pk hwd hfit 5 rfl rfl rfl)
  have f6 : fld wd 18 6 = d := fld_eq (pk hwd hfit 6 rfl rfl rfl)
  have hm : wd / 2 ^ 24 % 2 ^ 7 = 77 := pk hwd hfit 7 rfl rfl rfl
  have he : bit wd 31 = e := bit_eq (pk hwd hfit 8 rfl rfl rfl)
  rw [short_4D hm, h32]
  simp only [decMajor4D, k0, f1, k2, f3, k4, f5, f6, he, and_self, ite_true, ite_false, reduceIte]

theorem RoundTrip.vscan (e : Bool) (d a : BitVec 6) (x : BitVec 1) (o : BitVec 5) (m : BitVec 2) (l : BitVec 1) : RoundTrip.Statement (.vscan e d a x o m l) := by
  intro _ _
  have hwd : encode (.vscan e d a x o m l) = pack [2, 1, 1, 2, 5, 1, 6, 6, 7, 1] [0, l.toNat, 0, m.toNat, o.toNat, x.toNat, a.toNat, d.toNat, 78, e.toNat] := by
    show word e 0x4E000000 [put d 18, put a 12, put x 11, put o 6, put m 4, put l 2] = _
    simp only [word, put, eBit_eq, pack]
    generalize l.toNat = v1; generalize m.toNat = v3; generalize o.toNat = v4; generalize x.toNat = v5; generalize a.toNat = v6; generalize d.toNat = v7; generalize e.toNat = v9; omega
  have hfit : Fits [2, 1, 1, 2, 5, 1, 6, 6, 7, 1] [0, l.toNat, 0, m.toNat, o.toNat, x.toNat, a.toNat, d.toNat, 78, e.toNat] := ⟨by decide, l.isLt, by decide, m.isLt, o.isLt, x.isLt, a.isLt, d.isLt, by decide, e.toNat_lt, trivial⟩
  revert hwd hfit; generalize encode _ = wd; intro hw hfit
  have hwd := And.intro hw (show ([2, 1, 1, 2, 5, 1, 6, 6, 7, 1] : List Nat).length = ([0, l.toNat, 0, m.toNat, o.toNat, x.toNat, a.toNat, d.toNat, 78, e.toNat] : List Nat).length from rfl)
  have h32 : wd % 2 ^ 32 = wd := pkw hwd hfit rfl
  have k0 : wd % 2 ^ 2 = 0 := pk0 hwd hfit rfl rfl
  have f1 : fld wd 2 1 = l := fld_eq (pk hwd hfit 1 rfl rfl rfl)
  have k2 : wd / 2 ^ 3 % 2 ^ 1 = 0 := pk hwd hfit 2 rfl rfl rfl
  have f3 : fld wd 4 2 = m := fld_eq (pk hwd hfit 3 rfl rfl rfl)
  have f4 : fld wd 6 5 = o := fld_eq (pk hwd hfit 4 rfl rfl rfl)
  have f5 : fld wd 11 1 = x := fld_eq (pk hwd hfit 5 rfl rfl rfl)
  have f6 : fld wd 12 6 = a := fld_eq (pk hwd hfit 6 rfl rfl rfl)
  have f7 : fld wd 18 6 = d := fld_eq (pk hwd hfit 7 rfl rfl rfl)
  have hm : wd / 2 ^ 24 % 2 ^ 7 = 78 := pk hwd hfit 8 rfl rfl rfl
  have he : bit wd 31 = e := bit_eq (pk hwd hfit 9 rfl rfl rfl)
  rw [short_4E hm, h32]
  simp only [decMajor4E, k0, f1, k2, f3, f4, f5, f6, f7, he, and_self, ite_true, ite_false, reduceIte]

theorem RoundTrip.vballot (e : Bool) (d : BitVec 6) (a : BitVec 4) (b : BitVec 6) : RoundTrip.Statement (.vballot e d a b) := by
  intro _ _
  have hwd : encode (.vballot e d a b) = pack [2, 4, 6, 4, 2, 6, 7, 1] [1, 0, b.toNat, a.toNat, 0, d.toNat, 78, e.toNat] := by
    show word e 0x4E000001 [put d 18, put a 12, put b 6] = _
    simp only [word, put, eBit_eq, pack]
    generalize b.toNat = v2; generalize a.toNat = v3; generalize d.toNat = v5; generalize e.toNat = v7; omega
  have hfit : Fits [2, 4, 6, 4, 2, 6, 7, 1] [1, 0, b.toNat, a.toNat, 0, d.toNat, 78, e.toNat] := ⟨by decide, by decide, b.isLt, a.isLt, by decide, d.isLt, by decide, e.toNat_lt, trivial⟩
  revert hwd hfit; generalize encode _ = wd; intro hw hfit
  have hwd := And.intro hw (show ([2, 4, 6, 4, 2, 6, 7, 1] : List Nat).length = ([1, 0, b.toNat, a.toNat, 0, d.toNat, 78, e.toNat] : List Nat).length from rfl)
  have h32 : wd % 2 ^ 32 = wd := pkw hwd hfit rfl
  have k0 : wd % 2 ^ 2 = 1 := pk0 hwd hfit rfl rfl
  have k1 : wd / 2 ^ 2 % 2 ^ 4 = 0 := pk hwd hfit 1 rfl rfl rfl
  have f2 : fld wd 6 6 = b := fld_eq (pk hwd hfit 2 rfl rfl rfl)
  have f3 : fld wd 12 4 = a := fld_eq (pk hwd hfit 3 rfl rfl rfl)
  have k4 : wd / 2 ^ 16 % 2 ^ 2 = 0 := pk hwd hfit 4 rfl rfl rfl
  have f5 : fld wd 18 6 = d := fld_eq (pk hwd hfit 5 rfl rfl rfl)
  have hm : wd / 2 ^ 24 % 2 ^ 7 = 78 := pk hwd hfit 6 rfl rfl rfl
  have he : bit wd 31 = e := bit_eq (pk hwd hfit 7 rfl rfl rfl)
  rw [short_4E hm, h32]
  simp only [decMajor4E, k0, k1, f2, f3, k4, f5, he, and_self, ite_true, ite_false, reduceIte]

theorem RoundTrip.vvoteAny (e : Bool) (d : BitVec 6) (a : BitVec 4) (m : BitVec 2) : RoundTrip.Statement (.vvoteAny e d a m) := by
  intro _ _
  have hwd : encode (.vvoteAny e d a m) = pack [2, 2, 2, 2, 4, 4, 2, 6, 7, 1] [2, 0, m.toNat, 0, 0, a.toNat, 0, d.toNat, 78, e.toNat] := by
    show word e 0x4E000002 [put d 18, put a 12, put m 4] = _
    simp only [word, put, eBit_eq, pack]
    generalize m.toNat = v2; generalize a.toNat = v5; generalize d.toNat = v7; generalize e.toNat = v9; omega
  have hfit : Fits [2, 2, 2, 2, 4, 4, 2, 6, 7, 1] [2, 0, m.toNat, 0, 0, a.toNat, 0, d.toNat, 78, e.toNat] := ⟨by decide, by decide, m.isLt, by decide, by decide, a.isLt, by decide, d.isLt, by decide, e.toNat_lt, trivial⟩
  revert hwd hfit; generalize encode _ = wd; intro hw hfit
  have hwd := And.intro hw (show ([2, 2, 2, 2, 4, 4, 2, 6, 7, 1] : List Nat).length = ([2, 0, m.toNat, 0, 0, a.toNat, 0, d.toNat, 78, e.toNat] : List Nat).length from rfl)
  have h32 : wd % 2 ^ 32 = wd := pkw hwd hfit rfl
  have k0 : wd % 2 ^ 2 = 2 := pk0 hwd hfit rfl rfl
  have k1 : wd / 2 ^ 2 % 2 ^ 2 = 0 := pk hwd hfit 1 rfl rfl rfl
  have f2 : fld wd 4 2 = m := fld_eq (pk hwd hfit 2 rfl rfl rfl)
  have k3 : wd / 2 ^ 6 % 2 ^ 2 = 0 := pk hwd hfit 3 rfl rfl rfl
  have k4 : wd / 2 ^ 8 % 2 ^ 4 = 0 := pk hwd hfit 4 rfl rfl rfl
  have f5 : fld wd 12 4 = a := fld_eq (pk hwd hfit 5 rfl rfl rfl)
  have k6 : wd / 2 ^ 16 % 2 ^ 2 = 0 := pk hwd hfit 6 rfl rfl rfl
  have f7 : fld wd 18 6 = d := fld_eq (pk hwd hfit 7 rfl rfl rfl)
  have hm : wd / 2 ^ 24 % 2 ^ 7 = 78 := pk hwd hfit 8 rfl rfl rfl
  have he : bit wd 31 = e := bit_eq (pk hwd hfit 9 rfl rfl rfl)
  rw [short_4E hm, h32]
  simp only [decMajor4E, k0, k1, f2, k3, k4, f5, k6, f7, he, and_self, ite_true, ite_false, reduceIte]

theorem RoundTrip.vvoteAll (e : Bool) (d : BitVec 6) (a : BitVec 4) (m : BitVec 2) : RoundTrip.Statement (.vvoteAll e d a m) := by
  intro _ _
  have hwd : encode (.vvoteAll e d a m) = pack [2, 2, 2, 2, 4, 4, 2, 6, 7, 1] [2, 0, m.toNat, 1, 0, a.toNat, 0, d.toNat, 78, e.toNat] := by
    show word e 0x4E000042 [put d 18, put a 12, put m 4] = _
    simp only [word, put, eBit_eq, pack]
    generalize m.toNat = v2; generalize a.toNat = v5; generalize d.toNat = v7; generalize e.toNat = v9; omega
  have hfit : Fits [2, 2, 2, 2, 4, 4, 2, 6, 7, 1] [2, 0, m.toNat, 1, 0, a.toNat, 0, d.toNat, 78, e.toNat] := ⟨by decide, by decide, m.isLt, by decide, by decide, a.isLt, by decide, d.isLt, by decide, e.toNat_lt, trivial⟩
  revert hwd hfit; generalize encode _ = wd; intro hw hfit
  have hwd := And.intro hw (show ([2, 2, 2, 2, 4, 4, 2, 6, 7, 1] : List Nat).length = ([2, 0, m.toNat, 1, 0, a.toNat, 0, d.toNat, 78, e.toNat] : List Nat).length from rfl)
  have h32 : wd % 2 ^ 32 = wd := pkw hwd hfit rfl
  have k0 : wd % 2 ^ 2 = 2 := pk0 hwd hfit rfl rfl
  have k1 : wd / 2 ^ 2 % 2 ^ 2 = 0 := pk hwd hfit 1 rfl rfl rfl
  have f2 : fld wd 4 2 = m := fld_eq (pk hwd hfit 2 rfl rfl rfl)
  have k3 : wd / 2 ^ 6 % 2 ^ 2 = 1 := pk hwd hfit 3 rfl rfl rfl
  have k4 : wd / 2 ^ 8 % 2 ^ 4 = 0 := pk hwd hfit 4 rfl rfl rfl
  have f5 : fld wd 12 4 = a := fld_eq (pk hwd hfit 5 rfl rfl rfl)
  have k6 : wd / 2 ^ 16 % 2 ^ 2 = 0 := pk hwd hfit 6 rfl rfl rfl
  have f7 : fld wd 18 6 = d := fld_eq (pk hwd hfit 7 rfl rfl rfl)
  have hm : wd / 2 ^ 24 % 2 ^ 7 = 78 := pk hwd hfit 8 rfl rfl rfl
  have he : bit wd 31 = e := bit_eq (pk hwd hfit 9 rfl rfl rfl)
  rw [short_4E hm, h32]
  simp only [decMajor4E, k0, k1, f2, k3, k4, f5, k6, f7, he, and_self, ite_true, ite_false, reduceIte]

theorem RoundTrip.vvoteCnt (e : Bool) (d : BitVec 6) (a : BitVec 4) (m : BitVec 2) : RoundTrip.Statement (.vvoteCnt e d a m) := by
  intro _ _
  have hwd : encode (.vvoteCnt e d a m) = pack [2, 2, 2, 2, 4, 4, 2, 6, 7, 1] [2, 0, m.toNat, 2, 0, a.toNat, 0, d.toNat, 78, e.toNat] := by
    show word e 0x4E000082 [put d 18, put a 12, put m 4] = _
    simp only [word, put, eBit_eq, pack]
    generalize m.toNat = v2; generalize a.toNat = v5; generalize d.toNat = v7; generalize e.toNat = v9; omega
  have hfit : Fits [2, 2, 2, 2, 4, 4, 2, 6, 7, 1] [2, 0, m.toNat, 2, 0, a.toNat, 0, d.toNat, 78, e.toNat] := ⟨by decide, by decide, m.isLt, by decide, by decide, a.isLt, by decide, d.isLt, by decide, e.toNat_lt, trivial⟩
  revert hwd hfit; generalize encode _ = wd; intro hw hfit
  have hwd := And.intro hw (show ([2, 2, 2, 2, 4, 4, 2, 6, 7, 1] : List Nat).length = ([2, 0, m.toNat, 2, 0, a.toNat, 0, d.toNat, 78, e.toNat] : List Nat).length from rfl)
  have h32 : wd % 2 ^ 32 = wd := pkw hwd hfit rfl
  have k0 : wd % 2 ^ 2 = 2 := pk0 hwd hfit rfl rfl
  have k1 : wd / 2 ^ 2 % 2 ^ 2 = 0 := pk hwd hfit 1 rfl rfl rfl
  have f2 : fld wd 4 2 = m := fld_eq (pk hwd hfit 2 rfl rfl rfl)
  have k3 : wd / 2 ^ 6 % 2 ^ 2 = 2 := pk hwd hfit 3 rfl rfl rfl
  have k4 : wd / 2 ^ 8 % 2 ^ 4 = 0 := pk hwd hfit 4 rfl rfl rfl
  have f5 : fld wd 12 4 = a := fld_eq (pk hwd hfit 5 rfl rfl rfl)
  have k6 : wd / 2 ^ 16 % 2 ^ 2 = 0 := pk hwd hfit 6 rfl rfl rfl
  have f7 : fld wd 18 6 = d := fld_eq (pk hwd hfit 7 rfl rfl rfl)
  have hm : wd / 2 ^ 24 % 2 ^ 7 = 78 := pk hwd hfit 8 rfl rfl rfl
  have he : bit wd 31 = e := bit_eq (pk hwd hfit 9 rfl rfl rfl)
  rw [short_4E hm, h32]
  simp only [decMajor4E, k0, k1, f2, k3, k4, f5, k6, f7, he, and_self, ite_true, ite_false, reduceIte]

theorem RoundTrip.vmaxexp (e : Bool) (a : BitVec 6) (f k : BitVec 3) (m : BitVec 2) (l : BitVec 1) : RoundTrip.Statement (.vmaxexp e a f k m l) := by
  intro _ _
  have hwd : encode (.vmaxexp e a f k m l) = pack [2, 1, 1, 2, 3, 3, 6, 6, 7, 1] [0, l.toNat, 0, m.toNat, k.toNat, f.toNat, a.toNat, 0, 79, e.toNat] := by
    show word e 0x4F000000 [put a 12, put f 9, put k 6, put m 4, put l 2] = _
    simp only [word, put, eBit_eq, pack]
    generalize l.toNat = v1; generalize m.toNat = v3; generalize k.toNat = v4; generalize f.toNat = v5; generalize a.toNat = v6; generalize e.toNat = v9; omega
  have hfit : Fits [2, 1, 1, 2, 3, 3, 6, 6, 7, 1] [0, l.toNat, 0, m.toNat, k.toNat, f.toNat, a.toNat, 0, 79, e.toNat] := ⟨by decide, l.isLt, by decide, m.isLt, k.isLt, f.isLt, a.isLt, by decide, by decide, e.toNat_lt, trivial⟩
  revert hwd hfit; generalize encode _ = wd; intro hw hfit
  have hwd := And.intro hw (show ([2, 1, 1, 2, 3, 3, 6, 6, 7, 1] : List Nat).length = ([0, l.toNat, 0, m.toNat, k.toNat, f.toNat, a.toNat, 0, 79, e.toNat] : List Nat).length from rfl)
  have h32 : wd % 2 ^ 32 = wd := pkw hwd hfit rfl
  have k0 : wd % 2 ^ 2 = 0 := pk0 hwd hfit rfl rfl
  have f1 : fld wd 2 1 = l := fld_eq (pk hwd hfit 1 rfl rfl rfl)
  have k2 : wd / 2 ^ 3 % 2 ^ 1 = 0 := pk hwd hfit 2 rfl rfl rfl
  have f3 : fld wd 4 2 = m := fld_eq (pk hwd hfit 3 rfl rfl rfl)
  have f4 : fld wd 6 3 = k := fld_eq (pk hwd hfit 4 rfl rfl rfl)
  have f5 : fld wd 9 3 = f := fld_eq (pk hwd hfit 5 rfl rfl rfl)
  have f6 : fld wd 12 6 = a := fld_eq (pk hwd hfit 6 rfl rfl rfl)
  have k7 : wd / 2 ^ 18 % 2 ^ 6 = 0 := pk hwd hfit 7 rfl rfl rfl
  have hm : wd / 2 ^ 24 % 2 ^ 7 = 79 := pk hwd hfit 8 rfl rfl rfl
  have he : bit wd 31 = e := bit_eq (pk hwd hfit 9 rfl rfl rfl)
  rw [short_4F hm, h32]
  simp only [decMajor4F, k0, f1, k2, f3, f4, f5, f6, k7, he, and_self, ite_true, ite_false, reduceIte]

theorem RoundTrip.vquant (e : Bool) (d a : BitVec 6) (f k : BitVec 3) (m : BitVec 2) (l : BitVec 1) : RoundTrip.Statement (.vquant e d a f k m l) := by
  intro _ _
  have hwd : encode (.vquant e d a f k m l) = pack [2, 1, 1, 2, 3, 3, 6, 6, 7, 1] [1, l.toNat, 0, m.toNat, k.toNat, f.toNat, a.toNat, d.toNat, 79, e.toNat] := by
    show word e 0x4F000001 [put d 18, put a 12, put f 9, put k 6, put m 4, put l 2] = _
    simp only [word, put, eBit_eq, pack]
    generalize l.toNat = v1; generalize m.toNat = v3; generalize k.toNat = v4; generalize f.toNat = v5; generalize a.toNat = v6; generalize d.toNat = v7; generalize e.toNat = v9; omega
  have hfit : Fits [2, 1, 1, 2, 3, 3, 6, 6, 7, 1] [1, l.toNat, 0, m.toNat, k.toNat, f.toNat, a.toNat, d.toNat, 79, e.toNat] := ⟨by decide, l.isLt, by decide, m.isLt, k.isLt, f.isLt, a.isLt, d.isLt, by decide, e.toNat_lt, trivial⟩
  revert hwd hfit; generalize encode _ = wd; intro hw hfit
  have hwd := And.intro hw (show ([2, 1, 1, 2, 3, 3, 6, 6, 7, 1] : List Nat).length = ([1, l.toNat, 0, m.toNat, k.toNat, f.toNat, a.toNat, d.toNat, 79, e.toNat] : List Nat).length from rfl)
  have h32 : wd % 2 ^ 32 = wd := pkw hwd hfit rfl
  have k0 : wd % 2 ^ 2 = 1 := pk0 hwd hfit rfl rfl
  have f1 : fld wd 2 1 = l := fld_eq (pk hwd hfit 1 rfl rfl rfl)
  have k2 : wd / 2 ^ 3 % 2 ^ 1 = 0 := pk hwd hfit 2 rfl rfl rfl
  have f3 : fld wd 4 2 = m := fld_eq (pk hwd hfit 3 rfl rfl rfl)
  have f4 : fld wd 6 3 = k := fld_eq (pk hwd hfit 4 rfl rfl rfl)
  have f5 : fld wd 9 3 = f := fld_eq (pk hwd hfit 5 rfl rfl rfl)
  have f6 : fld wd 12 6 = a := fld_eq (pk hwd hfit 6 rfl rfl rfl)
  have f7 : fld wd 18 6 = d := fld_eq (pk hwd hfit 7 rfl rfl rfl)
  have hm : wd / 2 ^ 24 % 2 ^ 7 = 79 := pk hwd hfit 8 rfl rfl rfl
  have he : bit wd 31 = e := bit_eq (pk hwd hfit 9 rfl rfl rfl)
  rw [short_4F hm, h32]
  simp only [decMajor4F, k0, f1, k2, f3, f4, f5, f6, f7, he, and_self, ite_true, ite_false, reduceIte]

theorem RoundTrip.vdequant (e : Bool) (d a : BitVec 6) (k : BitVec 3) (m : BitVec 2) (l : BitVec 1) : RoundTrip.Statement (.vdequant e d a k m l) := by
  intro _ _
  have hwd : encode (.vdequant e d a k m l) = pack [2, 1, 1, 2, 3, 3, 6, 6, 7, 1] [2, l.toNat, 0, m.toNat, k.toNat, 0, a.toNat, d.toNat, 79, e.toNat] := by
    show word e 0x4F000002 [put d 18, put a 12, put k 6, put m 4, put l 2] = _
    simp only [word, put, eBit_eq, pack]
    generalize l.toNat = v1; generalize m.toNat = v3; generalize k.toNat = v4; generalize a.toNat = v6; generalize d.toNat = v7; generalize e.toNat = v9; omega
  have hfit : Fits [2, 1, 1, 2, 3, 3, 6, 6, 7, 1] [2, l.toNat, 0, m.toNat, k.toNat, 0, a.toNat, d.toNat, 79, e.toNat] := ⟨by decide, l.isLt, by decide, m.isLt, k.isLt, by decide, a.isLt, d.isLt, by decide, e.toNat_lt, trivial⟩
  revert hwd hfit; generalize encode _ = wd; intro hw hfit
  have hwd := And.intro hw (show ([2, 1, 1, 2, 3, 3, 6, 6, 7, 1] : List Nat).length = ([2, l.toNat, 0, m.toNat, k.toNat, 0, a.toNat, d.toNat, 79, e.toNat] : List Nat).length from rfl)
  have h32 : wd % 2 ^ 32 = wd := pkw hwd hfit rfl
  have k0 : wd % 2 ^ 2 = 2 := pk0 hwd hfit rfl rfl
  have f1 : fld wd 2 1 = l := fld_eq (pk hwd hfit 1 rfl rfl rfl)
  have k2 : wd / 2 ^ 3 % 2 ^ 1 = 0 := pk hwd hfit 2 rfl rfl rfl
  have f3 : fld wd 4 2 = m := fld_eq (pk hwd hfit 3 rfl rfl rfl)
  have f4 : fld wd 6 3 = k := fld_eq (pk hwd hfit 4 rfl rfl rfl)
  have k5 : wd / 2 ^ 9 % 2 ^ 3 = 0 := pk hwd hfit 5 rfl rfl rfl
  have f6 : fld wd 12 6 = a := fld_eq (pk hwd hfit 6 rfl rfl rfl)
  have f7 : fld wd 18 6 = d := fld_eq (pk hwd hfit 7 rfl rfl rfl)
  have hm : wd / 2 ^ 24 % 2 ^ 7 = 79 := pk hwd hfit 8 rfl rfl rfl
  have he : bit wd 31 = e := bit_eq (pk hwd hfit 9 rfl rfl rfl)
  rw [short_4F hm, h32]
  simp only [decMajor4F, k0, f1, k2, f3, f4, k5, f6, f7, he, and_self, ite_true, ite_false, reduceIte]

theorem RoundTrip.sld (e : Bool) (d a : BitVec 6) (c : BitVec 4) (w : BitVec 2) (o : BitVec 6) : RoundTrip.Statement (.sld e d a c w o) := by
  intro _ _
  have hwd : encode (.sld e d a c w o) = pack [6, 2, 4, 6, 6, 7, 1] [o.toNat, w.toNat, c.toNat, a.toNat, d.toNat, 80, e.toNat] := by
    show word e 0x50000000 [put d 18, put a 12, put c 8, put w 6, put o 0] = _
    simp only [word, put, eBit_eq, pack]
    generalize o.toNat = v0; generalize w.toNat = v1; generalize c.toNat = v2; generalize a.toNat = v3; generalize d.toNat = v4; generalize e.toNat = v6; omega
  have hfit : Fits [6, 2, 4, 6, 6, 7, 1] [o.toNat, w.toNat, c.toNat, a.toNat, d.toNat, 80, e.toNat] := ⟨o.isLt, w.isLt, c.isLt, a.isLt, d.isLt, by decide, e.toNat_lt, trivial⟩
  revert hwd hfit; generalize encode _ = wd; intro hw hfit
  have hwd := And.intro hw (show ([6, 2, 4, 6, 6, 7, 1] : List Nat).length = ([o.toNat, w.toNat, c.toNat, a.toNat, d.toNat, 80, e.toNat] : List Nat).length from rfl)
  have h32 : wd % 2 ^ 32 = wd := pkw hwd hfit rfl
  have f0 : fld wd 0 6 = o := fld_eq (pk hwd hfit 0 rfl rfl rfl)
  have f1 : fld wd 6 2 = w := fld_eq (pk hwd hfit 1 rfl rfl rfl)
  have f2 : fld wd 8 4 = c := fld_eq (pk hwd hfit 2 rfl rfl rfl)
  have f3 : fld wd 12 6 = a := fld_eq (pk hwd hfit 3 rfl rfl rfl)
  have f4 : fld wd 18 6 = d := fld_eq (pk hwd hfit 4 rfl rfl rfl)
  have hm : wd / 2 ^ 24 % 2 ^ 7 = 80 := pk hwd hfit 5 rfl rfl rfl
  have he : bit wd 31 = e := bit_eq (pk hwd hfit 6 rfl rfl rfl)
  rw [short_50 hm, h32]
  simp only [decMajor50, f0, f1, f2, f3, f4, he, and_self, ite_true, ite_false, reduceIte]

theorem RoundTrip.sst (e : Bool) (d a : BitVec 6) (c : BitVec 4) (w : BitVec 2) (o : BitVec 6) : RoundTrip.Statement (.sst e d a c w o) := by
  intro _ _
  have hwd : encode (.sst e d a c w o) = pack [6, 2, 4, 6, 6, 7, 1] [o.toNat, w.toNat, c.toNat, a.toNat, d.toNat, 81, e.toNat] := by
    show word e 0x51000000 [put d 18, put a 12, put c 8, put w 6, put o 0] = _
    simp only [word, put, eBit_eq, pack]
    generalize o.toNat = v0; generalize w.toNat = v1; generalize c.toNat = v2; generalize a.toNat = v3; generalize d.toNat = v4; generalize e.toNat = v6; omega
  have hfit : Fits [6, 2, 4, 6, 6, 7, 1] [o.toNat, w.toNat, c.toNat, a.toNat, d.toNat, 81, e.toNat] := ⟨o.isLt, w.isLt, c.isLt, a.isLt, d.isLt, by decide, e.toNat_lt, trivial⟩
  revert hwd hfit; generalize encode _ = wd; intro hw hfit
  have hwd := And.intro hw (show ([6, 2, 4, 6, 6, 7, 1] : List Nat).length = ([o.toNat, w.toNat, c.toNat, a.toNat, d.toNat, 81, e.toNat] : List Nat).length from rfl)
  have h32 : wd % 2 ^ 32 = wd := pkw hwd hfit rfl
  have f0 : fld wd 0 6 = o := fld_eq (pk hwd hfit 0 rfl rfl rfl)
  have f1 : fld wd 6 2 = w := fld_eq (pk hwd hfit 1 rfl rfl rfl)
  have f2 : fld wd 8 4 = c := fld_eq (pk hwd hfit 2 rfl rfl rfl)
  have f3 : fld wd 12 6 = a := fld_eq (pk hwd hfit 3 rfl rfl rfl)
  have f4 : fld wd 18 6 = d := fld_eq (pk hwd hfit 4 rfl rfl rfl)
  have hm : wd / 2 ^ 24 % 2 ^ 7 = 81 := pk hwd hfit 5 rfl rfl rfl
  have he : bit wd 31 = e := bit_eq (pk hwd hfit 6 rfl rfl rfl)
  rw [short_51 hm, h32]
  simp only [decMajor51, f0, f1, f2, f3, f4, he, and_self, ite_true, ite_false, reduceIte]

theorem RoundTrip.vld (e : Bool) (d a : BitVec 6) (c : BitVec 4) (m : BitVec 2) (o : BitVec 6) : RoundTrip.Statement (.vld e d a c m o) := by
  intro _ _
  have hwd : encode (.vld e d a c m o) = pack [6, 2, 4, 6, 6, 7, 1] [o.toNat, m.toNat, c.toNat, a.toNat, d.toNat, 82, e.toNat] := by
    show word e 0x52000000 [put d 18, put a 12, put c 8, put m 6, put o 0] = _
    simp only [word, put, eBit_eq, pack]
    generalize o.toNat = v0; generalize m.toNat = v1; generalize c.toNat = v2; generalize a.toNat = v3; generalize d.toNat = v4; generalize e.toNat = v6; omega
  have hfit : Fits [6, 2, 4, 6, 6, 7, 1] [o.toNat, m.toNat, c.toNat, a.toNat, d.toNat, 82, e.toNat] := ⟨o.isLt, m.isLt, c.isLt, a.isLt, d.isLt, by decide, e.toNat_lt, trivial⟩
  revert hwd hfit; generalize encode _ = wd; intro hw hfit
  have hwd := And.intro hw (show ([6, 2, 4, 6, 6, 7, 1] : List Nat).length = ([o.toNat, m.toNat, c.toNat, a.toNat, d.toNat, 82, e.toNat] : List Nat).length from rfl)
  have h32 : wd % 2 ^ 32 = wd := pkw hwd hfit rfl
  have f0 : fld wd 0 6 = o := fld_eq (pk hwd hfit 0 rfl rfl rfl)
  have f1 : fld wd 6 2 = m := fld_eq (pk hwd hfit 1 rfl rfl rfl)
  have f2 : fld wd 8 4 = c := fld_eq (pk hwd hfit 2 rfl rfl rfl)
  have f3 : fld wd 12 6 = a := fld_eq (pk hwd hfit 3 rfl rfl rfl)
  have f4 : fld wd 18 6 = d := fld_eq (pk hwd hfit 4 rfl rfl rfl)
  have hm : wd / 2 ^ 24 % 2 ^ 7 = 82 := pk hwd hfit 5 rfl rfl rfl
  have he : bit wd 31 = e := bit_eq (pk hwd hfit 6 rfl rfl rfl)
  rw [short_52 hm, h32]
  simp only [decMajor52, f0, f1, f2, f3, f4, he, and_self, ite_true, ite_false, reduceIte]

theorem RoundTrip.vst (e : Bool) (d a : BitVec 6) (c : BitVec 4) (m : BitVec 2) (o : BitVec 6) : RoundTrip.Statement (.vst e d a c m o) := by
  intro _ _
  have hwd : encode (.vst e d a c m o) = pack [6, 2, 4, 6, 6, 7, 1] [o.toNat, m.toNat, c.toNat, a.toNat, d.toNat, 83, e.toNat] := by
    show word e 0x53000000 [put d 18, put a 12, put c 8, put m 6, put o 0] = _
    simp only [word, put, eBit_eq, pack]
    generalize o.toNat = v0; generalize m.toNat = v1; generalize c.toNat = v2; generalize a.toNat = v3; generalize d.toNat = v4; generalize e.toNat = v6; omega
  have hfit : Fits [6, 2, 4, 6, 6, 7, 1] [o.toNat, m.toNat, c.toNat, a.toNat, d.toNat, 83, e.toNat] := ⟨o.isLt, m.isLt, c.isLt, a.isLt, d.isLt, by decide, e.toNat_lt, trivial⟩
  revert hwd hfit; generalize encode _ = wd; intro hw hfit
  have hwd := And.intro hw (show ([6, 2, 4, 6, 6, 7, 1] : List Nat).length = ([o.toNat, m.toNat, c.toNat, a.toNat, d.toNat, 83, e.toNat] : List Nat).length from rfl)
  have h32 : wd % 2 ^ 32 = wd := pkw hwd hfit rfl
  have f0 : fld wd 0 6 = o := fld_eq (pk hwd hfit 0 rfl rfl rfl)
  have f1 : fld wd 6 2 = m := fld_eq (pk hwd hfit 1 rfl rfl rfl)
  have f2 : fld wd 8 4 = c := fld_eq (pk hwd hfit 2 rfl rfl rfl)
  have f3 : fld wd 12 6 = a := fld_eq (pk hwd hfit 3 rfl rfl rfl)
  have f4 : fld wd 18 6 = d := fld_eq (pk hwd hfit 4 rfl rfl rfl)
  have hm : wd / 2 ^ 24 % 2 ^ 7 = 83 := pk hwd hfit 5 rfl rfl rfl
  have he : bit wd 31 = e := bit_eq (pk hwd hfit 6 rfl rfl rfl)
  rw [short_53 hm, h32]
  simp only [decMajor53, f0, f1, f2, f3, f4, he, and_self, ite_true, ite_false, reduceIte]

theorem RoundTrip.vlds (e : Bool) (d a b : BitVec 6) (c : BitVec 4) (m : BitVec 1) : RoundTrip.Statement (.vlds e d a b c m) := by
  intro _ _
  have hwd : encode (.vlds e d a b c m) = pack [1, 1, 4, 6, 6, 6, 7, 1] [m.toNat, 0, c.toNat, b.toNat, a.toNat, d.toNat, 84, e.toNat] := by
    show word e 0x54000000 [put d 18, put a 12, put b 6, put c 2, put m 0] = _
    simp only [word, put, eBit_eq, pack]
    generalize m.toNat = v0; generalize c.toNat = v2; generalize b.toNat = v3; generalize a.toNat = v4; generalize d.toNat = v5; generalize e.toNat = v7; omega
  have hfit : Fits [1, 1, 4, 6, 6, 6, 7, 1] [m.toNat, 0, c.toNat, b.toNat, a.toNat, d.toNat, 84, e.toNat] := ⟨m.isLt, by decide, c.isLt, b.isLt, a.isLt, d.isLt, by decide, e.toNat_lt, trivial⟩
  revert hwd hfit; generalize encode _ = wd; intro hw hfit
  have hwd := And.intro hw (show ([1, 1, 4, 6, 6, 6, 7, 1] : List Nat).length = ([m.toNat, 0, c.toNat, b.toNat, a.toNat, d.toNat, 84, e.toNat] : List Nat).length from rfl)
  have h32 : wd % 2 ^ 32 = wd := pkw hwd hfit rfl
  have f0 : fld wd 0 1 = m := fld_eq (pk hwd hfit 0 rfl rfl rfl)
  have k1 : wd / 2 ^ 1 % 2 ^ 1 = 0 := pk hwd hfit 1 rfl rfl rfl
  have f2 : fld wd 2 4 = c := fld_eq (pk hwd hfit 2 rfl rfl rfl)
  have f3 : fld wd 6 6 = b := fld_eq (pk hwd hfit 3 rfl rfl rfl)
  have f4 : fld wd 12 6 = a := fld_eq (pk hwd hfit 4 rfl rfl rfl)
  have f5 : fld wd 18 6 = d := fld_eq (pk hwd hfit 5 rfl rfl rfl)
  have hm : wd / 2 ^ 24 % 2 ^ 7 = 84 := pk hwd hfit 6 rfl rfl rfl
  have he : bit wd 31 = e := bit_eq (pk hwd hfit 7 rfl rfl rfl)
  rw [short_54 hm, h32]
  simp only [decMajor54, f0, k1, f2, f3, f4, f5, he, and_self, ite_true, ite_false, reduceIte]

theorem RoundTrip.vsts (e : Bool) (d a b : BitVec 6) (c : BitVec 4) (m : BitVec 1) : RoundTrip.Statement (.vsts e d a b c m) := by
  intro _ _
  have hwd : encode (.vsts e d a b c m) = pack [1, 1, 4, 6, 6, 6, 7, 1] [m.toNat, 1, c.toNat, b.toNat, a.toNat, d.toNat, 84, e.toNat] := by
    show word e 0x54000002 [put d 18, put a 12, put b 6, put c 2, put m 0] = _
    simp only [word, put, eBit_eq, pack]
    generalize m.toNat = v0; generalize c.toNat = v2; generalize b.toNat = v3; generalize a.toNat = v4; generalize d.toNat = v5; generalize e.toNat = v7; omega
  have hfit : Fits [1, 1, 4, 6, 6, 6, 7, 1] [m.toNat, 1, c.toNat, b.toNat, a.toNat, d.toNat, 84, e.toNat] := ⟨m.isLt, by decide, c.isLt, b.isLt, a.isLt, d.isLt, by decide, e.toNat_lt, trivial⟩
  revert hwd hfit; generalize encode _ = wd; intro hw hfit
  have hwd := And.intro hw (show ([1, 1, 4, 6, 6, 6, 7, 1] : List Nat).length = ([m.toNat, 1, c.toNat, b.toNat, a.toNat, d.toNat, 84, e.toNat] : List Nat).length from rfl)
  have h32 : wd % 2 ^ 32 = wd := pkw hwd hfit rfl
  have f0 : fld wd 0 1 = m := fld_eq (pk hwd hfit 0 rfl rfl rfl)
  have k1 : wd / 2 ^ 1 % 2 ^ 1 = 1 := pk hwd hfit 1 rfl rfl rfl
  have f2 : fld wd 2 4 = c := fld_eq (pk hwd hfit 2 rfl rfl rfl)
  have f3 : fld wd 6 6 = b := fld_eq (pk hwd hfit 3 rfl rfl rfl)
  have f4 : fld wd 12 6 = a := fld_eq (pk hwd hfit 4 rfl rfl rfl)
  have f5 : fld wd 18 6 = d := fld_eq (pk hwd hfit 5 rfl rfl rfl)
  have hm : wd / 2 ^ 24 % 2 ^ 7 = 84 := pk hwd hfit 6 rfl rfl rfl
  have he : bit wd 31 = e := bit_eq (pk hwd hfit 7 rfl rfl rfl)
  rw [short_54 hm, h32]
  simp only [decMajor54, f0, k1, f2, f3, f4, f5, he, and_self, ite_true, ite_false, reduceIte]

theorem RoundTrip.vldx (e : Bool) (d a b : BitVec 6) (c : BitVec 4) (m : BitVec 1) : RoundTrip.Statement (.vldx e d a b c m) := by
  intro _ _
  have hwd : encode (.vldx e d a b c m) = pack [1, 1, 4, 6, 6, 6, 7, 1] [m.toNat, 0, c.toNat, b.toNat, a.toNat, d.toNat, 85, e.toNat] := by
    show word e 0x55000000 [put d 18, put a 12, put b 6, put c 2, put m 0] = _
    simp only [word, put, eBit_eq, pack]
    generalize m.toNat = v0; generalize c.toNat = v2; generalize b.toNat = v3; generalize a.toNat = v4; generalize d.toNat = v5; generalize e.toNat = v7; omega
  have hfit : Fits [1, 1, 4, 6, 6, 6, 7, 1] [m.toNat, 0, c.toNat, b.toNat, a.toNat, d.toNat, 85, e.toNat] := ⟨m.isLt, by decide, c.isLt, b.isLt, a.isLt, d.isLt, by decide, e.toNat_lt, trivial⟩
  revert hwd hfit; generalize encode _ = wd; intro hw hfit
  have hwd := And.intro hw (show ([1, 1, 4, 6, 6, 6, 7, 1] : List Nat).length = ([m.toNat, 0, c.toNat, b.toNat, a.toNat, d.toNat, 85, e.toNat] : List Nat).length from rfl)
  have h32 : wd % 2 ^ 32 = wd := pkw hwd hfit rfl
  have f0 : fld wd 0 1 = m := fld_eq (pk hwd hfit 0 rfl rfl rfl)
  have k1 : wd / 2 ^ 1 % 2 ^ 1 = 0 := pk hwd hfit 1 rfl rfl rfl
  have f2 : fld wd 2 4 = c := fld_eq (pk hwd hfit 2 rfl rfl rfl)
  have f3 : fld wd 6 6 = b := fld_eq (pk hwd hfit 3 rfl rfl rfl)
  have f4 : fld wd 12 6 = a := fld_eq (pk hwd hfit 4 rfl rfl rfl)
  have f5 : fld wd 18 6 = d := fld_eq (pk hwd hfit 5 rfl rfl rfl)
  have hm : wd / 2 ^ 24 % 2 ^ 7 = 85 := pk hwd hfit 6 rfl rfl rfl
  have he : bit wd 31 = e := bit_eq (pk hwd hfit 7 rfl rfl rfl)
  rw [short_55 hm, h32]
  simp only [decMajor55, f0, k1, f2, f3, f4, f5, he, and_self, ite_true, ite_false, reduceIte]

theorem RoundTrip.vstx (e : Bool) (d a b : BitVec 6) (c : BitVec 4) (m : BitVec 1) : RoundTrip.Statement (.vstx e d a b c m) := by
  intro _ _
  have hwd : encode (.vstx e d a b c m) = pack [1, 1, 4, 6, 6, 6, 7, 1] [m.toNat, 1, c.toNat, b.toNat, a.toNat, d.toNat, 85, e.toNat] := by
    show word e 0x55000002 [put d 18, put a 12, put b 6, put c 2, put m 0] = _
    simp only [word, put, eBit_eq, pack]
    generalize m.toNat = v0; generalize c.toNat = v2; generalize b.toNat = v3; generalize a.toNat = v4; generalize d.toNat = v5; generalize e.toNat = v7; omega
  have hfit : Fits [1, 1, 4, 6, 6, 6, 7, 1] [m.toNat, 1, c.toNat, b.toNat, a.toNat, d.toNat, 85, e.toNat] := ⟨m.isLt, by decide, c.isLt, b.isLt, a.isLt, d.isLt, by decide, e.toNat_lt, trivial⟩
  revert hwd hfit; generalize encode _ = wd; intro hw hfit
  have hwd := And.intro hw (show ([1, 1, 4, 6, 6, 6, 7, 1] : List Nat).length = ([m.toNat, 1, c.toNat, b.toNat, a.toNat, d.toNat, 85, e.toNat] : List Nat).length from rfl)
  have h32 : wd % 2 ^ 32 = wd := pkw hwd hfit rfl
  have f0 : fld wd 0 1 = m := fld_eq (pk hwd hfit 0 rfl rfl rfl)
  have k1 : wd / 2 ^ 1 % 2 ^ 1 = 1 := pk hwd hfit 1 rfl rfl rfl
  have f2 : fld wd 2 4 = c := fld_eq (pk hwd hfit 2 rfl rfl rfl)
  have f3 : fld wd 6 6 = b := fld_eq (pk hwd hfit 3 rfl rfl rfl)
  have f4 : fld wd 12 6 = a := fld_eq (pk hwd hfit 4 rfl rfl rfl)
  have f5 : fld wd 18 6 = d := fld_eq (pk hwd hfit 5 rfl rfl rfl)
  have hm : wd / 2 ^ 24 % 2 ^ 7 = 85 := pk hwd hfit 6 rfl rfl rfl
  have he : bit wd 31 = e := bit_eq (pk hwd hfit 7 rfl rfl rfl)
  rw [short_55 hm, h32]
  simp only [decMajor55, f0, k1, f2, f3, f4, f5, he, and_self, ite_true, ite_false, reduceIte]

theorem RoundTrip.vldff (e : Bool) (d a : BitVec 6) (c : BitVec 4) (m : BitVec 2) (o : BitVec 6) : RoundTrip.Statement (.vldff e d a c m o) := by
  intro _ _
  have hwd : encode (.vldff e d a c m o) = pack [6, 2, 4, 6, 6, 7, 1] [o.toNat, m.toNat, c.toNat, a.toNat, d.toNat, 86, e.toNat] := by
    show word e 0x56000000 [put d 18, put a 12, put c 8, put m 6, put o 0] = _
    simp only [word, put, eBit_eq, pack]
    generalize o.toNat = v0; generalize m.toNat = v1; generalize c.toNat = v2; generalize a.toNat = v3; generalize d.toNat = v4; generalize e.toNat = v6; omega
  have hfit : Fits [6, 2, 4, 6, 6, 7, 1] [o.toNat, m.toNat, c.toNat, a.toNat, d.toNat, 86, e.toNat] := ⟨o.isLt, m.isLt, c.isLt, a.isLt, d.isLt, by decide, e.toNat_lt, trivial⟩
  revert hwd hfit; generalize encode _ = wd; intro hw hfit
  have hwd := And.intro hw (show ([6, 2, 4, 6, 6, 7, 1] : List Nat).length = ([o.toNat, m.toNat, c.toNat, a.toNat, d.toNat, 86, e.toNat] : List Nat).length from rfl)
  have h32 : wd % 2 ^ 32 = wd := pkw hwd hfit rfl
  have f0 : fld wd 0 6 = o := fld_eq (pk hwd hfit 0 rfl rfl rfl)
  have f1 : fld wd 6 2 = m := fld_eq (pk hwd hfit 1 rfl rfl rfl)
  have f2 : fld wd 8 4 = c := fld_eq (pk hwd hfit 2 rfl rfl rfl)
  have f3 : fld wd 12 6 = a := fld_eq (pk hwd hfit 3 rfl rfl rfl)
  have f4 : fld wd 18 6 = d := fld_eq (pk hwd hfit 4 rfl rfl rfl)
  have hm : wd / 2 ^ 24 % 2 ^ 7 = 86 := pk hwd hfit 5 rfl rfl rfl
  have he : bit wd 31 = e := bit_eq (pk hwd hfit 6 rfl rfl rfl)
  rw [short_56 hm, h32]
  simp only [decMajor56, f0, f1, f2, f3, f4, he, and_self, ite_true, ite_false, reduceIte]

theorem RoundTrip.vldw (e : Bool) (d a : BitVec 6) (z s : BitVec 1) (c : BitVec 4) (m : BitVec 1) : RoundTrip.Statement (.vldw e d a z s c m) := by
  intro _ _
  have hwd : encode (.vldw e d a z s c m) = pack [1, 1, 4, 1, 1, 4, 6, 6, 7, 1] [m.toNat, 0, c.toNat, s.toNat, z.toNat, 0, a.toNat, d.toNat, 87, e.toNat] := by
    show word e 0x57000000 [put d 18, put a 12, put z 7, put s 6, put c 2, put m 0] = _
    simp only [word, put, eBit_eq, pack]
    generalize m.toNat = v0; generalize c.toNat = v2; generalize s.toNat = v3; generalize z.toNat = v4; generalize a.toNat = v6; generalize d.toNat = v7; generalize e.toNat = v9; omega
  have hfit : Fits [1, 1, 4, 1, 1, 4, 6, 6, 7, 1] [m.toNat, 0, c.toNat, s.toNat, z.toNat, 0, a.toNat, d.toNat, 87, e.toNat] := ⟨m.isLt, by decide, c.isLt, s.isLt, z.isLt, by decide, a.isLt, d.isLt, by decide, e.toNat_lt, trivial⟩
  revert hwd hfit; generalize encode _ = wd; intro hw hfit
  have hwd := And.intro hw (show ([1, 1, 4, 1, 1, 4, 6, 6, 7, 1] : List Nat).length = ([m.toNat, 0, c.toNat, s.toNat, z.toNat, 0, a.toNat, d.toNat, 87, e.toNat] : List Nat).length from rfl)
  have h32 : wd % 2 ^ 32 = wd := pkw hwd hfit rfl
  have f0 : fld wd 0 1 = m := fld_eq (pk hwd hfit 0 rfl rfl rfl)
  have k1 : wd / 2 ^ 1 % 2 ^ 1 = 0 := pk hwd hfit 1 rfl rfl rfl
  have f2 : fld wd 2 4 = c := fld_eq (pk hwd hfit 2 rfl rfl rfl)
  have f3 : fld wd 6 1 = s := fld_eq (pk hwd hfit 3 rfl rfl rfl)
  have f4 : fld wd 7 1 = z := fld_eq (pk hwd hfit 4 rfl rfl rfl)
  have k5 : wd / 2 ^ 8 % 2 ^ 4 = 0 := pk hwd hfit 5 rfl rfl rfl
  have f6 : fld wd 12 6 = a := fld_eq (pk hwd hfit 6 rfl rfl rfl)
  have f7 : fld wd 18 6 = d := fld_eq (pk hwd hfit 7 rfl rfl rfl)
  have hm : wd / 2 ^ 24 % 2 ^ 7 = 87 := pk hwd hfit 8 rfl rfl rfl
  have he : bit wd 31 = e := bit_eq (pk hwd hfit 9 rfl rfl rfl)
  rw [short_57 hm, h32]
  simp only [decMajor57, f0, k1, f2, f3, f4, k5, f6, f7, he, and_self, ite_true, ite_false, reduceIte]

theorem RoundTrip.vstw (e : Bool) (d a : BitVec 6) (z : BitVec 1) (c : BitVec 4) (m : BitVec 1) : RoundTrip.Statement (.vstw e d a z c m) := by
  intro _ _
  have hwd : encode (.vstw e d a z c m) = pack [1, 1, 4, 1, 1, 4, 6, 6, 7, 1] [m.toNat, 1, c.toNat, 0, z.toNat, 0, a.toNat, d.toNat, 87, e.toNat] := by
    show word e 0x57000002 [put d 18, put a 12, put z 7, put c 2, put m 0] = _
    simp only [word, put, eBit_eq, pack]
    generalize m.toNat = v0; generalize c.toNat = v2; generalize z.toNat = v4; generalize a.toNat = v6; generalize d.toNat = v7; generalize e.toNat = v9; omega
  have hfit : Fits [1, 1, 4, 1, 1, 4, 6, 6, 7, 1] [m.toNat, 1, c.toNat, 0, z.toNat, 0, a.toNat, d.toNat, 87, e.toNat] := ⟨m.isLt, by decide, c.isLt, by decide, z.isLt, by decide, a.isLt, d.isLt, by decide, e.toNat_lt, trivial⟩
  revert hwd hfit; generalize encode _ = wd; intro hw hfit
  have hwd := And.intro hw (show ([1, 1, 4, 1, 1, 4, 6, 6, 7, 1] : List Nat).length = ([m.toNat, 1, c.toNat, 0, z.toNat, 0, a.toNat, d.toNat, 87, e.toNat] : List Nat).length from rfl)
  have h32 : wd % 2 ^ 32 = wd := pkw hwd hfit rfl
  have f0 : fld wd 0 1 = m := fld_eq (pk hwd hfit 0 rfl rfl rfl)
  have k1 : wd / 2 ^ 1 % 2 ^ 1 = 1 := pk hwd hfit 1 rfl rfl rfl
  have f2 : fld wd 2 4 = c := fld_eq (pk hwd hfit 2 rfl rfl rfl)
  have k3 : wd / 2 ^ 6 % 2 ^ 1 = 0 := pk hwd hfit 3 rfl rfl rfl
  have f4 : fld wd 7 1 = z := fld_eq (pk hwd hfit 4 rfl rfl rfl)
  have k5 : wd / 2 ^ 8 % 2 ^ 4 = 0 := pk hwd hfit 5 rfl rfl rfl
  have f6 : fld wd 12 6 = a := fld_eq (pk hwd hfit 6 rfl rfl rfl)
  have f7 : fld wd 18 6 = d := fld_eq (pk hwd hfit 7 rfl rfl rfl)
  have hm : wd / 2 ^ 24 % 2 ^ 7 = 87 := pk hwd hfit 8 rfl rfl rfl
  have he : bit wd 31 = e := bit_eq (pk hwd hfit 9 rfl rfl rfl)
  rw [short_57 hm, h32]
  simp only [decMajor57, f0, k1, f2, k3, f4, k5, f6, f7, he, and_self, ite_true, ite_false, reduceIte]

theorem RoundTrip.vldbp (e : Bool) (d a : BitVec 6) (c : BitVec 4) (m : BitVec 2) (s r : BitVec 1) (k : BitVec 3) : RoundTrip.Statement (.vldbp e d a c m s r k) := by
  intro _ _
  have hwd : encode (.vldbp e d a c m s r k) = pack [3, 1, 1, 1, 2, 4, 6, 6, 7, 1] [k.toNat, r.toNat, s.toNat, 0, m.toNat, c.toNat, a.toNat, d.toNat, 88, e.toNat] := by
    show word e 0x58000000 [put d 18, put a 12, put c 8, put m 6, put s 4, put r 3, put k 0] = _
    simp only [word, put, eBit_eq, pack]
    generalize k.toNat = v0; generalize r.toNat = v1; generalize s.toNat = v2; generalize m.toNat = v4; generalize c.toNat = v5; generalize a.toNat = v6; generalize d.toNat = v7; generalize e.toNat = v9; omega
  have hfit : Fits [3, 1, 1, 1, 2, 4, 6, 6, 7, 1] [k.toNat, r.toNat, s.toNat, 0, m.toNat, c.toNat, a.toNat, d.toNat, 88, e.toNat] := ⟨k.isLt, r.isLt, s.isLt, by decide, m.isLt, c.isLt, a.isLt, d.isLt, by decide, e.toNat_lt, trivial⟩
  revert hwd hfit; generalize encode _ = wd; intro hw hfit
  have hwd := And.intro hw (show ([3, 1, 1, 1, 2, 4, 6, 6, 7, 1] : List Nat).length = ([k.toNat, r.toNat, s.toNat, 0, m.toNat, c.toNat, a.toNat, d.toNat, 88, e.toNat] : List Nat).length from rfl)
  have h32 : wd % 2 ^ 32 = wd := pkw hwd hfit rfl
  have f0 : fld wd 0 3 = k := fld_eq (pk hwd hfit 0 rfl rfl rfl)
  have f1 : fld wd 3 1 = r := fld_eq (pk hwd hfit 1 rfl rfl rfl)
  have f2 : fld wd 4 1 = s := fld_eq (pk hwd hfit 2 rfl rfl rfl)
  have k3 : wd / 2 ^ 5 % 2 ^ 1 = 0 := pk hwd hfit 3 rfl rfl rfl
  have f4 : fld wd 6 2 = m := fld_eq (pk hwd hfit 4 rfl rfl rfl)
  have f5 : fld wd 8 4 = c := fld_eq (pk hwd hfit 5 rfl rfl rfl)
  have f6 : fld wd 12 6 = a := fld_eq (pk hwd hfit 6 rfl rfl rfl)
  have f7 : fld wd 18 6 = d := fld_eq (pk hwd hfit 7 rfl rfl rfl)
  have hm : wd / 2 ^ 24 % 2 ^ 7 = 88 := pk hwd hfit 8 rfl rfl rfl
  have he : bit wd 31 = e := bit_eq (pk hwd hfit 9 rfl rfl rfl)
  rw [short_58 hm, h32]
  simp only [decMajor58, f0, f1, f2, k3, f4, f5, f6, f7, he, and_self, ite_true, ite_false, reduceIte]

theorem RoundTrip.vlseg (e : Bool) (d a : BitVec 6) (k f : BitVec 3) (c : BitVec 4) (m : BitVec 1) : RoundTrip.Statement (.vlseg e d a k f c m) := by
  intro _ _
  have hwd : encode (.vlseg e d a k f c m) = pack [1, 1, 4, 3, 3, 6, 6, 7, 1] [m.toNat, 0, c.toNat, f.toNat, k.toNat, a.toNat, d.toNat, 89, e.toNat] := by
    show word e 0x59000000 [put d 18, put a 12, put k 9, put f 6, put c 2, put m 0] = _
    simp only [word, put, eBit_eq, pack]
    generalize m.toNat = v0; generalize c.toNat = v2; generalize f.toNat = v3; generalize k.toNat = v4; generalize a.toNat = v5; generalize d.toNat = v6; generalize e.toNat = v8; omega
  have hfit : Fits [1, 1, 4, 3, 3, 6, 6, 7, 1] [m.toNat, 0, c.toNat, f.toNat, k.toNat, a.toNat, d.toNat, 89, e.toNat] := ⟨m.isLt, by decide, c.isLt, f.isLt, k.isLt, a.isLt, d.isLt, by decide, e.toNat_lt, trivial⟩
  revert hwd hfit; generalize encode _ = wd; intro hw hfit
  have hwd := And.intro hw (show ([1, 1, 4, 3, 3, 6, 6, 7, 1] : List Nat).length = ([m.toNat, 0, c.toNat, f.toNat, k.toNat, a.toNat, d.toNat, 89, e.toNat] : List Nat).length from rfl)
  have h32 : wd % 2 ^ 32 = wd := pkw hwd hfit rfl
  have f0 : fld wd 0 1 = m := fld_eq (pk hwd hfit 0 rfl rfl rfl)
  have k1 : wd / 2 ^ 1 % 2 ^ 1 = 0 := pk hwd hfit 1 rfl rfl rfl
  have f2 : fld wd 2 4 = c := fld_eq (pk hwd hfit 2 rfl rfl rfl)
  have f3 : fld wd 6 3 = f := fld_eq (pk hwd hfit 3 rfl rfl rfl)
  have f4 : fld wd 9 3 = k := fld_eq (pk hwd hfit 4 rfl rfl rfl)
  have f5 : fld wd 12 6 = a := fld_eq (pk hwd hfit 5 rfl rfl rfl)
  have f6 : fld wd 18 6 = d := fld_eq (pk hwd hfit 6 rfl rfl rfl)
  have hm : wd / 2 ^ 24 % 2 ^ 7 = 89 := pk hwd hfit 7 rfl rfl rfl
  have he : bit wd 31 = e := bit_eq (pk hwd hfit 8 rfl rfl rfl)
  rw [short_59 hm, h32]
  simp only [decMajor59, f0, k1, f2, f3, f4, f5, f6, he, and_self, ite_true, ite_false, reduceIte]

theorem RoundTrip.vsseg (e : Bool) (d a : BitVec 6) (k f : BitVec 3) (c : BitVec 4) (m : BitVec 1) : RoundTrip.Statement (.vsseg e d a k f c m) := by
  intro _ _
  have hwd : encode (.vsseg e d a k f c m) = pack [1, 1, 4, 3, 3, 6, 6, 7, 1] [m.toNat, 1, c.toNat, f.toNat, k.toNat, a.toNat, d.toNat, 89, e.toNat] := by
    show word e 0x59000002 [put d 18, put a 12, put k 9, put f 6, put c 2, put m 0] = _
    simp only [word, put, eBit_eq, pack]
    generalize m.toNat = v0; generalize c.toNat = v2; generalize f.toNat = v3; generalize k.toNat = v4; generalize a.toNat = v5; generalize d.toNat = v6; generalize e.toNat = v8; omega
  have hfit : Fits [1, 1, 4, 3, 3, 6, 6, 7, 1] [m.toNat, 1, c.toNat, f.toNat, k.toNat, a.toNat, d.toNat, 89, e.toNat] := ⟨m.isLt, by decide, c.isLt, f.isLt, k.isLt, a.isLt, d.isLt, by decide, e.toNat_lt, trivial⟩
  revert hwd hfit; generalize encode _ = wd; intro hw hfit
  have hwd := And.intro hw (show ([1, 1, 4, 3, 3, 6, 6, 7, 1] : List Nat).length = ([m.toNat, 1, c.toNat, f.toNat, k.toNat, a.toNat, d.toNat, 89, e.toNat] : List Nat).length from rfl)
  have h32 : wd % 2 ^ 32 = wd := pkw hwd hfit rfl
  have f0 : fld wd 0 1 = m := fld_eq (pk hwd hfit 0 rfl rfl rfl)
  have k1 : wd / 2 ^ 1 % 2 ^ 1 = 1 := pk hwd hfit 1 rfl rfl rfl
  have f2 : fld wd 2 4 = c := fld_eq (pk hwd hfit 2 rfl rfl rfl)
  have f3 : fld wd 6 3 = f := fld_eq (pk hwd hfit 3 rfl rfl rfl)
  have f4 : fld wd 9 3 = k := fld_eq (pk hwd hfit 4 rfl rfl rfl)
  have f5 : fld wd 12 6 = a := fld_eq (pk hwd hfit 5 rfl rfl rfl)
  have f6 : fld wd 18 6 = d := fld_eq (pk hwd hfit 6 rfl rfl rfl)
  have hm : wd / 2 ^ 24 % 2 ^ 7 = 89 := pk hwd hfit 7 rfl rfl rfl
  have he : bit wd 31 = e := bit_eq (pk hwd hfit 8 rfl rfl rfl)
  rw [short_59 hm, h32]
  simp only [decMajor59, f0, k1, f2, f3, f4, f5, f6, he, and_self, ite_true, ite_false, reduceIte]

theorem RoundTrip.vldgl (e : Bool) (d a b : BitVec 6) (c : BitVec 4) (m : BitVec 1) : RoundTrip.Statement (.vldgl e d a b c m) := by
  intro _ _
  have hwd : encode (.vldgl e d a b c m) = pack [1, 1, 4, 6, 6, 6, 7, 1] [m.toNat, 0, c.toNat, b.toNat, a.toNat, d.toNat, 90, e.toNat] := by
    show word e 0x5A000000 [put d 18, put a 12, put b 6, put c 2, put m 0] = _
    simp only [word, put, eBit_eq, pack]
    generalize m.toNat = v0; generalize c.toNat = v2; generalize b.toNat = v3; generalize a.toNat = v4; generalize d.toNat = v5; generalize e.toNat = v7; omega
  have hfit : Fits [1, 1, 4, 6, 6, 6, 7, 1] [m.toNat, 0, c.toNat, b.toNat, a.toNat, d.toNat, 90, e.toNat] := ⟨m.isLt, by decide, c.isLt, b.isLt, a.isLt, d.isLt, by decide, e.toNat_lt, trivial⟩
  revert hwd hfit; generalize encode _ = wd; intro hw hfit
  have hwd := And.intro hw (show ([1, 1, 4, 6, 6, 6, 7, 1] : List Nat).length = ([m.toNat, 0, c.toNat, b.toNat, a.toNat, d.toNat, 90, e.toNat] : List Nat).length from rfl)
  have h32 : wd % 2 ^ 32 = wd := pkw hwd hfit rfl
  have f0 : fld wd 0 1 = m := fld_eq (pk hwd hfit 0 rfl rfl rfl)
  have k1 : wd / 2 ^ 1 % 2 ^ 1 = 0 := pk hwd hfit 1 rfl rfl rfl
  have f2 : fld wd 2 4 = c := fld_eq (pk hwd hfit 2 rfl rfl rfl)
  have f3 : fld wd 6 6 = b := fld_eq (pk hwd hfit 3 rfl rfl rfl)
  have f4 : fld wd 12 6 = a := fld_eq (pk hwd hfit 4 rfl rfl rfl)
  have f5 : fld wd 18 6 = d := fld_eq (pk hwd hfit 5 rfl rfl rfl)
  have hm : wd / 2 ^ 24 % 2 ^ 7 = 90 := pk hwd hfit 6 rfl rfl rfl
  have he : bit wd 31 = e := bit_eq (pk hwd hfit 7 rfl rfl rfl)
  rw [short_5A hm, h32]
  simp only [decMajor5A, f0, k1, f2, f3, f4, f5, he, and_self, ite_true, ite_false, reduceIte]

theorem RoundTrip.vstsc (e : Bool) (d a b : BitVec 6) (c : BitVec 4) (m : BitVec 1) : RoundTrip.Statement (.vstsc e d a b c m) := by
  intro _ _
  have hwd : encode (.vstsc e d a b c m) = pack [1, 1, 4, 6, 6, 6, 7, 1] [m.toNat, 1, c.toNat, b.toNat, a.toNat, d.toNat, 90, e.toNat] := by
    show word e 0x5A000002 [put d 18, put a 12, put b 6, put c 2, put m 0] = _
    simp only [word, put, eBit_eq, pack]
    generalize m.toNat = v0; generalize c.toNat = v2; generalize b.toNat = v3; generalize a.toNat = v4; generalize d.toNat = v5; generalize e.toNat = v7; omega
  have hfit : Fits [1, 1, 4, 6, 6, 6, 7, 1] [m.toNat, 1, c.toNat, b.toNat, a.toNat, d.toNat, 90, e.toNat] := ⟨m.isLt, by decide, c.isLt, b.isLt, a.isLt, d.isLt, by decide, e.toNat_lt, trivial⟩
  revert hwd hfit; generalize encode _ = wd; intro hw hfit
  have hwd := And.intro hw (show ([1, 1, 4, 6, 6, 6, 7, 1] : List Nat).length = ([m.toNat, 1, c.toNat, b.toNat, a.toNat, d.toNat, 90, e.toNat] : List Nat).length from rfl)
  have h32 : wd % 2 ^ 32 = wd := pkw hwd hfit rfl
  have f0 : fld wd 0 1 = m := fld_eq (pk hwd hfit 0 rfl rfl rfl)
  have k1 : wd / 2 ^ 1 % 2 ^ 1 = 1 := pk hwd hfit 1 rfl rfl rfl
  have f2 : fld wd 2 4 = c := fld_eq (pk hwd hfit 2 rfl rfl rfl)
  have f3 : fld wd 6 6 = b := fld_eq (pk hwd hfit 3 rfl rfl rfl)
  have f4 : fld wd 12 6 = a := fld_eq (pk hwd hfit 4 rfl rfl rfl)
  have f5 : fld wd 18 6 = d := fld_eq (pk hwd hfit 5 rfl rfl rfl)
  have hm : wd / 2 ^ 24 % 2 ^ 7 = 90 := pk hwd hfit 6 rfl rfl rfl
  have he : bit wd 31 = e := bit_eq (pk hwd hfit 7 rfl rfl rfl)
  rw [short_5A hm, h32]
  simp only [decMajor5A, f0, k1, f2, f3, f4, f5, he, and_self, ite_true, ite_false, reduceIte]

theorem RoundTrip.sll (e : Bool) (d a : BitVec 6) (c : BitVec 4) (w : BitVec 1) : RoundTrip.Statement (.sll e d a c w) := by
  intro _ _
  have hwd : encode (.sll e d a c w) = pack [1, 1, 4, 6, 6, 6, 7, 1] [0, w.toNat, c.toNat, 0, a.toNat, d.toNat, 91, e.toNat] := by
    show word e 0x5B000000 [put d 18, put a 12, put c 2, put w 1] = _
    simp only [word, put, eBit_eq, pack]
    generalize w.toNat = v1; generalize c.toNat = v2; generalize a.toNat = v4; generalize d.toNat = v5; generalize e.toNat = v7; omega
  have hfit : Fits [1, 1, 4, 6, 6, 6, 7, 1] [0, w.toNat, c.toNat, 0, a.toNat, d.toNat, 91, e.toNat] := ⟨by decide, w.isLt, c.isLt, by decide, a.isLt, d.isLt, by decide, e.toNat_lt, trivial⟩
  revert hwd hfit; generalize encode _ = wd; intro hw hfit
  have hwd := And.intro hw (show ([1, 1, 4, 6, 6, 6, 7, 1] : List Nat).length = ([0, w.toNat, c.toNat, 0, a.toNat, d.toNat, 91, e.toNat] : List Nat).length from rfl)
  have h32 : wd % 2 ^ 32 = wd := pkw hwd hfit rfl
  have k0 : wd % 2 ^ 1 = 0 := pk0 hwd hfit rfl rfl
  have f1 : fld wd 1 1 = w := fld_eq (pk hwd hfit 1 rfl rfl rfl)
  have f2 : fld wd 2 4 = c := fld_eq (pk hwd hfit 2 rfl rfl rfl)
  have k3 : wd / 2 ^ 6 % 2 ^ 6 = 0 := pk hwd hfit 3 rfl rfl rfl
  have f4 : fld wd 12 6 = a := fld_eq (pk hwd hfit 4 rfl rfl rfl)
  have f5 : fld wd 18 6 = d := fld_eq (pk hwd hfit 5 rfl rfl rfl)
  have hm : wd / 2 ^ 24 % 2 ^ 7 = 91 := pk hwd hfit 6 rfl rfl rfl
  have he : bit wd 31 = e := bit_eq (pk hwd hfit 7 rfl rfl rfl)
  rw [short_5B hm, h32]
  simp only [decMajor5B, k0, f1, f2, k3, f4, f5, he, and_self, ite_true, ite_false, reduceIte]

theorem RoundTrip.ssc (e : Bool) (d a b : BitVec 6) (c : BitVec 4) (w : BitVec 1) : RoundTrip.Statement (.ssc e d a b c w) := by
  intro _ _
  have hwd : encode (.ssc e d a b c w) = pack [1, 1, 4, 6, 6, 6, 7, 1] [1, w.toNat, c.toNat, b.toNat, a.toNat, d.toNat, 91, e.toNat] := by
    show word e 0x5B000001 [put d 18, put a 12, put b 6, put c 2, put w 1] = _
    simp only [word, put, eBit_eq, pack]
    generalize w.toNat = v1; generalize c.toNat = v2; generalize b.toNat = v3; generalize a.toNat = v4; generalize d.toNat = v5; generalize e.toNat = v7; omega
  have hfit : Fits [1, 1, 4, 6, 6, 6, 7, 1] [1, w.toNat, c.toNat, b.toNat, a.toNat, d.toNat, 91, e.toNat] := ⟨by decide, w.isLt, c.isLt, b.isLt, a.isLt, d.isLt, by decide, e.toNat_lt, trivial⟩
  revert hwd hfit; generalize encode _ = wd; intro hw hfit
  have hwd := And.intro hw (show ([1, 1, 4, 6, 6, 6, 7, 1] : List Nat).length = ([1, w.toNat, c.toNat, b.toNat, a.toNat, d.toNat, 91, e.toNat] : List Nat).length from rfl)
  have h32 : wd % 2 ^ 32 = wd := pkw hwd hfit rfl
  have k0 : wd % 2 ^ 1 = 1 := pk0 hwd hfit rfl rfl
  have f1 : fld wd 1 1 = w := fld_eq (pk hwd hfit 1 rfl rfl rfl)
  have f2 : fld wd 2 4 = c := fld_eq (pk hwd hfit 2 rfl rfl rfl)
  have f3 : fld wd 6 6 = b := fld_eq (pk hwd hfit 3 rfl rfl rfl)
  have f4 : fld wd 12 6 = a := fld_eq (pk hwd hfit 4 rfl rfl rfl)
  have f5 : fld wd 18 6 = d := fld_eq (pk hwd hfit 5 rfl rfl rfl)
  have hm : wd / 2 ^ 24 % 2 ^ 7 = 91 := pk hwd hfit 6 rfl rfl rfl
  have he : bit wd 31 = e := bit_eq (pk hwd hfit 7 rfl rfl rfl)
  rw [short_5B hm, h32]
  simp only [decMajor5B, k0, f1, f2, f3, f4, f5, he, and_self, ite_true, ite_false, reduceIte]

theorem RoundTrip.fence (e : Bool) (s : BitVec 3) (m : BitVec 16) : RoundTrip.Statement (.fence e s m) := by
  intro _ _
  have hwd : encode (.fence e s m) = pack [16, 2, 3, 3, 7, 1] [m.toNat, 0, s.toNat, 0, 92, e.toNat] := by
    show word e 0x5C000000 [put s 18, put m 0] = _
    simp only [word, put, eBit_eq, pack]
    generalize m.toNat = v0; generalize s.toNat = v2; generalize e.toNat = v5; omega
  have hfit : Fits [16, 2, 3, 3, 7, 1] [m.toNat, 0, s.toNat, 0, 92, e.toNat] := ⟨m.isLt, by decide, s.isLt, by decide, by decide, e.toNat_lt, trivial⟩
  revert hwd hfit; generalize encode _ = wd; intro hw hfit
  have hwd := And.intro hw (show ([16, 2, 3, 3, 7, 1] : List Nat).length = ([m.toNat, 0, s.toNat, 0, 92, e.toNat] : List Nat).length from rfl)
  have h32 : wd % 2 ^ 32 = wd := pkw hwd hfit rfl
  have f0 : fld wd 0 16 = m := fld_eq (pk hwd hfit 0 rfl rfl rfl)
  have k1 : wd / 2 ^ 16 % 2 ^ 2 = 0 := pk hwd hfit 1 rfl rfl rfl
  have f2 : fld wd 18 3 = s := fld_eq (pk hwd hfit 2 rfl rfl rfl)
  have k3 : wd / 2 ^ 21 % 2 ^ 3 = 0 := pk hwd hfit 3 rfl rfl rfl
  have hm : wd / 2 ^ 24 % 2 ^ 7 = 92 := pk hwd hfit 4 rfl rfl rfl
  have he : bit wd 31 = e := bit_eq (pk hwd hfit 5 rfl rfl rfl)
  rw [short_5C hm, h32]
  simp only [decMajor5C, f0, k1, f2, k3, he, and_self, ite_true, ite_false, reduceIte]

theorem RoundTrip.barinit (e : Bool) (a b : BitVec 6) : RoundTrip.Statement (.barinit e a b) := by
  intro _ _
  have hwd : encode (.barinit e a b) = pack [6, 4, 2, 6, 6, 7, 1] [b.toNat, 0, 0, a.toNat, 0, 93, e.toNat] := by
    show word e 0x5D000000 [put a 12, put b 0] = _
    simp only [word, put, eBit_eq, pack]
    generalize b.toNat = v0; generalize a.toNat = v3; generalize e.toNat = v6; omega
  have hfit : Fits [6, 4, 2, 6, 6, 7, 1] [b.toNat, 0, 0, a.toNat, 0, 93, e.toNat] := ⟨b.isLt, by decide, by decide, a.isLt, by decide, by decide, e.toNat_lt, trivial⟩
  revert hwd hfit; generalize encode _ = wd; intro hw hfit
  have hwd := And.intro hw (show ([6, 4, 2, 6, 6, 7, 1] : List Nat).length = ([b.toNat, 0, 0, a.toNat, 0, 93, e.toNat] : List Nat).length from rfl)
  have h32 : wd % 2 ^ 32 = wd := pkw hwd hfit rfl
  have f0 : fld wd 0 6 = b := fld_eq (pk hwd hfit 0 rfl rfl rfl)
  have k1 : wd / 2 ^ 6 % 2 ^ 4 = 0 := pk hwd hfit 1 rfl rfl rfl
  have k2 : wd / 2 ^ 10 % 2 ^ 2 = 0 := pk hwd hfit 2 rfl rfl rfl
  have f3 : fld wd 12 6 = a := fld_eq (pk hwd hfit 3 rfl rfl rfl)
  have k4 : wd / 2 ^ 18 % 2 ^ 6 = 0 := pk hwd hfit 4 rfl rfl rfl
  have hm : wd / 2 ^ 24 % 2 ^ 7 = 93 := pk hwd hfit 5 rfl rfl rfl
  have he : bit wd 31 = e := bit_eq (pk hwd hfit 6 rfl rfl rfl)
  rw [short_5D hm, h32]
  simp only [decMajor5D, f0, k1, k2, f3, k4, he, and_self, ite_true, ite_false, reduceIte]

theorem RoundTrip.bararr (e : Bool) (d a b : BitVec 6) : RoundTrip.Statement (.bararr e d a b) := by
  intro _ _
  have hwd : encode (.bararr e d a b) = pack [6, 4, 2, 6, 6, 7, 1] [b.toNat, 0, 1, a.toNat, d.toNat, 93, e.toNat] := by
    show word e 0x5D000400 [put d 18, put a 12, put b 0] = _
    simp only [word, put, eBit_eq, pack]
    generalize b.toNat = v0; generalize a.toNat = v3; generalize d.toNat = v4; generalize e.toNat = v6; omega
  have hfit : Fits [6, 4, 2, 6, 6, 7, 1] [b.toNat, 0, 1, a.toNat, d.toNat, 93, e.toNat] := ⟨b.isLt, by decide, by decide, a.isLt, d.isLt, by decide, e.toNat_lt, trivial⟩
  revert hwd hfit; generalize encode _ = wd; intro hw hfit
  have hwd := And.intro hw (show ([6, 4, 2, 6, 6, 7, 1] : List Nat).length = ([b.toNat, 0, 1, a.toNat, d.toNat, 93, e.toNat] : List Nat).length from rfl)
  have h32 : wd % 2 ^ 32 = wd := pkw hwd hfit rfl
  have f0 : fld wd 0 6 = b := fld_eq (pk hwd hfit 0 rfl rfl rfl)
  have k1 : wd / 2 ^ 6 % 2 ^ 4 = 0 := pk hwd hfit 1 rfl rfl rfl
  have k2 : wd / 2 ^ 10 % 2 ^ 2 = 1 := pk hwd hfit 2 rfl rfl rfl
  have f3 : fld wd 12 6 = a := fld_eq (pk hwd hfit 3 rfl rfl rfl)
  have f4 : fld wd 18 6 = d := fld_eq (pk hwd hfit 4 rfl rfl rfl)
  have hm : wd / 2 ^ 24 % 2 ^ 7 = 93 := pk hwd hfit 5 rfl rfl rfl
  have he : bit wd 31 = e := bit_eq (pk hwd hfit 6 rfl rfl rfl)
  rw [short_5D hm, h32]
  simp only [decMajor5D, f0, k1, k2, f3, f4, he, and_self, ite_true, ite_false, reduceIte]

theorem RoundTrip.barwait (e : Bool) (a b : BitVec 6) : RoundTrip.Statement (.barwait e a b) := by
  intro _ _
  have hwd : encode (.barwait e a b) = pack [6, 4, 2, 6, 6, 7, 1] [b.toNat, 0, 2, a.toNat, 0, 93, e.toNat] := by
    show word e 0x5D000800 [put a 12, put b 0] = _
    simp only [word, put, eBit_eq, pack]
    generalize b.toNat = v0; generalize a.toNat = v3; generalize e.toNat = v6; omega
  have hfit : Fits [6, 4, 2, 6, 6, 7, 1] [b.toNat, 0, 2, a.toNat, 0, 93, e.toNat] := ⟨b.isLt, by decide, by decide, a.isLt, by decide, by decide, e.toNat_lt, trivial⟩
  revert hwd hfit; generalize encode _ = wd; intro hw hfit
  have hwd := And.intro hw (show ([6, 4, 2, 6, 6, 7, 1] : List Nat).length = ([b.toNat, 0, 2, a.toNat, 0, 93, e.toNat] : List Nat).length from rfl)
  have h32 : wd % 2 ^ 32 = wd := pkw hwd hfit rfl
  have f0 : fld wd 0 6 = b := fld_eq (pk hwd hfit 0 rfl rfl rfl)
  have k1 : wd / 2 ^ 6 % 2 ^ 4 = 0 := pk hwd hfit 1 rfl rfl rfl
  have k2 : wd / 2 ^ 10 % 2 ^ 2 = 2 := pk hwd hfit 2 rfl rfl rfl
  have f3 : fld wd 12 6 = a := fld_eq (pk hwd hfit 3 rfl rfl rfl)
  have k4 : wd / 2 ^ 18 % 2 ^ 6 = 0 := pk hwd hfit 4 rfl rfl rfl
  have hm : wd / 2 ^ 24 % 2 ^ 7 = 93 := pk hwd hfit 5 rfl rfl rfl
  have he : bit wd 31 = e := bit_eq (pk hwd hfit 6 rfl rfl rfl)
  rw [short_5D hm, h32]
  simp only [decMajor5D, f0, k1, k2, f3, k4, he, and_self, ite_true, ite_false, reduceIte]

theorem RoundTrip.ipost (e : Bool) (a : BitVec 6) : RoundTrip.Statement (.ipost e a) := by
  intro _ _
  have hwd : encode (.ipost e a) = pack [10, 2, 6, 6, 7, 1] [0, 0, a.toNat, 0, 94, e.toNat] := by
    show word e 0x5E000000 [put a 12] = _
    simp only [word, put, eBit_eq, pack]
    generalize a.toNat = v2; generalize e.toNat = v5; omega
  have hfit : Fits [10, 2, 6, 6, 7, 1] [0, 0, a.toNat, 0, 94, e.toNat] := ⟨by decide, by decide, a.isLt, by decide, by decide, e.toNat_lt, trivial⟩
  revert hwd hfit; generalize encode _ = wd; intro hw hfit
  have hwd := And.intro hw (show ([10, 2, 6, 6, 7, 1] : List Nat).length = ([0, 0, a.toNat, 0, 94, e.toNat] : List Nat).length from rfl)
  have h32 : wd % 2 ^ 32 = wd := pkw hwd hfit rfl
  have k0 : wd % 2 ^ 10 = 0 := pk0 hwd hfit rfl rfl
  have k1 : wd / 2 ^ 10 % 2 ^ 2 = 0 := pk hwd hfit 1 rfl rfl rfl
  have f2 : fld wd 12 6 = a := fld_eq (pk hwd hfit 2 rfl rfl rfl)
  have k3 : wd / 2 ^ 18 % 2 ^ 6 = 0 := pk hwd hfit 3 rfl rfl rfl
  have hm : wd / 2 ^ 24 % 2 ^ 7 = 94 := pk hwd hfit 4 rfl rfl rfl
  have he : bit wd 31 = e := bit_eq (pk hwd hfit 5 rfl rfl rfl)
  rw [short_5E hm, h32]
  simp only [decMajor5E, k0, k1, f2, k3, he, and_self, ite_true, ite_false, reduceIte]

theorem RoundTrip.iwait (e : Bool) (a : BitVec 6) (d : BitVec 5) : RoundTrip.Statement (.iwait e a d) := by
  intro _ _
  have hwd : encode (.iwait e a d) = pack [5, 5, 2, 6, 6, 7, 1] [d.toNat, 0, 1, a.toNat, 0, 94, e.toNat] := by
    show word e 0x5E000400 [put a 12, put d 0] = _
    simp only [word, put, eBit_eq, pack]
    generalize d.toNat = v0; generalize a.toNat = v3; generalize e.toNat = v6; omega
  have hfit : Fits [5, 5, 2, 6, 6, 7, 1] [d.toNat, 0, 1, a.toNat, 0, 94, e.toNat] := ⟨d.isLt, by decide, by decide, a.isLt, by decide, by decide, e.toNat_lt, trivial⟩
  revert hwd hfit; generalize encode _ = wd; intro hw hfit
  have hwd := And.intro hw (show ([5, 5, 2, 6, 6, 7, 1] : List Nat).length = ([d.toNat, 0, 1, a.toNat, 0, 94, e.toNat] : List Nat).length from rfl)
  have h32 : wd % 2 ^ 32 = wd := pkw hwd hfit rfl
  have f0 : fld wd 0 5 = d := fld_eq (pk hwd hfit 0 rfl rfl rfl)
  have k1 : wd / 2 ^ 5 % 2 ^ 5 = 0 := pk hwd hfit 1 rfl rfl rfl
  have k2 : wd / 2 ^ 10 % 2 ^ 2 = 1 := pk hwd hfit 2 rfl rfl rfl
  have f3 : fld wd 12 6 = a := fld_eq (pk hwd hfit 3 rfl rfl rfl)
  have k4 : wd / 2 ^ 18 % 2 ^ 6 = 0 := pk hwd hfit 4 rfl rfl rfl
  have hm : wd / 2 ^ 24 % 2 ^ 7 = 94 := pk hwd hfit 5 rfl rfl rfl
  have he : bit wd 31 = e := bit_eq (pk hwd hfit 6 rfl rfl rfl)
  rw [short_5E hm, h32]
  simp only [decMajor5E, f0, k1, k2, f3, k4, he, and_self, ite_true, ite_false, reduceIte]

theorem RoundTrip.stgpost (e : Bool) (a : BitVec 6) (r s : BitVec 3) : RoundTrip.Statement (.stgpost e a r s) := by
  intro _ _
  have hwd : encode (.stgpost e a r s) = pack [3, 1, 3, 3, 2, 6, 6, 7, 1] [s.toNat, 0, r.toNat, 0, 2, a.toNat, 0, 94, e.toNat] := by
    show word e 0x5E000800 [put a 12, put r 4, put s 0] = _
    simp only [word, put, eBit_eq, pack]
    generalize s.toNat = v0; generalize r.toNat = v2; generalize a.toNat = v5; generalize e.toNat = v8; omega
  have hfit : Fits [3, 1, 3, 3, 2, 6, 6, 7, 1] [s.toNat, 0, r.toNat, 0, 2, a.toNat, 0, 94, e.toNat] := ⟨s.isLt, by decide, r.isLt, by decide, by decide, a.isLt, by decide, by decide, e.toNat_lt, trivial⟩
  revert hwd hfit; generalize encode _ = wd; intro hw hfit
  have hwd := And.intro hw (show ([3, 1, 3, 3, 2, 6, 6, 7, 1] : List Nat).length = ([s.toNat, 0, r.toNat, 0, 2, a.toNat, 0, 94, e.toNat] : List Nat).length from rfl)
  have h32 : wd % 2 ^ 32 = wd := pkw hwd hfit rfl
  have f0 : fld wd 0 3 = s := fld_eq (pk hwd hfit 0 rfl rfl rfl)
  have k1 : wd / 2 ^ 3 % 2 ^ 1 = 0 := pk hwd hfit 1 rfl rfl rfl
  have f2 : fld wd 4 3 = r := fld_eq (pk hwd hfit 2 rfl rfl rfl)
  have k3 : wd / 2 ^ 7 % 2 ^ 3 = 0 := pk hwd hfit 3 rfl rfl rfl
  have k4 : wd / 2 ^ 10 % 2 ^ 2 = 2 := pk hwd hfit 4 rfl rfl rfl
  have f5 : fld wd 12 6 = a := fld_eq (pk hwd hfit 5 rfl rfl rfl)
  have k6 : wd / 2 ^ 18 % 2 ^ 6 = 0 := pk hwd hfit 6 rfl rfl rfl
  have hm : wd / 2 ^ 24 % 2 ^ 7 = 94 := pk hwd hfit 7 rfl rfl rfl
  have he : bit wd 31 = e := bit_eq (pk hwd hfit 8 rfl rfl rfl)
  rw [short_5E hm, h32]
  simp only [decMajor5E, f0, k1, f2, k3, k4, f5, k6, he, and_self, ite_true, ite_false, reduceIte]

theorem RoundTrip.stgwait (e : Bool) (a : BitVec 6) (r : BitVec 3) (p : BitVec 1) (s : BitVec 3) : RoundTrip.Statement (.stgwait e a r p s) := by
  intro _ _
  have hwd : encode (.stgwait e a r p s) = pack [3, 1, 3, 3, 2, 6, 6, 7, 1] [s.toNat, p.toNat, r.toNat, 0, 3, a.toNat, 0, 94, e.toNat] := by
    show word e 0x5E000C00 [put a 12, put r 4, put p 3, put s 0] = _
    simp only [word, put, eBit_eq, pack]
    generalize s.toNat = v0; generalize p.toNat = v1; generalize r.toNat = v2; generalize a.toNat = v5; generalize e.toNat = v8; omega
  have hfit : Fits [3, 1, 3, 3, 2, 6, 6, 7, 1] [s.toNat, p.toNat, r.toNat, 0, 3, a.toNat, 0, 94, e.toNat] := ⟨s.isLt, p.isLt, r.isLt, by decide, by decide, a.isLt, by decide, by decide, e.toNat_lt, trivial⟩
  revert hwd hfit; generalize encode _ = wd; intro hw hfit
  have hwd := And.intro hw (show ([3, 1, 3, 3, 2, 6, 6, 7, 1] : List Nat).length = ([s.toNat, p.toNat, r.toNat, 0, 3, a.toNat, 0, 94, e.toNat] : List Nat).length from rfl)
  have h32 : wd % 2 ^ 32 = wd := pkw hwd hfit rfl
  have f0 : fld wd 0 3 = s := fld_eq (pk hwd hfit 0 rfl rfl rfl)
  have f1 : fld wd 3 1 = p := fld_eq (pk hwd hfit 1 rfl rfl rfl)
  have f2 : fld wd 4 3 = r := fld_eq (pk hwd hfit 2 rfl rfl rfl)
  have k3 : wd / 2 ^ 7 % 2 ^ 3 = 0 := pk hwd hfit 3 rfl rfl rfl
  have k4 : wd / 2 ^ 10 % 2 ^ 2 = 3 := pk hwd hfit 4 rfl rfl rfl
  have f5 : fld wd 12 6 = a := fld_eq (pk hwd hfit 5 rfl rfl rfl)
  have k6 : wd / 2 ^ 18 % 2 ^ 6 = 0 := pk hwd hfit 6 rfl rfl rfl
  have hm : wd / 2 ^ 24 % 2 ^ 7 = 94 := pk hwd hfit 7 rfl rfl rfl
  have he : bit wd 31 = e := bit_eq (pk hwd hfit 8 rfl rfl rfl)
  rw [short_5E hm, h32]
  simp only [decMajor5E, f0, f1, f2, k3, k4, f5, k6, he, and_self, ite_true, ite_false, reduceIte]

theorem RoundTrip.claim (e : Bool) (d a : BitVec 6) : RoundTrip.Statement (.claim e d a) := by
  intro _ _
  have hwd : encode (.claim e d a) = pack [6, 6, 6, 6, 7, 1] [0, 0, a.toNat, d.toNat, 95, e.toNat] := by
    show word e 0x5F000000 [put d 18, put a 12] = _
    simp only [word, put, eBit_eq, pack]
    generalize a.toNat = v2; generalize d.toNat = v3; generalize e.toNat = v5; omega
  have hfit : Fits [6, 6, 6, 6, 7, 1] [0, 0, a.toNat, d.toNat, 95, e.toNat] := ⟨by decide, by decide, a.isLt, d.isLt, by decide, e.toNat_lt, trivial⟩
  revert hwd hfit; generalize encode _ = wd; intro hw hfit
  have hwd := And.intro hw (show ([6, 6, 6, 6, 7, 1] : List Nat).length = ([0, 0, a.toNat, d.toNat, 95, e.toNat] : List Nat).length from rfl)
  have h32 : wd % 2 ^ 32 = wd := pkw hwd hfit rfl
  have k0 : wd % 2 ^ 6 = 0 := pk0 hwd hfit rfl rfl
  have k1 : wd / 2 ^ 6 % 2 ^ 6 = 0 := pk hwd hfit 1 rfl rfl rfl
  have f2 : fld wd 12 6 = a := fld_eq (pk hwd hfit 2 rfl rfl rfl)
  have f3 : fld wd 18 6 = d := fld_eq (pk hwd hfit 3 rfl rfl rfl)
  have hm : wd / 2 ^ 24 % 2 ^ 7 = 95 := pk hwd hfit 4 rfl rfl rfl
  have he : bit wd 31 = e := bit_eq (pk hwd hfit 5 rfl rfl rfl)
  rw [short_5F hm, h32]
  simp only [decMajor5F, k0, k1, f2, f3, he, and_self, ite_true, ite_false, reduceIte]

theorem RoundTrip.waitw (e : Bool) (d a b : BitVec 6) : RoundTrip.Statement (.waitw e d a b) := by
  intro _ _
  have hwd : encode (.waitw e d a b) = pack [6, 6, 6, 6, 7, 1] [1, b.toNat, a.toNat, d.toNat, 95, e.toNat] := by
    show word e 0x5F000001 [put d 18, put a 12, put b 6] = _
    simp only [word, put, eBit_eq, pack]
    generalize b.toNat = v1; generalize a.toNat = v2; generalize d.toNat = v3; generalize e.toNat = v5; omega
  have hfit : Fits [6, 6, 6, 6, 7, 1] [1, b.toNat, a.toNat, d.toNat, 95, e.toNat] := ⟨by decide, b.isLt, a.isLt, d.isLt, by decide, e.toNat_lt, trivial⟩
  revert hwd hfit; generalize encode _ = wd; intro hw hfit
  have hwd := And.intro hw (show ([6, 6, 6, 6, 7, 1] : List Nat).length = ([1, b.toNat, a.toNat, d.toNat, 95, e.toNat] : List Nat).length from rfl)
  have h32 : wd % 2 ^ 32 = wd := pkw hwd hfit rfl
  have k0 : wd % 2 ^ 6 = 1 := pk0 hwd hfit rfl rfl
  have f1 : fld wd 6 6 = b := fld_eq (pk hwd hfit 1 rfl rfl rfl)
  have f2 : fld wd 12 6 = a := fld_eq (pk hwd hfit 2 rfl rfl rfl)
  have f3 : fld wd 18 6 = d := fld_eq (pk hwd hfit 3 rfl rfl rfl)
  have hm : wd / 2 ^ 24 % 2 ^ 7 = 95 := pk hwd hfit 4 rfl rfl rfl
  have he : bit wd 31 = e := bit_eq (pk hwd hfit 5 rfl rfl rfl)
  rw [short_5F hm, h32]
  simp only [decMajor5F, k0, f1, f2, f3, he, and_self, ite_true, ite_false, reduceIte]

theorem RoundTrip.waitwExt (e : Bool) (d a b : BitVec 6) : RoundTrip.Statement (.waitwExt e d a b) := by
  intro _ _
  have hwd : encode (.waitwExt e d a b) = pack [6, 6, 6, 6, 7, 1] [2, b.toNat, a.toNat, d.toNat, 95, e.toNat] := by
    show word e 0x5F000002 [put d 18, put a 12, put b 6] = _
    simp only [word, put, eBit_eq, pack]
    generalize b.toNat = v1; generalize a.toNat = v2; generalize d.toNat = v3; generalize e.toNat = v5; omega
  have hfit : Fits [6, 6, 6, 6, 7, 1] [2, b.toNat, a.toNat, d.toNat, 95, e.toNat] := ⟨by decide, b.isLt, a.isLt, d.isLt, by decide, e.toNat_lt, trivial⟩
  revert hwd hfit; generalize encode _ = wd; intro hw hfit
  have hwd := And.intro hw (show ([6, 6, 6, 6, 7, 1] : List Nat).length = ([2, b.toNat, a.toNat, d.toNat, 95, e.toNat] : List Nat).length from rfl)
  have h32 : wd % 2 ^ 32 = wd := pkw hwd hfit rfl
  have k0 : wd % 2 ^ 6 = 2 := pk0 hwd hfit rfl rfl
  have f1 : fld wd 6 6 = b := fld_eq (pk hwd hfit 1 rfl rfl rfl)
  have f2 : fld wd 12 6 = a := fld_eq (pk hwd hfit 2 rfl rfl rfl)
  have f3 : fld wd 18 6 = d := fld_eq (pk hwd hfit 3 rfl rfl rfl)
  have hm : wd / 2 ^ 24 % 2 ^ 7 = 95 := pk hwd hfit 4 rfl rfl rfl
  have he : bit wd 31 = e := bit_eq (pk hwd hfit 5 rfl rfl rfl)
  rw [short_5F hm, h32]
  simp only [decMajor5F, k0, f1, f2, f3, he, and_self, ite_true, ite_false, reduceIte]

theorem RoundTrip.tset (e : Bool) (d a : BitVec 6) (r : BitVec 1) (p : BitVec 4) (f : BitVec 5) : RoundTrip.Statement (.tset e d a r p f) := by
  intro _ _
  have hwd : encode (.tset e d a r p f) = pack [5, 1, 4, 1, 1, 6, 6, 7, 1] [f.toNat, 0, p.toNat, r.toNat, 0, a.toNat, d.toNat, 96, e.toNat] := by
    show word e 0x60000000 [put d 18, put a 12, put r 10, put p 6, put f 0] = _
    simp only [word, put, eBit_eq, pack]
    generalize f.toNat = v0; generalize p.toNat = v2; generalize r.toNat = v3; generalize a.toNat = v5; generalize d.toNat = v6; generalize e.toNat = v8; omega
  have hfit : Fits [5, 1, 4, 1, 1, 6, 6, 7, 1] [f.toNat, 0, p.toNat, r.toNat, 0, a.toNat, d.toNat, 96, e.toNat] := ⟨f.isLt, by decide, p.isLt, r.isLt, by decide, a.isLt, d.isLt, by decide, e.toNat_lt, trivial⟩
  revert hwd hfit; generalize encode _ = wd; intro hw hfit
  have hwd := And.intro hw (show ([5, 1, 4, 1, 1, 6, 6, 7, 1] : List Nat).length = ([f.toNat, 0, p.toNat, r.toNat, 0, a.toNat, d.toNat, 96, e.toNat] : List Nat).length from rfl)
  have h32 : wd % 2 ^ 32 = wd := pkw hwd hfit rfl
  have f0 : fld wd 0 5 = f := fld_eq (pk hwd hfit 0 rfl rfl rfl)
  have k1 : wd / 2 ^ 5 % 2 ^ 1 = 0 := pk hwd hfit 1 rfl rfl rfl
  have f2 : fld wd 6 4 = p := fld_eq (pk hwd hfit 2 rfl rfl rfl)
  have f3 : fld wd 10 1 = r := fld_eq (pk hwd hfit 3 rfl rfl rfl)
  have k4 : wd / 2 ^ 11 % 2 ^ 1 = 0 := pk hwd hfit 4 rfl rfl rfl
  have f5 : fld wd 12 6 = a := fld_eq (pk hwd hfit 5 rfl rfl rfl)
  have f6 : fld wd 18 6 = d := fld_eq (pk hwd hfit 6 rfl rfl rfl)
  have hm : wd / 2 ^ 24 % 2 ^ 7 = 96 := pk hwd hfit 7 rfl rfl rfl
  have he : bit wd 31 = e := bit_eq (pk hwd hfit 8 rfl rfl rfl)
  rw [short_60 hm, h32]
  simp only [decMajor60, f0, k1, f2, f3, k4, f5, f6, he, and_self, ite_true, ite_false, reduceIte]

theorem RoundTrip.tget (e : Bool) (d : BitVec 6) : RoundTrip.Statement (.tget e d) := by
  intro _ _
  have hwd : encode (.tget e d) = pack [11, 1, 6, 6, 7, 1] [0, 1, 0, d.toNat, 96, e.toNat] := by
    show word e 0x60000800 [put d 18] = _
    simp only [word, put, eBit_eq, pack]
    generalize d.toNat = v3; generalize e.toNat = v5; omega
  have hfit : Fits [11, 1, 6, 6, 7, 1] [0, 1, 0, d.toNat, 96, e.toNat] := ⟨by decide, by decide, by decide, d.isLt, by decide, e.toNat_lt, trivial⟩
  revert hwd hfit; generalize encode _ = wd; intro hw hfit
  have hwd := And.intro hw (show ([11, 1, 6, 6, 7, 1] : List Nat).length = ([0, 1, 0, d.toNat, 96, e.toNat] : List Nat).length from rfl)
  have h32 : wd % 2 ^ 32 = wd := pkw hwd hfit rfl
  have k0 : wd % 2 ^ 11 = 0 := pk0 hwd hfit rfl rfl
  have k1 : wd / 2 ^ 11 % 2 ^ 1 = 1 := pk hwd hfit 1 rfl rfl rfl
  have k2 : wd / 2 ^ 12 % 2 ^ 6 = 0 := pk hwd hfit 2 rfl rfl rfl
  have f3 : fld wd 18 6 = d := fld_eq (pk hwd hfit 3 rfl rfl rfl)
  have hm : wd / 2 ^ 24 % 2 ^ 7 = 96 := pk hwd hfit 4 rfl rfl rfl
  have he : bit wd 31 = e := bit_eq (pk hwd hfit 5 rfl rfl rfl)
  rw [short_60 hm, h32]
  simp only [decMajor60, k0, k1, k2, f3, he, and_self, ite_true, ite_false, reduceIte]

theorem RoundTrip.tbands (e : Bool) (d : BitVec 6) (b : BitVec 4) : RoundTrip.Statement (.tbands e d b) := by
  intro _ _
  have hwd : encode (.tbands e d b) = pack [4, 14, 6, 7, 1] [b.toNat, 0, d.toNat, 97, e.toNat] := by
    show word e 0x61000000 [put d 18, put b 0] = _
    simp only [word, put, eBit_eq, pack]
    generalize b.toNat = v0; generalize d.toNat = v2; generalize e.toNat = v4; omega
  have hfit : Fits [4, 14, 6, 7, 1] [b.toNat, 0, d.toNat, 97, e.toNat] := ⟨b.isLt, by decide, d.isLt, by decide, e.toNat_lt, trivial⟩
  revert hwd hfit; generalize encode _ = wd; intro hw hfit
  have hwd := And.intro hw (show ([4, 14, 6, 7, 1] : List Nat).length = ([b.toNat, 0, d.toNat, 97, e.toNat] : List Nat).length from rfl)
  have h32 : wd % 2 ^ 32 = wd := pkw hwd hfit rfl
  have f0 : fld wd 0 4 = b := fld_eq (pk hwd hfit 0 rfl rfl rfl)
  have k1 : wd / 2 ^ 4 % 2 ^ 14 = 0 := pk hwd hfit 1 rfl rfl rfl
  have f2 : fld wd 18 6 = d := fld_eq (pk hwd hfit 2 rfl rfl rfl)
  have hm : wd / 2 ^ 24 % 2 ^ 7 = 97 := pk hwd hfit 3 rfl rfl rfl
  have he : bit wd 31 = e := bit_eq (pk hwd hfit 4 rfl rfl rfl)
  rw [short_61 hm, h32]
  simp only [decMajor61, f0, k1, f2, he, and_self, ite_true, ite_false, reduceIte]

theorem RoundTrip.obres (e : Bool) (h : BitVec 4) (a b : BitVec 6) : RoundTrip.Statement (.obres e h a b) := by
  intro _ _
  have hwd : encode (.obres e h a b) = pack [6, 6, 6, 1, 4, 1, 7, 1] [0, b.toNat, a.toNat, 0, h.toNat, 0, 98, e.toNat] := by
    show word e 0x62000000 [put h 19, put a 12, put b 6] = _
    simp only [word, put, eBit_eq, pack]
    generalize b.toNat = v1; generalize a.toNat = v2; generalize h.toNat = v4; generalize e.toNat = v7; omega
  have hfit : Fits [6, 6, 6, 1, 4, 1, 7, 1] [0, b.toNat, a.toNat, 0, h.toNat, 0, 98, e.toNat] := ⟨by decide, b.isLt, a.isLt, by decide, h.isLt, by decide, by decide, e.toNat_lt, trivial⟩
  revert hwd hfit; generalize encode _ = wd; intro hw hfit
  have hwd := And.intro hw (show ([6, 6, 6, 1, 4, 1, 7, 1] : List Nat).length = ([0, b.toNat, a.toNat, 0, h.toNat, 0, 98, e.toNat] : List Nat).length from rfl)
  have h32 : wd % 2 ^ 32 = wd := pkw hwd hfit rfl
  have k0 : wd % 2 ^ 6 = 0 := pk0 hwd hfit rfl rfl
  have f1 : fld wd 6 6 = b := fld_eq (pk hwd hfit 1 rfl rfl rfl)
  have f2 : fld wd 12 6 = a := fld_eq (pk hwd hfit 2 rfl rfl rfl)
  have k3 : wd / 2 ^ 18 % 2 ^ 1 = 0 := pk hwd hfit 3 rfl rfl rfl
  have f4 : fld wd 19 4 = h := fld_eq (pk hwd hfit 4 rfl rfl rfl)
  have k5 : wd / 2 ^ 23 % 2 ^ 1 = 0 := pk hwd hfit 5 rfl rfl rfl
  have hm : wd / 2 ^ 24 % 2 ^ 7 = 98 := pk hwd hfit 6 rfl rfl rfl
  have he : bit wd 31 = e := bit_eq (pk hwd hfit 7 rfl rfl rfl)
  rw [short_62 hm, h32]
  simp only [decMajor62, k0, f1, f2, k3, f4, k5, he, and_self, ite_true, ite_false, reduceIte]

theorem RoundTrip.obrel (e : Bool) (h : BitVec 4) : RoundTrip.Statement (.obrel e h) := by
  intro _ _
  have hwd : encode (.obrel e h) = pack [19, 4, 1, 7, 1] [0, h.toNat, 1, 98, e.toNat] := by
    show word e 0x62800000 [put h 19] = _
    simp only [word, put, eBit_eq, pack]
    generalize h.toNat = v1; generalize e.toNat = v4; omega
  have hfit : Fits [19, 4, 1, 7, 1] [0, h.toNat, 1, 98, e.toNat] := ⟨by decide, h.isLt, by decide, by decide, e.toNat_lt, trivial⟩
  revert hwd hfit; generalize encode _ = wd; intro hw hfit
  have hwd := And.intro hw (show ([19, 4, 1, 7, 1] : List Nat).length = ([0, h.toNat, 1, 98, e.toNat] : List Nat).length from rfl)
  have h32 : wd % 2 ^ 32 = wd := pkw hwd hfit rfl
  have k0 : wd % 2 ^ 19 = 0 := pk0 hwd hfit rfl rfl
  have f1 : fld wd 19 4 = h := fld_eq (pk hwd hfit 1 rfl rfl rfl)
  have k2 : wd / 2 ^ 23 % 2 ^ 1 = 1 := pk hwd hfit 2 rfl rfl rfl
  have hm : wd / 2 ^ 24 % 2 ^ 7 = 98 := pk hwd hfit 3 rfl rfl rfl
  have he : bit wd 31 = e := bit_eq (pk hwd hfit 4 rfl rfl rfl)
  rw [short_62 hm, h32]
  simp only [decMajor62, k0, f1, k2, he, and_self, ite_true, ite_false, reduceIte]

theorem RoundTrip.obfill (e : Bool) (c a b : BitVec 6) (h : BitVec 4) : RoundTrip.Statement (.obfill e c a b h) := by
  intro _ _
  have hwd : encode (.obfill e c a b h) = pack [1, 4, 1, 6, 6, 6, 7, 1] [0, h.toNat, 0, b.toNat, a.toNat, c.toNat, 99, e.toNat] := by
    show word e 0x63000000 [put c 18, put a 12, put b 6, put h 1] = _
    simp only [word, put, eBit_eq, pack]
    generalize h.toNat = v1; generalize b.toNat = v3; generalize a.toNat = v4; generalize c.toNat = v5; generalize e.toNat = v7; omega
  have hfit : Fits [1, 4, 1, 6, 6, 6, 7, 1] [0, h.toNat, 0, b.toNat, a.toNat, c.toNat, 99, e.toNat] := ⟨by decide, h.isLt, by decide, b.isLt, a.isLt, c.isLt, by decide, e.toNat_lt, trivial⟩
  revert hwd hfit; generalize encode _ = wd; intro hw hfit
  have hwd := And.intro hw (show ([1, 4, 1, 6, 6, 6, 7, 1] : List Nat).length = ([0, h.toNat, 0, b.toNat, a.toNat, c.toNat, 99, e.toNat] : List Nat).length from rfl)
  have h32 : wd % 2 ^ 32 = wd := pkw hwd hfit rfl
  have k0 : wd % 2 ^ 1 = 0 := pk0 hwd hfit rfl rfl
  have f1 : fld wd 1 4 = h := fld_eq (pk hwd hfit 1 rfl rfl rfl)
  have k2 : wd / 2 ^ 5 % 2 ^ 1 = 0 := pk hwd hfit 2 rfl rfl rfl
  have f3 : fld wd 6 6 = b := fld_eq (pk hwd hfit 3 rfl rfl rfl)
  have f4 : fld wd 12 6 = a := fld_eq (pk hwd hfit 4 rfl rfl rfl)
  have f5 : fld wd 18 6 = c := fld_eq (pk hwd hfit 5 rfl rfl rfl)
  have hm : wd / 2 ^ 24 % 2 ^ 7 = 99 := pk hwd hfit 6 rfl rfl rfl
  have he : bit wd 31 = e := bit_eq (pk hwd hfit 7 rfl rfl rfl)
  rw [short_63 hm, h32]
  simp only [decMajor63, k0, f1, k2, f3, f4, f5, he, and_self, ite_true, ite_false, reduceIte]

theorem RoundTrip.obscale (e : Bool) (c a : BitVec 6) (k : BitVec 3) (h : BitVec 4) : RoundTrip.Statement (.obscale e c a k h) := by
  intro _ _
  have hwd : encode (.obscale e c a k h) = pack [1, 4, 1, 3, 3, 6, 6, 7, 1] [0, h.toNat, 1, 0, k.toNat, a.toNat, c.toNat, 99, e.toNat] := by
    show word e 0x63000020 [put c 18, put a 12, put k 9, put h 1] = _
    simp only [word, put, eBit_eq, pack]
    generalize h.toNat = v1; generalize k.toNat = v4; generalize a.toNat = v5; generalize c.toNat = v6; generalize e.toNat = v8; omega
  have hfit : Fits [1, 4, 1, 3, 3, 6, 6, 7, 1] [0, h.toNat, 1, 0, k.toNat, a.toNat, c.toNat, 99, e.toNat] := ⟨by decide, h.isLt, by decide, by decide, k.isLt, a.isLt, c.isLt, by decide, e.toNat_lt, trivial⟩
  revert hwd hfit; generalize encode _ = wd; intro hw hfit
  have hwd := And.intro hw (show ([1, 4, 1, 3, 3, 6, 6, 7, 1] : List Nat).length = ([0, h.toNat, 1, 0, k.toNat, a.toNat, c.toNat, 99, e.toNat] : List Nat).length from rfl)
  have h32 : wd % 2 ^ 32 = wd := pkw hwd hfit rfl
  have k0 : wd % 2 ^ 1 = 0 := pk0 hwd hfit rfl rfl
  have f1 : fld wd 1 4 = h := fld_eq (pk hwd hfit 1 rfl rfl rfl)
  have k2 : wd / 2 ^ 5 % 2 ^ 1 = 1 := pk hwd hfit 2 rfl rfl rfl
  have k3 : wd / 2 ^ 6 % 2 ^ 3 = 0 := pk hwd hfit 3 rfl rfl rfl
  have f4 : fld wd 9 3 = k := fld_eq (pk hwd hfit 4 rfl rfl rfl)
  have f5 : fld wd 12 6 = a := fld_eq (pk hwd hfit 5 rfl rfl rfl)
  have f6 : fld wd 18 6 = c := fld_eq (pk hwd hfit 6 rfl rfl rfl)
  have hm : wd / 2 ^ 24 % 2 ^ 7 = 99 := pk hwd hfit 7 rfl rfl rfl
  have he : bit wd 31 = e := bit_eq (pk hwd hfit 8 rfl rfl rfl)
  rw [short_63 hm, h32]
  simp only [decMajor63, k0, f1, k2, k3, f4, f5, f6, he, and_self, ite_true, ite_false, reduceIte]

theorem RoundTrip.mlds (e : Bool) (b a : BitVec 6) (p : BitVec 1) (h : BitVec 4) : RoundTrip.Statement (.mlds e b a p h) := by
  intro _ _
  have hwd : encode (.mlds e b a p h) = pack [6, 4, 1, 1, 6, 6, 7, 1] [0, h.toNat, p.toNat, 0, a.toNat, b.toNat, 100, e.toNat] := by
    show word e 0x64000000 [put b 18, put a 12, put p 10, put h 6] = _
    simp only [word, put, eBit_eq, pack]
    generalize h.toNat = v1; generalize p.toNat = v2; generalize a.toNat = v4; generalize b.toNat = v5; generalize e.toNat = v7; omega
  have hfit : Fits [6, 4, 1, 1, 6, 6, 7, 1] [0, h.toNat, p.toNat, 0, a.toNat, b.toNat, 100, e.toNat] := ⟨by decide, h.isLt, p.isLt, by decide, a.isLt, b.isLt, by decide, e.toNat_lt, trivial⟩
  revert hwd hfit; generalize encode _ = wd; intro hw hfit
  have hwd := And.intro hw (show ([6, 4, 1, 1, 6, 6, 7, 1] : List Nat).length = ([0, h.toNat, p.toNat, 0, a.toNat, b.toNat, 100, e.toNat] : List Nat).length from rfl)
  have h32 : wd % 2 ^ 32 = wd := pkw hwd hfit rfl
  have k0 : wd % 2 ^ 6 = 0 := pk0 hwd hfit rfl rfl
  have f1 : fld wd 6 4 = h := fld_eq (pk hwd hfit 1 rfl rfl rfl)
  have f2 : fld wd 10 1 = p := fld_eq (pk hwd hfit 2 rfl rfl rfl)
  have k3 : wd / 2 ^ 11 % 2 ^ 1 = 0 := pk hwd hfit 3 rfl rfl rfl
  have f4 : fld wd 12 6 = a := fld_eq (pk hwd hfit 4 rfl rfl rfl)
  have f5 : fld wd 18 6 = b := fld_eq (pk hwd hfit 5 rfl rfl rfl)
  have hm : wd / 2 ^ 24 % 2 ^ 7 = 100 := pk hwd hfit 6 rfl rfl rfl
  have he : bit wd 31 = e := bit_eq (pk hwd hfit 7 rfl rfl rfl)
  rw [short_64 hm, h32]
  simp only [decMajor64, k0, f1, f2, k3, f4, f5, he, and_self, ite_true, ite_false, reduceIte]

theorem RoundTrip.mswap (e : Bool) : RoundTrip.Statement (.mswap e) := by
  intro _ _
  have hwd : encode (.mswap e) = pack [11, 1, 12, 7, 1] [0, 1, 0, 100, e.toNat] := by
    show word e 0x64000800 [] = _
    simp only [word, put, eBit_eq, pack]
    generalize e.toNat = v4; omega
  have hfit : Fits [11, 1, 12, 7, 1] [0, 1, 0, 100, e.toNat] := ⟨by decide, by decide, by decide, by decide, e.toNat_lt, trivial⟩
  revert hwd hfit; generalize encode _ = wd; intro hw hfit
  have hwd := And.intro hw (show ([11, 1, 12, 7, 1] : List Nat).length = ([0, 1, 0, 100, e.toNat] : List Nat).length from rfl)
  have h32 : wd % 2 ^ 32 = wd := pkw hwd hfit rfl
  have k0 : wd % 2 ^ 11 = 0 := pk0 hwd hfit rfl rfl
  have k1 : wd / 2 ^ 11 % 2 ^ 1 = 1 := pk hwd hfit 1 rfl rfl rfl
  have k2 : wd / 2 ^ 12 % 2 ^ 12 = 0 := pk hwd hfit 2 rfl rfl rfl
  have hm : wd / 2 ^ 24 % 2 ^ 7 = 100 := pk hwd hfit 3 rfl rfl rfl
  have he : bit wd 31 = e := bit_eq (pk hwd hfit 4 rfl rfl rfl)
  rw [short_64 hm, h32]
  simp only [decMajor64, k0, k1, k2, he, and_self, ite_true, ite_false, reduceIte]

theorem RoundTrip.mrbnd (e : Bool) (a : BitVec 6) : RoundTrip.Statement (.mrbnd e a) := by
  intro _ _
  have hwd : encode (.mrbnd e a) = pack [12, 6, 5, 1, 7, 1] [0, a.toNat, 0, 0, 101, e.toNat] := by
    show word e 0x65000000 [put a 12] = _
    simp only [word, put, eBit_eq, pack]
    generalize a.toNat = v1; generalize e.toNat = v5; omega
  have hfit : Fits [12, 6, 5, 1, 7, 1] [0, a.toNat, 0, 0, 101, e.toNat] := ⟨by decide, a.isLt, by decide, by decide, by decide, e.toNat_lt, trivial⟩
  revert hwd hfit; generalize encode _ = wd; intro hw hfit
  have hwd := And.intro hw (show ([12, 6, 5, 1, 7, 1] : List Nat).length = ([0, a.toNat, 0, 0, 101, e.toNat] : List Nat).length from rfl)
  have h32 : wd % 2 ^ 32 = wd := pkw hwd hfit rfl
  have k0 : wd % 2 ^ 12 = 0 := pk0 hwd hfit rfl rfl
  have f1 : fld wd 12 6 = a := fld_eq (pk hwd hfit 1 rfl rfl rfl)
  have k2 : wd / 2 ^ 18 % 2 ^ 5 = 0 := pk hwd hfit 2 rfl rfl rfl
  have k3 : wd / 2 ^ 23 % 2 ^ 1 = 0 := pk hwd hfit 3 rfl rfl rfl
  have hm : wd / 2 ^ 24 % 2 ^ 7 = 101 := pk hwd hfit 4 rfl rfl rfl
  have he : bit wd 31 = e := bit_eq (pk hwd hfit 5 rfl rfl rfl)
  rw [short_65 hm, h32]
  simp only [decMajor65, k0, f1, k2, k3, he, and_self, ite_true, ite_false, reduceIte]

theorem RoundTrip.mtag (e : Bool) (a b : BitVec 6) : RoundTrip.Statement (.mtag e a b) := by
  intro _ _
  have hwd : encode (.mtag e a b) = pack [6, 6, 6, 5, 1, 7, 1] [0, b.toNat, a.toNat, 0, 1, 101, e.toNat] := by
    show word e 0x65800000 [put a 12, put b 6] = _
    simp only [word, put, eBit_eq, pack]
    generalize b.toNat = v1; generalize a.toNat = v2; generalize e.toNat = v6; omega
  have hfit : Fits [6, 6, 6, 5, 1, 7, 1] [0, b.toNat, a.toNat, 0, 1, 101, e.toNat] := ⟨by decide, b.isLt, a.isLt, by decide, by decide, by decide, e.toNat_lt, trivial⟩
  revert hwd hfit; generalize encode _ = wd; intro hw hfit
  have hwd := And.intro hw (show ([6, 6, 6, 5, 1, 7, 1] : List Nat).length = ([0, b.toNat, a.toNat, 0, 1, 101, e.toNat] : List Nat).length from rfl)
  have h32 : wd % 2 ^ 32 = wd := pkw hwd hfit rfl
  have k0 : wd % 2 ^ 6 = 0 := pk0 hwd hfit rfl rfl
  have f1 : fld wd 6 6 = b := fld_eq (pk hwd hfit 1 rfl rfl rfl)
  have f2 : fld wd 12 6 = a := fld_eq (pk hwd hfit 2 rfl rfl rfl)
  have k3 : wd / 2 ^ 18 % 2 ^ 5 = 0 := pk hwd hfit 3 rfl rfl rfl
  have k4 : wd / 2 ^ 23 % 2 ^ 1 = 1 := pk hwd hfit 4 rfl rfl rfl
  have hm : wd / 2 ^ 24 % 2 ^ 7 = 101 := pk hwd hfit 5 rfl rfl rfl
  have he : bit wd 31 = e := bit_eq (pk hwd hfit 6 rfl rfl rfl)
  rw [short_65 hm, h32]
  simp only [decMajor65, k0, f1, f2, k3, k4, he, and_self, ite_true, ite_false, reduceIte]

theorem RoundTrip.mma (e : Bool) (c : BitVec 2) (h : BitVec 4) (a : BitVec 6) (r p : BitVec 4) (z : BitVec 1) : RoundTrip.Statement (.mma e c h a r p z) := by
  intro _ _
  have hwd : encode (.mma e c h a r p z) = pack [3, 1, 4, 4, 6, 4, 2, 7, 1] [0, z.toNat, p.toNat, r.toNat, a.toNat, h.toNat, c.toNat, 102, e.toNat] := by
    show word e 0x66000000 [put c 22, put h 18, put a 12, put r 8, put p 4, put z 3] = _
    simp only [word, put, eBit_eq, pack]
    generalize z.toNat = v1; generalize p.toNat = v2; generalize r.toNat = v3; generalize a.toNat = v4; generalize h.toNat = v5; generalize c.toNat = v6; generalize e.toNat = v8; omega
  have hfit : Fits [3, 1, 4, 4, 6, 4, 2, 7, 1] [0, z.toNat, p.toNat, r.toNat, a.toNat, h.toNat, c.toNat, 102, e.toNat] := ⟨by decide, z.isLt, p.isLt, r.isLt, a.isLt, h.isLt, c.isLt, by decide, e.toNat_lt, trivial⟩
  revert hwd hfit; generalize encode _ = wd; intro hw hfit
  have hwd := And.intro hw (show ([3, 1, 4, 4, 6, 4, 2, 7, 1] : List Nat).length = ([0, z.toNat, p.toNat, r.toNat, a.toNat, h.toNat, c.toNat, 102, e.toNat] : List Nat).length from rfl)
  have h32 : wd % 2 ^ 32 = wd := pkw hwd hfit rfl
  have k0 : wd % 2 ^ 3 = 0 := pk0 hwd hfit rfl rfl
  have f1 : fld wd 3 1 = z := fld_eq (pk hwd hfit 1 rfl rfl rfl)
  have f2 : fld wd 4 4 = p := fld_eq (pk hwd hfit 2 rfl rfl rfl)
  have f3 : fld wd 8 4 = r := fld_eq (pk hwd hfit 3 rfl rfl rfl)
  have f4 : fld wd 12 6 = a := fld_eq (pk hwd hfit 4 rfl rfl rfl)
  have f5 : fld wd 18 4 = h := fld_eq (pk hwd hfit 5 rfl rfl rfl)
  have f6 : fld wd 22 2 = c := fld_eq (pk hwd hfit 6 rfl rfl rfl)
  have hm : wd / 2 ^ 24 % 2 ^ 7 = 102 := pk hwd hfit 7 rfl rfl rfl
  have he : bit wd 31 = e := bit_eq (pk hwd hfit 8 rfl rfl rfl)
  rw [short_66 hm, h32]
  simp only [decMajor66, k0, f1, f2, f3, f4, f5, f6, he, and_self, ite_true, ite_false, reduceIte]

theorem RoundTrip.mmaG (e : Bool) (c : BitVec 2) (h : BitVec 4) (a : BitVec 6) (r p : BitVec 4) (z : BitVec 1) : RoundTrip.Statement (.mmaG e c h a r p z) := by
  intro _ _
  have hwd : encode (.mmaG e c h a r p z) = pack [1, 2, 1, 4, 4, 6, 4, 2, 7, 1] [0, 0, z.toNat, p.toNat, r.toNat, a.toNat, h.toNat, c.toNat, 103, e.toNat] := by
    show word e 0x67000000 [put c 22, put h 18, put a 12, put r 8, put p 4, put z 3] = _
    simp only [word, put, eBit_eq, pack]
    generalize z.toNat = v2; generalize p.toNat = v3; generalize r.toNat = v4; generalize a.toNat = v5; generalize h.toNat = v6; generalize c.toNat = v7; generalize e.toNat = v9; omega
  have hfit : Fits [1, 2, 1, 4, 4, 6, 4, 2, 7, 1] [0, 0, z.toNat, p.toNat, r.toNat, a.toNat, h.toNat, c.toNat, 103, e.toNat] := ⟨by decide, by decide, z.isLt, p.isLt, r.isLt, a.isLt, h.isLt, c.isLt, by decide, e.toNat_lt, trivial⟩
  revert hwd hfit; generalize encode _ = wd; intro hw hfit
  have hwd := And.intro hw (show ([1, 2, 1, 4, 4, 6, 4, 2, 7, 1] : List Nat).length = ([0, 0, z.toNat, p.toNat, r.toNat, a.toNat, h.toNat, c.toNat, 103, e.toNat] : List Nat).length from rfl)
  have h32 : wd % 2 ^ 32 = wd := pkw hwd hfit rfl
  have k0 : wd % 2 ^ 1 = 0 := pk0 hwd hfit rfl rfl
  have k1 : wd / 2 ^ 1 % 2 ^ 2 = 0 := pk hwd hfit 1 rfl rfl rfl
  have f2 : fld wd 3 1 = z := fld_eq (pk hwd hfit 2 rfl rfl rfl)
  have f3 : fld wd 4 4 = p := fld_eq (pk hwd hfit 3 rfl rfl rfl)
  have f4 : fld wd 8 4 = r := fld_eq (pk hwd hfit 4 rfl rfl rfl)
  have f5 : fld wd 12 6 = a := fld_eq (pk hwd hfit 5 rfl rfl rfl)
  have f6 : fld wd 18 4 = h := fld_eq (pk hwd hfit 6 rfl rfl rfl)
  have f7 : fld wd 22 2 = c := fld_eq (pk hwd hfit 7 rfl rfl rfl)
  have hm : wd / 2 ^ 24 % 2 ^ 7 = 103 := pk hwd hfit 8 rfl rfl rfl
  have he : bit wd 31 = e := bit_eq (pk hwd hfit 9 rfl rfl rfl)
  rw [short_67 hm, h32]
  simp only [decMajor67, k0, k1, f2, f3, f4, f5, f6, f7, he, and_self, ite_true, ite_false, reduceIte]

theorem RoundTrip.gangset (e : Bool) (a : BitVec 6) : RoundTrip.Statement (.gangset e a) := by
  intro _ _
  have hwd : encode (.gangset e a) = pack [1, 11, 6, 6, 7, 1] [1, 0, a.toNat, 0, 103, e.toNat] := by
    show word e 0x67000001 [put a 12] = _
    simp only [word, put, eBit_eq, pack]
    generalize a.toNat = v2; generalize e.toNat = v5; omega
  have hfit : Fits [1, 11, 6, 6, 7, 1] [1, 0, a.toNat, 0, 103, e.toNat] := ⟨by decide, by decide, a.isLt, by decide, by decide, e.toNat_lt, trivial⟩
  revert hwd hfit; generalize encode _ = wd; intro hw hfit
  have hwd := And.intro hw (show ([1, 11, 6, 6, 7, 1] : List Nat).length = ([1, 0, a.toNat, 0, 103, e.toNat] : List Nat).length from rfl)
  have h32 : wd % 2 ^ 32 = wd := pkw hwd hfit rfl
  have k0 : wd % 2 ^ 1 = 1 := pk0 hwd hfit rfl rfl
  have k1 : wd / 2 ^ 1 % 2 ^ 11 = 0 := pk hwd hfit 1 rfl rfl rfl
  have f2 : fld wd 12 6 = a := fld_eq (pk hwd hfit 2 rfl rfl rfl)
  have k3 : wd / 2 ^ 18 % 2 ^ 6 = 0 := pk hwd hfit 3 rfl rfl rfl
  have hm : wd / 2 ^ 24 % 2 ^ 7 = 103 := pk hwd hfit 4 rfl rfl rfl
  have he : bit wd 31 = e := bit_eq (pk hwd hfit 5 rfl rfl rfl)
  rw [short_67 hm, h32]
  simp only [decMajor67, k0, k1, f2, k3, he, and_self, ite_true, ite_false, reduceIte]

theorem RoundTrip.mguide (e : Bool) (d c u : BitVec 2) (s : BitVec 6) (p : BitVec 4) : RoundTrip.Statement (.mguide e d c u s p) := by
  intro _ _
  have hwd : encode (.mguide e d c u s p) = pack [8, 4, 6, 2, 2, 2, 7, 1] [0, p.toNat, s.toNat, u.toNat, c.toNat, d.toNat, 104, e.toNat] := by
    show word e 0x68000000 [put d 22, put c 20, put u 18, put s 12, put p 8] = _
    simp only [word, put, eBit_eq, pack]
    generalize p.toNat = v1; generalize s.toNat = v2; generalize u.toNat = v3; generalize c.toNat = v4; generalize d.toNat = v5; generalize e.toNat = v7; omega
  have hfit : Fits [8, 4, 6, 2, 2, 2, 7, 1] [0, p.toNat, s.toNat, u.toNat, c.toNat, d.toNat, 104, e.toNat] := ⟨by decide, p.isLt, s.isLt, u.isLt, c.isLt, d.isLt, by decide, e.toNat_lt, trivial⟩
  revert hwd hfit; generalize encode _ = wd; intro hw hfit
  have hwd := And.intro hw (show ([8, 4, 6, 2, 2, 2, 7, 1] : List Nat).length = ([0, p.toNat, s.toNat, u.toNat, c.toNat, d.toNat, 104, e.toNat] : List Nat).length from rfl)
  have h32 : wd % 2 ^ 32 = wd := pkw hwd hfit rfl
  have k0 : wd % 2 ^ 8 = 0 := pk0 hwd hfit rfl rfl
  have f1 : fld wd 8 4 = p := fld_eq (pk hwd hfit 1 rfl rfl rfl)
  have f2 : fld wd 12 6 = s := fld_eq (pk hwd hfit 2 rfl rfl rfl)
  have f3 : fld wd 18 2 = u := fld_eq (pk hwd hfit 3 rfl rfl rfl)
  have f4 : fld wd 20 2 = c := fld_eq (pk hwd hfit 4 rfl rfl rfl)
  have f5 : fld wd 22 2 = d := fld_eq (pk hwd hfit 5 rfl rfl rfl)
  have hm : wd / 2 ^ 24 % 2 ^ 7 = 104 := pk hwd hfit 6 rfl rfl rfl
  have he : bit wd 31 = e := bit_eq (pk hwd hfit 7 rfl rfl rfl)
  rw [short_68 hm, h32]
  simp only [decMajor68, k0, f1, f2, f3, f4, f5, he, and_self, ite_true, ite_false, reduceIte]

theorem RoundTrip.mzero (e : Bool) (c : BitVec 2) : RoundTrip.Statement (.mzero e c) := by
  intro _ _
  have hwd : encode (.mzero e c) = pack [20, 2, 2, 7, 1] [0, c.toNat, 0, 105, e.toNat] := by
    show word e 0x69000000 [put c 20] = _
    simp only [word, put, eBit_eq, pack]
    generalize c.toNat = v1; generalize e.toNat = v4; omega
  have hfit : Fits [20, 2, 2, 7, 1] [0, c.toNat, 0, 105, e.toNat] := ⟨by decide, c.isLt, by decide, by decide, e.toNat_lt, trivial⟩
  revert hwd hfit; generalize encode _ = wd; intro hw hfit
  have hwd := And.intro hw (show ([20, 2, 2, 7, 1] : List Nat).length = ([0, c.toNat, 0, 105, e.toNat] : List Nat).length from rfl)
  have h32 : wd % 2 ^ 32 = wd := pkw hwd hfit rfl
  have k0 : wd % 2 ^ 20 = 0 := pk0 hwd hfit rfl rfl
  have f1 : fld wd 20 2 = c := fld_eq (pk hwd hfit 1 rfl rfl rfl)
  have k2 : wd / 2 ^ 22 % 2 ^ 2 = 0 := pk hwd hfit 2 rfl rfl rfl
  have hm : wd / 2 ^ 24 % 2 ^ 7 = 105 := pk hwd hfit 3 rfl rfl rfl
  have he : bit wd 31 = e := bit_eq (pk hwd hfit 4 rfl rfl rfl)
  rw [short_69 hm, h32]
  simp only [decMajor69, k0, f1, k2, he, and_self, ite_true, ite_false, reduceIte]

theorem RoundTrip.maccLd (e : Bool) (c : BitVec 2) (a : BitVec 6) : RoundTrip.Statement (.maccLd e c a) := by
  intro _ _
  have hwd : encode (.maccLd e c a) = pack [12, 6, 2, 2, 2, 7, 1] [0, a.toNat, 0, c.toNat, 1, 105, e.toNat] := by
    show word e 0x69400000 [put c 20, put a 12] = _
    simp only [word, put, eBit_eq, pack]
    generalize a.toNat = v1; generalize c.toNat = v3; generalize e.toNat = v6; omega
  have hfit : Fits [12, 6, 2, 2, 2, 7, 1] [0, a.toNat, 0, c.toNat, 1, 105, e.toNat] := ⟨by decide, a.isLt, by decide, c.isLt, by decide, by decide, e.toNat_lt, trivial⟩
  revert hwd hfit; generalize encode _ = wd; intro hw hfit
  have hwd := And.intro hw (show ([12, 6, 2, 2, 2, 7, 1] : List Nat).length = ([0, a.toNat, 0, c.toNat, 1, 105, e.toNat] : List Nat).length from rfl)
  have h32 : wd % 2 ^ 32 = wd := pkw hwd hfit rfl
  have k0 : wd % 2 ^ 12 = 0 := pk0 hwd hfit rfl rfl
  have f1 : fld wd 12 6 = a := fld_eq (pk hwd hfit 1 rfl rfl rfl)
  have k2 : wd / 2 ^ 18 % 2 ^ 2 = 0 := pk hwd hfit 2 rfl rfl rfl
  have f3 : fld wd 20 2 = c := fld_eq (pk hwd hfit 3 rfl rfl rfl)
  have k4 : wd / 2 ^ 22 % 2 ^ 2 = 1 := pk hwd hfit 4 rfl rfl rfl
  have hm : wd / 2 ^ 24 % 2 ^ 7 = 105 := pk hwd hfit 5 rfl rfl rfl
  have he : bit wd 31 = e := bit_eq (pk hwd hfit 6 rfl rfl rfl)
  rw [short_69 hm, h32]
  simp only [decMajor69, k0, f1, k2, f3, k4, he, and_self, ite_true, ite_false, reduceIte]

theorem RoundTrip.maccSt (e : Bool) (c : BitVec 2) (a b : BitVec 6) : RoundTrip.Statement (.maccSt e c a b) := by
  intro _ _
  have hwd : encode (.maccSt e c a b) = pack [6, 6, 6, 2, 2, 2, 7, 1] [0, b.toNat, a.toNat, 0, c.toNat, 2, 105, e.toNat] := by
    show word e 0x69800000 [put c 20, put a 12, put b 6] = _
    simp only [word, put, eBit_eq, pack]
    generalize b.toNat = v1; generalize a.toNat = v2; generalize c.toNat = v4; generalize e.toNat = v7; omega
  have hfit : Fits [6, 6, 6, 2, 2, 2, 7, 1] [0, b.toNat, a.toNat, 0, c.toNat, 2, 105, e.toNat] := ⟨by decide, b.isLt, a.isLt, by decide, c.isLt, by decide, by decide, e.toNat_lt, trivial⟩
  revert hwd hfit; generalize encode _ = wd; intro hw hfit
  have hwd := And.intro hw (show ([6, 6, 6, 2, 2, 2, 7, 1] : List Nat).length = ([0, b.toNat, a.toNat, 0, c.toNat, 2, 105, e.toNat] : List Nat).length from rfl)
  have h32 : wd % 2 ^ 32 = wd := pkw hwd hfit rfl
  have k0 : wd % 2 ^ 6 = 0 := pk0 hwd hfit rfl rfl
  have f1 : fld wd 6 6 = b := fld_eq (pk hwd hfit 1 rfl rfl rfl)
  have f2 : fld wd 12 6 = a := fld_eq (pk hwd hfit 2 rfl rfl rfl)
  have k3 : wd / 2 ^ 18 % 2 ^ 2 = 0 := pk hwd hfit 3 rfl rfl rfl
  have f4 : fld wd 20 2 = c := fld_eq (pk hwd hfit 4 rfl rfl rfl)
  have k5 : wd / 2 ^ 22 % 2 ^ 2 = 2 := pk hwd hfit 5 rfl rfl rfl
  have hm : wd / 2 ^ 24 % 2 ^ 7 = 105 := pk hwd hfit 6 rfl rfl rfl
  have he : bit wd 31 = e := bit_eq (pk hwd hfit 7 rfl rfl rfl)
  rw [short_69 hm, h32]
  simp only [decMajor69, k0, f1, f2, k3, f4, k5, he, and_self, ite_true, ite_false, reduceIte]

theorem RoundTrip.mrd (e : Bool) (v a b : BitVec 6) (c : BitVec 2) : RoundTrip.Statement (.mrd e v a b c) := by
  intro _ _
  have hwd : encode (.mrd e v a b c) = pack [3, 1, 2, 6, 6, 6, 7, 1] [0, 0, c.toNat, b.toNat, a.toNat, v.toNat, 106, e.toNat] := by
    show word e 0x6A000000 [put v 18, put a 12, put b 6, put c 4] = _
    simp only [word, put, eBit_eq, pack]
    generalize c.toNat = v2; generalize b.toNat = v3; generalize a.toNat = v4; generalize v.toNat = v5; generalize e.toNat = v7; omega
  have hfit : Fits [3, 1, 2, 6, 6, 6, 7, 1] [0, 0, c.toNat, b.toNat, a.toNat, v.toNat, 106, e.toNat] := ⟨by decide, by decide, c.isLt, b.isLt, a.isLt, v.isLt, by decide, e.toNat_lt, trivial⟩
  revert hwd hfit; generalize encode _ = wd; intro hw hfit
  have hwd := And.intro hw (show ([3, 1, 2, 6, 6, 6, 7, 1] : List Nat).length = ([0, 0, c.toNat, b.toNat, a.toNat, v.toNat, 106, e.toNat] : List Nat).length from rfl)
  have h32 : wd % 2 ^ 32 = wd := pkw hwd hfit rfl
  have k0 : wd % 2 ^ 3 = 0 := pk0 hwd hfit rfl rfl
  have k1 : wd / 2 ^ 3 % 2 ^ 1 = 0 := pk hwd hfit 1 rfl rfl rfl
  have f2 : fld wd 4 2 = c := fld_eq (pk hwd hfit 2 rfl rfl rfl)
  have f3 : fld wd 6 6 = b := fld_eq (pk hwd hfit 3 rfl rfl rfl)
  have f4 : fld wd 12 6 = a := fld_eq (pk hwd hfit 4 rfl rfl rfl)
  have f5 : fld wd 18 6 = v := fld_eq (pk hwd hfit 5 rfl rfl rfl)
  have hm : wd / 2 ^ 24 % 2 ^ 7 = 106 := pk hwd hfit 6 rfl rfl rfl
  have he : bit wd 31 = e := bit_eq (pk hwd hfit 7 rfl rfl rfl)
  rw [short_6A hm, h32]
  simp only [decMajor6A, k0, k1, f2, f3, f4, f5, he, and_self, ite_true, ite_false, reduceIte]

theorem RoundTrip.mwr (e : Bool) (v a b : BitVec 6) (c : BitVec 2) : RoundTrip.Statement (.mwr e v a b c) := by
  intro _ _
  have hwd : encode (.mwr e v a b c) = pack [3, 1, 2, 6, 6, 6, 7, 1] [0, 1, c.toNat, b.toNat, a.toNat, v.toNat, 106, e.toNat] := by
    show word e 0x6A000008 [put v 18, put a 12, put b 6, put c 4] = _
    simp only [word, put, eBit_eq, pack]
    generalize c.toNat = v2; generalize b.toNat = v3; generalize a.toNat = v4; generalize v.toNat = v5; generalize e.toNat = v7; omega
  have hfit : Fits [3, 1, 2, 6, 6, 6, 7, 1] [0, 1, c.toNat, b.toNat, a.toNat, v.toNat, 106, e.toNat] := ⟨by decide, by decide, c.isLt, b.isLt, a.isLt, v.isLt, by decide, e.toNat_lt, trivial⟩
  revert hwd hfit; generalize encode _ = wd; intro hw hfit
  have hwd := And.intro hw (show ([3, 1, 2, 6, 6, 6, 7, 1] : List Nat).length = ([0, 1, c.toNat, b.toNat, a.toNat, v.toNat, 106, e.toNat] : List Nat).length from rfl)
  have h32 : wd % 2 ^ 32 = wd := pkw hwd hfit rfl
  have k0 : wd % 2 ^ 3 = 0 := pk0 hwd hfit rfl rfl
  have k1 : wd / 2 ^ 3 % 2 ^ 1 = 1 := pk hwd hfit 1 rfl rfl rfl
  have f2 : fld wd 4 2 = c := fld_eq (pk hwd hfit 2 rfl rfl rfl)
  have f3 : fld wd 6 6 = b := fld_eq (pk hwd hfit 3 rfl rfl rfl)
  have f4 : fld wd 12 6 = a := fld_eq (pk hwd hfit 4 rfl rfl rfl)
  have f5 : fld wd 18 6 = v := fld_eq (pk hwd hfit 5 rfl rfl rfl)
  have hm : wd / 2 ^ 24 % 2 ^ 7 = 106 := pk hwd hfit 6 rfl rfl rfl
  have he : bit wd 31 = e := bit_eq (pk hwd hfit 7 rfl rfl rfl)
  rw [short_6A hm, h32]
  simp only [decMajor6A, k0, k1, f2, f3, f4, f5, he, and_self, ite_true, ite_false, reduceIte]

theorem RoundTrip.rcount (e : Bool) (a b : BitVec 6) : RoundTrip.Statement (.rcount e a b) := by
  intro _ _
  have hwd : encode (.rcount e a b) = pack [5, 1, 6, 6, 6, 7, 1] [0, 0, b.toNat, a.toNat, 0, 107, e.toNat] := by
    show word e 0x6B000000 [put a 12, put b 6] = _
    simp only [word, put, eBit_eq, pack]
    generalize b.toNat = v2; generalize a.toNat = v3; generalize e.toNat = v6; omega
  have hfit : Fits [5, 1, 6, 6, 6, 7, 1] [0, 0, b.toNat, a.toNat, 0, 107, e.toNat] := ⟨by decide, by decide, b.isLt, a.isLt, by decide, by decide, e.toNat_lt, trivial⟩
  revert hwd hfit; generalize encode _ = wd; intro hw hfit
  have hwd := And.intro hw (show ([5, 1, 6, 6, 6, 7, 1] : List Nat).length = ([0, 0, b.toNat, a.toNat, 0, 107, e.toNat] : List Nat).length from rfl)
  have h32 : wd % 2 ^ 32 = wd := pkw hwd hfit rfl
  have k0 : wd % 2 ^ 5 = 0 := pk0 hwd hfit rfl rfl
  have k1 : wd / 2 ^ 5 % 2 ^ 1 = 0 := pk hwd hfit 1 rfl rfl rfl
  have f2 : fld wd 6 6 = b := fld_eq (pk hwd hfit 2 rfl rfl rfl)
  have f3 : fld wd 12 6 = a := fld_eq (pk hwd hfit 3 rfl rfl rfl)
  have k4 : wd / 2 ^ 18 % 2 ^ 6 = 0 := pk hwd hfit 4 rfl rfl rfl
  have hm : wd / 2 ^ 24 % 2 ^ 7 = 107 := pk hwd hfit 5 rfl rfl rfl
  have he : bit wd 31 = e := bit_eq (pk hwd hfit 6 rfl rfl rfl)
  rw [short_6B hm, h32]
  simp only [decMajor6B, k0, k1, f2, f3, k4, he, and_self, ite_true, ite_false, reduceIte]

theorem RoundTrip.rcsnap (e : Bool) (d a : BitVec 6) : RoundTrip.Statement (.rcsnap e d a) := by
  intro _ _
  have hwd : encode (.rcsnap e d a) = pack [5, 1, 6, 6, 6, 7, 1] [0, 1, 0, a.toNat, d.toNat, 107, e.toNat] := by
    show word e 0x6B000020 [put d 18, put a 12] = _
    simp only [word, put, eBit_eq, pack]
    generalize a.toNat = v3; generalize d.toNat = v4; generalize e.toNat = v6; omega
  have hfit : Fits [5, 1, 6, 6, 6, 7, 1] [0, 1, 0, a.toNat, d.toNat, 107, e.toNat] := ⟨by decide, by decide, by decide, a.isLt, d.isLt, by decide, e.toNat_lt, trivial⟩
  revert hwd hfit; generalize encode _ = wd; intro hw hfit
  have hwd := And.intro hw (show ([5, 1, 6, 6, 6, 7, 1] : List Nat).length = ([0, 1, 0, a.toNat, d.toNat, 107, e.toNat] : List Nat).length from rfl)
  have h32 : wd % 2 ^ 32 = wd := pkw hwd hfit rfl
  have k0 : wd % 2 ^ 5 = 0 := pk0 hwd hfit rfl rfl
  have k1 : wd / 2 ^ 5 % 2 ^ 1 = 1 := pk hwd hfit 1 rfl rfl rfl
  have k2 : wd / 2 ^ 6 % 2 ^ 6 = 0 := pk hwd hfit 2 rfl rfl rfl
  have f3 : fld wd 12 6 = a := fld_eq (pk hwd hfit 3 rfl rfl rfl)
  have f4 : fld wd 18 6 = d := fld_eq (pk hwd hfit 4 rfl rfl rfl)
  have hm : wd / 2 ^ 24 % 2 ^ 7 = 107 := pk hwd hfit 5 rfl rfl rfl
  have he : bit wd 31 = e := bit_eq (pk hwd hfit 6 rfl rfl rfl)
  rw [short_6B hm, h32]
  simp only [decMajor6B, k0, k1, k2, f3, f4, he, and_self, ite_true, ite_false, reduceIte]

theorem RoundTrip.cpy (e : Bool) (q : BitVec 3) (p : BitVec 1) (a : BitVec 6) (r s : BitVec 3) (c : BitVec 4) : RoundTrip.Statement (.cpy e q p a r s c) := by
  intro _ _
  have hwd : encode (.cpy e q p a r s c) = pack [2, 4, 3, 3, 6, 2, 1, 3, 7, 1] [0, c.toNat, s.toNat, r.toNat, a.toNat, 0, p.toNat, q.toNat, 108, e.toNat] := by
    show word e 0x6C000000 [put q 21, put p 20, put a 12, put r 9, put s 6, put c 2] = _
    simp only [word, put, eBit_eq, pack]
    generalize c.toNat = v1; generalize s.toNat = v2; generalize r.toNat = v3; generalize a.toNat = v4; generalize p.toNat = v6; generalize q.toNat = v7; generalize e.toNat = v9; omega
  have hfit : Fits [2, 4, 3, 3, 6, 2, 1, 3, 7, 1] [0, c.toNat, s.toNat, r.toNat, a.toNat, 0, p.toNat, q.toNat, 108, e.toNat] := ⟨by decide, c.isLt, s.isLt, r.isLt, a.isLt, by decide, p.isLt, q.isLt, by decide, e.toNat_lt, trivial⟩
  revert hwd hfit; generalize encode _ = wd; intro hw hfit
  have hwd := And.intro hw (show ([2, 4, 3, 3, 6, 2, 1, 3, 7, 1] : List Nat).length = ([0, c.toNat, s.toNat, r.toNat, a.toNat, 0, p.toNat, q.toNat, 108, e.toNat] : List Nat).length from rfl)
  have h32 : wd % 2 ^ 32 = wd := pkw hwd hfit rfl
  have k0 : wd % 2 ^ 2 = 0 := pk0 hwd hfit rfl rfl
  have f1 : fld wd 2 4 = c := fld_eq (pk hwd hfit 1 rfl rfl rfl)
  have f2 : fld wd 6 3 = s := fld_eq (pk hwd hfit 2 rfl rfl rfl)
  have f3 : fld wd 9 3 = r := fld_eq (pk hwd hfit 3 rfl rfl rfl)
  have f4 : fld wd 12 6 = a := fld_eq (pk hwd hfit 4 rfl rfl rfl)
  have k5 : wd / 2 ^ 18 % 2 ^ 2 = 0 := pk hwd hfit 5 rfl rfl rfl
  have f6 : fld wd 20 1 = p := fld_eq (pk hwd hfit 6 rfl rfl rfl)
  have f7 : fld wd 21 3 = q := fld_eq (pk hwd hfit 7 rfl rfl rfl)
  have hm : wd / 2 ^ 24 % 2 ^ 7 = 108 := pk hwd hfit 8 rfl rfl rfl
  have he : bit wd 31 = e := bit_eq (pk hwd hfit 9 rfl rfl rfl)
  rw [short_6C hm, h32]
  simp only [decMajor6C, k0, f1, f2, f3, f4, k5, f6, f7, he, and_self, ite_true, ite_false, reduceIte]

theorem RoundTrip.qfence (e : Bool) (m : BitVec 9) : RoundTrip.Statement (.qfence e m) := by
  intro _ _
  have hwd : encode (.qfence e m) = pack [9, 14, 1, 7, 1] [m.toNat, 0, 0, 109, e.toNat] := by
    show word e 0x6D000000 [put m 0] = _
    simp only [word, put, eBit_eq, pack]
    generalize m.toNat = v0; generalize e.toNat = v4; omega
  have hfit : Fits [9, 14, 1, 7, 1] [m.toNat, 0, 0, 109, e.toNat] := ⟨m.isLt, by decide, by decide, by decide, e.toNat_lt, trivial⟩
  revert hwd hfit; generalize encode _ = wd; intro hw hfit
  have hwd := And.intro hw (show ([9, 14, 1, 7, 1] : List Nat).length = ([m.toNat, 0, 0, 109, e.toNat] : List Nat).length from rfl)
  have h32 : wd % 2 ^ 32 = wd := pkw hwd hfit rfl
  have f0 : fld wd 0 9 = m := fld_eq (pk hwd hfit 0 rfl rfl rfl)
  have k1 : wd / 2 ^ 9 % 2 ^ 14 = 0 := pk hwd hfit 1 rfl rfl rfl
  have k2 : wd / 2 ^ 23 % 2 ^ 1 = 0 := pk hwd hfit 2 rfl rfl rfl
  have hm : wd / 2 ^ 24 % 2 ^ 7 = 109 := pk hwd hfit 3 rfl rfl rfl
  have he : bit wd 31 = e := bit_eq (pk hwd hfit 4 rfl rfl rfl)
  rw [short_6D hm, h32]
  simp only [decMajor6D, f0, k1, k2, he, and_self, ite_true, ite_false, reduceIte]

theorem RoundTrip.qwait (e : Bool) (n : BitVec 4) : RoundTrip.Statement (.qwait e n) := by
  intro _ _
  have hwd : encode (.qwait e n) = pack [4, 18, 1, 1, 7, 1] [n.toNat, 0, 0, 1, 109, e.toNat] := by
    show word e 0x6D800000 [put n 0] = _
    simp only [word, put, eBit_eq, pack]
    generalize n.toNat = v0; generalize e.toNat = v5; omega
  have hfit : Fits [4, 18, 1, 1, 7, 1] [n.toNat, 0, 0, 1, 109, e.toNat] := ⟨n.isLt, by decide, by decide, by decide, by decide, e.toNat_lt, trivial⟩
  revert hwd hfit; generalize encode _ = wd; intro hw hfit
  have hwd := And.intro hw (show ([4, 18, 1, 1, 7, 1] : List Nat).length = ([n.toNat, 0, 0, 1, 109, e.toNat] : List Nat).length from rfl)
  have h32 : wd % 2 ^ 32 = wd := pkw hwd hfit rfl
  have f0 : fld wd 0 4 = n := fld_eq (pk hwd hfit 0 rfl rfl rfl)
  have k1 : wd / 2 ^ 4 % 2 ^ 18 = 0 := pk hwd hfit 1 rfl rfl rfl
  have k2 : wd / 2 ^ 22 % 2 ^ 1 = 0 := pk hwd hfit 2 rfl rfl rfl
  have k3 : wd / 2 ^ 23 % 2 ^ 1 = 1 := pk hwd hfit 3 rfl rfl rfl
  have hm : wd / 2 ^ 24 % 2 ^ 7 = 109 := pk hwd hfit 4 rfl rfl rfl
  have he : bit wd 31 = e := bit_eq (pk hwd hfit 5 rfl rfl rfl)
  rw [short_6D hm, h32]
  simp only [decMajor6D, f0, k1, k2, k3, he, and_self, ite_true, ite_false, reduceIte]

theorem RoundTrip.qwaitClr (e : Bool) (n : BitVec 4) : RoundTrip.Statement (.qwaitClr e n) := by
  intro _ _
  have hwd : encode (.qwaitClr e n) = pack [4, 18, 1, 1, 7, 1] [n.toNat, 0, 1, 1, 109, e.toNat] := by
    show word e 0x6DC00000 [put n 0] = _
    simp only [word, put, eBit_eq, pack]
    generalize n.toNat = v0; generalize e.toNat = v5; omega
  have hfit : Fits [4, 18, 1, 1, 7, 1] [n.toNat, 0, 1, 1, 109, e.toNat] := ⟨n.isLt, by decide, by decide, by decide, by decide, e.toNat_lt, trivial⟩
  revert hwd hfit; generalize encode _ = wd; intro hw hfit
  have hwd := And.intro hw (show ([4, 18, 1, 1, 7, 1] : List Nat).length = ([n.toNat, 0, 1, 1, 109, e.toNat] : List Nat).length from rfl)
  have h32 : wd % 2 ^ 32 = wd := pkw hwd hfit rfl
  have f0 : fld wd 0 4 = n := fld_eq (pk hwd hfit 0 rfl rfl rfl)
  have k1 : wd / 2 ^ 4 % 2 ^ 18 = 0 := pk hwd hfit 1 rfl rfl rfl
  have k2 : wd / 2 ^ 22 % 2 ^ 1 = 1 := pk hwd hfit 2 rfl rfl rfl
  have k3 : wd / 2 ^ 23 % 2 ^ 1 = 1 := pk hwd hfit 3 rfl rfl rfl
  have hm : wd / 2 ^ 24 % 2 ^ 7 = 109 := pk hwd hfit 4 rfl rfl rfl
  have he : bit wd 31 = e := bit_eq (pk hwd hfit 5 rfl rfl rfl)
  rw [short_6D hm, h32]
  simp only [decMajor6D, f0, k1, k2, k3, he, and_self, ite_true, ite_false, reduceIte]

theorem RoundTrip.launch (e : Bool) (d a b : BitVec 6) : RoundTrip.Statement (.launch e d a b) := by
  intro _ _
  have hwd : encode (.launch e d a b) = pack [6, 6, 6, 6, 7, 1] [0, b.toNat, a.toNat, d.toNat, 110, e.toNat] := by
    show word e 0x6E000000 [put d 18, put a 12, put b 6] = _
    simp only [word, put, eBit_eq, pack]
    generalize b.toNat = v1; generalize a.toNat = v2; generalize d.toNat = v3; generalize e.toNat = v5; omega
  have hfit : Fits [6, 6, 6, 6, 7, 1] [0, b.toNat, a.toNat, d.toNat, 110, e.toNat] := ⟨by decide, b.isLt, a.isLt, d.isLt, by decide, e.toNat_lt, trivial⟩
  revert hwd hfit; generalize encode _ = wd; intro hw hfit
  have hwd := And.intro hw (show ([6, 6, 6, 6, 7, 1] : List Nat).length = ([0, b.toNat, a.toNat, d.toNat, 110, e.toNat] : List Nat).length from rfl)
  have h32 : wd % 2 ^ 32 = wd := pkw hwd hfit rfl
  have k0 : wd % 2 ^ 6 = 0 := pk0 hwd hfit rfl rfl
  have f1 : fld wd 6 6 = b := fld_eq (pk hwd hfit 1 rfl rfl rfl)
  have f2 : fld wd 12 6 = a := fld_eq (pk hwd hfit 2 rfl rfl rfl)
  have f3 : fld wd 18 6 = d := fld_eq (pk hwd hfit 3 rfl rfl rfl)
  have hm : wd / 2 ^ 24 % 2 ^ 7 = 110 := pk hwd hfit 4 rfl rfl rfl
  have he : bit wd 31 = e := bit_eq (pk hwd hfit 5 rfl rfl rfl)
  rw [short_6E hm, h32]
  simp only [decMajor6E, k0, f1, f2, f3, he, and_self, ite_true, ite_false, reduceIte]

theorem RoundTrip.launchW (e : Bool) (d a b : BitVec 6) : RoundTrip.Statement (.launchW e d a b) := by
  intro _ _
  have hwd : encode (.launchW e d a b) = pack [6, 6, 6, 6, 7, 1] [1, b.toNat, a.toNat, d.toNat, 110, e.toNat] := by
    show word e 0x6E000001 [put d 18, put a 12, put b 6] = _
    simp only [word, put, eBit_eq, pack]
    generalize b.toNat = v1; generalize a.toNat = v2; generalize d.toNat = v3; generalize e.toNat = v5; omega
  have hfit : Fits [6, 6, 6, 6, 7, 1] [1, b.toNat, a.toNat, d.toNat, 110, e.toNat] := ⟨by decide, b.isLt, a.isLt, d.isLt, by decide, e.toNat_lt, trivial⟩
  revert hwd hfit; generalize encode _ = wd; intro hw hfit
  have hwd := And.intro hw (show ([6, 6, 6, 6, 7, 1] : List Nat).length = ([1, b.toNat, a.toNat, d.toNat, 110, e.toNat] : List Nat).length from rfl)
  have h32 : wd % 2 ^ 32 = wd := pkw hwd hfit rfl
  have k0 : wd % 2 ^ 6 = 1 := pk0 hwd hfit rfl rfl
  have f1 : fld wd 6 6 = b := fld_eq (pk hwd hfit 1 rfl rfl rfl)
  have f2 : fld wd 12 6 = a := fld_eq (pk hwd hfit 2 rfl rfl rfl)
  have f3 : fld wd 18 6 = d := fld_eq (pk hwd hfit 3 rfl rfl rfl)
  have hm : wd / 2 ^ 24 % 2 ^ 7 = 110 := pk hwd hfit 4 rfl rfl rfl
  have he : bit wd 31 = e := bit_eq (pk hwd hfit 5 rfl rfl rfl)
  rw [short_6E hm, h32]
  simp only [decMajor6E, k0, f1, f2, f3, he, and_self, ite_true, ite_false, reduceIte]

theorem RoundTrip.gsig (e : Bool) (d a : BitVec 6) : RoundTrip.Statement (.gsig e d a) := by
  intro _ _
  have hwd : encode (.gsig e d a) = pack [6, 6, 6, 6, 7, 1] [0, 0, a.toNat, d.toNat, 111, e.toNat] := by
    show word e 0x6F000000 [put d 18, put a 12] = _
    simp only [word, put, eBit_eq, pack]
    generalize a.toNat = v2; generalize d.toNat = v3; generalize e.toNat = v5; omega
  have hfit : Fits [6, 6, 6, 6, 7, 1] [0, 0, a.toNat, d.toNat, 111, e.toNat] := ⟨by decide, by decide, a.isLt, d.isLt, by decide, e.toNat_lt, trivial⟩
  revert hwd hfit; generalize encode _ = wd; intro hw hfit
  have hwd := And.intro hw (show ([6, 6, 6, 6, 7, 1] : List Nat).length = ([0, 0, a.toNat, d.toNat, 111, e.toNat] : List Nat).length from rfl)
  have h32 : wd % 2 ^ 32 = wd := pkw hwd hfit rfl
  have k0 : wd % 2 ^ 6 = 0 := pk0 hwd hfit rfl rfl
  have k1 : wd / 2 ^ 6 % 2 ^ 6 = 0 := pk hwd hfit 1 rfl rfl rfl
  have f2 : fld wd 12 6 = a := fld_eq (pk hwd hfit 2 rfl rfl rfl)
  have f3 : fld wd 18 6 = d := fld_eq (pk hwd hfit 3 rfl rfl rfl)
  have hm : wd / 2 ^ 24 % 2 ^ 7 = 111 := pk hwd hfit 4 rfl rfl rfl
  have he : bit wd 31 = e := bit_eq (pk hwd hfit 5 rfl rfl rfl)
  rw [short_6F hm, h32]
  simp only [decMajor6F, k0, k1, f2, f3, he, and_self, ite_true, ite_false, reduceIte]

theorem RoundTrip.gcond (e : Bool) (a b : BitVec 6) : RoundTrip.Statement (.gcond e a b) := by
  intro _ _
  have hwd : encode (.gcond e a b) = pack [6, 6, 6, 6, 7, 1] [1, b.toNat, a.toNat, 0, 111, e.toNat] := by
    show word e 0x6F000001 [put a 12, put b 6] = _
    simp only [word, put, eBit_eq, pack]
    generalize b.toNat = v1; generalize a.toNat = v2; generalize e.toNat = v5; omega
  have hfit : Fits [6, 6, 6, 6, 7, 1] [1, b.toNat, a.toNat, 0, 111, e.toNat] := ⟨by decide, b.isLt, a.isLt, by decide, by decide, e.toNat_lt, trivial⟩
  revert hwd hfit; generalize encode _ = wd; intro hw hfit
  have hwd := And.intro hw (show ([6, 6, 6, 6, 7, 1] : List Nat).length = ([1, b.toNat, a.toNat, 0, 111, e.toNat] : List Nat).length from rfl)
  have h32 : wd % 2 ^ 32 = wd := pkw hwd hfit rfl
  have k0 : wd % 2 ^ 6 = 1 := pk0 hwd hfit rfl rfl
  have f1 : fld wd 6 6 = b := fld_eq (pk hwd hfit 1 rfl rfl rfl)
  have f2 : fld wd 12 6 = a := fld_eq (pk hwd hfit 2 rfl rfl rfl)
  have k3 : wd / 2 ^ 18 % 2 ^ 6 = 0 := pk hwd hfit 3 rfl rfl rfl
  have hm : wd / 2 ^ 24 % 2 ^ 7 = 111 := pk hwd hfit 4 rfl rfl rfl
  have he : bit wd 31 = e := bit_eq (pk hwd hfit 5 rfl rfl rfl)
  rw [short_6F hm, h32]
  simp only [decMajor6F, k0, f1, f2, k3, he, and_self, ite_true, ite_false, reduceIte]

theorem RoundTrip.sysrd (e : Bool) (d : BitVec 6) (i : BitVec 12) : RoundTrip.Statement (.sysrd e d i) := by
  intro _ _
  have hwd : encode (.sysrd e d i) = pack [12, 6, 6, 7, 1] [i.toNat, 0, d.toNat, 112, e.toNat] := by
    show word e 0x70000000 [put d 18, put i 0] = _
    simp only [word, put, eBit_eq, pack]
    generalize i.toNat = v0; generalize d.toNat = v2; generalize e.toNat = v4; omega
  have hfit : Fits [12, 6, 6, 7, 1] [i.toNat, 0, d.toNat, 112, e.toNat] := ⟨i.isLt, by decide, d.isLt, by decide, e.toNat_lt, trivial⟩
  revert hwd hfit; generalize encode _ = wd; intro hw hfit
  have hwd := And.intro hw (show ([12, 6, 6, 7, 1] : List Nat).length = ([i.toNat, 0, d.toNat, 112, e.toNat] : List Nat).length from rfl)
  have h32 : wd % 2 ^ 32 = wd := pkw hwd hfit rfl
  have f0 : fld wd 0 12 = i := fld_eq (pk hwd hfit 0 rfl rfl rfl)
  have k1 : wd / 2 ^ 12 % 2 ^ 6 = 0 := pk hwd hfit 1 rfl rfl rfl
  have f2 : fld wd 18 6 = d := fld_eq (pk hwd hfit 2 rfl rfl rfl)
  have hm : wd / 2 ^ 24 % 2 ^ 7 = 112 := pk hwd hfit 3 rfl rfl rfl
  have he : bit wd 31 = e := bit_eq (pk hwd hfit 4 rfl rfl rfl)
  rw [short_70 hm, h32]
  simp only [decMajor70, f0, k1, f2, he, and_self, ite_true, ite_false, reduceIte]

theorem RoundTrip.syswr (e : Bool) (d : BitVec 6) (i : BitVec 12) : RoundTrip.Statement (.syswr e d i) := by
  intro _ hwf
  have hwd : encode (.syswr e d i) = pack [12, 6, 6, 7, 1] [i.toNat, 1, d.toNat, 112, e.toNat] := by
    show word e 0x70001000 [put d 18, put i 0] = _
    simp only [word, put, eBit_eq, pack]
    generalize i.toNat = v0; generalize d.toNat = v2; generalize e.toNat = v4; omega
  have hfit : Fits [12, 6, 6, 7, 1] [i.toNat, 1, d.toNat, 112, e.toNat] := ⟨i.isLt, by decide, d.isLt, by decide, e.toNat_lt, trivial⟩
  revert hwd hfit; generalize encode _ = wd; intro hw hfit
  have hwd := And.intro hw (show ([12, 6, 6, 7, 1] : List Nat).length = ([i.toNat, 1, d.toNat, 112, e.toNat] : List Nat).length from rfl)
  have h32 : wd % 2 ^ 32 = wd := pkw hwd hfit rfl
  have f0 : fld wd 0 12 = i := fld_eq (pk hwd hfit 0 rfl rfl rfl)
  have k1 : wd / 2 ^ 12 % 2 ^ 6 = 1 := pk hwd hfit 1 rfl rfl rfl
  have f2 : fld wd 18 6 = d := fld_eq (pk hwd hfit 2 rfl rfl rfl)
  have hm : wd / 2 ^ 24 % 2 ^ 7 = 112 := pk hwd hfit 3 rfl rfl rfl
  have he : bit wd 31 = e := bit_eq (pk hwd hfit 4 rfl rfl rfl)
  have k0 : wd % 2 ^ 12 = i.toNat := pk0 hwd hfit rfl rfl
  have n1 : i.toNat ≠ 2 := fun c => by simp [Instr.wf, wordWf, show i = 2 from BitVec.eq_of_toNat_eq c] at hwf
  have n2 : i.toNat ≠ 81 := fun c => by simp [Instr.wf, wordWf, show i = 81 from BitVec.eq_of_toNat_eq c] at hwf
  rw [short_70 hm, h32]
  simp only [decMajor70, f0, k1, f2, he, k0, n1, n2, and_self, ite_true, ite_false, reduceIte]

theorem RoundTrip.trap (e : Bool) (c : BitVec 16) : RoundTrip.Statement (.trap e c) := by
  intro _ _
  have hwd : encode (.trap e c) = pack [16, 6, 2, 7, 1] [c.toNat, 0, 0, 113, e.toNat] := by
    show word e 0x71000000 [put c 0] = _
    simp only [word, put, eBit_eq, pack]
    generalize c.toNat = v0; generalize e.toNat = v4; omega
  have hfit : Fits [16, 6, 2, 7, 1] [c.toNat, 0, 0, 113, e.toNat] := ⟨c.isLt, by decide, by decide, by decide, e.toNat_lt, trivial⟩
  revert hwd hfit; generalize encode _ = wd; intro hw hfit
  have hwd := And.intro hw (show ([16, 6, 2, 7, 1] : List Nat).length = ([c.toNat, 0, 0, 113, e.toNat] : List Nat).length from rfl)
  have h32 : wd % 2 ^ 32 = wd := pkw hwd hfit rfl
  have f0 : fld wd 0 16 = c := fld_eq (pk hwd hfit 0 rfl rfl rfl)
  have k1 : wd / 2 ^ 16 % 2 ^ 6 = 0 := pk hwd hfit 1 rfl rfl rfl
  have k2 : wd / 2 ^ 22 % 2 ^ 2 = 0 := pk hwd hfit 2 rfl rfl rfl
  have hm : wd / 2 ^ 24 % 2 ^ 7 = 113 := pk hwd hfit 3 rfl rfl rfl
  have he : bit wd 31 = e := bit_eq (pk hwd hfit 4 rfl rfl rfl)
  rw [short_71 hm, h32]
  simp only [decMajor71, f0, k1, k2, he, and_self, ite_true, ite_false, reduceIte]

theorem RoundTrip.eret (e : Bool) : RoundTrip.Statement (.eret e) := by
  intro _ _
  have hwd : encode (.eret e) = pack [22, 2, 7, 1] [0, 1, 113, e.toNat] := by
    show word e 0x71400000 [] = _
    simp only [word, put, eBit_eq, pack]
    generalize e.toNat = v3; omega
  have hfit : Fits [22, 2, 7, 1] [0, 1, 113, e.toNat] := ⟨by decide, by decide, by decide, e.toNat_lt, trivial⟩
  revert hwd hfit; generalize encode _ = wd; intro hw hfit
  have hwd := And.intro hw (show ([22, 2, 7, 1] : List Nat).length = ([0, 1, 113, e.toNat] : List Nat).length from rfl)
  have h32 : wd % 2 ^ 32 = wd := pkw hwd hfit rfl
  have k0 : wd % 2 ^ 22 = 0 := pk0 hwd hfit rfl rfl
  have k1 : wd / 2 ^ 22 % 2 ^ 2 = 1 := pk hwd hfit 1 rfl rfl rfl
  have hm : wd / 2 ^ 24 % 2 ^ 7 = 113 := pk hwd hfit 2 rfl rfl rfl
  have he : bit wd 31 = e := bit_eq (pk hwd hfit 3 rfl rfl rfl)
  rw [short_71 hm, h32]
  simp only [decMajor71, k0, k1, he, and_self, ite_true, ite_false, reduceIte]

theorem RoundTrip.brk (e : Bool) (c : BitVec 16) : RoundTrip.Statement (.brk e c) := by
  intro _ _
  have hwd : encode (.brk e c) = pack [16, 6, 2, 7, 1] [c.toNat, 0, 2, 113, e.toNat] := by
    show word e 0x71800000 [put c 0] = _
    simp only [word, put, eBit_eq, pack]
    generalize c.toNat = v0; generalize e.toNat = v4; omega
  have hfit : Fits [16, 6, 2, 7, 1] [c.toNat, 0, 2, 113, e.toNat] := ⟨c.isLt, by decide, by decide, by decide, e.toNat_lt, trivial⟩
  revert hwd hfit; generalize encode _ = wd; intro hw hfit
  have hwd := And.intro hw (show ([16, 6, 2, 7, 1] : List Nat).length = ([c.toNat, 0, 2, 113, e.toNat] : List Nat).length from rfl)
  have h32 : wd % 2 ^ 32 = wd := pkw hwd hfit rfl
  have f0 : fld wd 0 16 = c := fld_eq (pk hwd hfit 0 rfl rfl rfl)
  have k1 : wd / 2 ^ 16 % 2 ^ 6 = 0 := pk hwd hfit 1 rfl rfl rfl
  have k2 : wd / 2 ^ 22 % 2 ^ 2 = 2 := pk hwd hfit 2 rfl rfl rfl
  have hm : wd / 2 ^ 24 % 2 ^ 7 = 113 := pk hwd hfit 3 rfl rfl rfl
  have he : bit wd 31 = e := bit_eq (pk hwd hfit 4 rfl rfl rfl)
  rw [short_71 hm, h32]
  simp only [decMajor71, f0, k1, k2, he, and_self, ite_true, ite_false, reduceIte]

theorem RoundTrip.icinvAll (e : Bool) : RoundTrip.Statement (.icinvAll e) := by
  intro _ _
  have hwd : encode (.icinvAll e) = pack [21, 1, 2, 7, 1] [0, 1, 0, 114, e.toNat] := by
    show word e 0x72200000 [] = _
    simp only [word, put, eBit_eq, pack]
    generalize e.toNat = v4; omega
  have hfit : Fits [21, 1, 2, 7, 1] [0, 1, 0, 114, e.toNat] := ⟨by decide, by decide, by decide, by decide, e.toNat_lt, trivial⟩
  revert hwd hfit; generalize encode _ = wd; intro hw hfit
  have hwd := And.intro hw (show ([21, 1, 2, 7, 1] : List Nat).length = ([0, 1, 0, 114, e.toNat] : List Nat).length from rfl)
  have h32 : wd % 2 ^ 32 = wd := pkw hwd hfit rfl
  have k0 : wd % 2 ^ 21 = 0 := pk0 hwd hfit rfl rfl
  have k1 : wd / 2 ^ 21 % 2 ^ 1 = 1 := pk hwd hfit 1 rfl rfl rfl
  have k2 : wd / 2 ^ 22 % 2 ^ 2 = 0 := pk hwd hfit 2 rfl rfl rfl
  have hm : wd / 2 ^ 24 % 2 ^ 7 = 114 := pk hwd hfit 3 rfl rfl rfl
  have he : bit wd 31 = e := bit_eq (pk hwd hfit 4 rfl rfl rfl)
  rw [short_72 hm, h32]
  simp only [decMajor72, k0, k1, k2, he, and_self, ite_true, ite_false, reduceIte]

theorem RoundTrip.icinv (e : Bool) (a b : BitVec 6) : RoundTrip.Statement (.icinv e a b) := by
  intro _ _
  have hwd : encode (.icinv e a b) = pack [6, 6, 6, 3, 1, 2, 7, 1] [0, b.toNat, a.toNat, 0, 0, 0, 114, e.toNat] := by
    show word e 0x72000000 [put a 12, put b 6] = _
    simp only [word, put, eBit_eq, pack]
    generalize b.toNat = v1; generalize a.toNat = v2; generalize e.toNat = v7; omega
  have hfit : Fits [6, 6, 6, 3, 1, 2, 7, 1] [0, b.toNat, a.toNat, 0, 0, 0, 114, e.toNat] := ⟨by decide, b.isLt, a.isLt, by decide, by decide, by decide, by decide, e.toNat_lt, trivial⟩
  revert hwd hfit; generalize encode _ = wd; intro hw hfit
  have hwd := And.intro hw (show ([6, 6, 6, 3, 1, 2, 7, 1] : List Nat).length = ([0, b.toNat, a.toNat, 0, 0, 0, 114, e.toNat] : List Nat).length from rfl)
  have h32 : wd % 2 ^ 32 = wd := pkw hwd hfit rfl
  have k0 : wd % 2 ^ 6 = 0 := pk0 hwd hfit rfl rfl
  have f1 : fld wd 6 6 = b := fld_eq (pk hwd hfit 1 rfl rfl rfl)
  have f2 : fld wd 12 6 = a := fld_eq (pk hwd hfit 2 rfl rfl rfl)
  have k3 : wd / 2 ^ 18 % 2 ^ 3 = 0 := pk hwd hfit 3 rfl rfl rfl
  have k4 : wd / 2 ^ 21 % 2 ^ 1 = 0 := pk hwd hfit 4 rfl rfl rfl
  have k5 : wd / 2 ^ 22 % 2 ^ 2 = 0 := pk hwd hfit 5 rfl rfl rfl
  have hm : wd / 2 ^ 24 % 2 ^ 7 = 114 := pk hwd hfit 6 rfl rfl rfl
  have he : bit wd 31 = e := bit_eq (pk hwd hfit 7 rfl rfl rfl)
  rw [short_72 hm, h32]
  simp only [decMajor72, k0, f1, f2, k3, k4, k5, he, and_self, ite_true, ite_false, reduceIte]

theorem RoundTrip.yield (e : Bool) : RoundTrip.Statement (.yield e) := by
  intro _ _
  have hwd : encode (.yield e) = pack [22, 2, 7, 1] [0, 1, 114, e.toNat] := by
    show word e 0x72400000 [] = _
    simp only [word, put, eBit_eq, pack]
    generalize e.toNat = v3; omega
  have hfit : Fits [22, 2, 7, 1] [0, 1, 114, e.toNat] := ⟨by decide, by decide, by decide, e.toNat_lt, trivial⟩
  revert hwd hfit; generalize encode _ = wd; intro hw hfit
  have hwd := And.intro hw (show ([22, 2, 7, 1] : List Nat).length = ([0, 1, 114, e.toNat] : List Nat).length from rfl)
  have h32 : wd % 2 ^ 32 = wd := pkw hwd hfit rfl
  have k0 : wd % 2 ^ 22 = 0 := pk0 hwd hfit rfl rfl
  have k1 : wd / 2 ^ 22 % 2 ^ 2 = 1 := pk hwd hfit 1 rfl rfl rfl
  have hm : wd / 2 ^ 24 % 2 ^ 7 = 114 := pk hwd hfit 2 rfl rfl rfl
  have he : bit wd 31 = e := bit_eq (pk hwd hfit 3 rfl rfl rfl)
  rw [short_72 hm, h32]
  simp only [decMajor72, k0, k1, he, and_self, ite_true, ite_false, reduceIte]

theorem RoundTrip.nop (e : Bool) : RoundTrip.Statement (.nop e) := by
  intro _ _
  have hwd : encode (.nop e) = pack [22, 2, 7, 1] [0, 2, 114, e.toNat] := by
    show word e 0x72800000 [] = _
    simp only [word, put, eBit_eq, pack]
    generalize e.toNat = v3; omega
  have hfit : Fits [22, 2, 7, 1] [0, 2, 114, e.toNat] := ⟨by decide, by decide, by decide, e.toNat_lt, trivial⟩
  revert hwd hfit; generalize encode _ = wd; intro hw hfit
  have hwd := And.intro hw (show ([22, 2, 7, 1] : List Nat).length = ([0, 2, 114, e.toNat] : List Nat).length from rfl)
  have h32 : wd % 2 ^ 32 = wd := pkw hwd hfit rfl
  have k0 : wd % 2 ^ 22 = 0 := pk0 hwd hfit rfl rfl
  have k1 : wd / 2 ^ 22 % 2 ^ 2 = 2 := pk hwd hfit 1 rfl rfl rfl
  have hm : wd / 2 ^ 24 % 2 ^ 7 = 114 := pk hwd hfit 2 rfl rfl rfl
  have he : bit wd 31 = e := bit_eq (pk hwd hfit 3 rfl rfl rfl)
  rw [short_72 hm, h32]
  simp only [decMajor72, k0, k1, he, and_self, ite_true, ite_false, reduceIte]

theorem RoundTrip.halt (e : Bool) : RoundTrip.Statement (.halt e) := by
  intro _ _
  have hwd : encode (.halt e) = pack [22, 2, 7, 1] [0, 3, 114, e.toNat] := by
    show word e 0x72C00000 [] = _
    simp only [word, put, eBit_eq, pack]
    generalize e.toNat = v3; omega
  have hfit : Fits [22, 2, 7, 1] [0, 3, 114, e.toNat] := ⟨by decide, by decide, by decide, e.toNat_lt, trivial⟩
  revert hwd hfit; generalize encode _ = wd; intro hw hfit
  have hwd := And.intro hw (show ([22, 2, 7, 1] : List Nat).length = ([0, 3, 114, e.toNat] : List Nat).length from rfl)
  have h32 : wd % 2 ^ 32 = wd := pkw hwd hfit rfl
  have k0 : wd % 2 ^ 22 = 0 := pk0 hwd hfit rfl rfl
  have k1 : wd / 2 ^ 22 % 2 ^ 2 = 3 := pk hwd hfit 1 rfl rfl rfl
  have hm : wd / 2 ^ 24 % 2 ^ 7 = 114 := pk hwd hfit 2 rfl rfl rfl
  have he : bit wd 31 = e := bit_eq (pk hwd hfit 3 rfl rfl rfl)
  rw [short_72 hm, h32]
  simp only [decMajor72, k0, k1, he, and_self, ite_true, ite_false, reduceIte]

theorem RoundTrip.pwrhint (e : Bool) (a : BitVec 6) (k : BitVec 4) : RoundTrip.Statement (.pwrhint e a k) := by
  intro _ _
  have hwd : encode (.pwrhint e a k) = pack [8, 4, 6, 6, 7, 1] [0, k.toNat, a.toNat, 0, 115, e.toNat] := by
    show word e 0x73000000 [put a 12, put k 8] = _
    simp only [word, put, eBit_eq, pack]
    generalize k.toNat = v1; generalize a.toNat = v2; generalize e.toNat = v5; omega
  have hfit : Fits [8, 4, 6, 6, 7, 1] [0, k.toNat, a.toNat, 0, 115, e.toNat] := ⟨by decide, k.isLt, a.isLt, by decide, by decide, e.toNat_lt, trivial⟩
  revert hwd hfit; generalize encode _ = wd; intro hw hfit
  have hwd := And.intro hw (show ([8, 4, 6, 6, 7, 1] : List Nat).length = ([0, k.toNat, a.toNat, 0, 115, e.toNat] : List Nat).length from rfl)
  have h32 : wd % 2 ^ 32 = wd := pkw hwd hfit rfl
  have k0 : wd % 2 ^ 8 = 0 := pk0 hwd hfit rfl rfl
  have f1 : fld wd 8 4 = k := fld_eq (pk hwd hfit 1 rfl rfl rfl)
  have f2 : fld wd 12 6 = a := fld_eq (pk hwd hfit 2 rfl rfl rfl)
  have k3 : wd / 2 ^ 18 % 2 ^ 6 = 0 := pk hwd hfit 3 rfl rfl rfl
  have hm : wd / 2 ^ 24 % 2 ^ 7 = 115 := pk hwd hfit 4 rfl rfl rfl
  have he : bit wd 31 = e := bit_eq (pk hwd hfit 5 rfl rfl rfl)
  rw [short_73 hm, h32]
  simp only [decMajor73, k0, f1, f2, k3, he, and_self, ite_true, ite_false, reduceIte]

theorem RoundTrip.syswrVcfg (e : Bool) (d : BitVec 6) : RoundTrip.Statement (.syswrVcfg e d) := by
  intro _ _
  have hwd : encode (.syswrVcfg e d) = pack [12, 6, 6, 7, 1] [2, 1, d.toNat, 112, e.toNat] := by
    show word e 0x70001002 [put d 18] = _
    simp only [word, put, eBit_eq, pack]
    generalize d.toNat = v2; generalize e.toNat = v4; omega
  have hfit : Fits [12, 6, 6, 7, 1] [2, 1, d.toNat, 112, e.toNat] := ⟨by decide, by decide, d.isLt, by decide, e.toNat_lt, trivial⟩
  revert hwd hfit; generalize encode _ = wd; intro hw hfit
  have hwd := And.intro hw (show ([12, 6, 6, 7, 1] : List Nat).length = ([2, 1, d.toNat, 112, e.toNat] : List Nat).length from rfl)
  have h32 : wd % 2 ^ 32 = wd := pkw hwd hfit rfl
  have k0 : wd % 2 ^ 12 = 2 := pk0 hwd hfit rfl rfl
  have k1 : wd / 2 ^ 12 % 2 ^ 6 = 1 := pk hwd hfit 1 rfl rfl rfl
  have f2 : fld wd 18 6 = d := fld_eq (pk hwd hfit 2 rfl rfl rfl)
  have hm : wd / 2 ^ 24 % 2 ^ 7 = 112 := pk hwd hfit 3 rfl rfl rfl
  have he : bit wd 31 = e := bit_eq (pk hwd hfit 4 rfl rfl rfl)
  rw [short_70 hm, h32]
  simp only [decMajor70, k0, k1, f2, he, and_self, ite_true, ite_false, reduceIte]

theorem RoundTrip.fqdone (e : Bool) (d : BitVec 6) : RoundTrip.Statement (.fqdone e d) := by
  intro _ _
  have hwd : encode (.fqdone e d) = pack [12, 6, 6, 7, 1] [81, 1, d.toNat, 112, e.toNat] := by
    show word e 0x70001051 [put d 18] = _
    simp only [word, put, eBit_eq, pack]
    generalize d.toNat = v2; generalize e.toNat = v4; omega
  have hfit : Fits [12, 6, 6, 7, 1] [81, 1, d.toNat, 112, e.toNat] := ⟨by decide, by decide, d.isLt, by decide, e.toNat_lt, trivial⟩
  revert hwd hfit; generalize encode _ = wd; intro hw hfit
  have hwd := And.intro hw (show ([12, 6, 6, 7, 1] : List Nat).length = ([81, 1, d.toNat, 112, e.toNat] : List Nat).length from rfl)
  have h32 : wd % 2 ^ 32 = wd := pkw hwd hfit rfl
  have k0 : wd % 2 ^ 12 = 81 := pk0 hwd hfit rfl rfl
  have k1 : wd / 2 ^ 12 % 2 ^ 6 = 1 := pk hwd hfit 1 rfl rfl rfl
  have f2 : fld wd 18 6 = d := fld_eq (pk hwd hfit 2 rfl rfl rfl)
  have hm : wd / 2 ^ 24 % 2 ^ 7 = 112 := pk hwd hfit 3 rfl rfl rfl
  have he : bit wd 31 = e := bit_eq (pk hwd hfit 4 rfl rfl rfl)
  rw [short_70 hm, h32]
  simp only [decMajor70, k0, k1, f2, he, Nat.reduceEqDiff, and_self, ite_true, ite_false, reduceIte]

/-- An immediate that a long form splits over its words. -/
theorem imm_eq {w : Nat} {imm : BitVec 32} (h1 : w % 2 ^ 4 = (imm.extractLsb' 28 4).toNat)
    (h2 : w / 2 ^ 32 % 2 ^ 28 = (imm.extractLsb' 0 28).toNat) :
    BitVec.ofNat 32 (w % 2 ^ 4 * 2 ^ 28 + w / 2 ^ 32 % 2 ^ 28) = imm := by
  rw [h1, h2]; apply BitVec.eq_of_toNat_eq
  have := imm.isLt
  simp only [BitVec.extractLsb'_toNat, BitVec.toNat_ofNat, Nat.shiftRight_eq_div_pow]; omega

theorem Dec.isOk_ok {r : Dec} (h : r.isOk = true) : ∃ i, r = .ok i := by cases r <;> simp_all [Dec.isOk]

theorem bodyOk_ok {x : BitVec 4} {b : BitVec 24} (h : bodyOk x b = true) :
    ∃ i, decodeShort ((0x60 + x.toNat) * 2 ^ 24 + b.toNat) = .ok i := Dec.isOk_ok h

theorem long_78 {w : Nat} (h : w / 2 ^ 24 % 2 ^ 7 = 0x78) : decode w = decLongScalar w := by unfold decode; rw [h]; rfl

theorem long_79 {w : Nat} (h : w / 2 ^ 24 % 2 ^ 7 = 0x79) : decode w = decLongVector w := by unfold decode; rw [h]; rfl

theorem long_7A {w : Nat} (h : w / 2 ^ 24 % 2 ^ 7 = 0x7A) : decode w = decLongMemory w := by unfold decode; rw [h]; rfl

theorem long_7B {w : Nat} (h : w / 2 ^ 24 % 2 ^ 7 = 0x7B) : decode w = decLongMatrix w := by unfold decode; rw [h]; rfl

theorem RoundTrip.saluLongImm (e : Bool) (d a fn : BitVec 6) (imm : BitVec 32) (hint : BitVec 4) : RoundTrip.Statement (.saluLongImm e d a fn imm hint) := by
  intro _ hwf
  have hwd : encode (.saluLongImm e d a fn imm hint) = pack [4, 2, 6, 6, 6, 7, 1, 28, 4] [(imm.extractLsb' 28 4).toNat, 0, fn.toNat, a.toNat, d.toNat, 120, e.toNat, (imm.extractLsb' 0 28).toNat, hint.toNat] := by
    show word e 0x78000000 [put d 18, put a 12, put fn 6, put (imm.extractLsb' 28 4) 0, put (imm.extractLsb' 0 28) 32, put hint 60] = _
    clear hwf; simp only [word, put, eBit_eq, pack]
    generalize (imm.extractLsb' 28 4).toNat = v0; generalize fn.toNat = v2; generalize a.toNat = v3; generalize d.toNat = v4; generalize e.toNat = v6; generalize (imm.extractLsb' 0 28).toNat = v7; generalize hint.toNat = v8; omega
  have hfit : Fits [4, 2, 6, 6, 6, 7, 1, 28, 4] [(imm.extractLsb' 28 4).toNat, 0, fn.toNat, a.toNat, d.toNat, 120, e.toNat, (imm.extractLsb' 0 28).toNat, hint.toNat] := ⟨(imm.extractLsb' 28 4).isLt, by decide, fn.isLt, a.isLt, d.isLt, by decide, e.toNat_lt, (imm.extractLsb' 0 28).isLt, hint.isLt, trivial⟩
  revert hwd hfit; generalize encode _ = wd; intro hw hfit
  have hwd := And.intro hw (show ([4, 2, 6, 6, 6, 7, 1, 28, 4] : List Nat).length = ([(imm.extractLsb' 28 4).toNat, 0, fn.toNat, a.toNat, d.toNat, 120, e.toNat, (imm.extractLsb' 0 28).toNat, hint.toNat] : List Nat).length from rfl)
  have hm : wd / 2 ^ 24 % 2 ^ 7 = 120 := pk hwd hfit 5 rfl rfl rfl
  have he : bit wd 31 = e := bit_eq (pk hwd hfit 6 rfl rfl rfl)
  have k0 : wd / 2 ^ 4 % 2 ^ 2 = 0 := pk hwd hfit 1 rfl rfl rfl
  have k1 : wd / 2 ^ 6 % 2 ^ 6 = fn.toNat := pk hwd hfit 2 rfl rfl rfl
  have k2 : fld wd 18 6 = d := fld_eq (pk hwd hfit 4 rfl rfl rfl)
  have k3 : fld wd 12 6 = a := fld_eq (pk hwd hfit 3 rfl rfl rfl)
  have k4 : fld wd 6 6 = fn := fld_eq (pk hwd hfit 2 rfl rfl rfl)
  have k5 : BitVec.ofNat 32 (wd % 2 ^ 4 * 2 ^ 28 + wd / 2 ^ 32 % 2 ^ 28) = imm := imm_eq (pk0 hwd hfit rfl rfl) (pk hwd hfit 7 rfl rfl rfl)
  have k6 : fld wd 60 4 = hint := fld_eq (pk hwd hfit 8 rfl rfl rfl)
  rw [long_78 hm]
  simp only [Instr.wf, wordWf, stepWf, Bool.and_true, Bool.and_eq_true, decide_eq_true_eq] at hwf
  simp only [decLongScalar, he, k0, k1, k2, k3, k4, k5, k6, hwf, ite_true]

theorem RoundTrip.sliLong (e : Bool) (d : BitVec 6) (imm : BitVec 32) (hint : BitVec 4) : RoundTrip.Statement (.sliLong e d imm hint) := by
  intro _ _
  have hwd : encode (.sliLong e d imm hint) = pack [4, 2, 1, 11, 6, 7, 1, 28, 4] [(imm.extractLsb' 28 4).toNat, 1, 0, 0, d.toNat, 120, e.toNat, (imm.extractLsb' 0 28).toNat, hint.toNat] := by
    show word e 0x78000010 [put d 18, put (imm.extractLsb' 28 4) 0, put (imm.extractLsb' 0 28) 32, put hint 60] = _
    simp only [word, put, eBit_eq, pack]
    generalize (imm.extractLsb' 28 4).toNat = v0; generalize d.toNat = v4; generalize e.toNat = v6; generalize (imm.extractLsb' 0 28).toNat = v7; generalize hint.toNat = v8; omega
  have hfit : Fits [4, 2, 1, 11, 6, 7, 1, 28, 4] [(imm.extractLsb' 28 4).toNat, 1, 0, 0, d.toNat, 120, e.toNat, (imm.extractLsb' 0 28).toNat, hint.toNat] := ⟨(imm.extractLsb' 28 4).isLt, by decide, by decide, by decide, d.isLt, by decide, e.toNat_lt, (imm.extractLsb' 0 28).isLt, hint.isLt, trivial⟩
  revert hwd hfit; generalize encode _ = wd; intro hw hfit
  have hwd := And.intro hw (show ([4, 2, 1, 11, 6, 7, 1, 28, 4] : List Nat).length = ([(imm.extractLsb' 28 4).toNat, 1, 0, 0, d.toNat, 120, e.toNat, (imm.extractLsb' 0 28).toNat, hint.toNat] : List Nat).length from rfl)
  have hm : wd / 2 ^ 24 % 2 ^ 7 = 120 := pk hwd hfit 5 rfl rfl rfl
  have he : bit wd 31 = e := bit_eq (pk hwd hfit 6 rfl rfl rfl)
  have k0 : wd / 2 ^ 4 % 2 ^ 2 = 1 := pk hwd hfit 1 rfl rfl rfl
  have k1 : bit wd 6 = false := bit_eq (e := false) (pk hwd hfit 2 rfl rfl rfl)
  have k2 : wd / 2 ^ 7 % 2 ^ 11 = 0 := pk hwd hfit 3 rfl rfl rfl
  have k3 : fld wd 18 6 = d := fld_eq (pk hwd hfit 4 rfl rfl rfl)
  have k4 : BitVec.ofNat 32 (wd % 2 ^ 4 * 2 ^ 28 + wd / 2 ^ 32 % 2 ^ 28) = imm := imm_eq (pk0 hwd hfit rfl rfl) (pk hwd hfit 7 rfl rfl rfl)
  have k5 : fld wd 60 4 = hint := fld_eq (pk hwd hfit 8 rfl rfl rfl)
  rw [long_78 hm]
  simp only [decLongScalar, he, k0, k1, k2, k3, k4, k5, ite_true, Bool.false_eq_true, ite_false]

theorem RoundTrip.slhiW (e : Bool) (d : BitVec 6) (imm : BitVec 32) (hint : BitVec 4) : RoundTrip.Statement (.slhiW e d imm hint) := by
  intro _ _
  have hwd : encode (.slhiW e d imm hint) = pack [4, 2, 1, 11, 6, 7, 1, 28, 4] [(imm.extractLsb' 28 4).toNat, 1, 1, 0, d.toNat, 120, e.toNat, (imm.extractLsb' 0 28).toNat, hint.toNat] := by
    show word e 0x78000050 [put d 18, put (imm.extractLsb' 28 4) 0, put (imm.extractLsb' 0 28) 32, put hint 60] = _
    simp only [word, put, eBit_eq, pack]
    generalize (imm.extractLsb' 28 4).toNat = v0; generalize d.toNat = v4; generalize e.toNat = v6; generalize (imm.extractLsb' 0 28).toNat = v7; generalize hint.toNat = v8; omega
  have hfit : Fits [4, 2, 1, 11, 6, 7, 1, 28, 4] [(imm.extractLsb' 28 4).toNat, 1, 1, 0, d.toNat, 120, e.toNat, (imm.extractLsb' 0 28).toNat, hint.toNat] := ⟨(imm.extractLsb' 28 4).isLt, by decide, by decide, by decide, d.isLt, by decide, e.toNat_lt, (imm.extractLsb' 0 28).isLt, hint.isLt, trivial⟩
  revert hwd hfit; generalize encode _ = wd; intro hw hfit
  have hwd := And.intro hw (show ([4, 2, 1, 11, 6, 7, 1, 28, 4] : List Nat).length = ([(imm.extractLsb' 28 4).toNat, 1, 1, 0, d.toNat, 120, e.toNat, (imm.extractLsb' 0 28).toNat, hint.toNat] : List Nat).length from rfl)
  have hm : wd / 2 ^ 24 % 2 ^ 7 = 120 := pk hwd hfit 5 rfl rfl rfl
  have he : bit wd 31 = e := bit_eq (pk hwd hfit 6 rfl rfl rfl)
  have k0 : wd / 2 ^ 4 % 2 ^ 2 = 1 := pk hwd hfit 1 rfl rfl rfl
  have k1 : bit wd 6 = true := bit_eq (e := true) (pk hwd hfit 2 rfl rfl rfl)
  have k2 : wd / 2 ^ 7 % 2 ^ 11 = 0 := pk hwd hfit 3 rfl rfl rfl
  have k3 : fld wd 18 6 = d := fld_eq (pk hwd hfit 4 rfl rfl rfl)
  have k4 : BitVec.ofNat 32 (wd % 2 ^ 4 * 2 ^ 28 + wd / 2 ^ 32 % 2 ^ 28) = imm := imm_eq (pk0 hwd hfit rfl rfl) (pk hwd hfit 7 rfl rfl rfl)
  have k5 : fld wd 60 4 = hint := fld_eq (pk hwd hfit 8 rfl rfl rfl)
  rw [long_78 hm]
  simp only [decLongScalar, he, k0, k1, k2, k3, k4, k5, ite_true]

theorem RoundTrip.sadrLong (e : Bool) (d a fn : BitVec 6) (imm : BitVec 32) (hint : BitVec 4) : RoundTrip.Statement (.sadrLong e d a fn imm hint) := by
  intro _ hwf
  have hwd : encode (.sadrLong e d a fn imm hint) = pack [4, 2, 6, 6, 6, 7, 1, 28, 4] [(imm.extractLsb' 28 4).toNat, 2, fn.toNat, a.toNat, d.toNat, 120, e.toNat, (imm.extractLsb' 0 28).toNat, hint.toNat] := by
    show word e 0x78000020 [put d 18, put a 12, put fn 6, put (imm.extractLsb' 28 4) 0, put (imm.extractLsb' 0 28) 32, put hint 60] = _
    clear hwf; simp only [word, put, eBit_eq, pack]
    generalize (imm.extractLsb' 28 4).toNat = v0; generalize fn.toNat = v2; generalize a.toNat = v3; generalize d.toNat = v4; generalize e.toNat = v6; generalize (imm.extractLsb' 0 28).toNat = v7; generalize hint.toNat = v8; omega
  have hfit : Fits [4, 2, 6, 6, 6, 7, 1, 28, 4] [(imm.extractLsb' 28 4).toNat, 2, fn.toNat, a.toNat, d.toNat, 120, e.toNat, (imm.extractLsb' 0 28).toNat, hint.toNat] := ⟨(imm.extractLsb' 28 4).isLt, by decide, fn.isLt, a.isLt, d.isLt, by decide, e.toNat_lt, (imm.extractLsb' 0 28).isLt, hint.isLt, trivial⟩
  revert hwd hfit; generalize encode _ = wd; intro hw hfit
  have hwd := And.intro hw (show ([4, 2, 6, 6, 6, 7, 1, 28, 4] : List Nat).length = ([(imm.extractLsb' 28 4).toNat, 2, fn.toNat, a.toNat, d.toNat, 120, e.toNat, (imm.extractLsb' 0 28).toNat, hint.toNat] : List Nat).length from rfl)
  have hm : wd / 2 ^ 24 % 2 ^ 7 = 120 := pk hwd hfit 5 rfl rfl rfl
  have he : bit wd 31 = e := bit_eq (pk hwd hfit 6 rfl rfl rfl)
  have k0 : wd / 2 ^ 4 % 2 ^ 2 = 2 := pk hwd hfit 1 rfl rfl rfl
  have k1 : wd / 2 ^ 6 % 2 ^ 6 = fn.toNat := pk hwd hfit 2 rfl rfl rfl
  have k2 : wd / 2 ^ 9 % 2 ^ 3 = fn.toNat / 8 := by omega
  have k3 : fld wd 18 6 = d := fld_eq (pk hwd hfit 4 rfl rfl rfl)
  have k4 : fld wd 12 6 = a := fld_eq (pk hwd hfit 3 rfl rfl rfl)
  have k5 : fld wd 6 6 = fn := fld_eq (pk hwd hfit 2 rfl rfl rfl)
  have k6 : BitVec.ofNat 32 (wd % 2 ^ 4 * 2 ^ 28 + wd / 2 ^ 32 % 2 ^ 28) = imm := imm_eq (pk0 hwd hfit rfl rfl) (pk hwd hfit 7 rfl rfl rfl)
  have k7 : fld wd 60 4 = hint := fld_eq (pk hwd hfit 8 rfl rfl rfl)
  rw [long_78 hm]
  simp only [Instr.wf, wordWf, stepWf, Bool.and_true, Bool.and_eq_true, decide_eq_true_eq] at hwf
  simp only [decLongScalar, he, k0, k1, k2, k3, k4, k5, k6, k7, hwf, ite_true]

theorem RoundTrip.vfcvtBlockToF32 (e : Bool) (x : BlockCvt) : RoundTrip.Statement (.vfcvtBlockToF32 e x) := by
  intro _ hwf
  have hwd : encode (.vfcvtBlockToF32 e x) = pack [6, 1, 5, 6, 6, 7, 1, 1, 4, 5, 3, 4, 2, 1, 1, 1, 1, 1, 4, 4] [24, 1, 0, x.a.toNat, x.d.toNat, 121, e.toNat, x.prnd.toNat, x.pln.toNat, x.ef.toNat, x.k.toNat, 0, 0, 0, 0, x.nw.toNat, x.la.toNat, 0, x.pm4.toNat, x.hint.toNat] := by
    show word e 0x79000058 [put x.d 18, put x.a 12, put x.hint 60, put x.pm4 56, put x.la 54, put x.nw 53, put x.k 42, put x.ef 37, put x.pln 33, put x.prnd 32] = _
    clear hwf; simp only [word, put, eBit_eq, pack]
    generalize x.a.toNat = v3; generalize x.d.toNat = v4; generalize e.toNat = v6; generalize x.prnd.toNat = v7; generalize x.pln.toNat = v8; generalize x.ef.toNat = v9; generalize x.k.toNat = v10; generalize x.nw.toNat = v15; generalize x.la.toNat = v16; generalize x.pm4.toNat = v18; generalize x.hint.toNat = v19; omega
  have hfit : Fits [6, 1, 5, 6, 6, 7, 1, 1, 4, 5, 3, 4, 2, 1, 1, 1, 1, 1, 4, 4] [24, 1, 0, x.a.toNat, x.d.toNat, 121, e.toNat, x.prnd.toNat, x.pln.toNat, x.ef.toNat, x.k.toNat, 0, 0, 0, 0, x.nw.toNat, x.la.toNat, 0, x.pm4.toNat, x.hint.toNat] := ⟨by decide, by decide, by decide, x.a.isLt, x.d.isLt, by decide, e.toNat_lt, x.prnd.isLt, x.pln.isLt, x.ef.isLt, x.k.isLt, by decide, by decide, by decide, by decide, x.nw.isLt, x.la.isLt, by decide, x.pm4.isLt, x.hint.isLt, trivial⟩
  revert hwd hfit; generalize encode _ = wd; intro hw hfit
  have hwd := And.intro hw (show ([6, 1, 5, 6, 6, 7, 1, 1, 4, 5, 3, 4, 2, 1, 1, 1, 1, 1, 4, 4] : List Nat).length = ([24, 1, 0, x.a.toNat, x.d.toNat, 121, e.toNat, x.prnd.toNat, x.pln.toNat, x.ef.toNat, x.k.toNat, 0, 0, 0, 0, x.nw.toNat, x.la.toNat, 0, x.pm4.toNat, x.hint.toNat] : List Nat).length from rfl)
  have hm : wd / 2 ^ 24 % 2 ^ 7 = 121 := pk hwd hfit 5 rfl rfl rfl
  have he : bit wd 31 = e := bit_eq (pk hwd hfit 6 rfl rfl rfl)
  have k0 : wd % 2 ^ 6 = 24 := pk0 hwd hfit rfl rfl
  have k1 : bit wd 6 = true := bit_eq (e := true) (pk hwd hfit 1 rfl rfl rfl)
  have k2 : wd / 2 ^ 7 % 2 ^ 5 = 0 := pk hwd hfit 2 rfl rfl rfl
  have k3 : wd / 2 ^ 55 % 2 ^ 1 = 0 := pk hwd hfit 17 rfl rfl rfl
  have k4 : wd / 2 ^ 55 % 2 = 0 := pk hwd hfit 17 rfl rfl rfl
  have k5 : wd / 2 ^ 52 % 2 ^ 1 = 0 := pk hwd hfit 14 rfl rfl rfl
  have k6 : wd / 2 ^ 52 % 2 = 0 := pk hwd hfit 14 rfl rfl rfl
  have k7 : wd / 2 ^ 49 % 2 ^ 2 = 0 := pk hwd hfit 12 rfl rfl rfl
  have k8 : wd / 2 ^ 45 % 2 ^ 4 = 0 := pk hwd hfit 11 rfl rfl rfl
  have k9 : wd / 2 ^ 37 % 2 ^ 5 = x.ef.toNat := pk hwd hfit 9 rfl rfl rfl
  have k10 : bit wd 51 = false := bit_eq (e := false) (pk hwd hfit 13 rfl rfl rfl)
  have k11 : fld wd 18 6 = x.d := fld_eq (pk hwd hfit 4 rfl rfl rfl)
  have k12 : fld wd 12 6 = x.a := fld_eq (pk hwd hfit 3 rfl rfl rfl)
  have k13 : fld wd 60 4 = x.hint := fld_eq (pk hwd hfit 19 rfl rfl rfl)
  have k14 : fld wd 56 4 = x.pm4 := fld_eq (pk hwd hfit 18 rfl rfl rfl)
  have k15 : fld wd 54 1 = x.la := fld_eq (pk hwd hfit 16 rfl rfl rfl)
  have k16 : fld wd 53 1 = x.nw := fld_eq (pk hwd hfit 15 rfl rfl rfl)
  have k17 : fld wd 42 3 = x.k := fld_eq (pk hwd hfit 10 rfl rfl rfl)
  have k18 : fld wd 37 5 = x.ef := fld_eq (pk hwd hfit 9 rfl rfl rfl)
  have k19 : fld wd 33 4 = x.pln := fld_eq (pk hwd hfit 8 rfl rfl rfl)
  have k20 : fld wd 32 1 = x.prnd := fld_eq (pk hwd hfit 7 rfl rfl rfl)
  simp only [Nat.reducePow] at k0 k2 k3 k4 k5 k6 k7 k8 k9
  rw [long_79 hm]
  simp only [Instr.wf, wordWf, stepWf, Bool.and_true, Bool.and_eq_true, decide_eq_true_eq] at hwf
  have g1 : x.ef.toNat ≠ 0 := by omega
  have g2 : ¬(x.ef.toNat < 16 ∨ 23 < x.ef.toNat) := by omega
  simp [decLongVector, blockCvtFields, he, k0, k1, k2, k3, k4, k5, k6, k7, k8, k9, k10, k11, k12, k13, k14, k15, k16, k17, k18, k19, k20, g1, g2]

theorem RoundTrip.vfcvtF32ToBlock (e : Bool) (x : BlockCvt) : RoundTrip.Statement (.vfcvtF32ToBlock e x) := by
  intro _ hwf
  have hwd : encode (.vfcvtF32ToBlock e x) = pack [6, 1, 5, 6, 6, 7, 1, 1, 4, 5, 3, 4, 2, 1, 1, 1, 1, 1, 4, 4] [24, 0, 0, x.a.toNat, x.d.toNat, 121, e.toNat, x.prnd.toNat, x.pln.toNat, x.ef.toNat, x.k.toNat, 0, 0, 0, 0, x.nw.toNat, x.la.toNat, 0, x.pm4.toNat, x.hint.toNat] := by
    show word e 0x79000018 [put x.d 18, put x.a 12, put x.hint 60, put x.pm4 56, put x.la 54, put x.nw 53, put x.k 42, put x.ef 37, put x.pln 33, put x.prnd 32] = _
    clear hwf; simp only [word, put, eBit_eq, pack]
    generalize x.a.toNat = v3; generalize x.d.toNat = v4; generalize e.toNat = v6; generalize x.prnd.toNat = v7; generalize x.pln.toNat = v8; generalize x.ef.toNat = v9; generalize x.k.toNat = v10; generalize x.nw.toNat = v15; generalize x.la.toNat = v16; generalize x.pm4.toNat = v18; generalize x.hint.toNat = v19; omega
  have hfit : Fits [6, 1, 5, 6, 6, 7, 1, 1, 4, 5, 3, 4, 2, 1, 1, 1, 1, 1, 4, 4] [24, 0, 0, x.a.toNat, x.d.toNat, 121, e.toNat, x.prnd.toNat, x.pln.toNat, x.ef.toNat, x.k.toNat, 0, 0, 0, 0, x.nw.toNat, x.la.toNat, 0, x.pm4.toNat, x.hint.toNat] := ⟨by decide, by decide, by decide, x.a.isLt, x.d.isLt, by decide, e.toNat_lt, x.prnd.isLt, x.pln.isLt, x.ef.isLt, x.k.isLt, by decide, by decide, by decide, by decide, x.nw.isLt, x.la.isLt, by decide, x.pm4.isLt, x.hint.isLt, trivial⟩
  revert hwd hfit; generalize encode _ = wd; intro hw hfit
  have hwd := And.intro hw (show ([6, 1, 5, 6, 6, 7, 1, 1, 4, 5, 3, 4, 2, 1, 1, 1, 1, 1, 4, 4] : List Nat).length = ([24, 0, 0, x.a.toNat, x.d.toNat, 121, e.toNat, x.prnd.toNat, x.pln.toNat, x.ef.toNat, x.k.toNat, 0, 0, 0, 0, x.nw.toNat, x.la.toNat, 0, x.pm4.toNat, x.hint.toNat] : List Nat).length from rfl)
  have hm : wd / 2 ^ 24 % 2 ^ 7 = 121 := pk hwd hfit 5 rfl rfl rfl
  have he : bit wd 31 = e := bit_eq (pk hwd hfit 6 rfl rfl rfl)
  have k0 : wd % 2 ^ 6 = 24 := pk0 hwd hfit rfl rfl
  have k1 : bit wd 6 = false := bit_eq (e := false) (pk hwd hfit 1 rfl rfl rfl)
  have k2 : wd / 2 ^ 7 % 2 ^ 5 = 0 := pk hwd hfit 2 rfl rfl rfl
  have k3 : wd / 2 ^ 55 % 2 ^ 1 = 0 := pk hwd hfit 17 rfl rfl rfl
  have k4 : wd / 2 ^ 55 % 2 = 0 := pk hwd hfit 17 rfl rfl rfl
  have k5 : wd / 2 ^ 52 % 2 ^ 1 = 0 := pk hwd hfit 14 rfl rfl rfl
  have k6 : wd / 2 ^ 52 % 2 = 0 := pk hwd hfit 14 rfl rfl rfl
  have k7 : wd / 2 ^ 49 % 2 ^ 2 = 0 := pk hwd hfit 12 rfl rfl rfl
  have k8 : wd / 2 ^ 45 % 2 ^ 4 = 0 := pk hwd hfit 11 rfl rfl rfl
  have k9 : wd / 2 ^ 37 % 2 ^ 5 = x.ef.toNat := pk hwd hfit 9 rfl rfl rfl
  have k10 : bit wd 51 = false := bit_eq (e := false) (pk hwd hfit 13 rfl rfl rfl)
  have k11 : fld wd 18 6 = x.d := fld_eq (pk hwd hfit 4 rfl rfl rfl)
  have k12 : fld wd 12 6 = x.a := fld_eq (pk hwd hfit 3 rfl rfl rfl)
  have k13 : fld wd 60 4 = x.hint := fld_eq (pk hwd hfit 19 rfl rfl rfl)
  have k14 : fld wd 56 4 = x.pm4 := fld_eq (pk hwd hfit 18 rfl rfl rfl)
  have k15 : fld wd 54 1 = x.la := fld_eq (pk hwd hfit 16 rfl rfl rfl)
  have k16 : fld wd 53 1 = x.nw := fld_eq (pk hwd hfit 15 rfl rfl rfl)
  have k17 : fld wd 42 3 = x.k := fld_eq (pk hwd hfit 10 rfl rfl rfl)
  have k18 : fld wd 37 5 = x.ef := fld_eq (pk hwd hfit 9 rfl rfl rfl)
  have k19 : fld wd 33 4 = x.pln := fld_eq (pk hwd hfit 8 rfl rfl rfl)
  have k20 : fld wd 32 1 = x.prnd := fld_eq (pk hwd hfit 7 rfl rfl rfl)
  simp only [Nat.reducePow] at k0 k2 k3 k4 k5 k6 k7 k8 k9
  rw [long_79 hm]
  simp only [Instr.wf, wordWf, stepWf, Bool.and_true, Bool.and_eq_true, decide_eq_true_eq] at hwf
  have g1 : x.ef.toNat ≠ 0 := by omega
  have g2 : ¬(x.ef.toNat < 16 ∨ 23 < x.ef.toNat) := by omega
  simp [decLongVector, blockCvtFields, he, k0, k1, k2, k3, k4, k5, k6, k7, k8, k9, k10, k11, k12, k13, k14, k15, k16, k17, k18, k19, k20, g1, g2]

theorem RoundTrip.vectorLongForm (e : Bool) (x : VecLong) : RoundTrip.Statement (.vectorLongForm e x) := by
  intro _ hwf
  have hwd : encode (.vectorLongForm e x) = pack [6, 6, 6, 6, 7, 1, 1, 4, 5, 3, 4, 1, 1, 1, 1, 1, 2, 4, 4] [x.xop.toNat, x.b.toNat, x.a.toNat, x.d.toNat, 121, e.toNat, x.prnd.toNat, x.pln.toNat, x.ef.toNat, x.k.toNat, x.fsub.toNat, x.sb.toNat, x.ord.toNat, x.dw.toNat, x.x.toNat, x.nw.toNat, x.ls.toNat, x.pm4.toNat, x.hint.toNat] := by
    show word e 0x79000000 [put x.d 18, put x.a 12, put x.b 6, put x.xop 0, put x.hint 60, put x.pm4 56, put x.ls 54, put x.nw 53, put x.x 52, put x.dw 51, put x.ord 50, put x.sb 49, put x.fsub 45, put x.k 42, put x.ef 37, put x.pln 33, put x.prnd 32] = _
    clear hwf; simp only [word, put, eBit_eq, pack]
    generalize x.xop.toNat = v0; generalize x.b.toNat = v1; generalize x.a.toNat = v2; generalize x.d.toNat = v3; generalize e.toNat = v5; generalize x.prnd.toNat = v6; generalize x.pln.toNat = v7; generalize x.ef.toNat = v8; generalize x.k.toNat = v9; generalize x.fsub.toNat = v10; generalize x.sb.toNat = v11; generalize x.ord.toNat = v12; generalize x.dw.toNat = v13; generalize x.x.toNat = v14; generalize x.nw.toNat = v15; generalize x.ls.toNat = v16; generalize x.pm4.toNat = v17; generalize x.hint.toNat = v18; omega
  have hfit : Fits [6, 6, 6, 6, 7, 1, 1, 4, 5, 3, 4, 1, 1, 1, 1, 1, 2, 4, 4] [x.xop.toNat, x.b.toNat, x.a.toNat, x.d.toNat, 121, e.toNat, x.prnd.toNat, x.pln.toNat, x.ef.toNat, x.k.toNat, x.fsub.toNat, x.sb.toNat, x.ord.toNat, x.dw.toNat, x.x.toNat, x.nw.toNat, x.ls.toNat, x.pm4.toNat, x.hint.toNat] := ⟨x.xop.isLt, x.b.isLt, x.a.isLt, x.d.isLt, by decide, e.toNat_lt, x.prnd.isLt, x.pln.isLt, x.ef.isLt, x.k.isLt, x.fsub.isLt, x.sb.isLt, x.ord.isLt, x.dw.isLt, x.x.isLt, x.nw.isLt, x.ls.isLt, x.pm4.isLt, x.hint.isLt, trivial⟩
  revert hwd hfit; generalize encode _ = wd; intro hw hfit
  have hwd := And.intro hw (show ([6, 6, 6, 6, 7, 1, 1, 4, 5, 3, 4, 1, 1, 1, 1, 1, 2, 4, 4] : List Nat).length = ([x.xop.toNat, x.b.toNat, x.a.toNat, x.d.toNat, 121, e.toNat, x.prnd.toNat, x.pln.toNat, x.ef.toNat, x.k.toNat, x.fsub.toNat, x.sb.toNat, x.ord.toNat, x.dw.toNat, x.x.toNat, x.nw.toNat, x.ls.toNat, x.pm4.toNat, x.hint.toNat] : List Nat).length from rfl)
  have hm : wd / 2 ^ 24 % 2 ^ 7 = 121 := pk hwd hfit 4 rfl rfl rfl
  have he : bit wd 31 = e := bit_eq (pk hwd hfit 5 rfl rfl rfl)
  have k0 : wd % 2 ^ 6 = x.xop.toNat := pk0 hwd hfit rfl rfl
  have k1 : fld wd 0 6 = x.xop := fld_eq (pk hwd hfit 0 rfl rfl rfl)
  have k2 : wd / 2 ^ 37 % 2 ^ 5 = x.ef.toNat := pk hwd hfit 8 rfl rfl rfl
  have k3 : fld wd 18 6 = x.d := fld_eq (pk hwd hfit 3 rfl rfl rfl)
  have k4 : fld wd 12 6 = x.a := fld_eq (pk hwd hfit 2 rfl rfl rfl)
  have k5 : fld wd 6 6 = x.b := fld_eq (pk hwd hfit 1 rfl rfl rfl)
  have k6 : fld wd 60 4 = x.hint := fld_eq (pk hwd hfit 18 rfl rfl rfl)
  have k7 : fld wd 56 4 = x.pm4 := fld_eq (pk hwd hfit 17 rfl rfl rfl)
  have k8 : fld wd 54 2 = x.ls := fld_eq (pk hwd hfit 16 rfl rfl rfl)
  have k9 : fld wd 53 1 = x.nw := fld_eq (pk hwd hfit 15 rfl rfl rfl)
  have k10 : fld wd 52 1 = x.x := fld_eq (pk hwd hfit 14 rfl rfl rfl)
  have k11 : fld wd 51 1 = x.dw := fld_eq (pk hwd hfit 13 rfl rfl rfl)
  have k12 : fld wd 50 1 = x.ord := fld_eq (pk hwd hfit 12 rfl rfl rfl)
  have k13 : fld wd 49 1 = x.sb := fld_eq (pk hwd hfit 11 rfl rfl rfl)
  have k14 : fld wd 45 4 = x.fsub := fld_eq (pk hwd hfit 10 rfl rfl rfl)
  have k15 : fld wd 42 3 = x.k := fld_eq (pk hwd hfit 9 rfl rfl rfl)
  have k16 : fld wd 37 5 = x.ef := fld_eq (pk hwd hfit 8 rfl rfl rfl)
  have k17 : fld wd 33 4 = x.pln := fld_eq (pk hwd hfit 7 rfl rfl rfl)
  have k18 : fld wd 32 1 = x.prnd := fld_eq (pk hwd hfit 6 rfl rfl rfl)
  rw [long_79 hm]
  simp only [Instr.wf, wordWf, stepWf, Bool.and_true, Bool.and_eq_true, decide_eq_true_eq, Bool.not_eq_true'] at hwf
  have g1 : x.xop.toNat ≠ 42 := by omega
  have g2 : ¬ 32 ≤ x.xop.toNat := by omega
  have g3 : ¬(x.xop.toNat = 24 ∧ x.ef.toNat ≠ 0) := by
    rintro ⟨h1, h2⟩
    have h3 : x.xop = 24 := BitVec.eq_of_toNat_eq h1
    have h4 : x.ef ≠ 0 := fun h => h2 (by rw [h]; rfl)
    have := hwf.2; simp [h3] at this; exact h4 this
  simp only [decLongVector, vecLongFields, he, k0, k1, k2, k3, k4, k5, k6, k7, k8, k9, k10, k11, k12, k13, k14, k15, k16, k17, k18, g1, g2, g3, ite_false]

theorem RoundTrip.vldglLong (e : Bool) (x : LinkLong) : RoundTrip.Statement (.vldglLong e x) := by
  intro _ hwf
  have hwd : encode (.vldglLong e x) = pack [6, 6, 6, 6, 7, 1, 1, 4, 3, 5, 4, 1, 1, 1, 1, 3, 4, 4] [42, x.b.toNat, x.a.toNat, x.d.toNat, 121, e.toNat, 0, x.cls.toNat, x.scope.toNat, 0, x.ps.toNat, 0, x.ord.toNat, x.dw.toNat, 0, 0, x.pm4.toNat, x.hint.toNat] := by
    show word e 0x7900002A [put x.d 18, put x.a 12, put x.b 6, put x.hint 60, put x.pm4 56, put x.dw 51, put x.ord 50, put x.ps 45, put x.scope 37, put x.cls 33] = _
    clear hwf; simp only [word, put, eBit_eq, pack]
    generalize x.b.toNat = v1; generalize x.a.toNat = v2; generalize x.d.toNat = v3; generalize e.toNat = v5; generalize x.cls.toNat = v7; generalize x.scope.toNat = v8; generalize x.ps.toNat = v10; generalize x.ord.toNat = v12; generalize x.dw.toNat = v13; generalize x.pm4.toNat = v16; generalize x.hint.toNat = v17; omega
  have hfit : Fits [6, 6, 6, 6, 7, 1, 1, 4, 3, 5, 4, 1, 1, 1, 1, 3, 4, 4] [42, x.b.toNat, x.a.toNat, x.d.toNat, 121, e.toNat, 0, x.cls.toNat, x.scope.toNat, 0, x.ps.toNat, 0, x.ord.toNat, x.dw.toNat, 0, 0, x.pm4.toNat, x.hint.toNat] := ⟨by decide, x.b.isLt, x.a.isLt, x.d.isLt, by decide, e.toNat_lt, by decide, x.cls.isLt, x.scope.isLt, by decide, x.ps.isLt, by decide, x.ord.isLt, x.dw.isLt, by decide, by decide, x.pm4.isLt, x.hint.isLt, trivial⟩
  revert hwd hfit; generalize encode _ = wd; intro hw hfit
  have hwd := And.intro hw (show ([6, 6, 6, 6, 7, 1, 1, 4, 3, 5, 4, 1, 1, 1, 1, 3, 4, 4] : List Nat).length = ([42, x.b.toNat, x.a.toNat, x.d.toNat, 121, e.toNat, 0, x.cls.toNat, x.scope.toNat, 0, x.ps.toNat, 0, x.ord.toNat, x.dw.toNat, 0, 0, x.pm4.toNat, x.hint.toNat] : List Nat).length from rfl)
  have hm : wd / 2 ^ 24 % 2 ^ 7 = 121 := pk hwd hfit 4 rfl rfl rfl
  have he : bit wd 31 = e := bit_eq (pk hwd hfit 5 rfl rfl rfl)
  have k0 : wd % 2 ^ 6 = 42 := pk0 hwd hfit rfl rfl
  have k1 : wd / 2 ^ 53 % 2 ^ 3 = 0 := pk hwd hfit 15 rfl rfl rfl
  have k2 : wd / 2 ^ 49 % 2 = 0 := pk hwd hfit 11 rfl rfl rfl
  have k3 : wd / 2 ^ 40 % 2 ^ 5 = 0 := pk hwd hfit 9 rfl rfl rfl
  have k4 : wd / 2 ^ 32 % 2 = 0 := pk hwd hfit 6 rfl rfl rfl
  have k5 : bit wd 52 = false := bit_eq (e := false) (pk hwd hfit 14 rfl rfl rfl)
  have k6 : wd / 2 ^ 45 % 2 ^ 4 = x.ps.toNat := pk hwd hfit 10 rfl rfl rfl
  have k7 : wd / 2 ^ 37 % 2 ^ 3 = x.scope.toNat := pk hwd hfit 8 rfl rfl rfl
  have k8 : fld wd 18 6 = x.d := fld_eq (pk hwd hfit 3 rfl rfl rfl)
  have k9 : fld wd 12 6 = x.a := fld_eq (pk hwd hfit 2 rfl rfl rfl)
  have k10 : fld wd 6 6 = x.b := fld_eq (pk hwd hfit 1 rfl rfl rfl)
  have k11 : fld wd 60 4 = x.hint := fld_eq (pk hwd hfit 17 rfl rfl rfl)
  have k12 : fld wd 56 4 = x.pm4 := fld_eq (pk hwd hfit 16 rfl rfl rfl)
  have k13 : fld wd 51 1 = x.dw := fld_eq (pk hwd hfit 13 rfl rfl rfl)
  have k14 : fld wd 50 1 = x.ord := fld_eq (pk hwd hfit 12 rfl rfl rfl)
  have k15 : fld wd 45 4 = x.ps := fld_eq (pk hwd hfit 10 rfl rfl rfl)
  have k16 : fld wd 37 3 = x.scope := fld_eq (pk hwd hfit 8 rfl rfl rfl)
  have k17 : fld wd 33 4 = x.cls := fld_eq (pk hwd hfit 7 rfl rfl rfl)
  simp only [Nat.reducePow] at k0 k1 k2 k3 k4 k6 k7
  rw [long_79 hm]
  simp only [Instr.wf, wordWf, stepWf, Bool.and_true, Bool.and_eq_true, decide_eq_true_eq, beq_iff_eq] at hwf
  have g1 : ¬ 6 ≤ x.scope.toNat := by omega
  have g2 : x.ps.toNat = 0 := by rw [hwf.2]; rfl
  simp [decLongVector, linkLongFields, he, k0, k1, k2, k3, k4, k5, k6, k7, k8, k9, k10, k11, k12, k13, k14, k15, k16, k17, g1, g2]

theorem RoundTrip.vstscLong (e : Bool) (x : LinkLong) : RoundTrip.Statement (.vstscLong e x) := by
  intro _ hwf
  have hwd : encode (.vstscLong e x) = pack [6, 6, 6, 6, 7, 1, 1, 4, 3, 5, 4, 1, 1, 1, 1, 3, 4, 4] [42, x.b.toNat, x.a.toNat, x.d.toNat, 121, e.toNat, 0, x.cls.toNat, x.scope.toNat, 0, x.ps.toNat, 0, x.ord.toNat, x.dw.toNat, 1, 0, x.pm4.toNat, x.hint.toNat] := by
    show word e 0x1000007900002A [put x.d 18, put x.a 12, put x.b 6, put x.hint 60, put x.pm4 56, put x.dw 51, put x.ord 50, put x.ps 45, put x.scope 37, put x.cls 33] = _
    clear hwf; simp only [word, put, eBit_eq, pack]
    generalize x.b.toNat = v1; generalize x.a.toNat = v2; generalize x.d.toNat = v3; generalize e.toNat = v5; generalize x.cls.toNat = v7; generalize x.scope.toNat = v8; generalize x.ps.toNat = v10; generalize x.ord.toNat = v12; generalize x.dw.toNat = v13; generalize x.pm4.toNat = v16; generalize x.hint.toNat = v17; omega
  have hfit : Fits [6, 6, 6, 6, 7, 1, 1, 4, 3, 5, 4, 1, 1, 1, 1, 3, 4, 4] [42, x.b.toNat, x.a.toNat, x.d.toNat, 121, e.toNat, 0, x.cls.toNat, x.scope.toNat, 0, x.ps.toNat, 0, x.ord.toNat, x.dw.toNat, 1, 0, x.pm4.toNat, x.hint.toNat] := ⟨by decide, x.b.isLt, x.a.isLt, x.d.isLt, by decide, e.toNat_lt, by decide, x.cls.isLt, x.scope.isLt, by decide, x.ps.isLt, by decide, x.ord.isLt, x.dw.isLt, by decide, by decide, x.pm4.isLt, x.hint.isLt, trivial⟩
  revert hwd hfit; generalize encode _ = wd; intro hw hfit
  have hwd := And.intro hw (show ([6, 6, 6, 6, 7, 1, 1, 4, 3, 5, 4, 1, 1, 1, 1, 3, 4, 4] : List Nat).length = ([42, x.b.toNat, x.a.toNat, x.d.toNat, 121, e.toNat, 0, x.cls.toNat, x.scope.toNat, 0, x.ps.toNat, 0, x.ord.toNat, x.dw.toNat, 1, 0, x.pm4.toNat, x.hint.toNat] : List Nat).length from rfl)
  have hm : wd / 2 ^ 24 % 2 ^ 7 = 121 := pk hwd hfit 4 rfl rfl rfl
  have he : bit wd 31 = e := bit_eq (pk hwd hfit 5 rfl rfl rfl)
  have k0 : wd % 2 ^ 6 = 42 := pk0 hwd hfit rfl rfl
  have k1 : wd / 2 ^ 53 % 2 ^ 3 = 0 := pk hwd hfit 15 rfl rfl rfl
  have k2 : wd / 2 ^ 49 % 2 = 0 := pk hwd hfit 11 rfl rfl rfl
  have k3 : wd / 2 ^ 40 % 2 ^ 5 = 0 := pk hwd hfit 9 rfl rfl rfl
  have k4 : wd / 2 ^ 32 % 2 = 0 := pk hwd hfit 6 rfl rfl rfl
  have k5 : bit wd 52 = true := bit_eq (e := true) (pk hwd hfit 14 rfl rfl rfl)
  have k6 : wd / 2 ^ 45 % 2 ^ 4 = x.ps.toNat := pk hwd hfit 10 rfl rfl rfl
  have k7 : wd / 2 ^ 37 % 2 ^ 3 = x.scope.toNat := pk hwd hfit 8 rfl rfl rfl
  have k8 : fld wd 18 6 = x.d := fld_eq (pk hwd hfit 3 rfl rfl rfl)
  have k9 : fld wd 12 6 = x.a := fld_eq (pk hwd hfit 2 rfl rfl rfl)
  have k10 : fld wd 6 6 = x.b := fld_eq (pk hwd hfit 1 rfl rfl rfl)
  have k11 : fld wd 60 4 = x.hint := fld_eq (pk hwd hfit 17 rfl rfl rfl)
  have k12 : fld wd 56 4 = x.pm4 := fld_eq (pk hwd hfit 16 rfl rfl rfl)
  have k13 : fld wd 51 1 = x.dw := fld_eq (pk hwd hfit 13 rfl rfl rfl)
  have k14 : fld wd 50 1 = x.ord := fld_eq (pk hwd hfit 12 rfl rfl rfl)
  have k15 : fld wd 45 4 = x.ps := fld_eq (pk hwd hfit 10 rfl rfl rfl)
  have k16 : fld wd 37 3 = x.scope := fld_eq (pk hwd hfit 8 rfl rfl rfl)
  have k17 : fld wd 33 4 = x.cls := fld_eq (pk hwd hfit 7 rfl rfl rfl)
  simp only [Nat.reducePow] at k0 k1 k2 k3 k4 k6 k7
  rw [long_79 hm]
  simp only [Instr.wf, wordWf, stepWf, Bool.and_true, Bool.and_eq_true, decide_eq_true_eq, beq_iff_eq] at hwf
  have g1 : ¬ 6 ≤ x.scope.toNat := by omega
  simp [decLongVector, linkLongFields, he, k0, k1, k2, k3, k4, k5, k6, k7, k8, k9, k10, k11, k12, k13, k14, k15, k16, k17, g1]

theorem RoundTrip.memLongControlForm (e : Bool) (x : MemCtl) : RoundTrip.Statement (.memLongControlForm e x) := by
  intro _ hwf
  have hwd : encode (.memLongControlForm e x) = pack [1, 3, 4, 4, 6, 6, 7, 1, 19, 1, 2, 2, 4, 4] [x.dw.toNat, x.scope.toNat, x.cls.toNat, x.xop.toNat, x.a.toNat, x.d.toNat, 122, e.toNat, x.low.toNat, x.s.toNat, x.f.toNat, x.ra.toNat, x.pm4.toNat, x.hint.toNat] := by
    show word e 0x7A000000 [put x.d 18, put x.a 12, put x.xop 8, put x.cls 4, put x.scope 1, put x.dw 0, put x.hint 60, put x.pm4 56, put x.ra 54, put x.f 52, put x.s 51, put x.low 32] = _
    clear hwf; simp only [word, put, eBit_eq, pack]
    generalize x.dw.toNat = v0; generalize x.scope.toNat = v1; generalize x.cls.toNat = v2; generalize x.xop.toNat = v3; generalize x.a.toNat = v4; generalize x.d.toNat = v5; generalize e.toNat = v7; generalize x.low.toNat = v8; generalize x.s.toNat = v9; generalize x.f.toNat = v10; generalize x.ra.toNat = v11; generalize x.pm4.toNat = v12; generalize x.hint.toNat = v13; omega
  have hfit : Fits [1, 3, 4, 4, 6, 6, 7, 1, 19, 1, 2, 2, 4, 4] [x.dw.toNat, x.scope.toNat, x.cls.toNat, x.xop.toNat, x.a.toNat, x.d.toNat, 122, e.toNat, x.low.toNat, x.s.toNat, x.f.toNat, x.ra.toNat, x.pm4.toNat, x.hint.toNat] := ⟨x.dw.isLt, x.scope.isLt, x.cls.isLt, x.xop.isLt, x.a.isLt, x.d.isLt, by decide, e.toNat_lt, x.low.isLt, x.s.isLt, x.f.isLt, x.ra.isLt, x.pm4.isLt, x.hint.isLt, trivial⟩
  revert hwd hfit; generalize encode _ = wd; intro hw hfit
  have hwd := And.intro hw (show ([1, 3, 4, 4, 6, 6, 7, 1, 19, 1, 2, 2, 4, 4] : List Nat).length = ([x.dw.toNat, x.scope.toNat, x.cls.toNat, x.xop.toNat, x.a.toNat, x.d.toNat, 122, e.toNat, x.low.toNat, x.s.toNat, x.f.toNat, x.ra.toNat, x.pm4.toNat, x.hint.toNat] : List Nat).length from rfl)
  have hm : wd / 2 ^ 24 % 2 ^ 7 = 122 := pk hwd hfit 6 rfl rfl rfl
  have he : bit wd 31 = e := bit_eq (pk hwd hfit 7 rfl rfl rfl)
  have k0 : wd / 2 ^ 8 % 2 ^ 4 = x.xop.toNat := pk hwd hfit 3 rfl rfl rfl
  have k1 : wd / 2 ^ 1 % 2 ^ 3 = x.scope.toNat := pk hwd hfit 1 rfl rfl rfl
  have k2 : fld wd 18 6 = x.d := fld_eq (pk hwd hfit 5 rfl rfl rfl)
  have k3 : fld wd 12 6 = x.a := fld_eq (pk hwd hfit 4 rfl rfl rfl)
  have k4 : fld wd 8 4 = x.xop := fld_eq (pk hwd hfit 3 rfl rfl rfl)
  have k5 : fld wd 4 4 = x.cls := fld_eq (pk hwd hfit 2 rfl rfl rfl)
  have k6 : fld wd 1 3 = x.scope := fld_eq (pk hwd hfit 1 rfl rfl rfl)
  have k7 : fld wd 0 1 = x.dw := fld_eq (pk hwd hfit 0 rfl rfl rfl)
  have k8 : fld wd 60 4 = x.hint := fld_eq (pk hwd hfit 13 rfl rfl rfl)
  have k9 : fld wd 56 4 = x.pm4 := fld_eq (pk hwd hfit 12 rfl rfl rfl)
  have k10 : fld wd 54 2 = x.ra := fld_eq (pk hwd hfit 11 rfl rfl rfl)
  have k11 : fld wd 52 2 = x.f := fld_eq (pk hwd hfit 10 rfl rfl rfl)
  have k12 : fld wd 51 1 = x.s := fld_eq (pk hwd hfit 9 rfl rfl rfl)
  have k13 : fld wd 32 19 = x.low := fld_eq (pk hwd hfit 8 rfl rfl rfl)
  rw [long_7A hm]
  simp only [Instr.wf, wordWf, stepWf, Bool.and_true, Bool.and_eq_true, decide_eq_true_eq] at hwf
  have g1 : ¬ 6 ≤ x.scope.toNat := by omega
  simp only [decLongMemory, memCtlFields, he, k0, k1, k2, k3, k4, k5, k6, k7, k8, k9, k10, k11, k12, k13, hwf.1, g1, ite_true, ite_false]

theorem RoundTrip.memLongOffsetForm (e : Bool) (d a : BitVec 6) (xop sub : BitVec 4) (off : BitVec 32) (hint : BitVec 4) : RoundTrip.Statement (.memLongOffsetForm e d a xop sub off hint) := by
  intro _ hwf
  have hwd : encode (.memLongOffsetForm e d a xop sub off hint) = pack [4, 4, 4, 6, 6, 7, 1, 28, 4] [(off.extractLsb' 28 4).toNat, sub.toNat, xop.toNat, a.toNat, d.toNat, 122, e.toNat, (off.extractLsb' 0 28).toNat, hint.toNat] := by
    show word e 0x7A000000 [put d 18, put a 12, put xop 8, put sub 4, put (off.extractLsb' 28 4) 0, put (off.extractLsb' 0 28) 32, put hint 60] = _
    clear hwf; simp only [word, put, eBit_eq, pack]
    generalize (off.extractLsb' 28 4).toNat = v0; generalize sub.toNat = v1; generalize xop.toNat = v2; generalize a.toNat = v3; generalize d.toNat = v4; generalize e.toNat = v6; generalize (off.extractLsb' 0 28).toNat = v7; generalize hint.toNat = v8; omega
  have hfit : Fits [4, 4, 4, 6, 6, 7, 1, 28, 4] [(off.extractLsb' 28 4).toNat, sub.toNat, xop.toNat, a.toNat, d.toNat, 122, e.toNat, (off.extractLsb' 0 28).toNat, hint.toNat] := ⟨(off.extractLsb' 28 4).isLt, sub.isLt, xop.isLt, a.isLt, d.isLt, by decide, e.toNat_lt, (off.extractLsb' 0 28).isLt, hint.isLt, trivial⟩
  revert hwd hfit; generalize encode _ = wd; intro hw hfit
  have hwd := And.intro hw (show ([4, 4, 4, 6, 6, 7, 1, 28, 4] : List Nat).length = ([(off.extractLsb' 28 4).toNat, sub.toNat, xop.toNat, a.toNat, d.toNat, 122, e.toNat, (off.extractLsb' 0 28).toNat, hint.toNat] : List Nat).length from rfl)
  have hm : wd / 2 ^ 24 % 2 ^ 7 = 122 := pk hwd hfit 5 rfl rfl rfl
  have he : bit wd 31 = e := bit_eq (pk hwd hfit 6 rfl rfl rfl)
  have k0 : wd / 2 ^ 8 % 2 ^ 4 = xop.toNat := pk hwd hfit 2 rfl rfl rfl
  have k1 : fld wd 18 6 = d := fld_eq (pk hwd hfit 4 rfl rfl rfl)
  have k2 : fld wd 12 6 = a := fld_eq (pk hwd hfit 3 rfl rfl rfl)
  have k3 : fld wd 8 4 = xop := fld_eq (pk hwd hfit 2 rfl rfl rfl)
  have k4 : fld wd 4 4 = sub := fld_eq (pk hwd hfit 1 rfl rfl rfl)
  have k5 : fld wd 60 4 = hint := fld_eq (pk hwd hfit 8 rfl rfl rfl)
  have k6 : BitVec.ofNat 32 (wd % 2 ^ 4 * 2 ^ 28 + wd / 2 ^ 32 % 2 ^ 28) = off := imm_eq (pk0 hwd hfit rfl rfl) (pk hwd hfit 7 rfl rfl rfl)
  rw [long_7A hm]
  simp only [Instr.wf, wordWf, stepWf, Bool.and_true, Bool.and_eq_true, decide_eq_true_eq] at hwf
  have g1 : ¬ xop.toNat ≤ 10 := by omega
  simp only [decLongMemory, he, k0, k1, k2, k3, k4, k5, k6, g1, ite_false]

theorem RoundTrip.matrixLongForm (e : Bool) (xop : BitVec 4) (body : BitVec 24) (cls : BitVec 4) (scope : BitVec 3) (hint : BitVec 4) : RoundTrip.Statement (.matrixLongForm e xop body cls scope hint) := by
  intro _ hwf
  have hwd : encode (.matrixLongForm e xop body cls scope hint) = pack [24, 7, 1, 17, 3, 4, 4, 4] [body.toNat, 123, e.toNat, 0, scope.toNat, cls.toNat, xop.toNat, hint.toNat] := by
    show word e 0x7B000000 [put body 0, put hint 60, put xop 56, put cls 52, put scope 49] = _
    clear hwf; simp only [word, put, eBit_eq, pack]
    generalize body.toNat = v0; generalize e.toNat = v2; generalize scope.toNat = v4; generalize cls.toNat = v5; generalize xop.toNat = v6; generalize hint.toNat = v7; omega
  have hfit : Fits [24, 7, 1, 17, 3, 4, 4, 4] [body.toNat, 123, e.toNat, 0, scope.toNat, cls.toNat, xop.toNat, hint.toNat] := ⟨body.isLt, by decide, e.toNat_lt, by decide, scope.isLt, cls.isLt, xop.isLt, hint.isLt, trivial⟩
  revert hwd hfit; generalize encode _ = wd; intro hw hfit
  have hwd := And.intro hw (show ([24, 7, 1, 17, 3, 4, 4, 4] : List Nat).length = ([body.toNat, 123, e.toNat, 0, scope.toNat, cls.toNat, xop.toNat, hint.toNat] : List Nat).length from rfl)
  have hm : wd / 2 ^ 24 % 2 ^ 7 = 123 := pk hwd hfit 1 rfl rfl rfl
  have he : bit wd 31 = e := bit_eq (pk hwd hfit 2 rfl rfl rfl)
  have k0 : wd % 2 ^ 24 = body.toNat := pk0 hwd hfit rfl rfl
  have k1 : wd / 2 ^ 32 % 2 ^ 17 = 0 := pk hwd hfit 3 rfl rfl rfl
  have k2 : wd / 2 ^ 49 % 2 ^ 3 = scope.toNat := pk hwd hfit 4 rfl rfl rfl
  have k3 : wd / 2 ^ 56 % 2 ^ 4 = xop.toNat := pk hwd hfit 6 rfl rfl rfl
  have k4 : fld wd 56 4 = xop := fld_eq (pk hwd hfit 6 rfl rfl rfl)
  have k5 : fld wd 0 24 = body := fld_eq (pk hwd hfit 0 rfl rfl rfl)
  have k6 : fld wd 52 4 = cls := fld_eq (pk hwd hfit 5 rfl rfl rfl)
  have k7 : fld wd 49 3 = scope := fld_eq (pk hwd hfit 4 rfl rfl rfl)
  have k8 : fld wd 60 4 = hint := fld_eq (pk hwd hfit 7 rfl rfl rfl)
  rw [long_7B hm]
  simp only [Instr.wf, wordWf, stepWf, Bool.and_true, Bool.and_eq_true, decide_eq_true_eq] at hwf
  have g1 : ¬(13 ≤ xop.toNat ∨ 6 ≤ scope.toNat) := by omega
  have g2 : xop.toNat ≠ 12 := by omega
  obtain ⟨i, hi⟩ := bodyOk_ok hwf.2
  simp only [decLongMatrix, he, k0, k1, k2, k3, k4, k5, k6, k7, k8, g1, g2, hi, ite_false, ite_true]

theorem RoundTrip.cpyLong (e : Bool) (q : BitVec 3) (p : BitVec 1) (a : BitVec 6) (r s : BitVec 3) (cls : BitVec 4) (scope : BitVec 3) (x : BitVec 6) (hint : BitVec 4) : RoundTrip.Statement (.cpyLong e q p a r s cls scope x hint) := by
  intro _ hwf
  have hwd : encode (.cpyLong e q p a r s cls scope x hint) = pack [6, 3, 3, 6, 2, 1, 3, 7, 1, 11, 6, 3, 4, 4, 4] [0, s.toNat, r.toNat, a.toNat, 0, p.toNat, q.toNat, 123, e.toNat, 0, x.toNat, scope.toNat, cls.toNat, 12, hint.toNat] := by
    show word e 0xC0000007B000000 [put q 21, put p 20, put a 12, put r 9, put s 6, put hint 60, put cls 52, put scope 49, put x 43] = _
    clear hwf; simp only [word, put, eBit_eq, pack]
    generalize s.toNat = v1; generalize r.toNat = v2; generalize a.toNat = v3; generalize p.toNat = v5; generalize q.toNat = v6; generalize e.toNat = v8; generalize x.toNat = v10; generalize scope.toNat = v11; generalize cls.toNat = v12; generalize hint.toNat = v14; omega
  have hfit : Fits [6, 3, 3, 6, 2, 1, 3, 7, 1, 11, 6, 3, 4, 4, 4] [0, s.toNat, r.toNat, a.toNat, 0, p.toNat, q.toNat, 123, e.toNat, 0, x.toNat, scope.toNat, cls.toNat, 12, hint.toNat] := ⟨by decide, s.isLt, r.isLt, a.isLt, by decide, p.isLt, q.isLt, by decide, e.toNat_lt, by decide, x.isLt, scope.isLt, cls.isLt, by decide, hint.isLt, trivial⟩
  revert hwd hfit; generalize encode _ = wd; intro hw hfit
  have hwd := And.intro hw (show ([6, 3, 3, 6, 2, 1, 3, 7, 1, 11, 6, 3, 4, 4, 4] : List Nat).length = ([0, s.toNat, r.toNat, a.toNat, 0, p.toNat, q.toNat, 123, e.toNat, 0, x.toNat, scope.toNat, cls.toNat, 12, hint.toNat] : List Nat).length from rfl)
  have hm : wd / 2 ^ 24 % 2 ^ 7 = 123 := pk hwd hfit 7 rfl rfl rfl
  have he : bit wd 31 = e := bit_eq (pk hwd hfit 8 rfl rfl rfl)
  have k0 : wd % 2 ^ 6 = 0 := pk0 hwd hfit rfl rfl
  have k1 : wd / 2 ^ 18 % 2 ^ 2 = 0 := pk hwd hfit 4 rfl rfl rfl
  have k2 : wd / 2 ^ 32 % 2 ^ 11 = 0 := pk hwd hfit 9 rfl rfl rfl
  have k3 : wd / 2 ^ 49 % 2 ^ 3 = scope.toNat := pk hwd hfit 11 rfl rfl rfl
  have k4 : wd / 2 ^ 56 % 2 ^ 4 = 12 := pk hwd hfit 13 rfl rfl rfl
  have k5 : fld wd 21 3 = q := fld_eq (pk hwd hfit 6 rfl rfl rfl)
  have k6 : fld wd 20 1 = p := fld_eq (pk hwd hfit 5 rfl rfl rfl)
  have k7 : fld wd 12 6 = a := fld_eq (pk hwd hfit 3 rfl rfl rfl)
  have k8 : fld wd 9 3 = r := fld_eq (pk hwd hfit 2 rfl rfl rfl)
  have k9 : fld wd 6 3 = s := fld_eq (pk hwd hfit 1 rfl rfl rfl)
  have k10 : fld wd 52 4 = cls := fld_eq (pk hwd hfit 12 rfl rfl rfl)
  have k11 : fld wd 49 3 = scope := fld_eq (pk hwd hfit 11 rfl rfl rfl)
  have k12 : fld wd 43 6 = x := fld_eq (pk hwd hfit 10 rfl rfl rfl)
  have k13 : fld wd 60 4 = hint := fld_eq (pk hwd hfit 14 rfl rfl rfl)
  simp only [Nat.reducePow] at k0 k1 k2 k3 k4
  rw [long_7B hm]
  simp only [Instr.wf, wordWf, stepWf, Bool.and_true, Bool.and_eq_true, decide_eq_true_eq] at hwf
  have g1 : ¬ 6 ≤ scope.toNat := by omega
  simp [decLongMatrix, he, k0, k1, k2, k3, k4, k5, k6, k7, k8, k9, k10, k11, k12, k13, g1, hwf]

theorem RoundTrip.tlbinvAll (w : Option Who) : RoundTrip.Statement (.tlbinvAll w) := fun h => absurd h Bool.false_ne_true
theorem RoundTrip.tlbinvAsid (w : Option Who) (asid : BitVec 16) : RoundTrip.Statement (.tlbinvAsid w asid) := fun h => absurd h Bool.false_ne_true
theorem RoundTrip.tlbinvPage (w : Option Who) (asid : BitVec 16) (vpn : BitVec 36) : RoundTrip.Statement (.tlbinvPage w asid vpn) := fun h => absurd h Bool.false_ne_true
theorem RoundTrip.faultSlotWaitRecord (die n : Nat) : RoundTrip.Statement (.faultSlotWaitRecord die n) := fun h => absurd h Bool.false_ne_true
theorem RoundTrip.faultDoorbell (port die slot : Nat) : RoundTrip.Statement (.faultDoorbell port die slot) := fun h => absurd h Bool.false_ne_true
theorem RoundTrip.runIssue (pl : Place) (role : Role) : RoundTrip.Statement (.runIssue pl role) := fun h => absurd h Bool.false_ne_true
theorem RoundTrip.waitSatisfied (w : Who) : RoundTrip.Statement (.waitSatisfied w) := fun h => absurd h Bool.false_ne_true
theorem RoundTrip.waitwRecheck (w : Who) : RoundTrip.Statement (.waitwRecheck w) := fun h => absurd h Bool.false_ne_true
theorem RoundTrip.waitwPoll (w : Who) : RoundTrip.Statement (.waitwPoll w) := fun h => absurd h Bool.false_ne_true
theorem RoundTrip.gangTimeout (uid entry : Nat) : RoundTrip.Statement (.gangTimeout uid entry) := fun h => absurd h Bool.false_ne_true
theorem RoundTrip.watchdogFire (ctx : Nat) : RoundTrip.Statement (.watchdogFire ctx) := fun h => absurd h Bool.false_ne_true
theorem RoundTrip.copyExecute (q : QKey) : RoundTrip.Statement (.copyExecute q) := fun h => absurd h Bool.false_ne_true
theorem RoundTrip.copyComplete (q : QKey) : RoundTrip.Statement (.copyComplete q) := fun h => absurd h Bool.false_ne_true
theorem RoundTrip.matrixQueueComplete (pl : Place) : RoundTrip.Statement (.matrixQueueComplete pl) := fun h => absurd h Bool.false_ne_true
theorem RoundTrip.launchPacketCheck (id : Nat) : RoundTrip.Statement (.launchPacketCheck id) := fun h => absurd h Bool.false_ne_true
theorem RoundTrip.placementStep (die pick : Nat) : RoundTrip.Statement (.placementStep die pick) := fun h => absurd h Bool.false_ne_true
theorem RoundTrip.groupCapture (uid gidx : Nat) : RoundTrip.Statement (.groupCapture uid gidx) := fun h => absurd h Bool.false_ne_true
theorem RoundTrip.blockRetire (uid : Nat) : RoundTrip.Statement (.blockRetire uid) := fun h => absurd h Bool.false_ne_true
theorem RoundTrip.submitDoorbell (port die rcb : Nat) : RoundTrip.Statement (.submitDoorbell port die rcb) := fun h => absurd h Bool.false_ne_true
theorem RoundTrip.nodeKernel (ctx va : Nat) : RoundTrip.Statement (.nodeKernel ctx va) := fun h => absurd h Bool.false_ne_true
theorem RoundTrip.nodeCopy (ctx va : Nat) : RoundTrip.Statement (.nodeCopy ctx va) := fun h => absurd h Bool.false_ne_true
theorem RoundTrip.nodeWsload (ctx va : Nat) : RoundTrip.Statement (.nodeWsload ctx va) := fun h => absurd h Bool.false_ne_true
theorem RoundTrip.nodeCond (ctx va : Nat) : RoundTrip.Statement (.nodeCond ctx va) := fun h => absurd h Bool.false_ne_true
theorem RoundTrip.nodeLoop (ctx va : Nat) : RoundTrip.Statement (.nodeLoop ctx va) := fun h => absurd h Bool.false_ne_true
theorem RoundTrip.nodeSignal (ctx va : Nat) : RoundTrip.Statement (.nodeSignal ctx va) := fun h => absurd h Bool.false_ne_true
theorem RoundTrip.nodeWait (ctx va : Nat) : RoundTrip.Statement (.nodeWait ctx va) := fun h => absurd h Bool.false_ne_true
theorem RoundTrip.waitNodeRetest (ctx va : Nat) : RoundTrip.Statement (.waitNodeRetest ctx va) := fun h => absurd h Bool.false_ne_true
theorem RoundTrip.nodeEnd (ctx va : Nat) : RoundTrip.Statement (.nodeEnd ctx va) := fun h => absurd h Bool.false_ne_true
theorem RoundTrip.ckptStart (ctx va : Nat) : RoundTrip.Statement (.ckptStart ctx va) := fun h => absurd h Bool.false_ne_true
theorem RoundTrip.ckptCut (ctx va : Nat) : RoundTrip.Statement (.ckptCut ctx va) := fun h => absurd h Bool.false_ne_true
theorem RoundTrip.ckptDrain (ctx va : Nat) : RoundTrip.Statement (.ckptDrain ctx va) := fun h => absurd h Bool.false_ne_true
theorem RoundTrip.ckptCommit (ctx va : Nat) : RoundTrip.Statement (.ckptCommit ctx va) := fun h => absurd h Bool.false_ne_true
theorem RoundTrip.ckptApply (ctx va : Nat) : RoundTrip.Statement (.ckptApply ctx va) := fun h => absurd h Bool.false_ne_true
theorem RoundTrip.ckptApplyDone (ctx va : Nat) : RoundTrip.Statement (.ckptApplyDone ctx va) := fun h => absurd h Bool.false_ne_true
theorem RoundTrip.ckptRestore (ctx va : Nat) : RoundTrip.Statement (.ckptRestore ctx va) := fun h => absurd h Bool.false_ne_true
theorem RoundTrip.hostMemoryWrite (port : Nat) (t : Target) (bytes : List (BitVec 8)) : RoundTrip.Statement (.hostMemoryWrite port t bytes) := fun h => absurd h Bool.false_ne_true
theorem RoundTrip.hostMemoryRead (port pa n : Nat) : RoundTrip.Statement (.hostMemoryRead port pa n) := fun h => absurd h Bool.false_ne_true
theorem RoundTrip.heartbeat (port : Nat) : RoundTrip.Statement (.heartbeat port) := fun h => absurd h Bool.false_ne_true
theorem RoundTrip.hostFailed (port : Nat) : RoundTrip.Statement (.hostFailed port) := fun h => absurd h Bool.false_ne_true
theorem RoundTrip.hostLinkDown (port : Nat) : RoundTrip.Statement (.hostLinkDown port) := fun h => absurd h Bool.false_ne_true
theorem RoundTrip.mailboxWrite (port off : Nat) (val : BitVec 64) : RoundTrip.Statement (.mailboxWrite port off val) := fun h => absurd h Bool.false_ne_true
theorem RoundTrip.resync (port : Nat) : RoundTrip.Statement (.resync port) := fun h => absurd h Bool.false_ne_true
theorem RoundTrip.mailboxTlbinv (port : Nat) : RoundTrip.Statement (.mailboxTlbinv port) := fun h => absurd h Bool.false_ne_true
theorem RoundTrip.setis (port : Nat) : RoundTrip.Statement (.setis port) := fun h => absurd h Bool.false_ne_true
theorem RoundTrip.handover (port : Nat) : RoundTrip.Statement (.handover port) := fun h => absurd h Bool.false_ne_true
theorem RoundTrip.attest (port : Nat) : RoundTrip.Statement (.attest port) := fun h => absurd h Bool.false_ne_true
theorem RoundTrip.setroute (port : Nat) : RoundTrip.Statement (.setroute port) := fun h => absurd h Bool.false_ne_true
theorem RoundTrip.setwin (port : Nat) : RoundTrip.Statement (.setwin port) := fun h => absurd h Bool.false_ne_true
theorem RoundTrip.peerAccess (peer pa n : Nat) (bytes : Option (List (BitVec 8))) : RoundTrip.Statement (.peerAccess peer pa n bytes) := fun h => absurd h Bool.false_ne_true
theorem RoundTrip.peerStoreAck (id : Nat) : RoundTrip.Statement (.peerStoreAck id) := fun h => absurd h Bool.false_ne_true
theorem RoundTrip.flitReplay (link : Nat) : RoundTrip.Statement (.flitReplay link) := fun h => absurd h Bool.false_ne_true
theorem RoundTrip.pause (link : Nat) : RoundTrip.Statement (.pause link) := fun h => absurd h Bool.false_ne_true
theorem RoundTrip.resume (link : Nat) : RoundTrip.Statement (.resume link) := fun h => absurd h Bool.false_ne_true
theorem RoundTrip.linkRewidth (link lanes : Nat) : RoundTrip.Statement (.linkRewidth link lanes) := fun h => absurd h Bool.false_ne_true
theorem RoundTrip.linkRewidthEnd (link : Nat) : RoundTrip.Statement (.linkRewidthEnd link) := fun h => absurd h Bool.false_ne_true
theorem RoundTrip.linkDown (link : Nat) : RoundTrip.Statement (.linkDown link) := fun h => absurd h Bool.false_ne_true
theorem RoundTrip.linkCalibration (link : Nat) : RoundTrip.Statement (.linkCalibration link) := fun h => absurd h Bool.false_ne_true
theorem RoundTrip.dramCalibration (die : Nat) : RoundTrip.Statement (.dramCalibration die) := fun h => absurd h Bool.false_ne_true
theorem RoundTrip.patrolScrub (t : Target) : RoundTrip.Statement (.patrolScrub t) := fun h => absurd h Bool.false_ne_true
theorem RoundTrip.telemetry : RoundTrip.Statement .telemetry := fun h => absurd h Bool.false_ne_true
theorem RoundTrip.powerSample (mw : Nat) : RoundTrip.Statement (.powerSample mw) := fun h => absurd h Bool.false_ne_true
theorem RoundTrip.boostClassify : RoundTrip.Statement .boostClassify := fun h => absurd h Bool.false_ne_true
theorem RoundTrip.thermalSample (dom temp : Nat) : RoundTrip.Statement (.thermalSample dom temp) := fun h => absurd h Bool.false_ne_true
theorem RoundTrip.panRotation (die : Nat) (temps : List Nat) : RoundTrip.Statement (.panRotation die temps) := fun h => absurd h Bool.false_ne_true
theorem RoundTrip.panExchange (die cl : Nat) : RoundTrip.Statement (.panExchange die cl) := fun h => absurd h Bool.false_ne_true
theorem RoundTrip.panExchangeAbandon (die cl : Nat) : RoundTrip.Statement (.panExchangeAbandon die cl) := fun h => absurd h Bool.false_ne_true
theorem RoundTrip.panTransferEnd (die cl : Nat) : RoundTrip.Statement (.panTransferEnd die cl) := fun h => absurd h Bool.false_ne_true
theorem RoundTrip.bandPowerOff (pl : Place) (band : Nat) : RoundTrip.Statement (.bandPowerOff pl band) := fun h => absurd h Bool.false_ne_true
theorem RoundTrip.restEnter (die : Nat) : RoundTrip.Statement (.restEnter die) := fun h => absurd h Bool.false_ne_true
theorem RoundTrip.restExit (die : Nat) : RoundTrip.Statement (.restExit die) := fun h => absurd h Bool.false_ne_true
theorem RoundTrip.cellarRefreshStart (die bg : Nat) : RoundTrip.Statement (.cellarRefreshStart die bg) := fun h => absurd h Bool.false_ne_true
theorem RoundTrip.cellarRefreshEnd (die bg : Nat) : RoundTrip.Statement (.cellarRefreshEnd die bg) := fun h => absurd h Bool.false_ne_true
theorem RoundTrip.deviceReset (good : Bool) : RoundTrip.Statement (.deviceReset good) := fun h => absurd h Bool.false_ne_true
theorem RoundTrip.powerHintExpiry (uid : Nat) : RoundTrip.Statement (.powerHintExpiry uid) := fun h => absurd h Bool.false_ne_true
theorem RoundTrip.peerResponse (id : Nat) (bytes : Option (List (BitVec 8))) : RoundTrip.Statement (.peerResponse id bytes) := fun h => absurd h Bool.false_ne_true
theorem RoundTrip.hostApertureCompletion (id : Nat) (bytes : Option (List (BitVec 8))) : RoundTrip.Statement (.hostApertureCompletion id bytes) := fun h => absurd h Bool.false_ne_true

end Sys2Proof.Laws
end

