-- ==== Sys2Proof/Tests/Slice0.lean ====
section
/-! SUPPORT. The model's own tests: terms that WellFormed refuses, words of the spec's worked examples and formats, single steps, and
for every statement with hypotheses the states and operands that meet them. -/

set_option maxRecDepth 20000
set_option Elab.async false

open Sys2Proof Sys2Proof.Machine Sys2Proof.Rules

namespace Sys2Proof.Tests

/-! Ill-formed terms: one for each check of WellFormed. -/

def noVec : VecLong :=
  { d := 0, a := 0, b := 0, xop := 0, hint := 0, pm4 := 0, ls := 0, nw := 0, x := 0, dw := 0, ord := 0, sb := 0, fsub := 0, k := 0,
    ef := 0, pln := 0, prnd := 0 }
def noCvt : BlockCvt := { d := 0, a := 0, hint := 0, pm4 := 0, la := 0, nw := 0, k := 0, ef := 0, pln := 0, prnd := 0 }
def noLink : LinkLong := { d := 0, a := 0, b := 0, hint := 0, pm4 := 0, dw := 0, ord := 0, ps := 0, scope := 0, cls := 0 }
def noCtl : MemCtl :=
  { d := 0, a := 0, xop := 0, cls := 0, scope := 0, dw := 0, hint := 0, pm4 := 0, ra := 0, f := 0, s := 0, low := 0 }
def offDie : Place := { die := 4, cl := 0, site := 0, part := 0 }
def offCluster : Place := { die := 0, cl := 5, site := 0, part := 0 }
def offSite : Place := { die := 0, cl := 0, site := 32, part := 0 }
def halfOfMc : Place := { die := 0, cl := 3, site := 0, part := 1 }

theorem test_ill_formed_words : ([
  .saluLongImm false 0 0 0x1A 0 0, .sadrLong false 0 0 0x28 0 0, .vectorLongForm false { noVec with xop := 0x20 },
  .vectorLongForm false { noVec with xop := 0x18, ef := 0x10 }, .vfcvtBlockToF32 false noCvt,
  .vfcvtF32ToBlock false { noCvt with ef := 0x18 }, .vldglLong false { noLink with scope := 6 },
  .vldglLong false { noLink with ps := 1 }, .vstscLong false { noLink with scope := 7 },
  .memLongControlForm false { noCtl with xop := 0xB }, .memLongControlForm false { noCtl with scope := 6 },
  .memLongOffsetForm false 0 0 0xA 0 0 0, .matrixLongForm false 0xC 0 0 0 0, .matrixLongForm false 0 0 0 6 0,
  .matrixLongForm false 0 0x20 0 0 0, .cpyLong false 0 0 0 0 0 0 6 0 0, .syswr false 0 0x002, .syswr false 0 0x051].all fun i : Instr => !i.wf) = true := by
  decide +kernel

theorem test_ill_formed_steps : ([
  .faultSlotWaitRecord 4 0, .faultDoorbell 2 0 0, .faultDoorbell 0 4 0, .faultDoorbell 0 0 4096, .runIssue offDie .v,
  .runIssue { die := 0, cl := 4, site := 0, part := 1 } .v, .copyExecute (.core offCluster 0), .copyExecute (.core offSite 8),
  .copyComplete (.front 4), .matrixQueueComplete halfOfMc, .placementStep 4 0, .submitDoorbell 2 0 0, .submitDoorbell 0 4 0,
  .hostMemoryWrite 2 (.phys 0) [], .hostMemoryWrite 0 (.phys (2 ^ 48)) [], .hostMemoryWrite 0 (.cellar 4 0) [],
  .hostMemoryWrite 0 (.cellar 0 0x30000000) [], .hostMemoryRead 2 0 1, .hostMemoryRead 0 (2 ^ 48 + 0x10000) 1, .heartbeat 2, .hostFailed 2,
  .hostLinkDown 2, .mailboxWrite 2 0 0, .mailboxWrite 0 0x10000 0, .resync 2, .mailboxTlbinv 2, .setis 2, .handover 2, .attest 2,
  .setroute 2, .setwin 2, .peerAccess 32 0 1 none, .peerAccess 0 (2 ^ 41) 1 none, .flitReplay 16, .pause 16, .resume 16,
  .linkRewidth 16 8, .linkRewidth 0 3, .linkRewidthEnd 16, .linkDown 16, .linkCalibration 16, .dramCalibration 4,
  .patrolScrub (.spad 0 (2 ^ 20)), .patrolScrub (.obuf 0 (2 ^ 18)), .thermalSample 24 0, .panRotation 4 [], .panExchange 4 0,
  .panExchange 0 5, .panExchangeAbandon 4 0, .panExchangeAbandon 0 5, .panTransferEnd 4 0, .panTransferEnd 0 5, .bandPowerOff offDie 0,
  .bandPowerOff halfOfMc 0, .bandPowerOff { die := 0, cl := 0, site := 0, part := 0 } 4, .restEnter 4, .restExit 4,
  .cellarRefreshStart 4 0, .cellarRefreshStart 0 16, .cellarRefreshEnd 4 0, .cellarRefreshEnd 0 16].all fun i : Instr => !i.wf) = true := by
  decide +kernel

/-! Decoding. The words that the spec's examples print (chapters 09 to 24), and words laid out from the formats of R216 and the tables
of the chapters for the families without one. -/

noncomputable def reads (w : Nat) (i : Instr) : Bool := decide (decode w = .ok i)

theorem test_words_of_the_obligation : ∀ x ∈ writtenWords, decode x.1 = .ok x.2 := by decide +kernel

theorem test_decode_scalar_and_control :
    (reads 0x011C7001 (.saddi false 7 7 1) && reads 0x092041C2 (.sadr false 8 4 7 2) && reads 0x0753FF60 (.sli false 20 0x3FF60) &&
     reads 0xA7130001 (.vbr true 1 3 1) && reads 0x2918000F (.vmeld false 3 15) && reads 0x29980000 (.vunmeld false 3) &&
     reads 0x28000003 (.vjoin false 3) && reads 0x2C1C7800 (.vgrant false 7 7) &&
     -- BS: S [23:18], OFF18; BR: OFF24; loop as BS
     reads (0x25 * 2 ^ 24 + 9 * 2 ^ 18 + 5) (.loop false 9 5) && reads (0x23 * 2 ^ 24 + 7) (.call false 7) &&
     reads (0x21 * 2 ^ 24 + 63 * 2 ^ 18 + 0x20000) (.bnz false 63 0x20000)) = true := by
  decide +kernel

theorem test_decode_vector :
    (reads 0x300810C0 (.vadd false 2 1 3 0 0 0) && reads 0x400C1080 (.vfadd false 3 1 2 0 0 0) && reads 0xBD2D5000 (.vbcast true 11 21 0 0) &&
     reads 0x45160410 (.vfcmp false 1 6 1 1 0 0) && reads 0x44081281 (.vfmax false 2 1 10 0 0 0) && reads 0x440822C0 (.vfmin false 2 2 11 0 0 0) &&
     reads 0x460C2280 (.vfroundRne false 3 2 0 0 0) && reads 0x401020C1 (.vfsub false 4 2 3 0 0 0) && reads 0x461440C0 (.vfexp2f false 5 4 0 0 0) &&
     reads 0x3F183300 (.vcvt false 6 3 0x0C 0 0 0) && reads 0x471C5180 (.vfscaleb false 7 5 6 0 0 0) && reads 0x401C1050 (.vfadd false 7 1 1 1 0 0) &&
     reads 0x4D385180 (.vredFsumO false 14 5 0 0) && reads 0x421841C0 (.vffma false 6 4 7 0 0 0) && reads 0x4A401003 (.pfirst false 16 1 0) &&
     reads 0x45120400 (.vfcmp false 1 2 1 0 0 0)) = true := by
  decide +kernel

theorem test_decode_memory_and_synchronisation :
    (reads 0x51203003 (.sst false 8 3 0 0 3) && reads 0x52047000 (.vld false 1 7 0 0 0) && reads 0x53047000 (.vst false 1 7 0 0 0) &&
     reads 0x500000007A048202 (.memLongControlForm false { noCtl with d := 1, a := 8, xop := 2, scope := 1, hint := 5 }) &&
     reads 0x600000007A0C8302 (.memLongControlForm false { noCtl with d := 3, a := 8, xop := 3, scope := 1, hint := 6 }) &&
     reads 0x5F1C1000 (.claim false 7 1) && reads 0xDD017000 (.barinit true 23 0) && reads 0x5D680400 (.bararr false 26 0 0) &&
     reads 0x5D01A800 (.barwait false 26 0) && reads 0x5E000830 (.stgpost false 0 3 0) && reads 0x5E01FC18 (.stgwait false 31 1 1 0) &&
     reads 0x5E000C38 (.stgwait false 0 3 1 0)) = true := by
  decide +kernel

theorem test_decode_matrix_and_system :
    (reads 0x60554002 (.tset false 21 20 0 0 2) && reads 0x64000040 (.mlds false 0 0 0 1) && reads 0x66000000 (.mma false 0 0 0 0 0 0) &&
     reads 0x6981C740 (.maccSt false 0 28 29) && reads 0x69407000 (.maccLd false 0 7) && reads 0x6700A001 (.gangset false 10) &&
     reads 0x67040008 (.mmaG false 0 1 0 0 0 1) && reads 0x67458008 (.mmaG false 1 1 24 0 0 1) && reads 0x68847100 (.mguide false 2 0 1 7 1) &&
     reads 0x6B019600 (.rcount false 25 24) && reads 0x6B6C5020 (.rcsnap false 27 5) && reads 0x6C015000 (.cpy false 0 0 21 0 0 0) &&
     reads 0x6C105000 (.cpy false 0 1 5 0 0 0) && reads 0x0C02F8007B116200 (.cpyLong false 0 1 22 1 0 0 1 31 0) &&
     reads 0xEE448481 (.launchW true 17 8 18) && reads 0x6D000100 (.qfence false 0x100) && reads 0x70100041 (.sysrd false 4 0x041) &&
     reads 0x72C00000 (.halt false)) = true := by
  decide +kernel

/-- The long forms of R271 and R351, and the one-word formats without a printed example: fields at the places the tables give them. -/
theorem test_decode_long_forms_and_others :
    (reads (0x79 * 2 ^ 24 + 2 * 2 ^ 18 + 4 * 2 ^ 12 + 6 * 2 ^ 6 + 2 ^ 32 * (3 * 2 ^ 24 + 2 ^ 19))
       (.vectorLongForm false { noVec with d := 2, a := 4, b := 6, pm4 := 3, dw := 1 }) &&
     reads (0x79 * 2 ^ 24 + 2 * 2 ^ 18 + 4 * 2 ^ 12 + 0x18 + 2 ^ 32 * (5 * 2 ^ 10 + 0x16 * 2 ^ 5 + 1))
       (.vfcvtF32ToBlock false { noCvt with d := 2, a := 4, k := 5, ef := 0x16, prnd := 1 }) &&
     reads (0x7B * 2 ^ 24 + 2 ^ 32 * (6 * 2 ^ 24 + 2 * 2 ^ 20 + 4 * 2 ^ 17)) (.matrixLongForm false 6 0 2 4 0) &&
     reads (0x7A * 2 ^ 24 + 1 * 2 ^ 18 + 8 * 2 ^ 12 + 0xB * 2 ^ 8 + 2 ^ 32 * 16) (.memLongOffsetForm false 1 8 0xB 0 16 0) &&
     reads (0x26 * 2 ^ 24 + 2 * 2 ^ 18 + 3 * 2 ^ 12 + 8) (.rpt false 2 3 8) && reads (0x71 * 2 ^ 24 + 7) (.trap false 7) &&
     reads (0x71 * 2 ^ 24 + 2 ^ 22) (.eret false) && reads (0x72 * 2 ^ 24 + 2 ^ 23) (.nop false)) = true := by
  decide +kernel

/-- The HINT bits of a long form are free (R228, R229), a nonzero must-be-zero bit is refused by name. -/
theorem test_decode_hint_and_must_be_zero :
    (reads 0xF00000007A048202 (.memLongControlForm false { noCtl with d := 1, a := 8, xop := 2, scope := 1, hint := 15 }) &&
     decide (decode 0x00000021 = .illegal) && decide (decode 0x72C00001 = .mbz)) = true := by
  decide +kernel


/-! Single steps: a word placed where the step fetches, with registers set by hand. -/

/-- Memory of the loaded context: its RCB at 0x1000, the root at 0xF00, and page tables that map the first 16 GiB to themselves. -/
def bootCells : List Host.Cell :=
  [(0x1000, 1), (0x1007, 0x11), (0x1009, 15), (0x1011, 32), (0x2000, 1), (0x2001, 48), (0x3000, 0xFF)]

/-- A block of one group of a role on a core, issuing at 0x10000, with a scratchpad of 64 KiB. -/
noncomputable def loaded (r : Role) : State :=
  { modB (fun b => { b with spadSize := 65536, obSize := 16384 }) (bootBlock r State.reset) with mem := bootCells }

/-- Registers of its path. -/
def regs (l : List (Nat × Word)) (s : State) : State := l.foldl (fun s x => wrReg x.1 x.2 s) s

/-- The first byte of the block's scratchpad. -/
def pad : Word := 0xE000000000000000

/-- What holds of the next state. -/
def after (o : Host.Outcome State Fault Refusal) (f : State → Bool) : Bool :=
  match o with
  | .next t => f t
  | _ => false

noncomputable def ran (n w : Nat) (s : State) (f : State → Bool) : Bool := after (step (s.withFetchWord n w)) f

/-- R243: s9 := s9 − 1 from 0 wraps; the PC moves on by 4. The word is R234's. -/
theorem test_saddi_wraps : ran 32 0x01249FFF State.reset (fun t => (curPath t).pc == 0x10004 && sregVal (curPath t) 9 == 0xFFFFFFFFFFFFFFFF) = true := by
  decide +kernel

/-- R244: a division by zero gives all ones and does not trap. sdiv s3, s1, s2 -/
theorem test_sdiv_by_zero : ran 32 (3 * 2 ^ 18 + 1 * 2 ^ 12 + 2 * 2 ^ 6 + 0x10) (regs [(1, 7)] (loaded .v)) (fun t =>
    sregVal (curPath t) 3 == 0xFFFFFFFFFFFFFFFF && (curGroup t).sup == false) = true := by
  decide +kernel

/-- R242: s0 reads 0 and a write to it is discarded. sadd s0, s1, s1 -/
theorem test_s0_stays_zero : ran 32 (1 * 2 ^ 12 + 1 * 2 ^ 6) (regs [(1, 7)] (loaded .v)) (fun t => sregVal (curPath t) 0 == 0) = true := by
  decide +kernel

/-- R254: R234's bnz s9, −3 words: taken to 0x10000 − 12, and not taken when s9 is 0. A taken transfer ends the run (R221). -/
theorem test_bnz : (ran 32 0x2127FFFD (regs [(9, 1)] (loaded .v)) (fun t =>
      (pathOf t { uid := 0, gidx := 0, pidx := 0 }).pc == 0xFFF4 && t.running.isEmpty) &&
    ran 32 0x2127FFFD (loaded .v) (fun t => (curPath t).pc == 0x10004)) = true := by
  decide +kernel

/-- R368, R214: trap saves its own address, sets cause 0x0F and enters supervisor mode; eaddr is 0. SVENTRY is at 0x20000. -/
theorem test_trap_enters : ran 32 0x71000005 (physPut none 0x30000 8 0x20000 (physPut none 0x1038 8 0x30000 (loaded .c))) (fun t =>
    let g := getGroup t 0 0
    g.sup && g.epc == 0x10000 && g.ecause == 0x0F && g.eaddr == 0 && (getPath g 0).pc == 0x20000) = true := by
  decide +kernel

/-- R224, R228: a word of all ones traps with cause 0x01, a nonzero must-be-zero bit of halt with 0x02. -/
theorem test_words_that_trap : (ran 32 0xFFFFFFFF (physPut none 0x1038 8 0x30000 (loaded .c)) (fun t => (getGroup t 0 0).ecause == 0x01) &&
    ran 32 0x72C00001 (physPut none 0x1038 8 0x30000 (loaded .c)) (fun t => (getGroup t 0 0).ecause == 0x02)) = true := by
  decide +kernel

/-- R298, R143: a store of the low 4 bytes of s8 to [s1 + 4], least significant first. -/
theorem test_sst_bytes : ran 32 (0x51 * 2 ^ 24 + 8 * 2 ^ 18 + 1 * 2 ^ 12 + 2 * 2 ^ 6 + 1) (regs [(1, pad), (8, 0x1122334455667788)] (loaded .v))
    (fun t => sgetN 0 (curBlock t).spad 3 6 == [0, 0x88, 0x77, 0x66, 0x55, 0]) = true := by
  decide +kernel

/-- R298: a load of one byte from [s1 + 3] to s9 is zero-extended. -/
theorem test_sld_extends : ran 32 (0x50 * 2 ^ 24 + 9 * 2 ^ 18 + 1 * 2 ^ 12 + 3)
    (regs [(1, pad), (9, 0xFFFF)] (modB (fun b => { b with spad := [(3, 0x80)] }) (loaded .v)))
    (fun t => sregVal (curPath t) 9 == 0x80) = true := by
  decide +kernel

/-- R45, R24: a misaligned store traps with 0x04 and eaddr its address, and stores nothing. -/
theorem test_misaligned_store : ran 32 (0x51 * 2 ^ 24 + 8 * 2 ^ 18 + 1 * 2 ^ 12 + 3 * 2 ^ 6) (regs [(1, pad + 4), (8, 5)] (loaded .v)) (fun t =>
    let g := getGroup t 0 0
    g.ecause.toNat == 0x04 + 4 * 2 ^ 24 && g.eaddr == pad + 4 && (getBlock t 0).spad == []) = true := by
  decide +kernel

/-- R274, R201: R216's first word, here vadd v2, v1, v3 over 32 threads: element 31 takes the sum modulo 2^32, element 32 stands. -/
theorem test_vadd : ran 32 0x300810C0 (modG (fun g => { g with v := [(1024 + 31, 0xFFFFFFFF), (3072 + 31, 2), (3072 + 32, 2)] }) (loaded .v)) (fun t =>
    vel (curGroup t) 2 31 == 1 && vel (curGroup t) 2 32 == 0) = true := by
  decide +kernel

/-- R278: 1.0 + 1.0 = 2.0 by vfadd v3, v1, v2. -/
theorem test_vfadd : ran 32 0x400C1080 (modG (fun g => { g with v := [(1024, 0x3F800000), (2048, 0x3F800000)] }) (loaded .v)) (fun t =>
    vel (curGroup t) 3 0 == 0x40000000) = true := by
  decide +kernel

/-- R320: tset of M = 9, N = 8, K = 8 in FMT 2 on an EC with one band of the array on grants 16, 8 and 8. -/
theorem test_tset : ran 32 0x60554002 (regs [(20, 9 + 8 * 2 ^ 16 + 8 * 2 ^ 32)] (loaded .m)) (fun t =>
    (curBlock t).gm == 16 && (curBlock t).gn == 8 && (curBlock t).gk == 8 && (curBlock t).tfmt == 2) = true := by
  decide +kernel

/-- R190: halt retires the group and ends its run. -/
theorem test_halt : ran 32 0x72C00000 (loaded .m) (fun t => (getGroup t 0 0).retired && t.running.isEmpty) = true := by
  decide +kernel

/-! Witnesses: for every statement with hypotheses, states and operands that meet them, clause by clause at the ends of its ranges. -/

/-- Checks that evaluate, for the predicates of the statements. -/
def livesB (s : State) (w : Who) : Bool :=
  match findBlock s w.uid with
  | none => false
  | some b => match findGroup b w.gidx with
    | none => false
    | some g => (findPath g w.pidx).isSome

def readyB (s : State) : Bool := !s.running.isEmpty && livesB s (curWho s) && (curMeld s).isNone && (curPath s).rpt.isNone

theorem lives_of (s : State) (w : Who) (h : livesB s w = true) : Lives s w := by
  unfold livesB at h
  cases hb : findBlock s w.uid with
  | none => simp [hb] at h
  | some b => cases hg : findGroup b w.gidx with
    | none => simp [hb, hg] at h
    | some g => cases hp : findPath g w.pidx with
      | none => simp [hb, hg, hp] at h
      | some p => exact ⟨b, g, p, hb, hg, hp⟩

theorem ready_of (s : State) (h : readyB s = true) : Ready s := by
  simp only [readyB, Bool.and_eq_true, Bool.not_eq_true', Option.isNone_iff_eq_none] at h
  obtain ⟨⟨⟨h1, h2⟩, h3⟩, h4⟩ := h
  exact ⟨⟨fun h => by simp [h] at h1, lives_of s _ h2⟩, h3, h4⟩

theorem runs_of (s : State) (h : readyB s = true) : Runs s := (ready_of s h).1

theorem issues_of (s : State) (h : s.running.isEmpty = false) : Issues s := fun e => by simp [e] at h

def useB (s : State) : VUse → Bool
  | .reg f wide => (!wide || (f.toNat + bias s) % 2 == 0) && (sidesOf s).all fun b => decide (vregOf s b f + b2n wide < nr s)
  | .latch f wide => decide (f.toNat < 4) && (!wide || f.toNat % 2 == 0)

theorem use_of (s : State) (u : VUse) (h : useB s u = true) : useOk s u := by
  cases u <;> simp only [useB, useOk, Bool.and_eq_true, Bool.or_eq_true, Bool.not_eq_true', beq_iff_eq, List.all_eq_true, decide_eq_true_eq] at h ⊢
  · exact ⟨fun e => by simpa [e] using h.1, h.2⟩
  · exact ⟨h.1, fun e => by simpa [e] using h.2⟩

def vecB (v : VArgs) (uses : List VUse) (dst : Option Bool) (s : State) : Bool :=
  !s.running.isEmpty && decide ((curGroup s).role = .v) && uses.all (useB s) &&
  (match dst with
   | none => true
   | some wd => (!wd || (v.d.toNat + bias s) % 2 == 0) && (v.nw || useB s (.reg v.d wd)))

theorem vec_of (v : VArgs) (uses : List VUse) (dst : Option Bool) (s : State) (h : vecB v uses dst s = true) : VecReady v uses dst s := by
  simp only [vecB, Bool.and_eq_true, Bool.not_eq_true', List.all_eq_true, decide_eq_true_eq] at h
  obtain ⟨⟨⟨h1, h2⟩, h3⟩, h4⟩ := h
  refine ⟨issues_of s h1, h2, fun u hu => use_of s u (h3 u hu), fun wd e => ?_⟩
  subst e
  simp only [Bool.and_eq_true, Bool.or_eq_true, Bool.not_eq_true', beq_iff_eq] at h4
  exact ⟨fun e => by simpa [e] using h4.1, fun e => use_of s _ (by simpa [e] using h4.2)⟩

def localB (s : State) (a : Int) (n align : Nat) : Bool :=
  decide (0xE * 2 ^ 60 ≤ a ∧ a % 2 ^ 60 + n ≤ (curBlock s).spadSize ∧ a % 2 ^ 60 + n ≤ 2 ^ 20 ∧ a < 0xF * 2 ^ 60 ∧ a % (align : Int) = 0 ∧
  (curBlock s).transit = false ∧ badRange s (.spad (curBlock s).uid) (a % 2 ^ 60).toNat n = false)

theorem local_of (s : State) (a : Int) (n align : Nat) (h : localB s a n align = true) : Local s a n align := by
  unfold Local; exact of_decide_eq_true h

/-! Encodings and the step. -/

theorem witness_encodable : ∀ i ∈ ([.sadd true 63 62 61, .sliLong false 63 0xFFFFFFFF 15, .br false 0xFFFFFF, .halt true,
    .memLongOffsetForm true 1 2 0xB 15 0x80000000 0, .matrixLongForm false 6 0 15 5 0] : List Instr), i.hasWord = true ∧ i.wf = true := by
  decide +kernel

theorem witness_decodable : decode 0xFFFFFFFF78FC001F = .ok (.sliLong false 63 0xFFFFFFFF 15) ∧ decode 0xC0185048 = .ok (.vfadd true 6 5 1 0 2 0) := by
  decide +kernel

/-- The first and the last word of every run of reserved majors. -/
theorem witness_reserved_majors : ∀ m ∈ [0x0B, 0x1F, 0x2D, 0x2F, 0x74, 0x77, 0x7C, 0x7F], reservedMajor m = true := by decide

noncomputable def fetched (s : State) (p : Dec → Bool) : Bool :=
  match chosenRun s with
  | none => false
  | some t => match (fetchInstr t).2 with
    | .ok w => p (decode w)
    | _ => false

theorem fetched_of (s : State) (p : Dec → Bool) (h : fetched s p = true) :
    ∃ t u w, chosenRun s = some t ∧ fetchInstr t = (u, .ok w) ∧ p (decode w) = true := by
  unfold fetched at h
  split at h
  · cases h
  · rename_i t ht
    split at h
    · rename_i w hw
      exact ⟨t, (fetchInstr t).1, w, ht, by rw [← hw], h⟩
    · cases h

/-- A step in which the head run moves on a good word, on an illegal one and on one with a must-be-zero bit, and one that the schedule
picks. -/
theorem witness_steps :
    (∃ t u w, chosenRun (State.reset.withFetchWord 64 0xFFFFFFFF78FC001F) = some t ∧ fetchInstr t = (u, .ok w) ∧ (decode w).isOk = true) ∧
    (∃ t u w, chosenRun (State.reset.withFetchWord 32 0xFFFFFFFF) = some t ∧ fetchInstr t = (u, .ok w) ∧ decide (decode w = .illegal) = true) ∧
    (∃ t u w, chosenRun { State.reset.withFetchWord 32 0x72C00001 with sched := [0] } = some t ∧ fetchInstr t = (u, .ok w) ∧
      decide (decode w = .mbz) = true) :=
  ⟨fetched_of _ Dec.isOk (by decide +kernel), fetched_of _ (fun d => decide (d = .illegal)) (by decide +kernel),
   fetched_of _ (fun d => decide (d = .mbz)) (by decide +kernel)⟩

/-- What a translation must give. -/
def translates (x : State × TrRes) (p : State → Nat → Bool) : Bool :=
  match x with
  | (t, .ok pa _) => p t pa
  | _ => false

theorem translates_of (x : State × TrRes) (p : State → Nat → Bool) (h : translates x p = true) :
    ∃ t pa ilv, x = (t, .ok pa ilv) ∧ p t pa = true := by
  obtain ⟨t, r⟩ := x
  cases r <;> simp [translates] at h
  exact ⟨t, _, _, rfl, h⟩

/-- A fetch from memory, of one word and of a long form. -/
theorem witness_fetch : ∀ w ∈ [0x01249FFF, 0x78], ∃ t pa ilv,
    let s := loaded .v
    let s := physPut none 0x10000 4 (if w = 0x78 then 0x78000000 else w) s
    s.decoded = [] ∧ (curPath s).pc.toNat < 2 ^ 52 ∧
    translate (curEnv 0 1 s).side (curEnv 0 1 s).ctx (curPath s).pc.toNat .exec (curEnv 0 1 s).sup s = (t, .ok pa ilv) ∧
    (isAperture t pa = false ∧ badRange t .phys pa 4 = false ∧ isLong (physRead t pa 4) = decide (w = 0x78) ∧
      ∃ t' pa' ilv', translate (curEnv 0 1 s).side (curEnv 0 1 s).ctx ((curPath s).pc + 4).toNat .exec (curEnv 0 1 s).sup t = (t', .ok pa' ilv') ∧
        decide (isAperture t' pa' = false ∧ badRange t' .phys pa' 4 = false) = true) := by
  intro w hw
  obtain ⟨t, pa, ilv, h, hp⟩ : ∃ t pa ilv,
      (let s := physPut none 0x10000 4 (if w = 0x78 then 0x78000000 else w) (loaded .v)
       translate (curEnv 0 1 s).side (curEnv 0 1 s).ctx (curPath s).pc.toNat .exec (curEnv 0 1 s).sup s) = (t, .ok pa ilv) ∧
      (decide (isAperture t pa = false ∧ badRange t .phys pa 4 = false ∧ isLong (physRead t pa 4) = decide (w = 0x78)) &&
       (let s := physPut none 0x10000 4 (if w = 0x78 then 0x78000000 else w) (loaded .v)
        translates (translate (curEnv 0 1 s).side (curEnv 0 1 s).ctx ((curPath s).pc + 4).toNat .exec (curEnv 0 1 s).sup t)
          fun t' pa' => decide (isAperture t' pa' = false ∧ badRange t' .phys pa' 4 = false))) = true := by
    apply translates_of
    rcases List.mem_cons.1 hw with rfl | hw
    · decide +kernel
    · rw [List.mem_singleton.1 hw]; decide +kernel
  simp only [Bool.and_eq_true, decide_eq_true_eq] at hp
  obtain ⟨⟨h1, h2, h3⟩, h4⟩ := hp
  refine ⟨t, pa, ilv, ?_, ?_, h, h1, h2, h3, ?_⟩
  · rcases List.mem_cons.1 hw with rfl | hw
    · decide +kernel
    · rw [List.mem_singleton.1 hw]; decide +kernel
  · rcases List.mem_cons.1 hw with rfl | hw
    · decide +kernel
    · rw [List.mem_singleton.1 hw]; decide +kernel
  · exact translates_of _ _ h4

/-- A launch that has been accepted and not checked. -/
def newLaunch : Launch :=
  { id := 7, die := 0, packet := bootPacket .v, addr := 0, ctx := 0x1000, rcb := 0x1000, counter := 0, placed := 0, prio := 0, dies := 0,
    checked := false, node := none, service := false, shown := 7 }

/-- Turns of the device: a pending step, one that the schedule picks, one that is due. -/
theorem witness_events :
    let s := { loaded .v with pending := [.telemetry, .heartbeat 1] }
    (s.sched = [] ∧ s.pending = [.telemetry, .heartbeat 1]) ∧
    (let t := { passTime { s with sched := [2] } with sched := [] }
     s.running.length ≤ 2 ∧ t.pending[firstOfLane t (2 - s.running.length)]? = some (.heartbeat 1)) ∧
    (let u := { State.reset with launches := [newLaunch] }
     u.running = [] ∧ u.pending = [] ∧ (due (passTime u)).head? = some (.launchPacketCheck 7)) := by
  decide +kernel

/-- The invariant holds at reset, and of a state that steps. -/
theorem witness_invariant : ∃ s s', Inv s ∧ step s = .next s' := by
  have h : after (step (State.reset.withFetchWord 32 0x01249FFF)) (fun _ => true) = true := by decide +kernel
  cases e : step (State.reset.withFetchWord 32 0x01249FFF) with
  | next t => exact ⟨_, t, ⟨by decide +kernel, fun d => by
      have : (State.reset.withFetchWord 32 0x01249FFF).cellar = Vector.replicate 4 [] := by decide +kernel
      rw [this]; rcases d with _ | _ | _ | _ | d <;> rfl⟩, e⟩
  | fault f => rw [e] at h; cases h
  | refused r => rw [e] at h; cases h

/-! Scalar instructions, sides, the next PC. -/

/-- Two paths melded in a region of token 3, each with half of the threads. -/
noncomputable def melded (done : Bool) : State :=
  modG (fun g => { g with
    paths := [{ blankPath (ones 1024 16) 0x10000 with tokens := 8 },
              { blankPath (ones 1024 32 &&& ~~~ ones 1024 16) 0x10000 with idx := 1, tokens := 8 }],
    melds := [{ tok := 3, a := 0, b := 1, table := BitVec.ofNat 512 (ofBytes ((List.range 64).map fun i => BitVec.ofNat 8 (i % 16))), startB := none, doneA := done, doneB := false }] })
    (loaded .v)

/-- The path's run in a repeat frame, at its first instruction of one and at its last of three. -/
noncomputable def framed : State :=
  modP (fun p => { p with rpt := some { start := 0x10000, len := 3, stride := 2, n := 256, pass := 255, pos := 2 } }) (loaded .v)

noncomputable def theMeld (s : State) : Meld := (curMeld s).getD { tok := 0, a := 0, b := 0, table := 0, startB := none, doneA := false, doneB := false }

theorem witness_sides : Alone (loaded .v) ∧ Issues (loaded .v) ∧
    (∃ m, curMeld (melded false) = some m ∧ m.doneA = false ∧ m.doneB = false) ∧
    (∃ m, curMeld (melded true) = some m ∧ m.doneA = true ∧ m.doneB = false) := by
  refine ⟨(ready_of _ (by decide +kernel)).2.1, issues_of _ (by decide +kernel), ?_, ?_⟩
  · exact ⟨theMeld (melded false), by decide +kernel, by decide +kernel, by decide +kernel⟩
  · exact ⟨theMeld (melded true), by decide +kernel, by decide +kernel, by decide +kernel⟩

/-- A body that completes for both sides, one that traps for side b. -/
theorem witness_sides_complete :
    let trapB (u : State) : State × Act := if (cur u).side then (u, .trap 0x09 0 0) else (u, .next)
    (∃ sa sb, (fun u => (u, Act.next)) (setSide false (melded false)) = (sa, Act.next) ∧
      (fun u => (u, Act.next)) (setSide true (setDone true false sa)) = (sb, Act.next)) ∧
    ∃ sa sb, trapB (setSide false (melded false)) = (sa, .next) ∧ trapB (setSide true (setDone true false sa)) = (sb, .trap 0x09 0 0) := by
  refine ⟨⟨_, _, rfl, rfl⟩, _, _, if_neg ?_, if_pos ?_⟩ <;> decide +kernel

/-- A path that runs; an empty loop stack; the PC is anything. -/
theorem witness_path_alone : Runs (loaded .v) ∧ Alone (loaded .v) ∧ NoFrame (loaded .v) ∧ (curPath (loaded .v)).loops = [] :=
  have h := ready_of (loaded .v) (by decide +kernel)
  ⟨h.1, h.2.1, h.2.2, by decide +kernel⟩

/-- The two ways a run can go on: one instruction short of 24, and the 24th. -/
theorem witness_run_length : ∀ k ∈ [22, 23], Runs (modG (fun g => { g with issued := k }) (loaded .v)) := by
  intro k hk
  simp only [List.mem_cons, List.not_mem_nil, or_false] at hk
  rcases hk with rfl | rfl <;> exact runs_of _ (by decide +kernel)

/-- Loop entries at the ends of the clauses: a back-edge with two passes left, the last pass, a jump out and one to the body's ends. -/
theorem witness_loop_entries :
    let t : LoopEntry := { start := 0x10004, stop := 0x10010, left := 2, depth := 1 }
    (t.depth = 1 ∧ (0x10010 : Word) = t.stop ∧ 1 < t.left.toNat) ∧ ({ t with left := 1 } : LoopEntry).left.toNat ≤ 1 ∧
    ((0x10000 : Word) ≠ t.stop ∧ (0x10000 : Word).toNat < t.start.toNat) ∧
    ((0x10004 : Word) ≠ t.stop ∧ t.start.toNat ≤ (0x10004 : Word).toNat ∧ (0x10004 : Word).toNat ≤ t.stop.toNat) ∧ t.depth ≠ 0 := by
  decide

/-- A frame inside a pass, at the end of one, and at the end of the last. -/
theorem witness_frames :
    let f : RptFrame := { start := 0x10000, len := 3, stride := 2, n := 256, pass := 254, pos := 1 }
    let p : Path := { blankPath 1 0x10004 with rpt := some f }
    (p.rpt = some f ∧ p.loops = [] ∧ f.pos + 1 < f.len) ∧
    (let g := { f with pos := 2 }; g.len ≤ g.pos + 1 ∧ g.pass + 1 < g.n) ∧
    (let g := { f with pos := 2, pass := 255 }; g.len ≤ g.pos + 1 ∧ g.n ≤ g.pass + 1) := by
  decide +kernel

theorem witness_scalar_integer : (∃ h f, ScalarRow (.sadd true 63 62 61) h 63 f) ∧
    (∃ h f, ScalarRow (.sadrLong false 1 0 0x0F 0x80000000 3) h 1 f) ∧ Issues (loaded .c) ∧ Issues (melded false) :=
  ⟨⟨_, _, .sadd ..⟩, ⟨_, _, .sadrLong _ _ _ _ _ _ (by decide) (by decide)⟩, issues_of _ (by decide +kernel), issues_of _ (by decide +kernel)⟩

/-- Width codes at the ends of the clauses. -/
theorem witness_widths : (2 : BitVec 6).toNat ≤ 2 ∧ 2 < (3 : BitVec 6).toNat := by decide

theorem witness_scalar_float : (∃ f, ScalarFloatRow (.sfcmpUn false 1 2 3 1) false 1 f) ∧ (∃ f, ScalarFloatRow (.sfcvt false 1 2 3 4) false 1 f) ∧
    ((4 : BitVec 3) = 4 ∨ (4 ≤ (4 : BitVec 3).toNat ∧ 4 ≤ (4 : BitVec 3).toNat)) ∧ (4 ≤ (4 : BitVec 3).toNat ∧ 4 ≤ (7 : BitVec 3).toNat) :=
  ⟨⟨_, .sfcmpUn ..⟩, ⟨_, .sfcvt _ _ _ _ _ (by decide) (by decide)⟩, by decide, by decide⟩

/-- The largest number, the smallest subnormal and minus zero of a format are values that it holds. -/
theorem witness_values_held : ∀ x ∈ [0x7F7FFFFF, 0x00000001, 0x80000000], x < 2 ^ Fmt_width fB32 ∧
    (match fdecode fB32 x with
     | .fin _ _ _ => true
     | _ => false) = true := by
  decide +kernel

/-! Control flow and paths. -/

/-- The checks of R228, one state for each that fails, and one in which all pass. -/
theorem witness_checks :
    (Issues framed ∧ (curPath framed).rpt.isSome = true ∧ frameAllows 0x20 = false) ∧
    (Issues (loaded .c) ∧ roleAllows (curGroup (loaded .c)).role 0x30 = false) ∧
    (Issues (melded false) ∧ (curMeld (melded false)).isSome = true ∧ meldForbids 0x20 = true) ∧
    ((curGroup (loaded .v)).sup = false ∧ roleAllows (curGroup (loaded .v)).role 0x30 = true) :=
  ⟨⟨issues_of _ (by decide +kernel), by decide +kernel, by decide +kernel⟩, ⟨issues_of _ (by decide +kernel), by decide +kernel⟩,
   ⟨issues_of _ (by decide +kernel), by decide +kernel, by decide +kernel⟩, by decide +kernel, by decide +kernel⟩

theorem witness_meld_forbidden : MeldForbidden (.loop false 0 2) ∧ Issues (melded false) ∧ NoFrame (melded false) ∧
    (curMeld (melded false)).isSome = true :=
  ⟨.loop _ _ _ (by decide), issues_of _ (by decide +kernel), (by decide +kernel : (curPath (melded false)).rpt = none), by decide +kernel⟩

/-- Targets of calls, return stacks of depth 0, 254 and 255. -/
theorem witness_calls :
    (∀ n ∈ [0, 254, 255], Ready (modP (fun p => { p with rets := List.replicate n 0x10000 }) (loaded .c))) ∧
    ((0x000FFFFFFFFFFFFC : Word).toNat < 2 ^ 52 ∧ (0x000FFFFFFFFFFFFC : Word).toNat % 4 = 0) ∧ 2 ^ 52 ≤ (0x0010000000000000 : Word).toNat ∧
    ((0x000FFFFFFFFFFFFE : Word).toNat < 2 ^ 52 ∧ (0x000FFFFFFFFFFFFE : Word).toNat % 4 ≠ 0) ∧
    rdS 1 (regs [(1, 0x000FFFFFFFFFFFFC)] (loaded .c)) = 0x000FFFFFFFFFFFFC := by
  refine ⟨fun n hn => ?_, by decide, by decide, by decide, by decide +kernel⟩
  simp only [List.mem_cons, List.not_mem_nil, or_false] at hn
  rcases hn with rfl | rfl | rfl <;> exact ready_of _ (by decide +kernel)

/-- Offsets and counts of loop and rpt at the ends of their clauses, three and four entries on the loop stack. -/
theorem witness_loops :
    ((1 : BitVec 18).toInt < 2 ∧ 2 ≤ (2 : BitVec 18).toInt ∧ (0x3FFFF : BitVec 18).toInt < 2) ∧
    (256 < (257 : BitVec 9).toNat ∧ 1 ≤ (1 : BitVec 9).toNat ∧ (256 : BitVec 9).toNat ≤ 256) ∧
    (rdS 0 (loaded .c) = 0 ∧ rdS 1 (regs [(1, 1)] (loaded .c)) ≠ 0) ∧
    ∀ n ∈ [3, 4], Ready (modP (fun p => { p with loops := List.replicate n { start := 0, stop := 4, left := 1, depth := 0 } })
      (regs [(1, 1)] (loaded .c))) := by
  refine ⟨by decide, by decide, ⟨by decide +kernel, by decide +kernel⟩, fun n hn => ?_⟩
  simp only [List.mem_cons, List.not_mem_nil, or_false] at hn
  rcases hn with rfl | rfl <;> exact ready_of _ (by decide +kernel)

/-- rpt with a count of 0: the instructions that it passes over can be read. -/
theorem witness_skip : ∃ t x, skipInstrs (curEnv 0 1 (loaded .v)) 16 ((curPath (loaded .v)).pc + 4) (loaded .v) = (t, .ok x) := by
  have h : (match (skipInstrs (curEnv 0 1 (loaded .v)) 16 ((curPath (loaded .v)).pc + 4) (loaded .v)).2 with
    | .ok _ => true
    | _ => false) = true := by decide +kernel
  split at h
  · rename_i x e; exact ⟨_, x, by rw [← e]⟩
  · cases h

/-- vbr: no thread taken, all of them, some with room for a path, some without a free index, some with eight paths and no slot. -/
theorem witness_vbr :
    let half : BitVec 1024 := ones 1024 16
    let s (p : BitVec 1024) := modG (fun g => { g with p := vset g.p 1 p }) (loaded .v)
    let eight := modG (fun g => { g with paths := (List.range 8).map fun i => { blankPath (BitVec.ofNat 1024 (0xF * 16 ^ i)) 0x10000 with idx := i } }) (s (ones 1024 2))
    let last := modG (fun g => { g with paths := g.paths.map fun p => { p with idx := 63 } }) (s half)
    takenSet 1 (s 0) = 0 ∧
    (takenSet 1 (s (ones 1024 32)) ≠ 0 ∧ (curPath (s 0)).threads &&& ~~~ takenSet 1 (s (ones 1024 32)) = 0) ∧
    (takenSet 1 (s half) ≠ 0 ∧ (curPath (s half)).threads &&& ~~~ takenSet 1 (s half) ≠ 0 ∧ freeIndex (curGroup (s half)) 0 = some 1 ∧
      roomForPath (s half) = some none) ∧
    (freeIndex (curGroup last) 63 = none) ∧
    (takenSet 1 eight ≠ 0 ∧ (curPath eight).threads &&& ~~~ takenSet 1 eight ≠ 0 ∧ roomForPath eight = none) := by
  decide +kernel

/-- vjoin and vmeld of a token of which the path is a member and one of which it is none; another member still runs. -/
noncomputable def member : State :=
  modG (fun g => { g with paths := [{ blankPath (ones 1024 16) 0x10000 with tokens := 8 },
    { blankPath (ones 1024 32 &&& ~~~ ones 1024 16) 0x10000 with idx := 1, tokens := 8 }] }) (loaded .v)

theorem witness_vjoin : Ready member ∧ (curPath member).tokens.getLsbD 3 = true ∧ (curPath member).tokens.getLsbD 2 = false ∧
    (let u := endRun (modP (fun p => { p with run := .atJoin 3 }) member)
     ∀ k, k < 16 → canResolve (getGroup u (curWho member).uid (curWho member).gidx) k = false ∧
       canDecide (getGroup u (curWho member).uid (curWho member).gidx) k = false) := by
  refine ⟨ready_of _ (by decide +kernel), by decide +kernel, by decide +kernel, ?_⟩
  intro u k hk
  have h : ∀ k : Fin 16, canResolve (getGroup u (curWho member).uid (curWho member).gidx) k = false ∧
       canDecide (getGroup u (curWho member).uid (curWho member).gidx) k = false := by decide +kernel
  exact h ⟨k, hk⟩

theorem witness_merge :
    let a : Path := { blankPath 1 0x10000 with run := .atJoin 3, maps := vset (Vector.replicate 16 0) 3 4 }
    let b : Path := { blankPath 2 0x10000 with idx := 1, run := .atJoin 3, maps := vset (Vector.replicate 16 0) 3 2 }
    ([a, b].find? fun p => (vget p.maps 3).getLsbD 1) = some b ∧ ([a, b].find? fun p => (vget p.maps 3).getLsbD 2) = some a ∧
    ([a, b].find? fun p => (vget p.maps 3).getLsbD 0) = none ∧ a.rpt = none ∧ a.loops = [] := by
  decide +kernel

/-- Two members parked at one vmeld with a legal table in memory. -/
noncomputable def parked : State :=
  physWrite none 0x40000 ((List.range 64).map fun i => BitVec.ofNat 8 (i % 16))
    (modG (fun g => { g with paths := g.paths.map fun p => { p with run := .atMeld 3 0x40000 } }) member)

/-- How the table is read. -/
noncomputable def parkedEnv : Env :=
  let b := getBlock parked 0
  { uid := 0, pl := b.place, ctx := blockCtx parked b, sup := (getGroup parked 0 0).sup, scope := 4, cls := 0, noL1 := true,
    side := .core b.place, core := some (corePlace b.place), owner := .path { uid := 0, gidx := 0, pidx := 0 } }

theorem witness_vmeld :
    let w : Who := { uid := 0, gidx := 0, pidx := 0 }
    let g := getGroup parked 0 0
    let a := getPath g 0
    let b := getPath g 1
    (tokenMembers g 3 = [a, b] ∧ a.run = .atMeld 3 0x40000 ∧ b.run = .atMeld 3 0x40000 ∧ a.pc = b.pc ∧
     a.rets.length = b.rets.length ∧ g.paths.Pairwise (fun p q => p.idx < q.idx) ∧ a.rpt = none ∧ b.rpt = none ∧ a.loops = [] ∧ b.loops = []) ∧
    ∃ u l, readTable parkedEnv 0x40000 parked = (u, .ok l) ∧ tableOk (nrOf g.nrc) (BitVec.ofNat 512 (ofBytes l)) = true ∧
      (getGroup u 0 0).paths = g.paths ∧ (getGroup u 0 0).melds = g.melds ∧ Lives u w := by
  intro w g a b
  refine ⟨by decide +kernel, ?_⟩
  have h : (match readTable parkedEnv 0x40000 parked with
    | (u, .ok l) => tableOk (nrOf g.nrc) (BitVec.ofNat 512 (ofBytes l)) &&
        decide ((getGroup u 0 0).paths = g.paths ∧ (getGroup u 0 0).melds = g.melds) && livesB u w
    | _ => false) = true := by decide +kernel
  split at h
  · rename_i u l e
    simp only [Bool.and_eq_true, decide_eq_true_eq] at h
    exact ⟨u, l, e, h.1.1, h.1.2.1, h.1.2.2, lives_of _ _ h.2⟩
  · cases h

theorem witness_vunmeld : Runs (melded false) ∧ NoFrame (melded false) ∧ (∃ m, (curMeld (melded false) = some m ∧
    (cur (melded false)).side = false ∧ m.tok = (3 : BitVec 4).toNat ∧ m.tok ≠ (2 : BitVec 4).toNat ∧ (curGroup (melded false)).melds = [m] ∧
    m.a ≠ m.b ∧ (curPath (melded false)).loops = []) ∧ Lives (melded false) { curWho (melded false) with pidx := m.b }) := by
  refine ⟨⟨issues_of _ (by decide +kernel), lives_of _ _ (by decide +kernel)⟩, (by decide +kernel : (curPath (melded false)).rpt = none),
    theMeld (melded false), by decide +kernel, lives_of _ _ (by decide +kernel)⟩

/-- vexit: of all threads and of one; vbrk: a thread named and none. -/
theorem witness_exits :
    let s (p : BitVec 1024) := modG (fun g => { g with p := vset g.p 1 p }) (loaded .v)
    (curPath (s 1)).threads &&& ~~~ takenSet 1 (s 1) ≠ 0 ∧ (curPath (s 0)).threads &&& ~~~ (curPath (s 0)).threads = 0 ∧
    (List.range 1024).any (takes 1 (s 1)) = true ∧ (List.range 1024).any (takes 1 (s (ones 1024 64 &&& ~~~ ones 1024 32))) = false := by
  decide +kernel

/-- vcfg with one path, and with two or an exited thread. -/
theorem witness_vcfg : ((curGroup (loaded .v)).paths.length = 1 ∧ (curGroup (loaded .v)).exited = 0) ∧ (curGroup member).paths.length ≠ 1 ∧
    (curGroup (modG (fun g => { g with exited := 1 }) (loaded .v))).exited ≠ 0 := by
  decide +kernel

/-! Vector and predicate instructions: a V-role group with 64 registers of 32 elements, a melded one, and one whose vstart has reached vl. -/

/-- The operands of a 64-bit long form and of the wide multiply-add. -/
def wideForm : VecLong := { noVec with d := 62, a := 60, b := 58, dw := 1, pm4 := 15 }
def wideMad : VecLong := { noVec with d := 62, a := 60, b := 58, xop := 2, x := 1, dw := 1 }

theorem witness_vector_integer :
    (∃ v q, VecForm (.vadd false 63 62 61 3 0 0) v q ∧ v.major ≤ 0x3A ∧ VecReady v (sourceA v :: sourceB v) (some v.wide) (loaded .v)) ∧
    (∃ v q, VecForm (.vsubsu true 63 3 61 0 1 1) v q ∧ v.major ≤ 0x3A ∧ VecReady v (sourceA v :: sourceB v) (some v.wide) (loaded .v)) ∧
    (∃ v q, VecForm (.vectorLongForm false wideForm) v q ∧ v.major ≤ 0x3A ∧ VecReady v (sourceA v :: sourceB v) (some v.wide) (loaded .v)) ∧
    (∃ v q, VecForm (.vectorLongForm false wideMad) v q ∧ v.major = 0x32 ∧ q.x = 1 ∧
      VecReady v (sourceA v :: sourceB v ++ [.reg v.d v.wide]) (some v.wide) (loaded .v)) ∧
    (∃ v q, VecForm (.vadd false 2 1 3 0 0 0) v q ∧ v.major ≤ 0x3A ∧ VecReady v (sourceA v :: sourceB v) (some v.wide) (melded false)) :=
  ⟨⟨_, _, .vadd .., by decide, vec_of _ _ _ _ (by decide +kernel)⟩, ⟨_, _, .vsubsu .., by decide, vec_of _ _ _ _ (by decide +kernel)⟩,
   ⟨_, _, .vectorLongForm _ _ (by decide), by decide, vec_of _ _ _ _ (by decide +kernel)⟩,
   ⟨_, _, .vectorLongForm _ _ (by decide), by decide, by decide, vec_of _ _ _ _ (by decide +kernel)⟩,
   ⟨_, _, .vadd .., by decide, vec_of _ _ _ _ (by decide +kernel)⟩⟩

theorem witness_vector_results : Runs (loaded .v) ∧ Alone (loaded .v) ∧
    (shortV false 0x30 2 1 3 0 0 0).once = true ∧ ({ shortV false 0x30 2 1 3 0 0 0 with nw := true } : VArgs).once = true ∧
    (curGroup (loaded .v)).vstart.toNat < (curGroup (loaded .v)).vl.toNat ∧ swf (0 : Half) (curGroup (loaded .v)).v = true ∧
    swf (0 : Half) (curGroup (loaded .v)).bp = true ∧ (15 : Nat) < 16 ∧
    (let s := modG (fun g => { g with vstart := g.vl }) (loaded .v); (curGroup s).vl.toNat ≤ (curGroup s).vstart.toNat) :=
  have h := ready_of (loaded .v) (by decide +kernel)
  ⟨h.1, h.2.1, by decide, by decide, by decide +kernel, by decide +kernel, by decide +kernel, by decide, by decide +kernel⟩

theorem witness_vector_moves :
    (∃ v q, VecForm (.vcmp false 15 9 1 2 0 0) v q ∧ v.major = 0x3B ∧ VecReady v (sourceA v :: sourceB v) none (loaded .v)) ∧
    (∃ v q, VecForm (.vsel false 63 1 2 1 0 0) v q ∧ v.major = 0x3C ∧ q.x = 0 ∧ VecReady v (sourceA v :: sourceB v) (some v.wide) (loaded .v)) ∧
    (∃ v q, VecForm (.vmov false 63 1 0 0 0) v q ∧ v.major = 0x3C ∧ q.x = 1 ∧ VecReady v [sourceA v] (some v.wide) (loaded .v)) ∧
    (∃ v q, VecForm (.vbcast false 63 1 0 0) v q ∧ v.major = 0x3D ∧ q.x = 0 ∧ VecReady v [] (some v.wide) (loaded .v)) ∧
    (∃ v q, VecForm (.vid false 63 0 1) v q ∧ v.major = 0x3D ∧ q.x = 1 ∧ VecReady v [] (some false) (loaded .v)) ∧
    (∃ v q, VecForm (.vext false 63 1 2 0) v q ∧ v.major = 0x3E ∧ q.x = 0 ∧ VecReady v [sourceA v] none (loaded .v)) ∧
    (∃ v q, VecForm (.vins false 63 1 2 0) v q ∧ v.major = 0x3E ∧ q.x = 1 ∧ VecReady v [] (some v.wide) (loaded .v)) ∧
    (∃ v q c, VecForm (.vcvt false 62 60 0x14 0 0 0) v q ∧ v.major = 0x3F ∧ cvtRows[q.fn]? = some c ∧
      VecReady v [sourceA { v with wide := is64 c.2 }] (some (is64 c.1)) (loaded .v)) :=
  ⟨⟨_, _, .vcmp _ _ _ _ _ _ _ (by decide), rfl, vec_of _ _ _ _ (by decide +kernel)⟩, ⟨_, _, .vsel .., rfl, rfl, vec_of _ _ _ _ (by decide +kernel)⟩,
   ⟨_, _, .vmov .., rfl, rfl, vec_of _ _ _ _ (by decide +kernel)⟩, ⟨_, _, .vbcast .., rfl, rfl, vec_of _ _ _ _ (by decide +kernel)⟩,
   ⟨_, _, .vid .., rfl, rfl, vec_of _ _ _ _ (by decide +kernel)⟩, ⟨_, _, .vext .., rfl, rfl, vec_of _ _ _ _ (by decide +kernel)⟩,
   ⟨_, _, .vins .., rfl, rfl, vec_of _ _ _ _ (by decide +kernel)⟩,
   ⟨_, _, _, .vcvt _ _ _ _ _ _ _ (by decide), rfl, rfl, vec_of _ _ _ _ (by decide +kernel)⟩⟩

theorem witness_vector_float :
    (∃ v q, VecForm (.vfadd false 63 1 2 0 0 0) v q ∧ v.major = 0x40 ∧ VecReady v (sourceA v :: sourceB v) (some v.wide) (loaded .v)) ∧
    (∃ v q, VecForm (.vffma false 63 1 2 0 0 0) v q ∧ v.major = 0x42 ∧
      VecReady v (sourceA v :: sourceB v ++ [.reg v.d v.wide]) (some v.wide) (loaded .v)) ∧
    (∃ v q, VecForm (.vfsgnj false 63 1 2 0 0 0) v q ∧ v.major = 0x47 ∧ VecReady v (sourceA v :: sourceB v) (some v.wide) (loaded .v)) ∧
    (∃ v q, VecForm (.vfcmp false 15 7 1 2 0 0) v q ∧ v.major = 0x45 ∧ VecReady v (sourceA v :: sourceB v) none (loaded .v)) ∧
    (∃ v q, VecForm (.vfroundRup false 63 1 0 0 0) v q ∧ v.major = 0x46 ∧ VecReady v [sourceA v] (some v.wide) (loaded .v)) ∧
    (∃ v q, VecForm (.vfcvt false 62 60 1 0 0 0 0) v q ∧ v.major = 0x48 ∧
      VecReady v [sourceA { v with wide := q.k == 1 }] (some (q.fn == 1)) (loaded .v)) :=
  ⟨⟨_, _, .vfadd .., rfl, vec_of _ _ _ _ (by decide +kernel)⟩, ⟨_, _, .vffma .., rfl, vec_of _ _ _ _ (by decide +kernel)⟩,
   ⟨_, _, .vfsgnj .., rfl, vec_of _ _ _ _ (by decide +kernel)⟩, ⟨_, _, .vfcmp _ _ _ _ _ _ _ (by decide), rfl, vec_of _ _ _ _ (by decide +kernel)⟩,
   ⟨_, _, .vfroundRup .., rfl, vec_of _ _ _ _ (by decide +kernel)⟩,
   ⟨_, _, .vfcvt _ _ _ _ _ _ _ _ (by decide) (by decide) (by decide), rfl, vec_of _ _ _ _ (by decide +kernel)⟩⟩

/-- Zeros, infinities, negative numbers and NaNs of the two formats; powers outside [−1, 1]. -/
theorem witness_corners : fdecode fB32 0x80000000 = .fin true 0 (-149) ∧ fdecode fB32 0x7F800000 = .inf false ∧ fdecode fB32 0xFF800000 = .inf true ∧
    (match fdecode fB64 0xBFF0000000000000 with
     | .fin n m _ => n && decide (m ≠ 0)
     | _ => false) = true ∧ fdecode fB32 0x7FC00000 = .nan false ∧ fdecode fB32 0x7F800001 = .nan true ∧
    (0x3F800001 < 2 ^ 32 ∧ 0x3F800000 < 0x3F800001 % 2 ^ 31 ∧ 0x3F800001 % 2 ^ 31 ≤ 0x7F800000) ∧ (0xFF800000 % 2 ^ 31 ≤ 0x7F800000) := by
  decide +kernel

theorem witness_predicates_and_lanes :
    (∃ v q, VecForm (.pand false 15 1 2 0) v q ∧ v.major = 0x49 ∧ VecReady v [] none (loaded .v)) ∧
    (∃ v q, VecForm (.psof false 15 1 0) v q ∧ v.major = 0x4A ∧ q.fn ≤ 2 ∧ VecReady v [] none (loaded .v)) ∧
    (∃ v q, VecForm (.pfirst false 63 1 0) v q ∧ v.major = 0x4A ∧ q.fn = 3 ∧ VecReady v [] none (loaded .v)) ∧
    (∃ v q, VecForm (.ppopc false 63 1 0) v q ∧ v.major = 0x4A ∧ q.fn = 4 ∧ VecReady v [] none (loaded .v)) ∧
    (∃ v q, VecForm (.piota false 63 1 0) v q ∧ v.major = 0x4A ∧ q.fn = 5 ∧ VecReady v [] (some false) (loaded .v)) ∧
    (∃ v q, VecForm (.vshfl false 63 1 2 0 0) v q ∧ v.major = 0x4B ∧ q.fn = 0 ∧ VecReady v [sourceA v, .reg v.b v.wide] (some v.wide) (loaded .v)) ∧
    (∃ v q, VecForm (.vldn false 63 1 2 0 0) v q ∧ v.major = 0x4B ∧ 1 ≤ q.fn ∧ q.fn ≤ 3 ∧ VecReady v [sourceA v] (some v.wide) (loaded .v)) ∧
    (∃ v q, VecForm (.vexpand false 63 1 0 0 0) v q ∧ v.major = 0x4C ∧ VecReady v [sourceA v] (some v.wide) (loaded .v)) :=
  ⟨⟨_, _, .pand .., rfl, vec_of _ _ _ _ (by decide +kernel)⟩, ⟨_, _, .psof .., rfl, by decide, vec_of _ _ _ _ (by decide +kernel)⟩,
   ⟨_, _, .pfirst .., rfl, rfl, vec_of _ _ _ _ (by decide +kernel)⟩, ⟨_, _, .ppopc .., rfl, rfl, vec_of _ _ _ _ (by decide +kernel)⟩,
   ⟨_, _, .piota .., rfl, rfl, vec_of _ _ _ _ (by decide +kernel)⟩, ⟨_, _, .vshfl .., rfl, rfl, vec_of _ _ _ _ (by decide +kernel)⟩,
   ⟨_, _, .vldn .., rfl, by decide, by decide, vec_of _ _ _ _ (by decide +kernel)⟩,
   ⟨_, _, .vexpand .., rfl, vec_of _ _ _ _ (by decide +kernel)⟩⟩

theorem witness_reductions_and_scales :
    (∃ v q, VecForm (.vredFmax false 63 1 0 0) v q ∧ v.major = 0x4D ∧ VecReady v [sourceA v] none (loaded .v)) ∧
    (∃ v q, VecForm (.vscan false 63 1 1 6 0 0) v q ∧ v.major = 0x4E ∧ q.fn = 0 ∧ VecReady v [sourceA v] (some v.wide) (loaded .v)) ∧
    (∃ v q, VecForm (.vballot false 63 1 2) v q ∧ v.major = 0x4E ∧ q.fn = 1 ∧ VecReady v [] none (loaded .v)) ∧
    (∃ v q, VecForm (.vvoteCnt false 63 1 2) v q ∧ v.major = 0x4E ∧ q.fn = 2 ∧ q.k = 2 ∧ VecReady v [] none (loaded .v)) ∧
    (∃ v q, VecForm (.vmaxexp false 1 6 7 0 0) v q ∧ v.major = 0x4F ∧ q.fn = 0 ∧ VecReady v [sourceA v] none (loaded .v)) ∧
    (∃ v q, VecForm (.vquant false 63 1 0 7 0 0) v q ∧ v.major = 0x4F ∧ q.fn = 1 ∧ VecReady v [sourceA v] (some false) (loaded .v)) ∧
    (∃ v q, VecForm (.vdequant false 63 1 7 0 0) v q ∧ v.major = 0x4F ∧ q.fn = 2 ∧ VecReady v [sourceA v] (some false) (loaded .v)) ∧
    ((7 : Nat) < 8 ∧ (63 : Nat) < 64 ∧ (255 : Nat) < 256) :=
  ⟨⟨_, _, .vredFmax .., rfl, vec_of _ _ _ _ (by decide +kernel)⟩, ⟨_, _, .vscan _ _ _ _ _ _ _ (by decide), rfl, rfl, vec_of _ _ _ _ (by decide +kernel)⟩,
   ⟨_, _, .vballot .., rfl, rfl, vec_of _ _ _ _ (by decide +kernel)⟩, ⟨_, _, .vvoteCnt .., rfl, rfl, rfl, vec_of _ _ _ _ (by decide +kernel)⟩,
   ⟨_, _, .vmaxexp _ _ _ _ _ _ (by decide), rfl, rfl, vec_of _ _ _ _ (by decide +kernel)⟩,
   ⟨_, _, .vquant _ _ _ _ _ _ _ (by decide), rfl, rfl, vec_of _ _ _ _ (by decide +kernel)⟩,
   ⟨_, _, .vdequant .., rfl, rfl, vec_of _ _ _ _ (by decide +kernel)⟩, by decide⟩

/-- The block conversions: the ends of the code range, and 2 and 8 planes. -/
theorem witness_block_conversions : ∀ x ∈ ([{ noCvt with d := 63, a := 62, ef := 0x10, k := 7 }, { noCvt with ef := 0x16, pln := 2, prnd := 1 },
      { noCvt with ef := 0x17, pln := 8 }] : List BlockCvt),
    let v : VArgs := { e := true, major := 0x48, len := 8, d := x.d, a := x.a, pm := x.pm4.toNat, la := x.la == 1, nw := x.nw == 1 }
    0x10 ≤ x.ef.toNat ∧ x.ef.toNat ≤ 0x17 ∧ (x.ef.toNat = 0x16 → x.k = 0) ∧ VecReady v [sourceA v] (some false) (loaded .v) ∧
    (if x.ef.toNat = 0x16 ∨ x.ef.toNat = 0x17 then 2 ≤ x.pln.toNat ∧ x.pln.toNat ≤ 8 else x.pln = 0 ∧ x.prnd = 0) := by
  intro x hx
  simp only [List.mem_cons, List.not_mem_nil, or_false] at hx
  rcases hx with rfl | rfl | rfl <;>
    exact ⟨by decide, by decide, by decide, vec_of _ _ _ _ (by decide +kernel), by decide⟩

/-! Memory: the block's own scratchpad of 64 KiB, its last bytes, and global memory. -/

/-- s1 at the scratchpad's first byte, s2 a stride of 8, s3 at its last 8 bytes. -/
noncomputable def dataState : State := regs [(1, pad), (2, 8), (3, pad + 65528), (4, 0x40000)] (modG (fun g => { g with vl := 3 }) (loaded .v))

theorem witness_stores : (([1, 2] : List Byte) ≠ [] ∧
     decodeAddr dataState (curEnv 0 1 dataState) (pad + 65534) 2 2 true = .ok (.spad 0 65534) ∧ (findBlock dataState 0).isSome = true ∧
     swf (0 : Byte) (getBlock dataState 0).spad = true ∧
     decodeAddr dataState (curEnv 0 1 dataState) 0x40000 2 2 true = .ok (.glob 0x40000) ∧ 0x40000 % 65536 + 2 ≤ 65536 ∧
     keptPa (curEnv 0 1 dataState) 0x40000 dataState = none) ∧
    (∃ t, storeAt (curEnv 0 1 dataState) (pad + 65534) 2 [1, 2] dataState = (t, .ok ())) ∧
    ∃ t pa ilv, translate (curEnv 0 1 dataState).side (curEnv 0 1 dataState).ctx 0x40000 .write (curEnv 0 1 dataState).sup dataState = (t, .ok pa ilv) ∧
      decide (isAperture t pa = false ∧ badRange t .phys pa 2 = false ∧ Memory.wf t.mem = true) = true := by
  refine ⟨by decide +kernel, ?_, translates_of _ _ (by decide +kernel)⟩
  have h : (match (storeAt (curEnv 0 1 dataState) (pad + 65534) 2 [1, 2] dataState).2 with
    | .ok _ => true
    | _ => false) = true := by decide +kernel
  split at h
  · rename_i e; exact ⟨_, by rw [← e]⟩
  · cases h

theorem witness_loads : decodeAddr dataState (curEnv 0 2 dataState) 0x40000 8 8 false = .ok (.glob 0x40000) ∧ 2 ≤ (curEnv 0 2 dataState).scope ∧
    dataState.stale = [] ∧ keptPa (curEnv 0 2 dataState) 0x40000 dataState = none ∧
    ∃ t pa ilv, translate (curEnv 0 2 dataState).side (curEnv 0 2 dataState).ctx 0x40000 .read (curEnv 0 2 dataState).sup dataState = (t, .ok pa ilv) ∧
      decide (isAperture t pa = false ∧ badRange t .phys pa 8 = false ∧ t.stale = [] ∧
        upToDate t (curWho dataState) .scalar 0 = true) = true :=
  ⟨by decide +kernel, by decide, by decide +kernel, by decide +kernel, translates_of _ _ (by decide +kernel)⟩

/-- Nothing has been written yet: a read of any class is ordered after all of it. -/
theorem data_ordered : ∀ c ∈ [0, 15], Ordered dataState c := by unfold Ordered; decide +kernel

theorem tag_local (s : State) (f : BitVec 6) (h : (rdS f s).toNat / 2 ^ 60 = 0xE) : tagLocal (rdS f s) := h

/-- The first and the last place of a load and of a store, short and long, and gcond. -/
theorem witness_scalar_accesses : Ready dataState ∧ (∀ c ∈ [0, 15], Ordered dataState c) ∧ tagLocal (rdS 1 dataState) ∧ tagLocal (rdS 3 dataState) ∧
    swf (0 : Byte) (curBlock dataState).spad = true ∧
    (∃ q, ScalarAccess (.sld false 9 1 15 0 0) q ∧ q.store = false ∧ Local dataState (scalarAddr q dataState) q.w q.w) ∧
    (∃ q, ScalarAccess (.sst false 9 3 0 3 0) q ∧ q.store = true ∧ Local dataState (scalarAddr q dataState) q.w q.w) ∧
    (∃ q, ScalarAccess (.memLongControlForm false { noCtl with a := 3, ra := 2, f := 3, s := 1, low := 0x7FFF8 }) q ∧ q.store = false ∧
      Local dataState (scalarAddr q dataState) q.w q.w) ∧
    (∃ q, ScalarAccess (.memLongOffsetForm false 9 1 0xC 0xC 65528 0) q ∧ q.store = true ∧ Local dataState (scalarAddr q dataState) q.w q.w) ∧
    (∃ q, ScalarAccess (.gcond false 3 9) q ∧ q.store = true ∧ Local dataState (scalarAddr q dataState) q.w q.w) :=
  ⟨ready_of _ (by decide +kernel), data_ordered, tag_local _ _ (by decide +kernel), tag_local _ _ (by decide +kernel), by decide +kernel,
   ⟨_, .sld .., rfl, local_of _ _ _ _ (by decide +kernel)⟩, ⟨_, .sst .., rfl, local_of _ _ _ _ (by decide +kernel)⟩,
   ⟨_, .loadCtl _ _ rfl (by decide) rfl rfl, rfl, local_of _ _ _ _ (by decide +kernel)⟩,
   ⟨_, .storeOff _ _ _ _ _ _ (by decide), rfl, local_of _ _ _ _ (by decide +kernel)⟩,
   ⟨_, .gcond .., rfl, local_of _ _ _ _ (by decide +kernel)⟩⟩

/-- Addresses at which each check of an access fails first: a sum that leaves its space, a must-be-zero bit, a store to a weight store,
an odd address, a place one byte past the end, a tenant that the cluster has not, a weight-store offset past the end. -/
theorem witness_address_checks :
    (let x : Int := (0xE000000000000000 : Int) - 1; 0 ≤ x ∧ x < 2 ^ 64 ∧ (BitVec.ofInt 64 x).toNat / 2 ^ 60 ≠ 0xE) ∧
    (0xE000000000100000 % 2 ^ 60 = 2 ^ 20) ∧ (0xC00000003FFFFFFF / 2 ^ 60 = 0xC ∧ 0xC00000003FFFFFFF % 2 ^ 60 < 2 ^ 30) ∧
    (pad + 1).toNat % 2 ≠ 0 ∧ ((pad + 65532).toNat % 2 ^ 60 + 8 > (curBlock dataState).spadSize ∧ (pad + 65532).toNat % 4 = 0) ∧
    tenantBlock dataState (curBlock dataState).place (curCtx dataState) 1 = none ∧ (0x2FFFFFFC : Nat) + 8 > 0x30000000 := by
  decide +kernel

theorem vec_mem_of (v : VArgs) (q : VecMem) (s : State) (h1 : readyB s = true) (h2 : ((curBlock s).preempt == false && s.past.isEmpty) = true)
    (h3 : (if q.kind = 1 then vecB v (.reg v.d v.wide :: q.uses) none s else vecB v q.uses (some v.wide) s) = true) : VecMemReady v q s := by
  simp only [Bool.and_eq_true, beq_iff_eq, List.isEmpty_iff] at h2
  refine ⟨runs_of s h1, (ready_of s h1).2.2, h2.1, fun _ _ _ => by simp [OrderedEl, upToDate, h2.2], ?_⟩
  split <;> rename_i hk <;> simp only [hk, if_true, if_false] at h3 <;> exact vec_of _ _ _ _ h3

def elB' (v : VArgs) (q : VecMem) (s : State) (i : Nat) : Bool :=
  (q.ix || decide ((scalarFor v s i v.a).toNat / 2 ^ 60 = 0xE)) && localB s (q.addr s i) q.w q.w

theorem el_of (v : VArgs) (q : VecMem) (s : State) (l : List Nat) (h : l.all (elB' v q s) = true) : ∀ k ∈ l, ElLocal v q s k := by
  intro k hk
  have := List.all_eq_true.1 h k hk
  simp only [elB', Bool.and_eq_true, Bool.or_eq_true, decide_eq_true_eq] at this
  exact ⟨this.1, local_of _ _ _ _ this.2⟩

/-- Loads, stores and a fault-only-first load whose elements all lie in the scratchpad; the strided one reaches its last word. -/
theorem witness_vector_accesses : (curGroup dataState).vl.toNat ≤ 1024 ∧ swf (0 : Byte) (curBlock dataState).spad = true ∧
    (∃ v q, VecAccess (.vld false 63 1 0 0 0) v q ∧ q.kind = 0 ∧ VecMemReady v q dataState ∧ ∀ k ∈ activeEls v dataState, ElLocal v q dataState k) ∧
    (∃ v q, VecAccess (.vsts false 63 1 2 0 0) v q ∧ q.kind = 1 ∧ VecMemReady v q dataState ∧ ∀ k ∈ activeEls v dataState, ElLocal v q dataState k) ∧
    (∃ v q, VecAccess (.vldff false 63 1 0 0 31) v q ∧ q.kind = 2 ∧ VecMemReady v q dataState ∧ ∀ k ∈ activeEls v dataState, ElLocal v q dataState k) ∧
    (∃ v q, VecAccess (.memLongOffsetForm false 63 1 0xD 15 65524 0) v q ∧ q.kind = 0 ∧ VecMemReady v q dataState ∧
      ∀ k ∈ activeEls v dataState, ElLocal v q dataState k) :=
  ⟨by decide +kernel, by decide +kernel,
   ⟨_, _, .vld _ _ _ _ _ _ _ rfl, rfl, vec_mem_of _ _ _ (by decide +kernel) (by decide +kernel) (by decide +kernel), el_of _ _ _ _ (by decide +kernel)⟩,
   ⟨_, _, .vsts _ _ _ _ _ _ _ rfl, rfl, vec_mem_of _ _ _ (by decide +kernel) (by decide +kernel) (by decide +kernel), el_of _ _ _ _ (by decide +kernel)⟩,
   ⟨_, _, .vldff _ _ _ _ _ _ _ rfl, rfl, vec_mem_of _ _ _ (by decide +kernel) (by decide +kernel) (by decide +kernel), el_of _ _ _ _ (by decide +kernel)⟩,
   ⟨_, _, .vldOff _ _ _ _ _ _ _ rfl, rfl, vec_mem_of _ _ _ (by decide +kernel) (by decide +kernel) (by decide +kernel), el_of _ _ _ _ (by decide +kernel)⟩⟩

/-- A list of loaded elements without a repeat. -/
theorem witness_loaded_elements : Runs dataState ∧ Alone dataState ∧ swf (0 : Half) (curGroup dataState).v = true ∧
    (([(0, 7), (31, 9)] : Vals).map (·.1)).Nodup ∧ ∀ x ∈ ([(0, 7), (31, 9)] : Vals), x.1 < 1024 :=
  have h := ready_of dataState (by decide +kernel)
  ⟨h.1, h.2.1, by decide +kernel, by decide, by decide⟩

/-- An indexed access whose element 2 is odd, and one whose first is. -/
noncomputable def oddState (k : Nat) : State :=
  modG (fun g => { g with v := ssetN 0 (6 * 1024) [0, 4, 8] g.v |> sset 0 (6 * 1024 + k) 5 }) dataState

theorem witness_precise :
    (∃ v q, VecAccess (.vldx false 63 1 6 0 0) v q ∧ VecMemReady v q (oddState 2) ∧ 2 ∈ activeEls v (oddState 2) ∧
      (∀ k ∈ (activeEls v (oddState 2)).filter fun k => decide (k < 2), ElLocal v q (oddState 2) k) ∧ ElAskew v q (oddState 2) 2) ∧
    (∃ v q, VecAccess (.vstx false 63 1 6 0 0) v q ∧ VecMemReady v q (oddState 0) ∧ 0 ∈ activeEls v (oddState 0) ∧
      (activeEls v (oddState 0)).filter (fun k => decide (k < 0)) = [] ∧ ElAskew v q (oddState 0) 0) := by
  refine ⟨⟨_, _, .vldx _ _ _ _ _ _ _ rfl, vec_mem_of _ _ _ (by decide +kernel) (by decide +kernel) (by decide +kernel), by decide +kernel,
    el_of _ _ _ _ (by decide +kernel), ?_⟩, ⟨_, _, .vstx _ _ _ _ _ _ _ rfl, vec_mem_of _ _ _ (by decide +kernel) (by decide +kernel) (by decide +kernel),
    by decide +kernel, by decide +kernel, ?_⟩⟩
  · exact ⟨.inl rfl, by decide +kernel, by decide +kernel, by decide +kernel⟩
  · exact ⟨.inl rfl, by decide +kernel, by decide +kernel, by decide +kernel⟩

/-- A fault-only-first load from an odd base: its first element fails; with an earlier first element completed it only shortens vl. -/
theorem witness_first_fault :
    let s := regs [(1, pad + 2)] dataState
    (∃ v q, VecAccess (.vldff false 63 1 0 0 0) v q ∧ q.kind = 2 ∧ VecMemReady v q s ∧ (0 : Nat) ∈ activeEls v s ∧ ElAskew v q s 0 ∧
      (curGroup s).ffGo = false) ∧ (curGroup (modG (fun g => { g with ffGo := true }) s)).ffGo = true := by
  intro s
  refine ⟨⟨_, _, .vldff _ _ _ _ _ _ _ rfl, rfl, vec_mem_of _ _ _ (by decide +kernel) (by decide +kernel) (by decide +kernel), by decide +kernel,
    ⟨.inr (tag_local _ _ (by decide +kernel)), by decide +kernel, by decide +kernel, by decide +kernel⟩, by decide +kernel⟩, by decide +kernel⟩

theorem local_all (s : State) (P : Nat → Bool) (a : Nat → Int) (n al : Nat)
    (h : ((List.range 32).all fun b => !P b || localB s (a b) n al) = true) : ∀ b, b < 32 → P b = true → Local s (a b) n al := by
  intro b hb hp
  have := List.all_eq_true.1 h b (List.mem_range.2 hb)
  simp only [hp, Bool.not_true, Bool.false_or] at this
  exact local_of _ _ _ _ this

/-- Segments: a bit-plane load with 2 planes and with 8, a load and a store of a scaled format and an unscaled one. -/
theorem witness_segments : Ready dataState ∧ (∀ c ∈ [0, 15], Ordered dataState c) ∧ (curBlock dataState).preempt = false ∧ swf (0 : Half) (curGroup dataState).v = true ∧
    (∃ v q, SegAccess (.vldbp false 63 1 0 0 0 1 6) v q ∧ q.store = false ∧ VecReady v [] (some false) dataState ∧
      ∀ b, b < 32 → segTakes v dataState b = true → Local dataState (segAddr v q dataState b) (segSize q.f) 4) ∧
    (∃ v q, SegAccess (.vlseg false 63 1 7 0 0 0) v q ∧ q.store = false ∧ VecReady v [] (some false) dataState ∧
      ∀ b, b < 32 → segTakes v dataState b = true → Local dataState (segAddr v q dataState b) (segSize q.f) 4) ∧
    (∃ v q, SegAccess (.vsseg false 63 1 0 7 0 0) v q ∧ q.store = true ∧ VecReady v [.reg v.d false] none dataState ∧
      ∀ b, b < 32 → segTakes v dataState b = true → Local dataState (segAddr v q dataState b) (segSize q.f) 4) :=
  ⟨ready_of _ (by decide +kernel), data_ordered, by decide +kernel, by decide +kernel,
   ⟨_, _, .vldbp _ _ _ _ _ _ _ _ (by decide), rfl, vec_of _ _ _ _ (by decide +kernel), local_all _ _ _ _ _ (by decide +kernel)⟩,
   ⟨_, _, .vlseg _ _ _ _ _ _ _ (by decide), rfl, vec_of _ _ _ _ (by decide +kernel), local_all _ _ _ _ _ (by decide +kernel)⟩,
   ⟨_, _, .vsseg _ _ _ _ _ _ _ (by decide), rfl, vec_of _ _ _ _ (by decide +kernel), local_all _ _ _ _ _ (by decide +kernel)⟩⟩

/-- Links: 31 held before a scalar linked load; a link on the line and none; a vector pair with room for its links. -/
noncomputable def linked : State := { dataState with links := [{ owner := .path (curWho dataState), line := .spad 0 0 }] }

theorem witness_links : Ready linked ∧ Ordered linked 0 ∧ (curBlock linked).preempt = false ∧ Local linked ((rdS 1 linked).toNat : Int) 4 4 ∧ Local linked ((rdS 3 linked).toNat : Int) 8 8 ∧
    linkOf linked (.path (curWho linked)) = some (.spad (curBlock linked).uid ((((rdS 1 linked).toNat : Int) % 2 ^ 60).toNat / 64)) ∧
    linkOf dataState (.path (curWho dataState)) ≠ some (.spad 0 0) ∧ linked.links.length < 32 ∧
    (∃ v ps c, LinkAccess (.vldgl false 63 1 6 0 0) false v ps c ∧ VecReady v [.reg v.b false] (some v.wide) linked ∧
      (∀ k ∈ activeEls v linked, Local linked (indexed v false linked k) (bytesOfW v) (bytesOfW v)) ∧
      linked.links.length + (activeEls v linked).length ≤ 32) ∧
    (∃ v ps c, LinkAccess (.vstsc false 63 1 6 0 0) true v ps c ∧ VecReady v [.reg v.d v.wide, .reg v.b false] none linked) :=
  ⟨ready_of _ (by decide +kernel), by unfold Ordered; decide +kernel, by decide +kernel, local_of _ _ _ _ (by decide +kernel),
   local_of _ _ _ _ (by decide +kernel), by decide +kernel, by decide +kernel,
   by decide +kernel, ⟨_, _, _, .vldgl .., vec_of _ _ _ _ (by decide +kernel),
     fun k hk => local_of _ _ _ _ (List.all_eq_true.1 (by decide +kernel :
       ((activeEls (memOps false 0x5A 63 1 6 0) linked).all fun k =>
         localB linked (indexed (memOps false 0x5A 63 1 6 0) false linked k) 4 4) = true) k hk), by decide +kernel⟩,
   ⟨_, _, _, .vstsc .., vec_of _ _ _ _ (by decide +kernel)⟩⟩

/-! Synchronisation. -/

/-- A launch with two slots in each ring, whose block stands alone; and the first two blocks of a co-resident set. -/
noncomputable def ringed : State := modLaunch 1 (fun l => { l with packet := vset l.packet 2 (vget l.packet 2 + 2 ^ 36) }) dataState

noncomputable def setOfTwo : State :=
  let s := modLaunch 1 (fun l => { l with packet := vset (vset l.packet 2 (vget l.packet 2 + 2 ^ 46 + 2 ^ 4)) 1 2, placed := 2 }) dataState
  modB (fun b => { b with blockid := 1 })
    { s with blocks := s.blocks ++ [{ (getBlock s 0) with uid := 1, blockid := 0, tenant := 1, place := { (getBlock s 0).place with site := 1 } }] }

/-- The holder of a set's barriers held pre-empted, in spill slot 0. -/
noncomputable def heldHolder : State := modBlock 0 (fun b => { b with res := .held, frame := some 0 }) setOfTwo

theorem witness_barriers : Ready dataState ∧ ((5 : BitVec 3).toNat < 6 ∧ 6 ≤ (6 : BitVec 3).toNat) ∧
    barHolder 47 dataState = some 0 ∧ barHolder 48 dataState = none ∧ (barHolder 63 setOfTwo).isSome = true ∧
    (let x : Barrier := { expect := 2, count := 65534, gen := 7 }
     x.count.toNat + 1 ≤ 65535 ∧ 65535 < x.count.toNat + 2 ∧ x.gen.toNat = 7 % 2 ^ 32 ∧ x.gen.toNat ≠ 8 % 2 ^ 32) ∧ 65535 < 65536 ∧
    BarReachable 0 47 dataState ∧ (getBlock heldHolder 0).res = .held ∧ BarReachable 0 63 heldHolder := by
  refine ⟨ready_of _ (by decide +kernel), by decide, by decide +kernel, by decide +kernel, by decide +kernel, by decide, by decide, ?_,
    by decide +kernel, fun _ => ?_⟩
  · exact fun h => absurd h (by decide +kernel)
  · have h : (match walk heldHolder (blockCtx heldHolder (getBlock heldHolder 0)) (barAt 0 63 heldHolder) .write true with
      | .ok _ => true
      | _ => false) = true := by decide +kernel
    split at h
    · rename_i l e; exact ⟨l, e⟩
    · cases h

theorem witness_waits : Ready ringed ∧ (curSlots dataState = 0 ∧ curSlots ringed = 2 ∧ iterAt dataState 0 1 = none ∧
     (iterAt setOfTwo 0 1).isSome = true ∧ (launchOf dataState (curBlock dataState)).isSome = true) ∧
    Local dataState ((rdS 3 dataState).toNat : Int) 8 8 ∧ Ordered dataState 15 :=
  ⟨ready_of _ (by decide +kernel), by decide +kernel, local_of _ _ _ _ (by decide +kernel), data_ordered 15 (by decide)⟩

/-! The matrix family: an M-role group of a whole EC with all four bands on, a grant of 16 x 16 x 16 in BF16, a record of 16 rows of 16
elements at the start of the operand buffer under handle 3, and planes that fit. -/

noncomputable def matState : State :=
  let s := regs [(1, pad), (2, 16 + 16 * 2 ^ 16 + 16 * 2 ^ 32), (5, 256), (6, 257), (7, 16 + 16 * 2 ^ 16), (8, 15), (9, 2 ^ 63 + 2 * 2 ^ 56 + 16), (10, 1),
    (11, 32 + 16 * 2 ^ 32), (12, 16), (13, 3 + 16 * 2 ^ 16 + 16 * 2 ^ 48)] (loaded .m)
  let p : Plane := { valid := true, k := 16, n := 16, fmt := 2, pln := 0, rnd := false, id := 7, w := [], sc := [] }
  modB (fun b => { b with
    gm := 16, gn := 16, gk := 16, tfmt := 2, recs := vset b.recs 3 (BitVec.ofNat 128 (2 ^ 63 + 2 * 2 ^ 56 + 16 + 2 ^ 64)),
    planes := Vector.replicate 2 p, rbnd := 8 }) s

theorem mat_of (o : MOp) (s : State) (h : readyB s = true) (hr : (curGroup s).role = .m) : MatReady o s := ⟨ready_of s h, .inr hr⟩

/-- Nothing stands in the matrix queue, no error stands in the block, nothing has been written, no unit is kept. -/
theorem witness_matrix_ready : MatqIdle matState ∧ Unhurt matState ∧ (∀ c ∈ [0, 15], Ordered matState c) ∧ (curGroup matState).kept = [] ∧
    (let o : MatOp := { id := 1, pl := corePlace (curBlock matState).place, uid := 0, gidx := 0, cls := 0, scope := 1, addr := 0, writes := [] }
     ¬ MatqIdle { matState with matq := [o] }) := by
  refine ⟨fun o h => ?_, fun x h => ?_, by unfold Ordered; decide +kernel, by decide +kernel, fun h => h _ (List.mem_singleton.2 rfl) (by decide +kernel)⟩
  · rw [(by decide +kernel : matState.matq = [])] at h; cases h
  · rw [(by decide +kernel : matState.bad = [])] at h; cases h

theorem witness_matrix_forms : (∃ h m, MatInstr (.tset false 21 20 0 0 2) h m (.tset 21 20 0 0 2)) ∧
    (∃ h m, MatInstr (.matrixLongForm true 9 0x407000 15 5 9) h m (.maccLd 0 7)) ∧
    (∃ h m, MatInstr (.matrixLongForm true 6 0 0 0 9) h m (.mma 0 0 0 0 0 0)) ∧ MatReady (.tget 1) (loaded .v) ∧ MatReady .mswap matState :=
  ⟨⟨_, _, .short _ _ _ _ (.tset ..)⟩,
   ⟨_, _, .long (.maccLd true 0 7) true 0x69 _ 9 0x407000 15 5 9 (.maccLd ..) (by decide) (by decide) (.inl rfl)⟩,
   ⟨_, _, .long (.mma true 0 0 0 0 0 0) true 0x66 _ 6 0 0 0 9 (.mma ..) (by decide) (by decide) (.inr ⟨rfl, rfl⟩)⟩,
   ⟨ready_of _ (by decide +kernel), .inl ⟨1, rfl⟩⟩, mat_of _ _ (by decide +kernel) (by decide +kernel)⟩

/-- Requests and formats that are granted and that are not; bands of a whole core and of a half. -/
theorem witness_grants : (Rules.tfmtOk 0 0 2 ∧ Rules.tfmtOk 0 0 0x15 ∧ Rules.tfmtOk 1 2 0x16 ∧ Rules.tfmtOk 0 8 0x17 ∧ ¬ Rules.tfmtOk 0 0 7 ∧ ¬ Rules.tfmtOk 0 9 0x17 ∧ ¬ Rules.tfmtOk 1 0 2) ∧
    ((rdS 2 matState).toNat / 2 ^ 48 = 0 ∧ maxRows (curBlock matState).place ≠ 0 ∧ maxCols (curBlock matState).place (curBlock matState).faulty ≠ 0 ∧
      maxK (curBlock matState).place (curBlock matState).ben ≠ 0) ∧ (rdS 13 matState).toNat / 2 ^ 48 ≠ 0 ∧
    ((15 : BitVec 4) ≠ 0 ∧ ∀ k : Fin 4, (15 : BitVec 4).getLsbD k = true → (availOf (curBlock matState).place).getLsbD k = true) ∧
    (availOf { die := 0, cl := 4, site := 0, part := 1 }).getLsbD 2 = false := by
  refine ⟨?_, by decide +kernel⟩
  unfold Rules.tfmtOk; decide

/-- A legal record for a free handle, one for a handle in use, one that is too long; a fill of the last row; scales of no record. -/
theorem witness_reservations :
    (let b := curBlock matState
     let r (n : Nat) : BitVec 128 := BitVec.ofNat 128 (2 ^ 63 + 2 * 2 ^ 56 + n + 2 ^ 64)
     ((vget b.recs 0).getLsbD 63 = false ∧ recLegal b.obSize (r 256) = true) ∧ recLegal b.obSize (r 257) = false ∧ (vget b.recs 3).getLsbD 63 = true ∧
     ((rdS 11 matState).toNat / 2 ^ 48 = 0 ∧ (rdS 12 matState).toNat / 2 ^ 32 = 0 ∧ (rdS 12 matState).toNat % 2 ^ 16 ≠ 0 ∧
       (∀ k < 16, rowPresent (vget b.recs 3) 16 k = true) ∧ rowPresent (vget b.recs 3) 16 16 = false)) ∧
    tagLocal (rdS 1 matState) ∧ (∀ k < 32, Local matState (((rdS 1 matState).toNat : Int) + (k * 32 : Nat)) 32 2) ∧
    (let t : BitVec 128 := BitVec.ofNat 128 (2 ^ 63 + 0x10 * 2 ^ 56 + 32 * 2 ^ 44 + 9 + 2 ^ 64 * (1 + 8 * 2 ^ 32))
     t.getLsbD 63 = true ∧ vbits t 44 8 ≠ 0 ∧ scaleBytes t = 16 ∧ recLegal 16384 t = true) ∧ swf (0 : Byte) (curBlock matState).ob = true := by
  refine ⟨by decide +kernel, tag_local _ _ (by decide +kernel), fun k hk => local_all matState (fun _ => true)
    (fun k => ((rdS 1 matState).toNat : Int) + (k * 32 : Nat)) 32 2 (by decide +kernel) k hk rfl, by decide +kernel, by decide +kernel⟩

/-- Planes: a grant and a record that fit, one row too many, no grant; row bounds of 256 and 257; tags of 16 rows, of none and of 257. -/
theorem witness_planes :
    (let b := curBlock matState
     grantTrap b false = none ∧ recordServes b (vget b.recs 3) ((List.range b.gn.toNat).map (0 + ·)) b.gk.toNat = true ∧
     recordServes b (vget b.recs 3) ((List.range b.gn.toNat).map (1 + ·)) b.gk.toNat = false ∧
     grantTrap { b with gk := 0 } false = some 0 ∧ (rdS 5 matState).toNat ≤ 256 ∧ 256 < (rdS 6 matState).toNat ∧
     (rdS 12 matState).toNat ≠ 0 ∧ (rdS 12 matState).toNat ≤ 256 ∧ (curGroup matState).vstart = 0) ∧
    (∀ k < 32, Local matState (((rdS 1 matState).toNat : Int) + (2 * k : Nat)) 2 2) ∧
    (let b := { curBlock matState with tagOn := true, tags := [(0, 7), (1, 8)] }
     (sget 0xFFFF b.tags 0 ≠ 0xFFFF ∧ sget 0xFFFF b.tags 0 = (vget b.planes 0).id) ∧ sget 0xFFFF b.tags 2 = 0xFFFF ∧
     (sget 0xFFFF b.tags 1 ≠ (vget b.planes 0).id ∧ sget 0xFFFF b.tags 1 ≠ (vget b.planes 1).id) ∧
     sget 0xFFFF { b with planes := vset b.planes 1 { vget b.planes 1 with id := 8 } }.tags 1 = 8) := by
  refine ⟨by decide +kernel, fun k hk => local_all matState (fun _ => true)
    (fun k => ((rdS 1 matState).toNat : Int) + (2 * k : Nat)) 2 2 (by decide +kernel) k hk rfl, by decide +kernel⟩

/-- A multiply that runs, and one failing each check in turn. -/
theorem witness_multiply :
    let b := curBlock matState
    let m := captured { e := false, major := 0x66 } 0 3 0 0 1 0 matState
    mmaTrap b m = none ∧ b.preempt = false ∧ (∀ t : Fin 4, swf (0 : Half) (vget b.tiles t) = true) ∧ b.gn.toNat ≤ 64 ∧ b.gm.toNat ≤ 256 ∧
    mmaTrap { b with gm := 0 } m = some (0x0A, 0) ∧ mmaTrap { b with gm := 272 } m = some (0x0A, 272) ∧
    mmaTrap { b with gn := 72 } m = some (0x0A, 72) ∧ mmaTrap b { m with handle := 4 } = some (0x0B, 4) ∧
    mmaTrap { b with planes := Vector.replicate 2 { vget b.planes 0 with valid := false } } m = some (0x0A, 0) ∧
    (mmaHurt { matState with bad := [.obuf b.uid 0] } b m).isSome = true := by
  decide +kernel

/-- Gangs of two: group 0, in a block with another M-role group that has arrived, not arrived, or arrived with the same tile of a pair. -/
noncomputable def gangState (arrived : List LatchMember) (pair : Bool) : State :=
  modG (fun g => { g with gang := if pair then 0x10003 else 3 }) (modB (fun b => { b with
    groups := b.groups ++ [{ blankGroup with gidx := 1, role := .m, slot := 1, nrc := 3, vl := 32, paths := [blankPath 1 0x10000] }],
    latch := [{ seq := 0, pair := pair, members := 3, tmo := 0, elapsed := 0, arrived := arrived }] }) matState)

noncomputable def other (tile : Nat) : LatchMember :=
  { captured { e := false, major := 0x67 } 0 3 0 0 1 0 matState with gidx := 1, tile := tile }

theorem witness_gangs :
    gangValid (curBlock (gangState [] false)) 0 3 = true ∧ gangValid (curBlock (gangState [] false)) 0 1 = false ∧
    (curBlock (gangState [] false)).res = .resident ∧ (curBlock (gangState [] false)).preempt = false ∧
    (gangState [other 1] true).bad = [] ∧ gangValid (curBlock matState) 0 0 = true ∧ (curGroup matState).gang = 0 ∧
    (let x := captured { e := false, major := 0x67 } 0 3 0 0 1 0 (gangState [] false)
     mmaTrap (curBlock (gangState [] false)) x = none ∧ popcount (3 : BitVec 16) = 2 ∧ 0 + 1 < popcount (3 : BitVec 16)) ∧
    (mmaTrap (curBlock (gangState [other 1] true)) (other 1) = none ∧ [other 1].length + 1 = popcount (3 : BitVec 16) ∧
      (([other 1] : List LatchMember).any fun y => y.gidx == 0) = false ∧ (other 1).tile ≠ 0 ∧ (other 0).tile = 0) := by
  decide +kernel

/-- Rows of a tile and of a vector register: a V-role group of the block as target, no such group, a register and a row past the end. -/
theorem witness_tiles :
    let s := modB (fun b => { b with groups := b.groups ++ [{ blankGroup with gidx := 1, role := .v, slot := 1, nrc := 2 }] }) matState
    ((findGroup (curBlock s) 1).filter fun g => g.role == .v && !g.retired).isSome = true ∧
    (findGroup (curBlock s) 0).filter (fun g => g.role == .v && !g.retired) = none ∧ (31 < nrOf 2 ∧ nrOf 2 ≤ 32) ∧
    (curBlock s).gn ≠ 0 ∧ (rdS 8 s).toNat < maxRows (curBlock s).place ∧ maxRows (curBlock s).place ≤ (rdS 12 s).toNat ∧
    (curBlock (loaded .m)).gn = 0 ∧ (∀ t : Fin 4, swf (0 : Half) (vget (curBlock s).tiles t) = true) := by
  decide +kernel

/-- An accumulator image of 16 x 16 at the start of the scratchpad, one with another version, and a base that is odd. -/
noncomputable def imageState (ver : Nat) : State :=
  modB (fun b => { b with spad := ssetN 0 0 (toBytes 4 0x4343414B ++ toBytes 2 ver ++ toBytes 2 16 ++ toBytes 2 16 ++ toBytes 6 0) [] }) matState

theorem witness_images : (let b := curBlock matState
      let x := (rdS 7 matState).toNat
      x / 2 ^ 32 = 0 ∧ x % 65536 = 16 ∧ 16 ≤ maxRows b.place ∧ 16 ≤ maxCols b.place b.faulty ∧ (rdS 2 matState).toNat / 2 ^ 32 ≠ 0 ∧ tfmtCode b.tfmt < 256) ∧
    Local matState ((rdS 1 matState).toNat : Int) (imageSize 16 16) 64 ∧ Local (imageState 1) ((rdS 1 (imageState 1)).toNat : Int) 64 64 ∧
    headFits (curBlock (imageState 1)) (localBytes (imageState 1) ((rdS 1 (imageState 1)).toNat : Int) 64) = true ∧
    headFits (curBlock (imageState 2)) (localBytes (imageState 2) ((rdS 1 (imageState 2)).toNat : Int) 64) = false ∧
    (rdS 10 matState).toNat % 64 ≠ 0 ∧ swf (0 : Half) (vget (curBlock (imageState 1)).tiles 3) = true :=
  ⟨by decide +kernel, local_of _ _ _ _ (by decide +kernel), local_of _ _ _ _ (by decide +kernel), by decide +kernel, by decide +kernel, by decide +kernel,
   by decide +kernel⟩

/-- Counters that are free, in use by the context, and in use by another; a list of 16 entries; counts and addresses that trap. -/
theorem witness_routing :
    (let mine (s : State) (r : RouteSet) : Bool := r.die == (curBlock s).place.die && r.cl == (curBlock s).place.cl
     let s (c : Nat) : State := { matState with routing := [{ die := 0, cl := 4, ctx := c, counts := [] }] }
     matState.routing.find? (mine matState) = none ∧ ((s 0x1000).routing.find? (mine (s 0x1000))).map (·.ctx) = some (curCtx (s 0x1000)) ∧
     ((s 1).routing.find? (mine (s 1))).map (·.ctx) ≠ some (curCtx (s 1)) ∧ (rdS 12 matState).toNat ≤ 4096 ∧ 4096 < (rdS 2 matState).toNat) ∧
    (badTag (rdS 5 matState) = false ∧ (rdS 6 matState).toNat % 2 = 1 ∧ badTag (rdS 9 matState) = true ∧ tagOf (0xC000000000000000 : Word) = 0xC ∧
     badTag 0xC000000000000000 = false ∧ tagOf (rdS 5 matState) = 0 ∧ (rdS 5 matState).toNat % 1024 ≠ 0 ∧ (curGroup matState).vstart = 0) ∧
    Local matState ((rdS 1 matState).toNat : Int) 1024 1024 := by
  exact ⟨by decide +kernel, by decide +kernel, local_of _ _ _ _ (by decide +kernel)⟩

/-- The group in supervisor mode, with s1. -/
noncomputable def privileged (r : Role) (x : Word) : State :=
  regs [(1, x)] (modG (fun g => { g with sup := true, svPaths := 1 }) (loaded r))

theorem user_of (s : State) (h : (curGroup s).sup = false) : User s := h
theorem sup_of (s : State) (h : (curGroup s).sup = true) : Supervisor s := h

/-! Copies: a C-role group with a descriptor of 16 binary32 elements at offset 0x400 of the scratchpad. -/

def goodDesc : List Nat := [2 ^ 60 + 2 ^ 56 + 2 ^ 51 + 2 ^ 46, 0xE000000000000000, 0xE000000000001000, 0, 0, 0, 0, 0, 16 * 2 ^ 32, 4, 4, 16]

noncomputable def copyState (desc : List Nat) : State :=
  regs [(1, pad + 0x400), (2, pad + 0x404)] (modB (fun b => { b with spad := ssetN 0 0x400 (desc.flatMap (toBytes 8)) [] }) (loaded .c))

/-- One copy of the block on its queue 7. -/
noncomputable def aCopy : Copy :=
  { id := 5, seed := 5, q := .core { die := 0, cl := 4, site := 0, part := 0 } 7, uid := 0, gidx := 0, ctx := 0x1000, sup := false, cls := 0, scope := 1,
    post := none, desc := descOf goodDesc blankBlock 0, next := 0, run := .queued, node := none, wsload := false, held := false, late := [], staged := [], hold := none,
    lost := [], pages := [] }

theorem witness_copies :
    (∃ h q post cls scope, CopyInstr (.cpy false 7 0 1 0 0 15) h q post 1 cls scope ∧ (post (copyState goodDesc)).isSome = false) ∧
    (∃ h q post cls scope, CopyInstr (.cpyLong false 7 1 1 7 7 15 5 63 0) h q post 1 cls scope ∧ (post (copyState goodDesc)).isSome = true ∧
      curSlots (copyState goodDesc) = 0) ∧
    Ready (copyState goodDesc) ∧ InRole .c (copyState goodDesc) ∧
    Ordered (copyState goodDesc) 15 ∧ descWords (copyState goodDesc) ((rdS 1 (copyState goodDesc)).toNat : Int) = goodDesc ∧
    Local (copyState goodDesc) ((rdS 1 (copyState goodDesc)).toNat : Int) (8 * 12) 64 ∧
    descFault goodDesc (curBlock (copyState goodDesc)) false = none ∧ (rdS 2 (copyState goodDesc)).toNat % 64 ≠ 0 ∧
    (let s := { copyState goodDesc with copies := List.replicate 32 aCopy }
     32 ≤ (s.copies.filter fun c => c.q == myQueue 7 s && !c.held).length) ∧
    (let s := { copyState goodDesc with qerrs := [{ q := myQueue 7 (copyState goodDesc), cause := 4, addr := 1, kind := 8, uid := 0 }] }
     (s.qerrs.find? (fun r => r.q == myQueue 7 s)).isSome = true) :=
  ⟨⟨_, _, _, _, _, .cpy _ _ _ _ _ _ _ (by decide), rfl⟩, ⟨_, _, _, _, _, .cpyLong _ _ _ _ _ _ _ _ _ _ (by decide) (by decide), rfl, by decide +kernel⟩,
   ready_of _ (by decide +kernel), (by decide +kernel : (curGroup (copyState goodDesc)).role = .c), by unfold Ordered; decide +kernel,
   by decide +kernel,
   local_of _ _ _ _ (by decide +kernel), by decide +kernel⟩

/-- A unit in bounds, and units past the EXTENT of copies that pad the source and that keep the destination. -/
noncomputable def padded (bnd : Bool) : Copy :=
  { aCopy with desc := { aCopy.desc with bnd := bnd, dims := aCopy.desc.dims.map fun x => { x with start := 14 } } }

def localUnitB (s : State) (c : Copy) (t : Nat) (X Y : Int) (out : Bool) : Bool :=
  let d := c.desc
  let n := elBytes d.sfmt
  let rel := unitRel d t
  let sp := getBlock s c.uid
  let idx (k : Nat) : Int := (((d.dims.map (·.start)).getD k 0 + rel.getD k 0 : Nat) : Int)
  let ok (a : Int) : Bool := decide (0xE * 2 ^ 60 ≤ a ∧ a < 0xF * 2 ^ 60 ∧ a % 2 ^ 60 + n ≤ sp.spadSize ∧ a % 2 ^ 60 + n ≤ 2 ^ 20 ∧
    a % (n : Int) = 0 ∧ badRange s (.spad sp.uid) (a % 2 ^ 60).toNat n = false)
  decide (isBlockFmt d.sfmt = false ∧ d.dfmt = d.sfmt ∧ d.dob = false) &&
  decide ((findBlock s c.uid).isSome = true ∧ sp.transit = false ∧ swf (0 : Byte) sp.spad = true) &&
  decide (rel.length = d.dims.length) && decide (d.src.toNat / 2 ^ 60 = 0xE) && decide (d.dst.toNat / 2 ^ 60 = 0xE) &&
  decide (X = (d.src.toNat : Int) + ((List.range d.dims.length).map fun k =>
    (if d.bnd then (rel.getD k 0 : Int) else idx k) * (d.dims.map (·.sstr)).getD k 0).sum) &&
  decide (Y = (d.dst.toNat : Int) + ((List.range d.dims.length).map fun k =>
    (if d.bnd then idx k else (rel.getD k 0 : Int)) * (d.dims.map (·.dstr)).getD k 0).sum) &&
  ok Y && decide (out = (List.range d.dims.length).any fun k => decide (((d.dims.map (·.extent)).getD k 0 : Int) ≤ idx k)) && (out || ok X)

theorem local_unit_of (s : State) (c : Copy) (t : Nat) (X Y : Int) (out : Bool) (h : localUnitB s c t X Y out = true) :
    LocalUnit s c t X Y out := by
  simp only [localUnitB, Bool.and_eq_true, decide_eq_true_eq, Bool.or_eq_true] at h
  obtain ⟨⟨⟨⟨⟨⟨⟨⟨⟨h1, h2⟩, h3⟩, h4⟩, h5⟩, h6⟩, h7⟩, h8⟩, h9⟩, h10⟩ := h
  exact ⟨h1, h2, h3, h4, h5, h6, h7, h8, h9, fun e => by simpa [e] using h10⟩

theorem witness_units : LocalUnit (copyState goodDesc) aCopy 15 (pad.toNat + 60 : Nat) (pad.toNat + 0x1000 + 60 : Nat) false ∧
    LocalUnit (copyState goodDesc) (padded false) 2 (pad.toNat + 64 : Nat) (pad.toNat + 0x1000 + 8 : Nat) true ∧
    LocalUnit (copyState goodDesc) (padded true) 2 (pad.toNat + 8 : Nat) (pad.toNat + 0x1000 + 64 : Nat) true ∧
    (padded false).desc.bnd = false ∧ (padded true).desc.bnd = true ∧ (∃ pl q, aCopy.q = .core pl q) ∧
    (0 : Nat) < bits (goodDesc.getD 0 0) 56 4 :=
  ⟨local_unit_of _ _ _ _ _ _ (by decide +kernel), local_unit_of _ _ _ _ _ _ (by decide +kernel), local_unit_of _ _ _ _ _ _ (by decide +kernel),
   by decide +kernel, by decide +kernel, ⟨_, _, rfl⟩, by decide +kernel⟩

/-- A queue with a copy whose last unit is next, and with one that has performed, for an instruction and for a node. -/
noncomputable def onQueue7 (c : Copy) : State := { copyState goodDesc with copies := [c] }
noncomputable def oneLeft (c : Copy) : Copy := { c with next := 15, seed := 5 }

/-- The unit that the device moves last. -/
noncomputable def lastUnit (c : Copy) : Nat := ((sortByRank (Config.elementRank c.seed) (List.range (unitCount c.desc)))[15]?).getD 0

/-- A write that stands in the matrix queue, to the block's scratchpad and to DRAM. -/
def queuedWrite : MatOp :=
  { id := 1, pl := { die := 0, cl := 4, site := 0, part := 0 }, uid := 0, gidx := 0, cls := 0, scope := 1, addr := 0,
    writes := [(.spad 0 64, [1]), (.phys 0x40000, [2])] }

theorem witness_queues :
    let q := aCopy.q
    onQueue (copyState goodDesc) q = [] ∧ onQueue (onQueue7 aCopy) q = [aCopy] ∧
    ((onQueue7 aCopy).copies.filter fun x => x.id == aCopy.id) = [aCopy] ∧
    behindDrain (onQueue7 aCopy) aCopy = false ∧ aCopy.lost = [] ∧ aCopy.late = [] ∧
    unitCount aCopy.desc ≤ ({ aCopy with next := 16 } : Copy).next ∧
    (let t : State := { copyState goodDesc with matq := [queuedWrite] }
     (copyState goodDesc).matq.find? (fun o => o.pl == ({ die := 0, cl := 4, site := 0, part := 0 } : Place)) = none ∧
     (t.matq.find? fun o => o.pl == ({ die := 0, cl := 4, site := 0, part := 0 } : Place)) = some queuedWrite) := by
  decide +kernel

/-- A copy of one element: its unit is the last one, whatever the device's order is. -/
noncomputable def small (start : Nat) (bnd : Bool) : Copy :=
  { aCopy with desc := { aCopy.desc with bnd := bnd, dims := aCopy.desc.dims.map fun x => { x with start := start, box := 1 } } }

theorem witness_last_units : ∀ c ∈ [small 0 false, small 16 false, small 16 true],
    onQueue (onQueue7 c) c.q = [c] ∧ ((onQueue7 c).copies.filter fun x => x.id == c.id) = [c] ∧ c.run = .queued ∧ c.wsload = false ∧ c.lost = [] ∧
    c.late = [] ∧ c.staged = [] ∧ unitCount c.desc = c.next + 1 ∧
    (sortByRank (Config.elementRank c.seed) (List.range (unitCount c.desc)))[c.next]? = some 0 := by
  intro c hc
  simp only [List.mem_cons, List.not_mem_nil, or_false] at hc
  rcases hc with rfl | rfl | rfl <;> decide +kernel

theorem witness_last_unit_places :
    LocalUnit (onQueue7 (small 0 false)) (small 0 false) 0 (pad.toNat : Nat) (pad.toNat + 0x1000 : Nat) false ∧
    LocalUnit (onQueue7 (small 16 false)) (small 16 false) 0 (pad.toNat + 64 : Nat) (pad.toNat + 0x1000 : Nat) true ∧
    LocalUnit (onQueue7 (small 16 true)) (small 16 true) 0 (pad.toNat : Nat) (pad.toNat + 0x1000 + 64 : Nat) true :=
  ⟨local_unit_of _ _ _ _ _ _ (by decide +kernel), local_unit_of _ _ _ _ _ _ (by decide +kernel), local_unit_of _ _ _ _ _ _ (by decide +kernel)⟩

/-- Copies that have performed, for an instruction with and without a post and for a node; a matrix write to open places. -/
theorem witness_completions :
    (∀ c ∈ [{ aCopy with run := .performed }, { aCopy with run := .performed, post := some (7, 1) },
        { aCopy with run := .performed, node := some 0x40000 }], onQueue (onQueue7 c) c.q = [c] ∧ c.run = .performed) ∧
    (∀ x ∈ queuedWrite.writes, MatOpen (copyState goodDesc) x) := by
  refine ⟨by decide +kernel, fun x hx => ?_⟩
  simp only [queuedWrite, List.mem_cons, List.not_mem_nil, or_false] at hx
  rcases hx with rfl | rfl
  · exact .inr ⟨0, 64, rfl, by decide +kernel, by decide +kernel⟩
  · exact .inl ⟨0x40000, rfl, by decide +kernel⟩

/-- A copy of one element whose source lies past the end of the scratchpad, so that its unit traps. -/
noncomputable def farCopy : Copy :=
  { aCopy with desc := descOf ((goodDesc.set 1 (0xE000000000000000 + 65536)).set 11 1) blankBlock 0 }

def traps {α : Type} (x : State × Got α) : Bool :=
  match x.2 with
  | .trap _ _ _ => true
  | _ => false

theorem traps_of {α : Type} (x : State × Got α) (h : traps x = true) : ∃ k a e u, x = (u, .trap k a e) := by
  obtain ⟨u, r⟩ := x
  cases r <;> simp [traps] at h
  exact ⟨_, _, _, u, rfl⟩

theorem witness_copy_traps : farCopy.lost = [] ∧ farCopy.late = [] ∧ (sortByRank (Config.elementRank farCopy.seed) (List.range (unitCount farCopy.desc)))[farCopy.next]? = some 0 ∧
    ∃ k a x u, moveUnit (copyEnv (copyState goodDesc) farCopy) farCopy.wsload farCopy.desc 0 (copyState goodDesc) = (u, .trap k a x) :=
  ⟨by decide +kernel, by decide +kernel, by decide +kernel, traps_of _ (by decide +kernel)⟩

/-- The group with an error of its own copy on queue 7. -/
noncomputable def reported : State :=
  modG (fun g => { g with qbad := 0x80 }) { copyState goodDesc with
    qerrs := [{ q := myQueue 7 (copyState goodDesc), cause := 4, addr := 1, kind := 8, uid := 0 }] }

theorem witness_queue_waits : Ready (copyState goodDesc) ∧ awaiting 0x1FF (copyState goodDesc) = [] ∧
    (∀ q, ¬ Reports 0x1FF q (copyState goodDesc)) ∧ awaiting 0x80 (onQueue7 aCopy) ≠ [] ∧ Ready reported ∧ awaiting 0x80 reported = [] ∧
    Reports 0x80 7 reported ∧ (∀ k < 7, ¬ Reports 0x80 k reported) ∧ Supervisor (privileged .c 0) ∧ Ready (privileged .c 0) ∧ ((8 : BitVec 4).toNat ≤ 8 ∧ 8 < (9 : BitVec 4).toNat) ∧ User (copyState goodDesc) ∧
    (reported.qerrs.find? fun r => r.q == myQueue 7 reported).isSome = true := by
  refine ⟨ready_of _ (by decide +kernel), by decide +kernel, ?_, by decide +kernel, ready_of _ (by decide +kernel), by decide +kernel, ?_, ?_,
    sup_of _ (by decide +kernel), ready_of _ (by decide +kernel), by decide, (by decide +kernel : (curGroup (copyState goodDesc)).sup = false),
    by decide +kernel⟩
  · intro q h
    have e : (copyState goodDesc).qerrs = [] := by decide +kernel
    have := h.2.2.2
    rw [e] at this
    cases this
  · unfold Reports; decide +kernel
  · unfold Reports; decide +kernel

/-- A packet in the scratchpad with an entry free for it, and one whose RCB the context has not; an address off by 64. -/
theorem witness_launches :
    let s := regs [(1, pad), (2, pad + 64)] (modB (fun b => { b with spad := ssetN 0 24 (toBytes 8 0x1000) [] })
      { physPut none 0x1020 8 0xFFFF0000 (physPut none 0xF20 8 0xFFFF0000 (loaded .c)) with past := [] })
    Ready s ∧ Local s ((rdS 1 s).toNat : Int) 128 128 ∧ (rdS 2 s).toNat % 128 ≠ 0 ∧
    (let p (s : State) : Vector Word 16 := Vector.ofFn fun k => BitVec.ofNat 64 (ofBytes (localBytes s (((rdS 1 s).toNat + 8 * k.val : Nat) : Int) 8))
     entryAvailable s 0 (packetRcb s (curCtx s) (p s)) = true) ∧
    entryAvailable { s with launches := List.replicate 4096 newLaunch } 0 (some 0x1000) = false ∧ Ordered s 15 ∧
    peekBad s (curCtx s) 0x1000 .read true = none ∧ (peekBad { s with bad := [.phys 0x2000] } (curCtx s) 0x1000 .read true).isSome = true := by
  refine ⟨ready_of _ (by decide +kernel), local_of _ _ _ _ (by decide +kernel), by decide +kernel, by decide +kernel, ?_, ?_⟩
  · decide +kernel
  · unfold Ordered; decide +kernel

/-! System registers, traps and returns, hints, roles. -/

/-- Numbers outside the map, write-only ones, those that only the supervisor reads, and the first and the last of every run. -/
theorem witness_system_numbers :
    (∀ n ∈ [0x008, 0x00F, 0x016, 0x01F, 0x028, 0x02F, 0x031, 0x03F, 0x043, 0x048, 0x052, 0xFFF],
      sysValue n (loaded .m) = none ∧ writeOnly n = false) ∧ writeOnly 0x050 = true ∧ writeOnly 0x051 = true ∧
    (∀ n ∈ [0x000, 0x007, 0x010, 0x015, 0x020, 0x027, 0x030, 0x040, 0x042, 0x044, 0x047], (sysValue n (loaded .m)).isSome = true) ∧
    (∀ n ∈ [0x040, 0x042, 0x044, 0x047], supReads n = true) ∧ supReads 0x03F = false ∧ supReads 0x043 = false ∧ User (loaded .m) ∧
    Ready (loaded .m) ∧ Ready (privileged .m 0) ∧ Supervisor (privileged .m 0) ∧
    (anyWrites 0x005 = false ∧ supWrites 0x005 = false) ∧ (supWrites 0x015 = true ∧ anyWrites 0x015 = false) := by
  refine ⟨by decide +kernel, by decide, by decide, by decide +kernel, by decide, by decide, by decide, user_of _ (by decide +kernel), ?_, ?_,
    sup_of _ (by decide +kernel), by decide, by decide⟩ <;> exact ready_of _ (by decide +kernel)

/-- The largest value that each register takes. -/
theorem witness_system_writes :
    (∃ t, SysWrite (loaded .m) 32 0x000 t) ∧ (∃ t, SysWrite (loaded .m) 31 0x001 t) ∧ (∃ t, SysWrite (loaded .m) (-1) 0x003 t) ∧
    (∃ t, SysWrite (loaded .m) (-1) 0x004 t) ∧ (∃ t, SysWrite (gangState [] false) 3 0x006 t) ∧
    (∃ t, SysWrite (privileged .m 0) 16 0x010 t) ∧ (∃ t, SysWrite (privileged .m 0) 0 0x011 t) ∧ (∃ t, SysWrite (privileged .m 0) 512 0x012 t) ∧
    (∃ t, SysWrite (privileged .m 0) 0x817 0x013 t) ∧ (∃ t, SysWrite (privileged .m 0) 0x2 0x013 t) ∧ (∃ t, SysWrite (privileged .m 0) 1 0x014 t) ∧
    (∃ t, SysWrite (privileged .m 0) 256 0x015 t) ∧ (∃ t, SysWrite (privileged .m 0) 15 0x030 t) ∧ (∃ t, SysWrite (privileged .m 0) (-1) 0x041 t) ∧
    (∃ t, SysWrite (privileged .m 0) (-1) 0x047 t) :=
  ⟨⟨_, .vl (by decide +kernel)⟩, ⟨_, .vstart (by decide +kernel)⟩, ⟨_, .fcsr⟩, ⟨_, .dirty⟩, ⟨_, .gang (by decide +kernel)⟩,
   ⟨_, .gm (by decide +kernel)⟩, ⟨_, .gn (by decide +kernel)⟩, ⟨_, .gk (by decide +kernel)⟩, ⟨_, .tfmt (by decide +kernel)⟩,
   ⟨_, .tfmt (by decide +kernel)⟩, ⟨_, .ashape (by decide +kernel) (by decide +kernel)⟩, ⟨_, .rbnd (by decide)⟩, ⟨_, .skew⟩, ⟨_, .ecause⟩,
   ⟨_, .ssave 3 (by decide)⟩⟩

/-- The smallest value that each register refuses. -/
theorem witness_system_refusals :
    SysRefuse (loaded .m) 33 0x000 0x09 0 ∧ SysRefuse (loaded .m) 32 0x001 0x09 0 ∧ SysRefuse (gangState [] false) 1 0x006 0x01 0 ∧
    SysRefuse (privileged .m 0) 9 0x010 0x0A 9 ∧ SysRefuse (privileged .m 0) 504 0x011 0x0A 504 ∧ SysRefuse (privileged .m 0) 1 0x012 0x0A 1 ∧
    SysRefuse (privileged .m 0) 0 0x014 0x0A 0 ∧ SysRefuse (privileged .m 0) 0x917 0x013 0x0A 0x917 ∧ SysRefuse (privileged .m 0) 257 0x015 0x02 0 :=
  ⟨.vl (by decide +kernel), .vstart (by decide +kernel), .gang (by decide +kernel), .gm (by decide) (by decide), .gn (by decide) (by decide +kernel),
   .gk (by decide) (by decide), .ashape (by decide), .tfmt (by decide +kernel), .rbnd (by decide)⟩

/-- Kinds of invalidation, good and bad; a VCFG that stands, one that shrinks the threads, a state of nine entries. -/
theorem witness_system_commands :
    ((0xC000000000000000 : Word).toNat / 2 ^ 62 = 3 ∧ (0x8000001000000000 : Word).toNat / 2 ^ 36 % 2 ^ 10 ≠ 0 ∧
      ¬ ((0x8000000FFFFFFFFF : Word).toNat / 2 ^ 62 = 3 ∨ (0x8000000FFFFFFFFF : Word).toNat / 2 ^ 36 % 2 ^ 10 ≠ 0)) ∧
    (BitVec.ofNat 2 (rdS 1 (privileged .v 3)).toNat = (curGroup (privileged .v 3)).nrc ∧ (curGroup (privileged .v 3)).paths ≠ []) ∧
    (BitVec.ofNat 2 (rdS 1 (privileged .v 0)).toNat ≠ (curGroup (privileged .v 0)).nrc ∧ swf (0 : Half) (curGroup (privileged .v 0)).v = true ∧
      ∀ p ∈ (curGroup (privileged .v 0)).paths, p.threads &&& ones 1024 (vlmaxOf (curBlock (privileged .v 0)).place 0) ≠ 0) := by
  decide +kernel

/-- A state whose SVENTRY is e. -/
noncomputable def withEntry (e : Nat) (s : State) : State := physPut none 0x30000 8 e (physPut none 0x1038 8 0x30000 s)

theorem alone_of (s : State) (h : readyB s = true) : Runs s ∧ NoFrame s ∧ Alone s :=
  have h := ready_of s h
  ⟨h.1, h.2.2, h.2.1⟩

theorem witness_traps :
    (let s := withEntry 0xFFFFFFFFFFFFC (loaded .c); Runs s ∧ NoFrame s ∧ Alone s) ∧
    ((svEntry (withEntry 0xFFFFFFFFFFFFC (loaded .c)) 0x1000).toNat < 2 ^ 52 ∧ (svEntry (withEntry 0xFFFFFFFFFFFFC (loaded .c)) 0x1000).toNat % 4 = 0 ∧
      curCtx (withEntry 0xFFFFFFFFFFFFC (loaded .c)) = 0x1000 ∧ (curWho (withEntry 0xFFFFFFFFFFFFC (loaded .c))).pidx < 64) ∧
    2 ^ 52 ≤ (svEntry (withEntry (2 ^ 52) (loaded .c)) 0x1000).toNat ∧
    ((svEntry (withEntry 0x20002 (loaded .c)) 0x1000).toNat < 2 ^ 52 ∧ (svEntry (withEntry 0x20002 (loaded .c)) 0x1000).toNat % 4 ≠ 0) ∧
    (∀ n ∈ [7, 8], Runs (modG (fun g => { g with sup := true, nest := n }) (loaded .c))) := by
  refine ⟨alone_of _ (by decide +kernel), by decide +kernel, by decide +kernel, by decide +kernel, fun n hn => ?_⟩
  simp only [List.mem_cons, List.not_mem_nil, or_false] at hn
  rcases hn with rfl | rfl <;> exact runs_of _ (by decide +kernel)

/-- Returns: from user mode, of a fault domain, of a save and a restore, to bad addresses, to user and to supervisor mode. -/
noncomputable def returning (cause : Nat) (epc : Word) (p : Part) (r : Residence) : State :=
  modB (fun b => { b with res := r }) (modG (fun g => { g with ecause := BitVec.ofNat 64 cause, epc := epc, part := p }) (privileged .c 0))

theorem witness_returns :
    (∀ c ∈ [0x7F, 0x80, 0xFF, 0x11, 0x12, 0x80000F], let s := returning c 0x20000 .none .resident; Runs s ∧ NoFrame s ∧ Alone s) ∧
    (let s := returning 0x11 0 .running .saving; (Runs s ∧ NoFrame s ∧ Alone s) ∧ Supervisor s ∧ (curGroup s).ecause.toNat % 256 = 0x11 ∧
      (curGroup s).part = .running ∧ (curBlock s).res = .saving) ∧
    (let s := returning 0x12 0 .running .restoring; (Runs s ∧ NoFrame s ∧ Alone s) ∧ Supervisor s ∧ (curGroup s).ecause.toNat % 256 = 0x12 ∧
      (curGroup s).part = .running ∧ (curBlock s).res = .restoring) ∧
    (let s := returning 0x7F 0xFFFFFFFFFFFFC .none .resident; (curGroup s).epc.toNat < 2 ^ 52 ∧ (curGroup s).epc.toNat % 4 = 0 ∧
      (curGroup s).frames.headD none = none ∧ (curGroup s).ecause.getLsbD 23 = false ∧ (curGroup s).melds = [] ∧
      ∀ p ∈ (curGroup s).paths, p.tokens = 0) ∧
    (curGroup (returning 0x80000F 0 .none .resident)).ecause.getLsbD 23 = true ∧
    2 ^ 52 ≤ (0x10000000000000 : Word).toNat ∧ (0xFFFFFFFFFFFFE : Word).toNat % 4 ≠ 0 := by
  refine ⟨fun c hc => ?_, ⟨alone_of _ (by decide +kernel), sup_of _ (by decide +kernel), by decide +kernel⟩,
    ⟨alone_of _ (by decide +kernel), sup_of _ (by decide +kernel), by decide +kernel⟩, by decide +kernel, by decide +kernel, by decide, by decide⟩
  simp only [List.mem_cons, List.not_mem_nil, or_false] at hc
  rcases hc with rfl | rfl | rfl | rfl | rfl | rfl <;> exact alone_of _ (by decide +kernel)

/-- Kinds of pwrhint at the ends of the range; a block whose latch awaits no group, and one whose latch awaits another. -/
theorem witness_hints : ((3 : BitVec 4).toNat < 4 ∧ 4 ≤ (4 : BitVec 4).toNat) ∧ (curBlock (loaded .c)).latch = [] ∧
    (let e : LatchEntry := { seq := 0, pair := false, members := 2, tmo := 0, elapsed := 0, arrived := [] }
     e.members.getLsbD 0 = false) ∧ User (loaded .c) ∧ Supervisor (privileged .c 0) :=
  ⟨by decide, by decide +kernel, by decide, user_of _ (by decide +kernel), sup_of _ (by decide +kernel)⟩

/-- One instruction of each kind that only its own role may issue, on a group of another role. -/
theorem witness_roles :
    RoleBound (.vadd true 62 60 2 3 0 0) .v ∧ RoleBound (.vst true 62 61 15 3 63) .v ∧ RoleBound (.vsseg false 62 1 7 6 0 0) .v ∧
    RoleBound (.vldgl false 62 1 7 0 0) .v ∧ RoleBound (.tset false 21 20 0 0 2) .m ∧ RoleBound (.mma false 0 0 0 0 0 0) .m ∧
    RoleBound (.cpy false 7 0 1 0 0 15) .c ∧ (curGroup (loaded .c)).role ≠ .v ∧ (curGroup (loaded .v)).role ≠ .m ∧ (curGroup (loaded .m)).role ≠ .c := by
  refine ⟨.vector _ _ _ (.vadd ..) rfl rfl (by decide) (by decide) (by decide), .memory _ _ _ (.vst _ _ _ _ _ _ _ rfl) (by decide) (by decide),
    .segment _ _ _ (.vsseg _ _ _ _ _ _ _ (by decide)), .link _ _ _ _ _ (.vldgl ..) (by decide),
    .matrix _ _ _ _ (.short _ _ _ _ (.tset ..)) (by simp), .matrix _ _ _ _ (.short _ _ _ _ (.mma ..)) (by simp),
    .copy _ _ _ _ _ _ _ (.cpy _ _ _ _ _ _ _ (by decide)), by decide +kernel, by decide +kernel, by decide +kernel⟩

/-! Graph signals, waits and timers. -/

/-- A computation that ends well, with what holds then. -/
def okWith {α : Type} (x : State × Got α) (p : State → α → Bool) : Bool :=
  match x with
  | (t, .ok a) => p t a
  | _ => false

theorem ok_of {α : Type} (x : State × Got α) (p : State → α → Bool) (h : okWith x p = true) : ∃ t a, x = (t, .ok a) ∧ p t a = true := by
  obtain ⟨t, r⟩ := x
  cases r <;> simp [okWith] at h
  exact ⟨t, _, rfl, h⟩

/-- A node at 0x40000 of the loaded context with words 0 and 3. -/
noncomputable def withNode (w0 w3 : Nat) (s : State) : State := physPut none 0x40018 8 w3 (physPut none 0x40000 8 w0 s)

noncomputable def signals (w0 : Nat) : State := withNode w0 0x1000 (regs [(1, 0x40000), (2, 0x40020)] (loaded .c))

/-- How gsig reads. -/
noncomputable def queueEnv (s : State) : Env := { curEnv 15 4 s with actor := .engine }

theorem witness_signals : (rdS 2 (signals 0)).toNat % 64 ≠ 0 ∧
    ∀ x ∈ [(6 * 2 ^ 60 + 5, true, true), (6 * 2 ^ 60 + 2 ^ 58, true, true), (6 * 2 ^ 60 + 2 ^ 59, true, false), (7 * 2 ^ 60, false, true)],
      Ready (signals x.1) ∧ (rdS 1 (signals x.1)).toNat % 64 = 0 ∧
      ∃ s1 l0, loadAt (queueEnv (signals x.1)) (rdS 1 (signals x.1)) 8 8 (signals x.1) = (s1, .ok l0) ∧
        okWith (loadAt (queueEnv s1) (rdS 1 (signals x.1) + 24) 8 8 s1) (fun s2 l3 =>
          (peekBad s2 (curCtx (signals x.1)) (ofBytes l3) .read true).isNone && decide ((decide (ofBytes l0 / 2 ^ 60 % 16 = 6) && nodeHome s2 (curCtx (signals x.1)) (rdS 1 (signals x.1)) &&
            rcbMine s2 (curCtx (signals x.1)) (ofBytes l3)) = x.2.1) && decide (ofBytes l0 / 2 ^ 58 % 4 < 2) == x.2.2) = true := by
  refine ⟨by decide +kernel, fun x hx => ?_⟩
  simp only [List.mem_cons, List.not_mem_nil, or_false] at hx
  rcases hx with rfl | rfl | rfl | rfl <;>
    exact ⟨ready_of _ (by decide +kernel), by decide +kernel, ok_of _ (fun s1 l0 => okWith (loadAt (queueEnv s1) _ 8 8 s1) fun s2 l3 => _) (by decide +kernel)⟩

theorem witness_signal_rest : ∃ u, u = (let t := wrS 2 0 (signals (6 * 2 ^ 60))
      let t := fenceAt 4 t
      completeNode 0x1000 0x40000 { t with waits := t.waits.filter (· != (0x1000, 0x40000)), signalled := (0x1000, 0x40000) :: t.signalled }) ∧
    (findBlock u (cur u).who.uid).isSome = true := ⟨_, rfl, by decide +kernel⟩

/-- The loaded path waits. -/
noncomputable def waiting (x : Wait) (s : State) : State := { modP (fun p => { p with run := .waiting x 4 }) s with running := [] }

def who0 : Who := { uid := 0, gidx := 0, pidx := 0 }

/-- The path may go on; a pre-emption keeps it stopped. -/
theorem witness_waits_end :
    (waitFence (waiting (.bar 0 7) (loaded .c)) who0 (.bar 0 7) 1 ∧ mayGoOn (waiting (.bar 0 7) (loaded .c)) who0 = true ∧
      (pathOf (waiting (.bar 0 7) (loaded .c)) who0).run = .waiting (.bar 0 7) 4 ∧
      meldOf (getGroup (waiting (.bar 0 7) (loaded .c)) 0 0) 0 = none) ∧
    waitFence (waiting (.iter 1 0) { setOfTwo with running := (loaded .c).running }) who0 (.iter 1 0) 2 ∧
    waitFence (waiting (.ring 7 7 false) (loaded .c)) who0 (.ring 7 7 false) 1 ∧
    (mayGoOn (waiting .latch (loaded .m)) who0 = true ∧ (getBlock (waiting .latch (loaded .m)) 0).latch = []) ∧
    (let s := modBlock 0 (fun b => { b with preempt := true }) (waiting (.bar 0 7) (loaded .c))
     mayGoOn s who0 = false ∧ (getBlock s 0).preempt = true ∧ (getGroup s 0 0).sup = false) := by
  refine ⟨⟨⟨by decide, ⟨0, by decide +kernel, by decide +kernel⟩, rfl⟩, by decide +kernel, by decide +kernel, by decide +kernel⟩,
    ⟨⟨(iterAt (waiting (.iter 1 0) { setOfTwo with running := (loaded .c).running }) 0 1).getD 0, by decide +kernel, Nat.zero_le _⟩, rfl⟩,
    ⟨by decide +kernel, by decide +kernel⟩, by decide +kernel, by decide +kernel⟩

/-- A cpy that waits for room: on a queue with an error, on one that is still full, and on one with room for a good descriptor. -/
theorem witness_queue_full :
    let w : Wait := .queueFull 7 none (pad + 0x400) 0 1
    (let s := waiting w reported; mayGoOn s who0 = true ∧ (s.qerrs.find? fun r => r.q == .core (getBlock s 0).place 7).isSome = true) ∧
    (let s := waiting w { copyState goodDesc with copies := List.replicate 32 aCopy }
     mayGoOn s who0 = true ∧ 32 ≤ (s.copies.filter fun c => c.q == .core (getBlock s 0).place 7 && !c.held).length ∧
     s.qerrs.find? (fun r => r.q == .core (getBlock s 0).place 7) = none) ∧
    (let s := waiting w (copyState goodDesc)
     mayGoOn s who0 = true ∧ s.copies = [] ∧ (match (cpyOn 7 none (pad + 0x400) 0 1 (focusOn who0 s)).2 with
       | .next => true
       | _ => false) = true) := by
  decide +kernel

/-- A queue wait with nothing left, without an error and with one on queue 7; a word that stands and one that has changed; a launch. -/
noncomputable def errOn7 (s : State) : State :=
  { modG (fun g => { g with qbad := 0x80 }) s with qerrs := [{ q := .core { die := 0, cl := 4, site := 0, part := 0 } 7, cause := 4, addr := 1, kind := 8, uid := 0 }] }

theorem witness_waits_act :
    (let s := waiting (.queues 0x180 [3]) (errOn7 (loaded .c))
     mayGoOn s who0 = true ∧ (pathOf s who0).run = .waiting (.queues 0x180 [3]) 4 ∧ s.copies = [] ∧ s.matq = [] ∧
     meldOf (getGroup s 0 0) 0 = none ∧ (0x180 : BitVec 9).getLsbD 7 = true ∧ (getGroup s 0 0).qbad.getLsbD 7 = true ∧
     (s.qerrs.find? fun r => r.q == .core (getBlock s 0).place 7).isSome = true) ∧
    (getGroup (waiting (.queues 1 []) (loaded .c)) 0 0).qbad = 0 ∧
    (let s := waiting (.word false (pad + 65528) 0 9) (loaded .c)
     mayGoOn s who0 = true ∧ (pad + 65528).toNat / 2 ^ 60 = 0xE ∧ (pad + 65528).toNat % 2 ^ 60 + 8 ≤ (getBlock s 0).spadSize ∧
     (pad + 65528).toNat % 8 = 0 ∧ badRange s (.spad 0) ((pad + 65528).toNat % 2 ^ 60) 8 = false ∧ (getBlock s 0).uid = 0 ∧
     (pad + 65528).toNat % 2 ^ 60 + 8 ≤ 2 ^ 20 ∧ upToDate s who0 .scalar 15 = true ∧ meldOf (getGroup s 0 0) 0 = none ∧
     BitVec.ofNat 64 (ofBytes (sgetN 0 (getBlock s 0).spad ((pad + 65528).toNat % 2 ^ 60) 8)) = (0 : Word)) ∧
    (let s := waiting (.space (toBytes 24 0 ++ toBytes 8 0x1000 ++ toBytes 96 0) pad 8 9)
       (physPut none 0x1020 8 0xFFFF0000 (physPut none 0xF20 8 0xFFFF0000 (loaded .c)))
     mayGoOn s who0 = true ∧ meldOf (getGroup s 0 0) 0 = none ∧ peekBad s (blockCtx s (getBlock s 0)) 0x1000 .read true = none ∧
     entryAvailable s 0 (packetRcb s (blockCtx s (getBlock s 0)) (packetOf (toBytes 24 0 ++ toBytes 8 0x1000 ++ toBytes 96 0))) = true) := by
  decide +kernel

/-- A latch entry whose 5 µs are over; a wait whose watchdog period of 1 s is over. -/
theorem witness_timers :
    (let s := modB (fun b => { b with latch := [{ seq := 0, pair := false, members := 3, tmo := 5, elapsed := 5000, arrived := [] }] }) (loaded .m)
     (getBlock s 0).res = .resident ∧ (getBlock s 0).preempt = false ∧ (getBlock s 0).latch[0]? = some { seq := 0, pair := false, members := 3, tmo := 5, elapsed := 5000, arrived := [] }) ∧
    (let s := { waiting (.bar 0 0) (loaded .c) with watchdog := [(0x1000, 1000000000)] }
     effWdms s 0x1000 * 1000000 ≤ kget 0 s.watchdog 0x1000 ∧ watchdogCounts s 0x1000 = true ∧
     (s.blocks.filter fun b => b.res != .held && blockCtx s b == 0x1000) = [getBlock s 0] ∧ findBlock s 0 = some (getBlock s 0) ∧
     (getBlock s 0).groups = [getGroup s 0 0] ∧ (getGroup s 0 0).paths = [pathOf s who0] ∧ (pathOf s who0).run = .waiting (.bar 0 0) 4 ∧
     s.copies = [] ∧ (getBlock s 0).preempt = false ∧ internalWait s 0x1000 (pathOf s who0).run = true) := by
  decide +kernel

/-- TLBs with an entry that is selected and one that is not; an access in flight; a path that waits for its invalidation; port
commands with each kind of operand. -/
theorem witness_invalidations :
    let e (asid : BitVec 16) : TlbEntry := { tier := 0, at_ := { die := 0, cl := 4, site := 0, part := 0 }, asid := asid, vpn := 0x10, page := 3, leaf := 0 }
    let holds (x : TlbEntry) : Bool := x.asid == 1 && x.vpn == 0x10 * 65536 / pageBytes x.page
    holds (e 1) = true ∧ holds (e 2) = false ∧ (State.reset.ext = [] ∧ State.reset.matq = [] ∧ State.reset.blocks = []) ∧
    (pathOf (waiting (.tlb 0) (loaded .c)) who0).run = .waiting (.tlb 0) 4 ∧
    (let x : ExtReq := { id := 0, owner := .path who0, pa := 0x400000000000, va := 0, n := 8, data := none, cls := 0, link := 0, got := none, kept := [] }
     x.got = none) ∧
    (let s := { State.reset with ports := Vector.replicate 2 { State.reset.ports[0] with busy := true, arg0 := 2 * 2 ^ 62 + 2 ^ 46 + 0x10 } }
     (vget s.ports 1).busy = true ∧ (vget s.ports 1).arg0.toNat / 2 ^ 46 % 2 ^ 16 = 1 ∧ (vget s.ports 1).arg0.toNat % 2 ^ 36 = 0x10 ∧
     ¬ ((vget s.ports 1).arg0.toNat / 2 ^ 62 = 3 ∨ (vget s.ports 1).arg0.toNat / 2 ^ 36 % 2 ^ 10 ≠ 0)) ∧
    (0xC000000000000000 : Word).toNat / 2 ^ 62 = 3 := by
  decide +kernel

/-! Fault slots. -/

/-- The device root's fault queues at 0x100000. -/
noncomputable def withQueue (s : State) : State := physPut none 0xF10 8 0x100000 s

theorem witness_slots :
    let s := waiting (.noSlot 0 .notPresent 3 0x5000 1) (withQueue (loaded .c))
    let b := getBlock s 0
    let base := queueBase s (blockCtx s b) b.place.die
    (slotless s 0)[0]? = some (.path who0) ∧ (pathOf s who0).run = .waiting (.noSlot 0 .notPresent 3 0x5000 1) 4 ∧ Memory.wf s.mem = true ∧
    coalesce s base (ctxAsid s (blockCtx s b)) ((0x5000 : Word).toNat % 2 ^ 52) = none ∧ freeSlot s base = some 0 ∧ rcbWord s (blockCtx s b) 9 = 0 ∧
    blockCtx s b + 128 ≤ base + 32 * 0 ∧ blockCtx s b < 2 ^ 52 ∧ b.place.cl < 5 ∧ b.tenant < 32 := by
  decide +kernel

/-- Slot 0 of die 0 filled, with a response, and what waits on it. -/
noncomputable def slotState (type resp : Nat) (s : State) : State :=
  physPut none 0x100018 8 (resp * 2 ^ 56) (physPut none 0x100010 8 0x1000 (physPut none 0x100000 8 (type * 2 ^ 60) (withQueue s)))

theorem witness_doorbells : (∀ x ∈ [(0, 0), (1, 0), (1, 1), (2, 2)],
      let s := slotState x.1 x.2 (loaded .c)
      anyRoot s = some 0xF00 ∧ s.booted = true ∧ slotWord s (fqBase s 0xF00 0) 0 0 / 2 ^ 60 % 16 = x.1 ∧
      slotWord s (fqBase s 0xF00 0) 0 3 / 2 ^ 56 % 256 = x.2 ∧ ctxHost s (slotWord s (fqBase s 0xF00 0) 0 2) = 0 ∧
      vget s.depth 0 = 0 ∧ onSlot s 0 0 = [] ∧ copiesOnSlot s 0 0 = []) ∧
    ctxHost (slotState 1 0 (loaded .c)) (slotWord (slotState 1 0 (loaded .c)) 0x100000 0 2) ≠ 1 ∧
    onSlot (slotState 2 1 (waiting (.fault 0 0 .protection 0x5000 1) (loaded .c))) 0 0 = [(who0, .protection, 0x5000, 1)] ∧
    (let c : Copy := { aCopy with run := .fault 0 0 .protection 0x5000 1 }
     copiesOnSlot { slotState 2 1 (loaded .c) with copies := [c] } 0 0 = [c]) ∧
    mayTrap (waiting (.fault 0 0 .protection 0x5000 1) (loaded .c)) who0 = true ∧
    mayTrap (modBlock 0 (fun b => { b with preempt := true }) (waiting (.fault 0 0 .protection 0x5000 1) (loaded .c))) who0 = false ∧
    vget { loaded .c with depth := Vector.replicate 4 4 }.depth 0 ≠ 0 := by
  decide +kernel

/-! Launches, placement and runs. -/

/-- Caps of the RCBs out of the way. -/
noncomputable def rich (s : State) : State :=
  physPut none 0x1028 8 (2 ^ 64 - 1) (physPut none 0x1020 8 (2 ^ 64 - 2 ^ 16) (physPut none 0xF28 8 (2 ^ 64 - 1) (physPut none 0xF20 8 (2 ^ 64 - 2 ^ 16) s)))

noncomputable def launchWith (w0 w1 w2 : Word) : Launch :=
  { newLaunch with packet := vset (vset (vset newLaunch.packet 0 w0) 1 w1) 2 w2 }

noncomputable def ready (l : Launch) : State := { rich (bootMem State.reset) with launches := [l], queue := Vector.replicate 4 [7] }

theorem witness_packet_good : PacketGood (ready (launchWith 0xFFFFFFFFFFFFC 1 (vget newLaunch.packet 2))) (launchWith 0xFFFFFFFFFFFFC 1 (vget newLaunch.packet 2)) ∧
    (launchWith 0xFFFFFFFFFFFFC 1 (vget newLaunch.packet 2)).counter.toNat < (vget (launchWith 0xFFFFFFFFFFFFC 1 0).packet 1).toNat ∧
    findLaunch (ready (launchWith 0 1 0)) 7 = some (launchWith 0 1 0) ∧ (launchWith 0 1 0).checked = false := by
  refine ⟨?_, by decide +kernel⟩
  unfold PacketGood
  decide +kernel

/-- A packet with no group, and one with an entry that is no code address. -/
theorem witness_packet_bad : ¬ PacketGood (ready (launchWith 0x10000 1 0)) (launchWith 0x10000 1 0) ∧
    ¬ PacketGood (ready (launchWith 0x10002 1 (vget newLaunch.packet 2))) (launchWith 0x10002 1 (vget newLaunch.packet 2)) ∧
    peekBad (ready (launchWith 0x10000 1 0)) 0x1000 (pkWord (launchWith 0x10000 1 0) 3) .read true = none ∧
    (peekBad { ready (launchWith 0x10000 1 0) with bad := [.phys 0x2000] } 0x1000 (pkWord (launchWith 0x10000 1 0) 3) .read true).isSome = true ∧
    (launchWith 0x10000 1 0).node = none ∧ (ready (launchWith 0x10000 1 0)).blocks = [] := by
  refine ⟨fun h => absurd h.2.2.1 (by decide +kernel), fun h => absurd h.2.2.2.2.2.2.2.2.1 (by decide +kernel), by decide +kernel, by decide +kernel,
    by decide +kernel, by decide +kernel⟩

theorem witness_placement :
    let l := { launchWith 0x10000 1 (vget newLaunch.packet 2) with checked := true, dies := 0xF }
    let s := ready l
    queued s 0 = [l] ∧ mayPlace s l = true ∧ findLaunch s l.id = some l ∧ coresBit l = false ∧ blocksOf s l.id = [] ∧ noMoreBlocks l = false ∧
    vget s.reserve 0 = none ∧ choosePlace 0 31 (roomAt s [] l) = some { die := 0, cl := 4, site := 31, part := 0 } ∧
    pickTenant s [] l.ctx { die := 0, cl := 4, site := 31, part := 0 } none = some 0 := by
  decide +kernel

theorem witness_runs :
    let s := { loaded .v with running := [] }
    let core : Place := { die := 0, cl := 4, site := 0, part := 0 }
    slotBusy s core .v = false ∧ readyOn s core .v = [(getBlock s 0, getGroup s 0 0)] ∧ (getGroup s 0 0).slot < 16 ∧
    kget 0 s.last (core, .v, blockPrio s (getBlock s 0)) < 16 ∧ nextPath (getGroup s 0 0) = some 0 := by
  decide +kernel

/-- A stopped group of a block that is being pre-empted, with a spill area whose save frames lie at 0x400000. -/
noncomputable def captured0 : State :=
  { modB (fun b => { b with preempt := true, frame := some 0 }) (modG (fun g => { g with ks := Vector.replicate 8 0, qs := Vector.replicate 8 0 }) (loaded .v)) with
    mem := [(0x1000, 1), (0x1007, 0x11), (0x1009, 0xf), (0x1011, 0x20), (0x103A, 3), (0x2000, 1), (0x2001, 0x30), (0x3000, 0xff), (0x30002, 2), (0x3000A, 0x40)] }

/-- Stores in a frame that all land. -/
def storedWith {α : Type} (x : State × Option α) (p : State → Bool) : Bool :=
  match x with
  | (u, none) => p u
  | _ => false

theorem stored_of {α : Type} (x : State × Option α) (p : State → Bool) (h : storedWith x p = true) : ∃ u, x = (u, none) ∧ p u = true := by
  obtain ⟨u, r⟩ := x
  cases r <;> simp [storedWith] at h
  exact ⟨u, rfl, h⟩

theorem witness_capture :
    let s := { captured0 with running := [] }
    let b := getBlock s 0
    let g := getGroup s 0 0
    ((findBlock s 0).isSome = true ∧ (findGroup b 0).isSome = true ∧ b.preempt = true ∧ b.transit = false ∧
     groupStopped s 0 g = true ∧ g.retired = false ∧ g.part = .none) ∧
    ∃ u, frameStores (frameEnv s b) (captureWrites s b g) s = (u, none) ∧
      decide (svEntry u (blockCtx u b) = 0x20000 ∧ saveVa u (blockCtx u b) + b.frame.getD 0 * 0x480000 + 0x480000 < 2 ^ 52) = true :=
  ⟨by decide +kernel, stored_of _ _ (by decide +kernel)⟩

theorem witness_retire :
    let s := modG (fun g => { g with retired := true, paths := [] }) (loaded .v)
    (findBlock s 0).isSome = true ∧ (getBlock s 0).res = .resident ∧ (getBlock s 0).preempt = false ∧ (getBlock s 0).transit = false ∧
    (∀ g ∈ (getBlock s 0).groups, g.retired = true) ∧ s.copies = [] ∧ s.matq = [] := by
  decide +kernel

/-! Graphs: one node at 0x40000 of the loaded context. -/

noncomputable def graph (l : List Nat) (s : State) : State := physWrite none 0x40000 (l.flatMap (toBytes 8)) s

noncomputable def aCkpt (p : CkptPhase) : Ckpt :=
  { ctx := 0x1000, va := 0x40000, die := 0, rcb := 0x1000, addr := 0x50000, desc := [], id := 5, gen := 1, phase := p, bytes := 0, got := [], record := [] }

theorem witness_submission :
    (let s := physPut none 0x1018 8 0x40000 (loaded .c)
     s.booted = true ∧ ctxHost s (rcbCtx s 0x1000) = 0 ∧ vget s.depth 0 = 0 ∧ held s 0x1000 = false ∧ rcbKind s 0x1000 = 1 ∧ rcbWord s 0x1000 3 ≠ 0) ∧
    rcbWord (loaded .c) 0x1000 3 = 0 ∧ ctxHost (loaded .c) (rcbCtx (loaded .c) 0x1000) ≠ 1 ∧
    held { loaded .c with ckpts := [aCkpt .cut] } 0x1000 = true := by
  decide +kernel

/-- A ready node that may start, a LOOP that turns, one that has ended. -/
theorem witness_ready : ∀ x ∈ [(2 ^ 60, 1, 0), (5 * 2 ^ 60 + 2 ^ 58, 5, 1), (9 * 2 ^ 60 + 2 ^ 59, 9, 2)],
    ∃ s1 w, readNode 0x1000 0x40000 (graph [x.1, 0, 0, 0x1000] (loaded .c)) = (s1, .ok w) ∧
      decide (w.getD 0 0 / 2 ^ 60 % 16 = x.2.1 ∧ w.getD 0 0 / 2 ^ 58 % 4 = x.2.2) = true := by
  intro x hx
  simp only [List.mem_cons, List.not_mem_nil, or_false] at hx
  rcases hx with rfl | rfl | rfl <;> exact ok_of _ (fun _ w => decide _) (by decide +kernel)

/-- A node that its walker has taken, with what follows. -/
def takenB (type : Nat) (s : State) (p : State → List Nat → Bool) : Bool :=
  okWith (readNode 0x1000 0x40000 s) fun s1 w =>
    decide (w.getD 0 0 / 2 ^ 60 % 16 = type ∧ w.getD 0 0 / 2 ^ 58 % 4 < 2 ∧ s1.completing.lookup (0x1000, 0x40000) = none ∧
      held s1 (nodeRcb s1 0x1000 0x40000) = false ∧ peekBad s1 0x1000 (w.getD 3 0) .read true = none ∧ nodeFault s1 0x1000 0x40000 w = none) && p s1 w

def Taken (type : Nat) (s : State) (p : State → List Nat → Bool) : Prop := ∃ s1 w, NodeTaken 0x1000 0x40000 type s s1 w ∧ p s1 w = true

theorem taken_of (type : Nat) (s : State) (p : State → List Nat → Bool) (h : takenB type s p = true) : Taken type s p := by
  obtain ⟨s1, w, e, h⟩ := ok_of _ _ h
  simp only [Bool.and_eq_true, decide_eq_true_eq] at h
  exact ⟨s1, w, ⟨e, h.1.1, h.1.2.1, h.1.2.2.1, h.1.2.2.2.1, h.1.2.2.2.2.1, h.1.2.2.2.2.2⟩, h.2⟩

/-- A device whose memory is the loaded context and these bytes, and a launch of the context. -/
def nodeAt (m : List Host.Cell) : State := { State.reset with mem := m }

noncomputable def onB (s1 : State) : State := active 0x1000 0x40000 s1

/-- KERNEL, with an entry and without one. -/
theorem witness_kernel_nodes :
    Taken 1 (nodeAt [(0xF22, 0xff), (0xF23, 0xff), (0x1000, 1), (0x1007, 0x11), (0x1009, 0xf), (0x1011, 0x20), (0x1022, 0xff), (0x1023, 0xff), (0x2000, 1), (0x2001, 0x30), (0x3000, 0xff), (0x40007, 0x10), (0x40019, 0x10), (0x40022, 5), (0x50019, 0x10)]) (fun s1 w =>
      okWith (nodeRead 0x1000 0x40000 (w.getD 4 0) 128 128 (onB s1)) fun s2 l => entryAvailable s2 0 (packetRcb s2 0x1000 (packetOf l)) &&
        decide (peekBad s2 0x1000 (vget (packetOf l) 3).toNat .read true = none)) ∧
    Taken 1 (nodeAt [(0x1000, 1), (0x1007, 0x11), (0x1009, 0xf), (0x1011, 0x20), (0x2000, 1), (0x2001, 0x30), (0x3000, 0xff), (0x40007, 0x10), (0x40019, 0x10), (0x40022, 5), (0x50019, 0x10)]) (fun s1 w =>
      okWith (nodeRead 0x1000 0x40000 (w.getD 4 0) 128 128 (onB s1)) fun s2 l => !entryAvailable s2 0 (packetRcb s2 0x1000 (packetOf l)) &&
        decide (peekBad s2 0x1000 (vget (packetOf l) 3).toNat .read true = none)) :=
  ⟨taken_of _ _ _ (by decide +kernel), taken_of _ _ _ (by decide +kernel)⟩

/-- COPY and WSLOAD: a descriptor that is good, one that is not, an address that is not aligned, a kernel of the context. -/
theorem witness_copy_nodes :
    let desc (s1 : State) (w : List Nat) := readDesc { nodeEnv (onB s1) 0x1000 0x40000 with sup := false } (addrWord (w.getD 4 0)) (onB s1)
    Taken 2 (nodeAt [(0x1000, 1), (0x1007, 0x11), (0x1009, 0xf), (0x1011, 0x20), (0x2000, 1), (0x2001, 0x30), (0x3000, 0xff), (0x40007, 0x20), (0x40019, 0x10), (0x40022, 5), (0x50005, 0x40), (0x50006, 8), (0x50007, 0x11), (0x5000A, 6), (0x50012, 7), (0x50044, 0x10), (0x50048, 4), (0x50050, 4), (0x50058, 0x10)]) (fun s1 w =>
      decide (w.getD 4 0 % 64 = 0) && okWith (desc s1 w) fun _ d => (nodeDescFault d false).isNone && (nodeDescFault d true).isSome) ∧
    Taken 3 (nodeAt [(0x1000, 1), (0x1007, 0x11), (0x1009, 0xf), (0x1011, 0x20), (0x2000, 1), (0x2001, 0x30), (0x3000, 0xff), (0x40007, 0x30), (0x40019, 0x10), (0x40022, 5), (0x50005, 0x40), (0x50006, 8), (0x50007, 0x11), (0x5000A, 6), (0x50017, 0xc0), (0x50044, 0x10), (0x50048, 4), (0x50050, 4), (0x50058, 0x10)]) (fun s1 w =>
      s1.launches.isEmpty && okWith (desc s1 w) fun _ d => (nodeDescFault d true).isNone) ∧
    Taken 3 { nodeAt [(0x1000, 1), (0x1007, 0x11), (0x1009, 0xf), (0x1011, 0x20), (0x2000, 1), (0x2001, 0x30), (0x3000, 0xff), (0x40007, 0x30), (0x40019, 0x10), (0x40020, 0x20), (0x40022, 5)] with launches := [newLaunch] } (fun s1 w =>
      s1.launches.any (fun l => l.ctx == 0x1000) && decide (w.getD 4 0 % 64 ≠ 0)) :=
  ⟨taken_of _ _ _ (by decide +kernel), taken_of _ _ _ (by decide +kernel), taken_of _ _ _ (by decide +kernel)⟩

/-- A LOOP with its first pass counted. -/
noncomputable def counted (s1 : State) (w : List Nat) : State :=
  putWord 0x1000 (0x40000 + 8) (w.getD 1 0 / 2 ^ 32 % 2 ^ 32 * 2 ^ 32)
    (active 0x1000 0x40000 { s1 with passes := kset (0x1000, 0x40000) 0 s1.passes })

/-- COND with a selector beyond its list. LOOP: MODE 0 with a pass left and a body that is active, then one that is not; MODE 1. -/
theorem witness_branching_nodes :
    Taken 4 (nodeAt [(0x1000, 1), (0x1007, 0x11), (0x1009, 0xf), (0x1011, 0x20), (0x2000, 1), (0x2001, 0x30), (0x3000, 0xff), (0x40007, 0x40), (0x40019, 0x10), (0x40022, 5), (0x40028, 0x10), (0x4002A, 5), (0x40030, 2), (0x50000, 9), (0x50021, 0x10), (0x50022, 5), (0x50028, 1)]) (fun s1 w =>
      okWith (nodeRead 0x1000 0x40000 (w.getD 4 0) 8 8 (onB s1)) fun s2 l =>
        okWith (readList 0x1000 0x40000 (w.getD 5 0 + 16 * min (ofBytes l) (w.getD 6 0 % 65536 - 1)) 2 s2) fun _ x => x == [0x51000, 1]) ∧
    Taken 5 (nodeAt [(0x1000, 1), (0x1007, 0x11), (0x1009, 0xf), (0x1011, 0x20), (0x2000, 1), (0x2001, 0x30), (0x3000, 0xff), (0x40007, 0x50), (0x40019, 0x10), (0x40022, 5), (0x40028, 1), (0x40030, 1), (0x50002, 4)]) (fun s1 w =>
      s1.ext.isEmpty && decide (w.getD 5 0 / 2 ^ 16 % 4 = 0 ∧ 0 < w.getD 6 0) && okWith (readList 0x1000 0x40000 (w.getD 4 0) (w.getD 5 0 % 65536) (counted s1 w)) fun s5 body =>
        okWith (readAll (readNode 0x1000) body s5) fun s6 _ => body.any fun b => nodeWord s6 0x1000 b 0 / 2 ^ 58 % 4 == 1) ∧
    Taken 5 (nodeAt [(0x1000, 1), (0x1007, 0x11), (0x1009, 0xf), (0x1011, 0x20), (0x2000, 1), (0x2001, 0x30), (0x3000, 0xff), (0x40007, 0x50), (0x40019, 0x10), (0x40022, 5), (0x40028, 1), (0x40030, 1), (0x50000, 0x40), (0x50002, 5), (0x50047, 0x90), (0x50059, 0x10)]) (fun s1 w =>
      okWith (readList 0x1000 0x40000 (w.getD 4 0) (w.getD 5 0 % 65536) (counted s1 w)) fun s5 body =>
        okWith (readAll (readNode 0x1000) body s5) fun s6 _ => body.all fun b => nodeWord s6 0x1000 b 0 / 2 ^ 58 % 4 != 1) ∧
    Taken 5 (nodeAt [(0x1000, 1), (0x1007, 0x11), (0x1009, 0xf), (0x1011, 0x20), (0x2000, 1), (0x2001, 0x30), (0x3000, 0xff), (0x40007, 0x50), (0x40019, 0x10), (0x40022, 5), (0x4002A, 1), (0x4003A, 5)]) (fun s1 w =>
      decide (w.getD 5 0 / 2 ^ 16 % 4 = 1 ∧ w.getD 6 0 = 0) && okWith (nodeRead 0x1000 0x40000 (w.getD 7 0) 8 8 (counted s1 w)) fun _ l => ofBytes l == 0) :=
  ⟨taken_of _ _ _ (by decide +kernel), taken_of _ _ _ (by decide +kernel), taken_of _ _ _ (by decide +kernel), taken_of _ _ _ (by decide +kernel)⟩

/-- SIGNAL with its count at 0 and at 5, WAIT, END, and a node with a reserved field. -/
theorem witness_ending_nodes :
    Taken 6 (nodeAt [(0x1000, 1), (0x1007, 0x11), (0x1009, 0xf), (0x1011, 0x20), (0x2000, 1), (0x2001, 0x30), (0x3000, 0xff), (0x40007, 0x60), (0x40019, 0x10)]) (fun _ w => decide (w.getD 0 0 % 2 ^ 32 = 0)) ∧
    Taken 6 (nodeAt [(0x1000, 1), (0x1007, 0x11), (0x1009, 0xf), (0x1011, 0x20), (0x2000, 1), (0x2001, 0x30), (0x3000, 0xff), (0x40000, 5), (0x40007, 0x60), (0x40019, 0x10)]) (fun _ w => decide (w.getD 0 0 % 2 ^ 32 = 5)) ∧
    Taken 7 (nodeAt [(0x1000, 1), (0x1007, 0x11), (0x1009, 0xf), (0x1011, 0x20), (0x2000, 1), (0x2001, 0x30), (0x3000, 0xff), (0x40007, 0x70), (0x40019, 0x10), (0x40022, 5), (0x40028, 3), (0x40030, 2), (0x50000, 3)]) (fun s1 _ =>
      okWith (nodeRead 0x1000 0x40000 (nodeWord (waitsOn 0x1000 0x40000 (onB s1)) 0x1000 0x40000 4) 8 8 (waitsOn 0x1000 0x40000 (onB s1)))
        fun _ l => waitHolds [0, 0, 0, 0, 0, 3, 2] (ofBytes l) && !waitHolds [0, 0, 0, 0, 0, 3, 1] (ofBytes l)) ∧
    Taken 9 (nodeAt [(0x1000, 1), (0x1007, 0x11), (0x1009, 0xf), (0x1011, 0x20), (0x2000, 1), (0x2001, 0x30), (0x3000, 0xff), (0x40007, 0x90), (0x40019, 0x10), (0x40022, 5), (0x40028, 1)]) (fun s1 w =>
      decide (w.getD 4 0 ≠ 0 ∧ w.getD 4 0 < 2 ^ 52) &&
        okWith (storeAt { nodeEnv (onB s1) 0x1000 0x40000 with scope := 5 } (addrWord (w.getD 4 0)) 8 (toBytes 8 (w.getD 5 0)) (onB s1)) fun _ _ => true) ∧
    okWith (readNode 0x1000 0x40000 (nodeAt [(0x1000, 1), (0x1007, 0x11), (0x1009, 0xf), (0x1011, 0x20), (0x2000, 1), (0x2001, 0x30), (0x3000, 0xff), (0x40007, 0x90), (0x40019, 0x10), (0x40038, 1)])) (fun s1 w => (nodeFault s1 0x1000 0x40000 w).isSome) = true :=
  ⟨taken_of _ _ _ (by decide +kernel), taken_of _ _ _ (by decide +kernel), taken_of _ _ _ (by decide +kernel), taken_of _ _ _ (by decide +kernel),
   by decide +kernel⟩

/-- A node whose completion is under way, one that a checkpoint holds back, one whose RCB is found through a bad table line. -/
theorem witness_walker_holds :
    let m : List Host.Cell := [(0x1000, 1), (0x1007, 0x11), (0x1009, 0xf), (0x1011, 0x20), (0x2000, 1), (0x2001, 0x30), (0x3000, 0xff), (0x40007, 0x60), (0x40019, 0x10)]
    okWith (readNode 0x1000 0x40000 { nodeAt m with completing := [((0x1000, 0x40000), (0x51000, 1))] })
      (fun s1 w => decide (s1.completing.lookup (0x1000, 0x40000) = some (0x51000, 1) ∧ w.getD 0 0 / 2 ^ 58 % 4 < 2)) = true ∧
    okWith (readNode 0x1000 0x40000 { nodeAt m with ckpts := [aCkpt .cut] })
      (fun s1 w => held s1 (nodeRcb s1 0x1000 0x40000) && decide (w.getD 0 0 / 2 ^ 58 % 4 = 0) && s1.completing.isEmpty) = true ∧
    okWith (readNode 0x1000 0x40000 (nodeAt m)) (fun s1 w => (peekBad { s1 with bad := [.phys 0x2000] } 0x1000 (w.getD 3 0) .read true).isSome) = true := by
  decide +kernel

/-! Checkpoints: a CKPT node whose descriptor stands at 0x50000, with one range that no leaf maps. -/

def goodCkpt : List Nat := [1159184322838659072, 8388608, 1048576, 0, 131072, 65536, 393216, 0, 17179869184, 65536]

noncomputable def ck (p : CkptPhase) (got : List (List Byte)) : Ckpt := { aCkpt p with desc := goodCkpt, got := got }

def descAt (s1 : State) (p : State → List Nat → Bool) : Bool :=
  okWith (homeRead 0x1000 0x40000 0x50000 192 64 s1) fun s2 l => p s2 ((List.range 24).map fun k => ofBytes ((l.drop (8 * k)).take 8))

/-- A descriptor that is good, one that is not, one of a restore; a status word that can be written. -/
theorem witness_ckpt_start :
    Taken 8 (nodeAt [(0x1000, 1), (0x1007, 0x11), (0x1009, 0xf), (0x1011, 0x20), (0x2000, 1), (0x2001, 0x30), (0x3000, 0xff), (0x40007, 0x80), (0x40019, 0x10), (0x40022, 5), (0x50005, 0x40), (0x50006, 0x16), (0x50007, 0x10), (0x5000A, 0x80), (0x50012, 0x10), (0x50022, 2), (0x5002A, 1), (0x50032, 6), (0x50044, 4), (0x5004A, 1)]) (fun s1 w => decide (w.getD 4 0 = 0x50000) && descAt s1 fun s2 d => (ckptFault s2 0x1000 0x50000 d).isNone &&
      s2.ckpts.isEmpty && decide (d.getD 0 0 / 2 ^ 59 % 2 = 0) && storedWith (ckptStatus { ck .cut [] with desc := d, gen := d.getD 7 0 + 1 } 1 0
        (active 0x1000 0x40000 s2)) fun s3 => (residentsBeneath s3 (nodeRcb s2 0x1000 0x40000)).isEmpty) ∧
    Taken 8 (nodeAt [(0x1000, 1), (0x1007, 0x11), (0x1009, 0xf), (0x1011, 0x20), (0x2000, 1), (0x2001, 0x30), (0x3000, 0xff), (0x40007, 0x80), (0x40019, 0x10), (0x40022, 5), (0x50005, 0x40), (0x50006, 0x16), (0x50007, 0x10), (0x5000A, 0x80), (0x50012, 0x10), (0x50018, 1), (0x50022, 2), (0x5002A, 1), (0x50032, 6), (0x50044, 4), (0x5004A, 1)]) (fun s1 _ => descAt s1 fun s2 d => (ckptFault s2 0x1000 0x50000 d).isSome) ∧
    Taken 8 (nodeAt [(0x1000, 1), (0x1007, 0x11), (0x1009, 0xf), (0x1011, 0x20), (0x2000, 1), (0x2001, 0x30), (0x3000, 0xff), (0x40007, 0x80), (0x40019, 0x10), (0x40022, 5), (0x50005, 0x40), (0x50006, 0x16), (0x50007, 0x18), (0x5000A, 0x80), (0x50012, 0x10), (0x50022, 2), (0x5002A, 1), (0x50032, 6), (0x50044, 4), (0x5004A, 1)]) (fun s1 _ => descAt s1 fun s2 d => (ckptFault s2 0x1000 0x50000 d).isNone && decide (d.getD 0 0 / 2 ^ 59 % 2 = 1)) ∧
    (let s3 := loaded .v
     numFrames s3 0x1000 - ((s3.blocks.filter fun b => sameSpill s3 (blockCtx s3 b) 0x1000).filterMap (·.frame)).length < (residentsBeneath s3 0x1000).length) :=
  ⟨taken_of _ _ _ (by decide +kernel), taken_of _ _ _ (by decide +kernel), taken_of _ _ _ (by decide +kernel), by decide +kernel⟩

theorem phase_of (s : State) (c : Ckpt) (ctx va : Nat) (p : CkptPhase)
    (h : s.ckpts.find? (fun c => c.ctx == ctx && c.va == va && c.phase == p) = some c) : InPhase s ctx va p c := h

noncomputable def ckState (c : Ckpt) : State := { nodeAt [(0x1000, 1), (0x1007, 0x11), (0x1009, 0xf), (0x1011, 0x20), (0x2000, 1), (0x2001, 0x30), (0x3000, 0xff), (0x40007, 0x80), (0x40019, 0x10), (0x40022, 5), (0x50005, 0x40), (0x50006, 0x16), (0x50007, 0x10), (0x5000A, 0x80), (0x50012, 0x10), (0x50022, 2), (0x5002A, 1), (0x50032, 6), (0x50044, 4), (0x5004A, 1)] with ckpts := [c] }

def stalls {α : Type} (x : State × Got α) : Bool :=
  match x.2 with
  | .stall => true
  | _ => false

/-- A reserve that is too small for any record. -/
noncomputable def noRoom : Ckpt := { ck .cut [] with desc := goodCkpt.set 2 0 }

/-- The bytes of a cut's records. -/
noncomputable def cutTotal (s1 : State) (c : Ckpt) : Nat :=
  64 + pad64 (cutRecord s1 c).length + ((skimRecords s1 c).map fun r => 64 + pad64 r.2.2.2).sum

/-- The cut: while a block runs, and when none does; a reserve that holds the records and one that is too small. -/
theorem witness_ckpt_cut :
    (InPhase (ckState (ck .cut [])) 0x1000 0x40000 .cut (ck .cut []) ∧ InPhase (ckState noRoom) 0x1000 0x40000 .cut noRoom) ∧
    cutDone (ckState (ck .cut [])) (ck .cut []) = true ∧
    (∀ x ∈ (ckState (ck .cut [])).ckpts, x = ck .cut []) ∧ cutDone (loaded .v) (ck .cut []) = false ∧
    storedWith (ckptStatus (ck .cut []) 2 0 (ckState (ck .cut []))) (fun s1 =>
      let c := ck .cut []
      decide (cutTotal s1 c ≤ c.desc.getD 2 0 ∧ cutTotal s1 c ≤ c.desc.getD 4 0 - 64 ∧ (cutRecord s1 c).length ≤ 65536)) = true ∧
    cutDone (ckState noRoom) noRoom = true ∧
    storedWith (ckptStatus noRoom 2 0 (ckState noRoom)) (fun s1 => decide (noRoom.desc.getD 2 0 < cutTotal s1 noRoom)) = true :=
  ⟨⟨phase_of _ _ _ _ _ (by decide +kernel), phase_of _ _ _ _ _ (by decide +kernel)⟩, by decide +kernel⟩

/-- The skim without a page in an aperture ends; a page of a peer is read: without a route, with one, with its answer. -/
noncomputable def farState : State :=
  { nodeAt [(0x1000, 1), (0x1007, 0x11), (0x1009, 0xf), (0x1011, 0x20), (0x2000, 1), (0x2001, 0x30), (0x3000, 0xff), (0x3008, 0xff), (0x300D, 0x40), (0x40007, 0x80), (0x40019, 0x10), (0x40022, 5)] with ckpts := [ck .skim []] }

theorem witness_ckpt_skim :
    (let c := ck .skim []
     let s := ckState c
     InPhase s 0x1000 0x40000 .skim c ∧ ((skimRecords s c).filter fun r => isAperture s r.2.2.1) = [] ∧
     (∀ r ∈ skimRecords s c, badIn s r.2.2.1 r.2.2.2 = false) ∧
     storedWith (ckptStatus c 3 0 ((skimLeaves s c).foldl (fun s x => cleanLeaf c x s)
       (writeRecords (c.desc.getD 1 0) ((3, c.gen, cutRecord s c) :: skimData s (skimRecords s c) c.got) s))) (fun v => v.notices.isEmpty) = true) ∧
    (let c := ck .skim []
     InPhase farState 0x1000 0x40000 .skim c ∧
     (match (skimRecords farState c).filter (fun r => isAperture farState r.2.2.1) with
      | r :: _ => traps (apertureAccess (ckEnv c) (addrWord r.2.1) r.2.2.1 r.2.2.2 none .read farState) &&
          stalls (apertureAccess (ckEnv c) (addrWord r.2.1) r.2.2.1 r.2.2.2 none .read { farState with routes := vset farState.routes 0 1 })
      | [] => false) = true) := by
  refine ⟨⟨phase_of _ _ _ _ _ (by decide +kernel), by decide +kernel, by decide +kernel, by decide +kernel⟩,
    phase_of _ _ _ _ _ (by decide +kernel), by decide +kernel⟩

def noAnswer : ExtReq :=
  { id := 0, owner := .ckpt 0x1000 0x40000, pa := 0x400000000000 + 16, va := 0, n := 8, data := some (toBytes 8 2), cls := 15, link := 0, got := none, kept := [] }

/-- An access with a route, without one, and with its answer; the phases of the drain, first and last. -/
theorem witness_ckpt_access :
    let s := ckState (ck .drain [])
    let o := CkOp.write 16 (toBytes 8 2)
    let routed : State := { s with routes := vset s.routes 0 1 }
    stalls (ckAccess (ck .drain []) o routed) = true ∧ traps (ckAccess (ck .drain []) o s) = true ∧
    okWith (ckAccess (ck .drain []) o { s with ext := [{ noAnswer with got := some (some []) }] }) (fun _ _ => true) = true ∧
    s.copies = [] ∧ (drainOp s (ck .drain [])).isSome = true ∧ drainOp s (ck .drain [toBytes 64 0]) = none ∧
    (∃ x ∈ [{ aCopy with q := .front 0, id := 4 }], x.q = .front (ck .drain []).die ∧ x.id < (ck .drain []).id) ∧
    mirrorOp s (ck .apply []) 0 = none ∧
    (mirrorOp (nodeAt [(0x1000, 1), (0x1007, 0x11), (0x1009, 0xf), (0x1011, 0x20), (0x2000, 1), (0x2001, 0x30), (0x3000, 0xff), (0x40007, 0x80), (0x40019, 0x10), (0x40022, 5), (0x50005, 0x40), (0x50006, 0x16), (0x50007, 0x10), (0x5000A, 0x80), (0x50012, 0x10), (0x50022, 2), (0x5002A, 1), (0x50032, 6), (0x50044, 4), (0x5004A, 1), (0x800007, 0x10), (0x80000C, 4), (0x800010, 0x40)]) { ck .apply [] with bytes := 128 } 0).isSome = true := by
  decide +kernel

theorem witness_ckpt_phases :
    (∀ p ∈ [CkptPhase.cut, .skim, .drain, .commit, .apply, .applyDone, .restoreApply, .restoreAccept], ∀ got ∈ [[], [([] : List Byte)]],
      InPhase (ckState (ck p got)) 0x1000 0x40000 p (ck p got)) ∧
    storedWith (ckptStatus (ck .applyDone [[]]) 4 0 (putWord 0x1000 (0x50000 + 56) 1 (dropCkpt (ck .applyDone [[]]) (ckState (ck .applyDone [[]])))))
      (fun _ => true) = true := by
  refine ⟨fun p hp got hg => ?_, by decide +kernel⟩
  simp only [List.mem_cons, List.not_mem_nil, or_false] at hp hg
  rcases hp with rfl | rfl | rfl | rfl | rfl | rfl | rfl | rfl <;> rcases hg with rfl | rfl <;> exact phase_of _ _ _ _ _ (by decide +kernel)

/-- A cut record with one block in frame f. -/
def record (f : Nat) : List Byte := toBytes 8 0x53484B43 ++ toBytes 16 0 ++ toBytes 8 (2 ^ 32) ++ toBytes 32 0 ++ toBytes 16 f

theorem witness_restore :
    let h := toBytes 64 0
    let s := nodeAt [(0x1000, 1), (0x1007, 0x11), (0x1009, 0xf), (0x1011, 0x20), (0x103A, 3), (0x1042, 0x20), (0x2000, 1), (0x2001, 0x30), (0x3000, 0xff), (0x30010, 1)]
    (∃ o, oldApply goodCkpt [] = .inl o) ∧ oldApply goodCkpt [h] = .inr [] ∧ oldApply goodCkpt [h, record 0, []] = .inr [record 0, []] ∧
    ofBytes ((toBytes 8 1).take 8) ≠ 0x53484B43 ∧ cutBad s 0x1000 (record 0) = false ∧ cutBad s 0x1000 (record 1) = true ∧
    (restorePlan goodCkpt (cutFrames (record 0)))[0]? = some (0x20000 + 0x10000, .va (2 ^ 34)) ∧
    (restorePlan goodCkpt (cutFrames (record 0)))[1]? = some (0x20000 + 0x10000, .slot 0 0) ∧
    ([([] : List Byte), [1]].filter (·.isEmpty)).length = 1 ∧
    (restorePlan goodCkpt (cutFrames (record 0)))[25]? = none ∧
    okWith (ckAccess (ck .restoreApply []) (.read 0x30000 65536) { s with ext := [{ noAnswer with pa := 0x400000030000, n := 65536, data := none, got := some (some []) }] })
      (fun _ _ => true) = true ∧
    ofBytes (((toBytes 24 0 ++ toBytes 4 1).drop 0x18).take 4) = 1 := by
  refine ⟨⟨_, rfl⟩, ?_⟩
  decide +kernel

theorem witness_accept :
    let c := { ck .restoreAccept [] with record := toBytes 24 0 ++ toBytes 4 1 ++ toBytes 36 0 ++ toBytes 24 0 ++ toBytes 8 0x1000 }
    entryAvailable (nodeAt [(0xF22, 0xff), (0xF23, 0xff), (0x1000, 1), (0x1007, 0x11), (0x1009, 0xf), (0x1011, 0x20), (0x1022, 0xff), (0x1023, 0xff), (0x2000, 1), (0x2001, 0x30), (0x3000, 0xff)]) 0 (packetRcb (nodeAt [(0xF22, 0xff), (0xF23, 0xff), (0x1000, 1), (0x1007, 0x11), (0x1009, 0xf), (0x1011, 0x20), (0x1022, 0xff), (0x1023, 0xff), (0x2000, 1), (0x2001, 0x30), (0x3000, 0xff)]) 0x1000 (cutLaunch (nodeAt [(0xF22, 0xff), (0xF23, 0xff), (0x1000, 1), (0x1007, 0x11), (0x1009, 0xf), (0x1011, 0x20), (0x1022, 0xff), (0x1023, 0xff), (0x2000, 1), (0x2001, 0x30), (0x3000, 0xff)]) c 0).packet) = true ∧
    entryAvailable (nodeAt [(0x1000, 1), (0x1007, 0x11), (0x1009, 0xf), (0x1011, 0x20), (0x2000, 1), (0x2001, 0x30), (0x3000, 0xff)]) 0 (packetRcb (nodeAt [(0x1000, 1), (0x1007, 0x11), (0x1009, 0xf), (0x1011, 0x20), (0x2000, 1), (0x2001, 0x30), (0x3000, 0xff)]) 0x1000 (cutLaunch (nodeAt [(0x1000, 1), (0x1007, 0x11), (0x1009, 0xf), (0x1011, 0x20), (0x2000, 1), (0x2001, 0x30), (0x3000, 0xff)]) c 0).packet) = false := by
  decide +kernel

/-! Hosts, links and the device. -/

/-- A live port whose three periods end now, the numbers at the ends of the registers' ranges, and operands of the commands. -/
theorem witness_hosts :
    (let p : HostPort := { State.reset.ports[0] with alive := true, lastBeat := 0, hbper := 10 }
     p.lastBeat + 3 * p.hbper.toNat * 1000000 ≤ 30000000 ∧ 29999999 < p.lastBeat + 3 * p.hbper.toNat * 1000000) ∧
    ((vget State.reset.ports 1).failed = false ∧ (vget State.reset.ports 1).busy = false ∧ State.reset.booted = true ∧
     vget State.reset.depth 0 = 0 ∧ (10 ≤ (10 : Word).toNat ∧ (10000 : Word).toNat ≤ 10000) ∧
     vget { State.reset with depth := vset State.reset.depth 0 3 }.depth 0 ≠ 0) ∧
    (∃ c, commandFor 1 0 = some c) ∧ (∃ c, commandFor 7 1 = some c) ∧ commandFor 8 0 = none ∧ commandFor 0 0 = none ∧
    knownCtxs State.reset = [] ∧ knownCtxs (loaded .v) = [0x1000] ∧ Memory.wf State.reset.mem = true ∧ State.reset.share ≤ 6 ∧ State.reset.mem = [] ∧
    (let s := loaded .v
     ¬ (0x1000 % 128 ≠ 0 ∨ isDram s 0x1000 = false ∨ rcbKind s 0x1000 ≠ 1) ∧ ctxHost s 0x1000 = 0 ∧ ctxHost s 0x1000 ≠ 1) := by
  exact ⟨by decide +kernel, by decide +kernel, ⟨_, rfl⟩, ⟨_, rfl⟩, rfl, rfl, by decide +kernel⟩

/-- A host has failed that has one context with a filled slot. -/
theorem witness_failed_host :
    let s := slotState 1 0 (loaded .v)
    ((knownCtxs s).filter fun c => ctxHost s c == 0).length ≤ 1 ∧ rcbWord s 0x1000 9 = 0 ∧ 0 ∈ occupied s (queueBase s 0x1000 0) ∧
    slotWord s (queueBase s 0x1000 0) 0 2 = 0x1000 := by
  decide +kernel

theorem witness_outside :
    let w : Window := { base := 0x1000, size := 16, read := true, write := false }
    let s : State := { State.reset with windows := vset State.reset.windows 15 w }
    Memory.wf s.mem = true ∧ (∀ k < 16, isDram s (0x1000 + k) = true) ∧ badIn s 0x1000 16 = false ∧ vget s.depth (homeDie s 0x1000) = 0 ∧
    (∃ w ∈ s.windows.toList, w.base ≤ 0x1000 ∧ 0x1000 + 16 ≤ w.base + w.size ∧ w.read = true) ∧
    (∀ w ∈ s.windows.toList, ¬ (w.base ≤ 0x1000 ∧ 0x1000 + 8 ≤ w.base + w.size ∧ w.write = true)) ∧
    0x2FFFFFF8 + 8 ≤ 0x30000000 ∧ swf (0 : Byte) (vget s.cellar 3) = true := by
  decide +kernel

/-- Weight-store bytes that the loaded context guards, and bytes of another 2 MiB. -/
theorem witness_guarded :
    let s : State := { nodeAt [(0x1000, 1), (0x1007, 0x11), (0x1009, 0xf), (0x1011, 0x20), (0x105A, 6), (0x2000, 1), (0x2001, 0x30), (0x3000, 0xff), (0x60000, 1)] with launches := [newLaunch] }
    cellarOwned s 0x1000 0 0 = true ∧ cellarOwned s 0x1000 0 (2 ^ 21) = false ∧ (0x1000 ∈ knownCtxs s) ∧ ∃ k ∈ s.launches, k.ctx = 0x1000 := by
  decide +kernel

theorem witness_answers :
    let s : State := { State.reset with ext := [noAnswer, { noAnswer with id := 1, owner := .posted 0x1000 0, pa := 0x800000000000 }] }
    (s.ext.find? fun e => e.id == 0) = some noAnswer ∧ noAnswer.got = none ∧ paKind s noAnswer.pa = .peer 0 ∧ noAnswer.data.isSome = true ∧
    paKind s 0x800000000000 = .host 0 ∧ (s.ext.map (·.id)).Nodup ∧ noAnswer.link = 0 ∧
    (vget s.wires 15).up = true ∧ vget { s with wires := Vector.replicate 16 { vget s.wires 0 with rewidth := some 2 } }.wires 15 =
      { vget s.wires 0 with rewidth := some 2 } := by
  decide +kernel

/-- Samples at the limits of power, boost off and on, trip points, a band in use and one that is not, an idle die, expiring hints. -/
theorem witness_power :
    (3300000 ≤ 3300000 ∧ 3300000 + (State.reset.powers.sum) ≤ 3300000 * (State.reset.powers.length + 1)) ∧ 3600000 < 3600001 ∧
    State.reset.boost = true ∧ { State.reset with boost := false }.boost = false ∧ State.reset.tripC.toNat ≥ 10 ∧ State.reset.tripD.toNat ≥ 10 ∧
    (∃ b ∈ (loaded .m).blocks, b.res ≠ .held ∧ ({ b.place with part := 0 } : Place) = { die := 0, cl := 4, site := 0, part := 0 } ∧ b.ben.getLsbD 3 = true) ∧
    State.reset.blocks = [] ∧ dieIdle State.reset 3 = true ∧ dieIdle (loaded .m) 0 = false ∧ (∀ n ∈ [1, 2, 19, 20, 199, 200, 4999, 5000], n < 2 ^ 32) ∧
    (let h : Hint := { kind := 1, expires := none }
     (findBlock (modB (fun b => { b with hint := some h }) (loaded .m)) 0).isSome = true ∧ (getBlock (modB (fun b => { b with hint := some h }) (loaded .m)) 0).hint = some h) := by
  decide +kernel

/-- An exchange that may start, one that a block in the supervisor blocks, one whose 100 µs are over, a core in two halves. -/
theorem witness_exchanges :
    let p : Pan := { die := 0, cl := 4, hot := 0, cool := 31, point := 0, moving := false }
    let s : State := { loaded .v with pans := [p], running := [] }
    let mine (b : Block) : Bool := b.res != .held && b.place.die == 0 && b.place.cl == 4 && (b.place.site == p.hot || b.place.site == p.cool)
    (s.pans.find? fun p => p.die == 0 && p.cl == 4) = some p ∧ p.moving = false ∧
    (s.blocks.any fun b => mine b && (b.preempt || b.res != .resident || b.groups.any (·.sup))) = false ∧ s.blocks.any mine = true ∧
    (∀ a ∈ s.blocks, ∀ b ∈ s.blocks, a.uid = b.uid → a = b) ∧
    ((privileged .v 0).blocks.any fun b => mine b && b.groups.any (·.sup)) = true ∧ 100000 ≤ p.point + 100000 ∧ p.point + 100000 < 100001 ∧
    p.hot ≠ p.cool ∧ ({ die := 0, cl := 4, site := 0, part := 0 } : Place) ∈ { s with parted := [{ die := 0, cl := 4, site := 0, part := 0 }] }.parted ∧
    ({ die := 0, cl := 4, site := 0, part := 0 } : Place) ∉ s.parted := by
  decide +kernel

/-- The calendar in the window of bank group 0, and after another's. -/
theorem witness_calendar : ∃ s : State, (calendar s 0 % 48000 / 3000 = 0 ∧ calendar s 0 % 48000 % 3000 < 1200) ∧
    vget s.refreshing 0 = some 1 ∧ calendar s 0 % 48000 / 3000 ≠ 1 := by
  refine ⟨{ State.reset with now := 48000 - Config.calendarLead (4 * State.reset.resets + 0) % 48000, refreshing := vset State.reset.refreshing 0 (some 1) }, ?_, rfl, ?_⟩ <;>
    simp only [calendar] <;> omega

theorem witness_scrubs : State.reset.bad = [] ∧ badTarget { loaded .v with bad := [.spad 0 65535] } (.spad 0 65535) = true ∧
    (findBlock (loaded .v) 0).isSome = true := by
  decide +kernel

/-- A cluster's domain at its trip point of 95 °C and a step below, at the emergency point and below, with the dwell over and not. -/
theorem witness_thermal :
    let tp := 8 * State.reset.tripC.toNat
    (vget State.reset.domains 0).throttled = false ∧ (2000000 ≤ 2000000 - (vget State.reset.domains 0).since) ∧
    ¬ (2000000 ≤ 1999999 - (vget State.reset.domains 0).since) ∧
    (tp + 80 ≤ tp + 80) ∧ (tp ≤ tp ∧ tp < tp + 80) ∧ (tp - 1 < tp) ∧ (tp - 25 + 24 < tp) ∧ tp ≤ tp - 24 + 24 ∧
    (vget { State.reset with domains := Vector.replicate 24 { vget State.reset.domains 0 with throttled := true } }.domains 23).throttled = true := by
  decide +kernel

/-! The walk: a context whose tables lead over four levels to a leaf. -/

noncomputable def walked : State := nodeAt [(0x1000, 1), (0x1007, 0x11), (0x1009, 0xf), (0x1011, 0x20), (0x2000, 1), (0x2001, 0x30), (0x3000, 1), (0x3001, 0x40), (0x4000, 1), (0x4001, 0x50), (0x5000, 0x3f), (0x5002, 9)]

theorem witness_walk :
    (walked.bad = [] ∧ tlbFind walked (.front 0) (ctxAsid walked 0x1000) 0x1234 .read false = none ∧ ctxRootTable walked 0x1000 = 0x2000 ∧
     walked.walker = [] ∧ ctxRootTable State.reset 0x1000 = 0) ∧
    (∀ m : Fin 3, entryOf walked 0x2000 0x1234 m % 4 = 1 ∧ ¬ badEntry (entryOf walked 0x2000 0x1234 m) m) ∧
    (let e := entryOf walked 0x2000 0x1234 3
     e % 2 = 1 ∧ ¬ badEntry e 3 ∧ e / 2 % 2 = 1 ∧ paKind walked (e / 2 ^ 12 % 2 ^ 36 * 4096) ≠ .nothing) ∧
    entryOf walked 0x2000 (2 ^ 16) 3 % 2 = 0 := by
  refine ⟨by decide +kernel, ?_, ?_, by decide +kernel⟩ <;> (unfold badEntry; decide +kernel)

/-- Entries at the ends of the clauses: malformed ones of each kind, one without permission, one that maps no memory. -/
theorem witness_entries :
    (∀ x ∈ [(2 ^ 60 + 1, 0), (2 ^ 48 + 1, 1), (2 ^ 8 + 3, 3), (5, 0), (3, 0), (1, 3), (2 ^ 12 + 3, 2), (2 ^ 33 + 3, 1), (2 ^ 15 + 3, 3), (11, 3)],
      badEntry x.1 x.2) ∧ ¬ badEntry (2 ^ 16 + 0xFF) 3 ∧
    allows 0x2F .write false ∧ ¬ allows 0x27 .write true ∧ ¬ allows 0x0F .link false ∧ allows 0x0F .link true ∧
    paKind State.reset (2 ^ 37 * 5) = .nothing := by
  refine ⟨by unfold badEntry; decide, by unfold badEntry; decide, ⟨.inr (by decide), (by decide : 0x2F / 8 % 2 = 1)⟩, fun h => absurd (show 0x27 / 8 % 2 = 1 from h.2) (by decide),
    fun h => absurd h.1 (by decide), ⟨.inl rfl, (by decide : 0x0F / 4 % 2 = 1 ∧ 0x0F / 8 % 2 = 1)⟩, by decide +kernel⟩

/-! Forms, places, checks and waits that the statements name one by one. -/

/-- A melded region of an M-role group. -/
noncomputable def meldedM : State := modG (fun g => { g with role := .m }) (melded false)

/-- Instructions of both kinds that a frame forbids, and the gang instructions in a region of an M-role group. -/
theorem witness_forbidden_forms : FrameForbidden (.matrixLongForm true 15 0 0 0 0) false ∧ FrameForbidden (.vldx false 1 2 3 0 0) true ∧
    FrameForbidden (.memLongOffsetForm false 1 2 0xB 0 0 0) (decide ((0xD : Nat) ≤ 0xB)) ∧
    (GangInstr (.matrixLongForm false 7 0 0 0 15) ∧ Issues meldedM ∧ NoFrame meldedM ∧ (curMeld meldedM).isSome = true ∧ InRole .m meldedM) :=
  ⟨.matrixLongForm .., .vldx .., .memLongOffsetForm _ _ _ _ _ _ _ (by decide), .long .., issues_of _ (by decide +kernel),
   (by decide +kernel : (curPath meldedM).rpt = none), by decide +kernel, (by decide +kernel : (curGroup meldedM).role = .m)⟩

/-- Tokens at their ends: both members at a vjoin; one at a vmeld and one at a vjoin of it; the two at one vmeld at different depths. -/
noncomputable def tokensAt (x y : PathRun) : State :=
  modG (fun g => { g with paths := g.paths.zipIdx.map fun p => { p.1 with run := if p.2 = 0 then x else y } }) member

theorem witness_tokens :
    (let g := curGroup (tokensAt (.atJoin 3) (.atJoin 3)); (∀ k < 3, canResolve g k = false ∧ canDecide g k = false) ∧ canResolve g 3 = true) ∧
    (let g := curGroup (tokensAt (.atJoin 3) (.atMeld 3 0x40000))
     (∀ k < 3, canResolve g k = false ∧ canDecide g k = false) ∧ canDecide g 3 = true ∧
     (g.paths.filter fun p => p.tokens.getLsbD 3 && atMeldOf 3 p).length = 1) ∧
    (let g := curGroup (modG (fun g => { g with paths := g.paths.zipIdx.map fun p => { p.1 with rets := List.replicate p.2 0 } })
       (tokensAt (.atMeld 3 0x40000) (.atMeld 3 0x40000)))
     (∀ k < 3, canResolve g k = false ∧ canDecide g k = false) ∧ canDecide g 3 = true ∧
     ∃ a b, (g.paths.filter fun p => p.tokens.getLsbD 3 && atMeldOf 3 p) = [a, b] ∧ a.pc = b.pc ∧ a.rets.length ≠ b.rets.length) := by
  refine ⟨by decide +kernel, by decide +kernel, and_assoc.1 ⟨by decide +kernel, ?_⟩⟩
  have h : (match ((curGroup (modG (fun g => { g with paths := g.paths.zipIdx.map fun p => { p.1 with rets := List.replicate p.2 0 } })
       (tokensAt (.atMeld 3 0x40000) (.atMeld 3 0x40000)))).paths.filter fun p => p.tokens.getLsbD 3 && atMeldOf 3 p) with
    | [a, b] => decide (a.pc = b.pc ∧ a.rets.length ≠ b.rets.length)
    | _ => false) = true := by decide +kernel
  split at h
  · rename_i a b e; exact ⟨a, b, e, of_decide_eq_true h⟩
  · cases h

/-- The same state with another address in s4, and one element. -/
noncomputable def at4 (x : Word) : State := regs [(4, x)] (modG (fun g => { g with vl := 1 }) dataState)

/-- The loaded context owns the first 2 MiB of every weight store; a tenant beside the block; an allocation in transit. -/
noncomputable def withCellar : State := { physPut none 0x60000 8 1 (physPut none 0x1058 8 0x60000 dataState) with past := [] }
noncomputable def inTransit : State := modB (fun b => { b with transit := true }) dataState

def faults {α : Type} (x : State × Got α) (p : State → Bool) : Bool :=
  match x with
  | (t, .fault _ _ _ _) => p t
  | _ => false

theorem faults_of {α : Type} (x : State × Got α) (p : State → Bool) (h : faults x p = true) :
    ∃ t ft lv va k, x = (t, .fault ft lv va k) ∧ p t = true := by
  obtain ⟨t, r⟩ := x
  cases r <;> simp [faults] at h
  exact ⟨t, _, _, _, _, rfl, h⟩

def stallsWith {α : Type} (x : State × Got α) (p : State → Bool) : Bool :=
  match x with
  | (t, .stall) => p t
  | _ => false

theorem stalls_of {α : Type} (x : State × Got α) (p : State → Bool) (h : stallsWith x p = true) : ∃ t, x = (t, .stall) ∧ p t = true := by
  obtain ⟨t, r⟩ := x
  cases r <;> simp [stallsWith] at h
  exact ⟨t, rfl, h⟩

def noLeaf (x : State × TrRes) : Bool :=
  match x.2 with
  | .fault _ _ => true
  | _ => false

/-- Addresses that fail their checks, that no leaf maps, of another tenant, of the weight store, of an allocation in transit and of a bank
group in its window. -/
theorem witness_places :
    (decodeAddr dataState (curEnv 0 1 dataState) (pad + 1) 2 2 false = .error 0x04 ∧
      decodeAddr dataState (curEnv 0 1 dataState) 0xC000000000000000 1 1 true = .error 0x08) ∧
    (decodeAddr dataState (curEnv 0 1 dataState) (2 ^ 40) 8 8 false = .ok (.glob (2 ^ 40)) ∧ (2 ^ 40) % 65536 + 8 ≤ 65536 ∧
      keptPa (curEnv 0 1 dataState) (2 ^ 40) dataState = none ∧
      noLeaf (translate (curEnv 0 1 dataState).side (curEnv 0 1 dataState).ctx (2 ^ 40) .read (curEnv 0 1 dataState).sup dataState) = true ∧
      noLeaf (translate (curEnv 0 1 dataState).side (curEnv 0 1 dataState).ctx (2 ^ 40) .write (curEnv 0 1 dataState).sup dataState) = true) ∧
    (decodeAddr setOfTwo (curEnv 0 1 setOfTwo) 0xD00000000010FFF8 8 8 false = .ok (.spad 1 65528) ∧ (getBlock setOfTwo 1).transit = false ∧
      badRange setOfTwo (.spad 1) 65528 8 = false ∧ upToDate setOfTwo (curWho setOfTwo) .scalar 0 = true) ∧
    (decodeAddr withCellar (curEnv 0 1 withCellar) 0xC0000000001FFFF8 8 8 false = .ok (.cellar 0 0x1FFFF8) ∧
      (∀ i < 8, inRefresh withCellar 0 (0x1FFFF8 + i) = false) ∧ badRange withCellar (.cellar 0) 0x1FFFF8 8 = false ∧
      upToDate withCellar (curWho withCellar) .scalar 15 = true ∧
      ∃ i < 8, inRefresh { withCellar with refreshing := vset withCellar.refreshing 0 (some 15) } 0 (0x1FFFF8 + i) = true) ∧
    (decodeAddr inTransit (curEnv 0 1 inTransit) pad 8 8 false = .ok (.spad 0 0) ∧ (getBlock inTransit 0).transit = true) := by
  decide +kernel

/-- Parties and slots of a fence: the path's own accesses in a class that it names, and in supervisor mode every party. -/
theorem witness_fences : swf (0 : Nat) (curGroup dataState).floors = true ∧ (∀ x ∈ [0, 16, 47, 63], x < 64) ∧
    follows (curGroup dataState) 0 .scalar (pathParty 0) = true ∧ slotOrders 0 32 = true ∧ slotOrders 15 0 = true ∧ slotOrders 3 2 = false ∧
    (curGroup (privileged .c 0)).sup = true ∧ ([pathParty 0] : List Nat) ≠ [] := by
  decide +kernel

/-- The executing path is the same one. -/
noncomputable def stays (s t : State) : Bool := decide ((curWho s = who0 ∧ exPath s = 0) ∧ curWho t = who0 ∧ exPath t = 0)
noncomputable def loadsFrom (x : Word) (s : State) : State × Got (List Byte) := loadAt (curEnv 0 1 s) x 8 8 s
noncomputable def storesTo (x : Word) (s : State) : State × Got Unit := storeAt (curEnv 0 1 s) x 8 (toBytes 8 5) s

/-- Scalar accesses of DRAM and of an allocation in transit: one that succeeds, one that faults, one that waits. -/
theorem witness_scalar_reach :
    (∃ q, ScalarAccess (.sld false 9 4 0 3 0) q ∧ q.store = false ∧ q.m.cls = 0 ∧ q.m.scope = 1 ∧ q.w = 8) ∧
    ∃ q, ScalarAccess (.sst false 9 4 0 3 0) q ∧ q.store = true ∧ q.m.cls = 0 ∧ q.m.scope = 1 ∧ q.m.rel = false ∧ q.w = 8 :=
  ⟨⟨_, .sld .., rfl, rfl, rfl, rfl⟩, ⟨_, .sst .., rfl, rfl, rfl, rfl, rfl⟩⟩

theorem witness_loads_from : (∃ t l, loadsFrom 0x40000 (at4 0x40000) = (t, .ok l) ∧ stays (at4 0x40000) t = true) ∧
    (∃ t ft lv va k, loadsFrom (2 ^ 40) (at4 (2 ^ 40)) = (t, .fault ft lv va k) ∧ stays (at4 (2 ^ 40)) t = true) ∧
    ∃ t, loadsFrom pad inTransit = (t, .stall) ∧ stays inTransit t = true :=
  have h1 : okWith (loadsFrom 0x40000 (at4 0x40000)) (fun t _ => stays (at4 0x40000) t) = true := by decide +kernel
  have h2 : faults (loadsFrom (2 ^ 40) (at4 (2 ^ 40))) (stays (at4 (2 ^ 40))) = true := by decide +kernel
  have h3 : stallsWith (loadsFrom pad inTransit) (stays inTransit) = true := by decide +kernel
  ⟨ok_of _ _ h1, faults_of _ _ h2, stalls_of _ _ h3⟩

theorem witness_stores_to : (∃ t u, storesTo 0x40000 (at4 0x40000) = (t, .ok u) ∧ stays (at4 0x40000) t = true) ∧
    (∃ t ft lv va k, storesTo (2 ^ 40) (at4 (2 ^ 40)) = (t, .fault ft lv va k) ∧ stays (at4 (2 ^ 40)) t = true) ∧
    ∃ t, storesTo pad inTransit = (t, .stall) ∧ stays inTransit t = true :=
  have h1 : okWith (storesTo 0x40000 (at4 0x40000)) (fun t _ => stays (at4 0x40000) t) = true := by decide +kernel
  have h2 : faults (storesTo (2 ^ 40) (at4 (2 ^ 40))) (stays (at4 (2 ^ 40))) = true := by decide +kernel
  have h3 : stallsWith (storesTo pad inTransit) (stays inTransit) = true := by decide +kernel
  ⟨ok_of _ _ h1, faults_of _ _ h2, stalls_of _ _ h3⟩

/-- Vector accesses of one element of DRAM: one that gives bytes, one that faults, a store. -/
theorem witness_vector_reach :
    (∃ v q, VecAccess (.vld false 63 4 0 0 0) v q ∧ q.kind = 0 ∧ Runs (at4 0x40000) ∧ NoFrame (at4 0x40000) ∧ VecReady v q.uses (some v.wide) (at4 0x40000) ∧
      activeEls v (at4 0x40000) = [0] ∧ q.addr (at4 0x40000) 0 = 0x40000 ∧ (scalarFor v (at4 0x40000) 0 v.a).toNat / 2 ^ 60 = 0 ∧
      (∃ t l, loadAt (envAt v q.m (at4 0x40000) 0 1) (BitVec.ofInt 64 (q.addr (at4 0x40000) 0)) q.w q.w (at4 0x40000) = (t, .ok l) ∧
        decide (l.length = 4) = true) ∧
      ∃ t ft lv va k, loadAt (envAt v q.m (at4 (2 ^ 40)) 0 1) (BitVec.ofInt 64 (q.addr (at4 (2 ^ 40)) 0)) q.w q.w (at4 (2 ^ 40)) = (t, .fault ft lv va k) ∧
        decide (activeEls v (at4 (2 ^ 40)) = [0]) = true) ∧
    (∃ v q, VecAccess (.vst false 63 4 0 0 0) v q ∧ q.kind = 1 ∧ VecReady v (.reg v.d v.wide :: q.uses) none (at4 0x40000) ∧
      activeEls v (at4 0x40000) = [0] ∧ q.m.rel = false ∧
      ∃ t u, storeAt (envAt v q.m (at4 0x40000) 0 1) (BitVec.ofInt 64 (q.addr (at4 0x40000) 0)) q.w
        (toBytes q.w (srcEl v (at4 0x40000) false (q.w == 8) v.d 0 0)) (at4 0x40000) = (t, .ok u) ∧ decide (Memory.wf t.mem = true) = true) :=
  ⟨⟨_, _, .vld _ _ _ _ _ _ _ rfl, rfl, runs_of _ (by decide +kernel), (ready_of _ (by decide +kernel)).2.2, vec_of _ _ _ _ (by decide +kernel),
     by decide +kernel, by decide +kernel, by decide +kernel, ok_of _ (fun _ l => decide _) (by decide +kernel),
     faults_of _ (fun t => decide _) (by decide +kernel)⟩,
   ⟨_, _, .vst _ _ _ _ _ _ _ rfl, rfl, vec_of _ _ _ _ (by decide +kernel), by decide +kernel, rfl, ok_of _ (fun t _ => decide _) (by decide +kernel)⟩⟩

/-- A descriptor for each check in turn: a reserved word, no dimension, an odd base, a grant register that holds 0, a reservation that is
not in use, the weight stores. -/
theorem witness_descriptor_checks :
    let b := curBlock (copyState goodDesc)
    descFault (goodDesc.set 3 1) b false = some 0x02 ∧ descFault (goodDesc.set 0 (2 ^ 60 + 2 ^ 51 + 2 ^ 46)) b false = some 0x01 ∧
    descFault (goodDesc.set 2 0xE000000000001002) b false = some 0x04 ∧ descFault (goodDesc.set 11 (2 ^ 62 + 16)) b false = some 0x0A ∧
    descFault ((goodDesc.set 0 (2 ^ 60 + 2 ^ 56 + 2 ^ 51 + 2 ^ 46 + 2 ^ 42)).set 2 0) b false = some 0x0B ∧
    descFault (goodDesc.set 2 0xC000000000000000) b false = some 0x08 := by
  decide +kernel

/-- A descriptor's address with a reserved tag, an address of a node's descriptor with one. -/
theorem witness_bad_tags : badTag (regs [(1, 0x1000000000000001)] (copyState goodDesc) |> rdS 1) = true ∧ badTag (addrWord (2 ^ 60 + 1)) = true ∧
    badTag (addrWord 0x50001) = false ∧ 0x50001 % 64 ≠ 0 := by
  decide +kernel

/-- Pending steps once time has passed: the first, one that the schedule picks, one that is due, none. -/
theorem witness_step_events :
    (let p := passTime { loaded .v with pending := [.telemetry, .heartbeat 1] }
     p.sched = [] ∧ p.pending = [.telemetry, .heartbeat 1]) ∧
    (let p := passTime { loaded .v with pending := [.telemetry, .heartbeat 1], sched := [2] }
     p.sched = [2] ∧ p.running.length ≤ 2 ∧
     ({ p with sched := [] } : State).pending[firstOfLane { p with sched := [] } (2 - p.running.length)]? = some (.heartbeat 1)) ∧
    (let p := passTime { State.reset with launches := [newLaunch] }
     p.sched = [] ∧ p.pending = [] ∧ p.running = [] ∧ (due p).head? = some (.launchPacketCheck 7)) := by
  decide +kernel

/-- Translations in flight, each of one kind. -/
theorem witness_in_flight :
    let e : ExtReq := { noAnswer with got := some none, kept := [(0x100000, (0, 0))] }
    (e.got ≠ none ∧ ∃ x ∈ e.kept, x.1 / 65536 = 0x10) ∧ (∃ x ∈ ({ aCopy with pages := [(0x100008, (0, 0))] } : Copy).pages, x.1 / 65536 = 0x10) ∧
    (∃ x ∈ queuedWrite.writes, ∃ pa, x.1 = .phys pa) ∧
    (∃ g ∈ (curBlock (modG (fun g => { g with kept := [(0x100000, some (0, 0))] }) (loaded .m))).groups, ∃ x ∈ g.kept, x.2 ≠ none ∧ x.1 % 2 ^ 52 / 65536 = 0x10) ∧
    (loaded .v).copies = [] ∧ ({ State.reset.ports[0] with taken := some 5 } : HostPort).taken.getD 0 = 5 :=
  ⟨⟨by decide, _, List.mem_singleton.2 rfl, by decide⟩, ⟨_, List.mem_singleton.2 rfl, by decide⟩,
   ⟨(.phys 0x40000, [2]), by simp [queuedWrite], _, rfl⟩, by decide +kernel, by decide +kernel, rfl⟩

/-- A slot of the same granule and ASID with room for a waiter; the queue with a free slot and, of a context whose RCB names no queue that
holds one, without; a waiter without a slot; a service kernel's packet with an entry and without one. -/
noncomputable def sameGranule (waiters : Nat) : State :=
  physPut none 0x100008 8 (2 ^ 48 * (ctxAsid (withQueue (loaded .c)) 0x1000).toNat + 2 ^ 36 * waiters)
    (physPut none 0x100000 8 (2 ^ 60 + 0x5000 / 65536 * 65536) (withQueue (loaded .c)))

theorem witness_recording :
    let ok (s : State) : Bool := Memory.wf s.mem && livesB s who0 && decide ((getBlock s 0).place.cl < 5) && decide ((getBlock s 0).tenant < 32) &&
      decide (blockCtx s (getBlock s 0) = 0x1000) && decide (queueBase s 0x1000 0 = 0x100000)
    (ok (sameGranule 4094) = true ∧ coalesce (sameGranule 4094) 0x100000 (ctxAsid (sameGranule 4094) 0x1000) 0x5000 = some 0 ∧
      slotWord (sameGranule 4094) 0x100000 0 1 / 2 ^ 36 % 2 ^ 12 < 4095 ∧ 0x1000 + 128 ≤ 0x100000) ∧
    (let s := withQueue (loaded .c)
     ok s = true ∧ coalesce s 0x100000 (ctxAsid s 0x1000) 0x5000 = none ∧ freeSlot s 0x100000 = some 0 ∧ rcbWord s 0x1000 9 = 0) ∧
    (let s := waiting (.noSlot 0 .notPresent 3 0x5000 1) (withQueue (loaded .c))
     (slotless s 0)[0]? = some (.path who0) ∧ (pathOf s who0).run = .waiting (.noSlot 0 .notPresent 3 0x5000 1) 4) := by
  decide +kernel

/-! A fault queue without a free slot: 4,096 slots of TYPE 1 with a response. -/

def slotCell (j : Nat) : Host.Cell := if j % 2 = 0 then (0x100007 + 16 * j, 0x10) else (0x10000F + 16 * j, 1)

def fullCells : List Host.Cell := ((0xF12, 0x10) :: bootCells) ++ (List.range 8192).map slotCell

theorem swf_of_pairwise (m : Sparse Byte) (h : m.Pairwise (fun a b => a.1 < b.1)) (hv : ∀ e ∈ m, e.2 ≠ 0) : swf (0 : Byte) m = true := by
  induction m with
  | nil => rfl
  | cons e l ih =>
    obtain ⟨h1, h2⟩ := List.pairwise_cons.1 h
    have hl := ih h2 fun x hx => hv x (List.mem_cons_of_mem _ hx)
    cases l with
    | nil => simpa [swf] using hv e (List.mem_singleton.2 rfl)
    | cons x l => simpa [swf, h1 x (List.mem_cons_self ..)] using And.intro (hv e (List.mem_cons_self ..)) hl

theorem sget_of_mem (m : Sparse Byte) (h : m.Pairwise (fun a b => a.1 < b.1)) (e : Nat × Byte) (he : e ∈ m) : sget 0 m e.1 = e.2 := by
  induction m with
  | nil => cases he
  | cons x l ih =>
    obtain ⟨h1, h2⟩ := List.pairwise_cons.1 h
    rcases List.mem_cons.1 he with rfl | he
    · simp [sget]
    · have := h1 e he
      simp only [sget, show ¬ e.1 = x.1 by omega, show ¬ e.1 < x.1 by omega, if_false]
      exact ih h2 he

theorem full_sorted : fullCells.Pairwise (fun a b => a.1 < b.1) := by
  refine List.pairwise_append.2 ⟨by decide, ?_, fun a ha b hb => ?_⟩
  · rw [List.pairwise_map]
    refine List.pairwise_lt_range.imp fun {i j} h => ?_
    unfold slotCell; split <;> split <;> simp only <;> omega
  · obtain ⟨j, -, rfl⟩ := List.mem_map.1 hb
    have : a.1 < 0x100000 := (by decide : ∀ a ∈ ((0xF12, 0x10) :: bootCells : List Host.Cell), a.1 < 0x100000) a ha
    unfold slotCell; split <;> simp only <;> omega

theorem slot_cells (i : Nat) (h : i < 4096) : (0x100007 + 32 * i, (0x10 : Byte)) ∈ fullCells ∧ (0x10001F + 32 * i, (1 : Byte)) ∈ fullCells := by
  refine ⟨List.mem_append_right _ (List.mem_map.2 ⟨2 * i, List.mem_range.2 (by omega), ?_⟩),
    List.mem_append_right _ (List.mem_map.2 ⟨2 * i + 1, List.mem_range.2 (by omega), ?_⟩)⟩
  · simp [slotCell]; omega
  · simp [slotCell, show (2 * i + 1) % 2 = 1 by omega]; omega

noncomputable def fullState : State := { loaded .c with mem := fullCells }

theorem witness_no_slot : Memory.wf fullState.mem = true ∧ freeSlot fullState 0x100000 = none ∧
    (∀ asid va, coalesce fullState 0x100000 asid va = none) ∧ livesB fullState who0 = true ∧
    queueBase fullState (blockCtx fullState (getBlock fullState 0)) (getBlock fullState 0).place.die = 0x100000 := by
  refine ⟨swf_of_pairwise _ full_sorted fun e he => ?_, List.find?_eq_none.2 fun i hi => ?_, fun asid va => List.find?_eq_none.2 fun i hi => ?_,
    by decide +kernel, by decide +kernel⟩
  · rcases List.mem_append.1 he with h | h
    · exact (by decide : ∀ a ∈ ((0xF12, 0x10) :: bootCells : List Host.Cell), a.2 ≠ 0) e h
    · obtain ⟨j, -, rfl⟩ := List.mem_map.1 h
      unfold slotCell; split <;> first | exact (by decide : (0x10 : Byte) ≠ 0) | exact (by decide : (1 : Byte) ≠ 0)
  · have hi := List.mem_range.1 hi
    suffices i ∈ occupied fullState 0x100000 by simpa using this
    refine List.mem_map.2 ⟨_, List.mem_filter.2 ⟨(slot_cells i hi).1, ?_⟩, ?_⟩
    · simp; omega
    · simp only; omega
  · obtain ⟨c, hc, rfl⟩ := List.mem_map.1 hi
    have hc := (List.mem_filter.1 hc).2
    simp only [Bool.and_eq_true, decide_eq_true_eq] at hc
    have hi : (c.1 - 0x100000) / 32 < 4096 := by omega
    generalize (c.1 - 0x100000) / 32 = i at hi
    have h := sget_of_mem _ full_sorted _ (slot_cells i hi).2
    have hw : bits (slotWord fullState 0x100000 i 3) 56 8 ≠ 0 := by
      have e : slotWord fullState 0x100000 i 3 = ofBytes (sgetN 0 fullCells (0x100000 + 32 * i + 24) 8) := rfl
      have g : sget 0 fullCells (0x100000 + 32 * i + 24 + 7) = (1 : Byte) := by
        rw [show 0x100000 + 32 * i + 24 + 7 = 0x10001F + 32 * i by omega]; exact h
      rw [e]
      simp only [sgetN, List.range_succ, List.range_zero, List.nil_append, List.map_cons, List.map_nil, List.cons_append, ofBytes, g, bits]
      simp
      omega
    simp [hw]

/-- A context with a service kernel whose packet stands at 0x60000: with an entry free and with none. -/
noncomputable def served (full : Bool) : State :=
  let s := { physPut none 0x60018 8 0x1000 (physPut none 0x1048 8 0x60000 (rich (loaded .c))) with past := [] }
  if full then { s with launches := List.replicate 4096 newLaunch } else s

noncomputable def noticed (full : Bool) : State × Got (List Byte) := restart (loadAt (noticeEnv 0x1000 0 5) 0x60000 128 1) (served full)

theorem witness_service_kernel : rcbWord (served false) 0x1000 9 = 0x60000 ∧ rcbWord (served true) 0x1000 9 = 0x60000 ∧
    (∃ t l, noticed false = (t, .ok l) ∧ (entryAvailable t 0 (packetRcb t 0x1000 (vset (packetOf l) 4 5)) &&
      (peekBad t 0x1000 (vget (packetOf l) 3).toNat .read true).isNone) = true) ∧
    ∃ t l, noticed true = (t, .ok l) ∧ (!entryAvailable t 0 (packetRcb t 0x1000 (vset (packetOf l) 4 5)) &&
      (peekBad t 0x1000 (vget (packetOf l) 3).toNat .read true).isNone) = true :=
  have h1 : okWith (noticed false) (fun t l => entryAvailable t 0 (packetRcb t 0x1000 (vset (packetOf l) 4 5)) &&
      (peekBad t 0x1000 (vget (packetOf l) 3).toNat .read true).isNone) = true := by decide +kernel
  have h2 : okWith (noticed true) (fun t l => !entryAvailable t 0 (packetRcb t 0x1000 (vset (packetOf l) 4 5)) &&
      (peekBad t 0x1000 (vget (packetOf l) 3).toNat .read true).isNone) = true := by decide +kernel
  ⟨by decide +kernel, by decide +kernel, ok_of _ _ h1, ok_of _ _ h2⟩

/-- The leaves of a skim with nothing in flight, and with an unanswered access. -/
theorem witness_skim_flight :
    (skimLeaves farState (ck .skim [])).length ≠ 0 ∧
    (∀ x ∈ skimLeaves farState (ck .skim []), inFlight 2 (ctxAsid farState 0x1000) x.2.1 farState = false) ∧
    ∃ x ∈ skimLeaves farState (ck .skim []), inFlight 2 (ctxAsid farState 0x1000) x.2.1 { farState with ext := [noAnswer] } = true := by
  decide +kernel

/-- ATTEST before its nonce has been read, while it is, with an answer of each kind; a port that has failed; the boot state. -/
theorem witness_attest :
    let e : ExtReq := { noAnswer with owner := .mailbox 1, data := none, n := 64 }
    let s (g : Option (Option (List Byte))) : State := { State.reset with ext := [{ e with got := g }], booted := false }
    State.reset.ext.find? (fun e => e.owner == .mailbox 1) = none ∧ (vget State.reset.ports 1).failed = false ∧
    ({ State.reset.ports[0] with failed := true, busy := true } : HostPort).failed = true ∧
    (∀ g ∈ [none, some none, some (some (List.replicate 64 (7 : Byte)))], (s g).ext.find? (fun e => e.owner == .mailbox 1) = some { e with got := g }) ∧
    (List.replicate 64 (7 : Byte)).length = 64 := by
  decide +kernel

/-- A die at rest at its port; a window for reads alone; blocks of a core in two halves, used by either, by both and by none. -/
theorem witness_rest_and_halves :
    vget { State.reset with depth := vset State.reset.depth 1 4 }.depth 1 ≠ 0 ∧
    (let core : Place := { die := 0, cl := 4, site := 0, part := 0 }
     let half (k : Nat) : Place := { core with part := k }
     let p : Pan := { die := 0, cl := 4, hot := 0, cool := 31, point := 0, moving := true }
     let s (l : List Nat) : State := { loaded .v with
       parted := [core], pans := [p], skews := [(half 1, 5), (half 2, 3)],
       blocks := l.map fun k => { getBlock (loaded .v) 0 with uid := k, place := half k } }
     (∀ l ∈ [[1], [2], [1, 2], []], (∀ a ∈ (s l).blocks, ∀ b ∈ (s l).blocks, a.uid = b.uid → a = b) ∧
       ∀ b ∈ (s l).blocks, (b.groups.map (·.gidx)).Nodup ∧ b.res ≠ .held) ∧
     ((s [1]).blocks.any fun b => b.place == half 1) = true ∧ ((s [1]).blocks.any fun b => b.place == half 2) = false ∧
     core ∈ (s [2]).parted ∧ p.hot ≠ p.cool ∧ ((s []).pans.find? fun p => p.die == 0 && p.cl == 4) = some p) ∧
    (let s : State := { loaded .v with tasks := [{ die := 0, kind := 0, last := tickOf (loaded .v) 0, count := 3 }], bad := [.spad 0 65535] }
     (findBlock s 0).isSome = true ∧ badTarget s (.spad 0 65535) = true ∧ scrubDue s 0 = false) ∧
    (let s : State := { State.reset with ext := [noAnswer] }
     ∀ e ∈ s.ext, ∀ a b c, e.owner ≠ .notice a b c) := by
  refine ⟨by decide +kernel, by decide +kernel, ⟨by decide +kernel, by decide +kernel, decide_eq_false ?_⟩, fun e he a b c => ?_⟩
  · show ¬ tickOf (loaded .v) 0 + 86400000000000 ≤ tickOf (loaded .v) 0
    omega
  · rw [List.mem_singleton.1 he]; exact fun h => by cases h

/-- A path out of fault-wait that is resumed, a sibling of the path that traps in fault-wait, and a group without one. -/
theorem witness_fault_waiters :
    inFaultWait (getGroup (waiting (.fault 0 0 .protection 0x5000 1) (loaded .c)) 0 0) = true ∧ inFaultWait (curGroup (loaded .c)) = false ∧
    mayTrap (waiting (.fault 0 0 .protection 0x5000 1) (loaded .c)) who0 = true ∧
    faultWaiting (pathOf (waiting (.fault 0 0 .protection 0x5000 1) (loaded .c)) who0).run = true := by
  decide +kernel

/-! More single steps, with results from the rules named. -/

/-- R26, R253: ret checks the address on its stack: 0x07 above bit 51, 0x04 for bits [1:0]. -/
theorem test_ret_checks_its_target :
    (let s (x : Word) : State := modP (fun p => { p with rets := [x] }) (withEntry 0x20000 (loaded .c))
     after (exec (.ret false) (s (2 ^ 52))) (fun t => (getGroup t 0 0).ecause.toNat % 256 == 0x07) &&
     after (exec (.ret false) (s 0x10002)) (fun t => (getGroup t 0 0).ecause.toNat % 256 == 0x04)) = true := by
  decide +kernel

/-- R290, R113, R116: the first element of vscan.fsum is a result: a signalling NaN gives the canonical NaN and raises NV. -/
theorem test_scan_of_a_nan : after (exec (.vscan false 2 1 0 6 0 0) (modG (fun g => { g with v := [(1024, 0x7F800001)], vl := 1 }) (loaded .v)))
    (fun t => vel (getGroup t 0 0) 2 0 == 0x7FC00000 && (getGroup t 0 0).fcsr.toNat % 32 == 16) = true := by
  decide +kernel

/-- R173, R256: at the end of a loop body both sides of a region take the back-edge, each with its own entry. -/
theorem test_region_steps_both_loops :
    (let e (n : Word) : LoopEntry := { start := 0x10000, stop := 0x10004, left := n, depth := 0 }
     after (exec (.sadd false 1 2 3) (modG (fun g => { g with paths := g.paths.map fun p => { p with loops := [e 2] } }) (melded false)))
       (fun t => [0, 1].all fun i => (getPath (getGroup t 0 0) i).pc == 0x10000 && (getPath (getGroup t 0 0) i).loops == [e 1])) = true := by
  decide +kernel

/-- R24, R366: gsig at a misaligned address traps with 0x07 where its tag is reserved, else with 0x04. -/
theorem test_gsig_checks_the_tag_first :
    (let s (x : Word) : State := regs [(1, x)] (withEntry 0x20000 (loaded .c))
     after (exec (.gsig false 2 1) (s 0x1000000000000001)) (fun t => (getGroup t 0 0).ecause.toNat % 256 == 0x07) &&
     after (exec (.gsig false 2 1) (s 0x1001)) (fun t => (getGroup t 0 0).ecause.toNat % 256 == 0x04)) = true := by
  decide +kernel

/-- R257, R228: rpt of 257 passes with a must-be-zero bit set traps with 0x01, which comes before 0x02. -/
theorem test_rpt_of_too_many : ran 32 (0x26 * 2 ^ 24 + 1 * 2 ^ 16 + 257) (withEntry 0x20000 (loaded .v))
    (fun t => (getGroup t 0 0).ecause.toNat % 256 == 0x01) = true := by
  decide +kernel

end Sys2Proof.Tests
end

section
/-! The scalar integer instructions pass the checks of R228, and the corners of division (R244). -/

open Sys2Proof Sys2Proof.Machine

namespace Sys2Proof.Proofs

/-- What no check of R228 after decoding forbids: a major of the scalar operations, which every role, every repeat frame and every
melded region may hold, with no restriction of the instruction's own. -/
structure Unrestricted (h : Head) : Prop where
  scalar : h.major ≤ 0x0A
  anyMeld : h.noMeld = false
  anyMode : h.supOnly = false
  anyRole : h.mOnly = false

theorem frameAllows_of_scalar {m : Nat} (hm : m ≤ 0x0A) : frameAllows m = true := by
  simp [frameAllows, hm]

theorem roleAllows_of_scalar {m : Nat} (r : Role) (hm : m ≤ 0x0A) : roleAllows r m = true := by
  have h : m ≤ 0x2C := by omega
  simp [roleAllows, h]

theorem meldForbids_of_scalar {m : Nat} (hm : m ≤ 0x0A) : meldForbids m = false := by
  simp only [meldForbids, Bool.or_eq_false_iff, Bool.and_eq_false_iff, decide_eq_false_iff_not, beq_eq_false_iff_ne]
  omega

/-- R228, R258, R176, R174: an unrestricted head passes the gate in every state. -/
theorem gate_of_unrestricted {h : Head} (hu : Unrestricted h) (s : State) : gate h none false s = none := by
  obtain ⟨hm, hmeld, hmode, hrole⟩ := hu
  simp [gate, frameAllows_of_scalar hm, roleAllows_of_scalar _ hm, meldForbids_of_scalar hm, hmeld, hmode, hrole]

/-- Where a group issues and the gate lets the instruction through, it is executed for each side. -/
theorem issueSide_of_gate {h : Head} {enc : Option Nat} {s : State} (hs : Issues s) (hg : gate h enc false s = none)
    (body : State → State × Act) : issueSide h enc body s = .next (perSide h body s) := by
  unfold issueSide issue issueBy
  split
  next hr => exact absurd hr hs
  next => rw [hg]

/-- R243: a two-operand SALU function completes whenever a group issues; `f` has no outcome but a value. -/
theorem issueSide_scalar2 {s : State} (hs : Issues s) (e : Bool) (f : Word → Word → Word) (d a b : BitVec 6) :
    issueSide { e := e, major := 0x00 } none (scalar2 f d a b) s =
      .next (perSide { e := e, major := 0x00 } (fun u => (wrS d (f (rdS a u) (rdS b u)) u, .next)) s) :=
  issueSide_of_gate hs (gate_of_unrestricted ⟨Nat.zero_le _, rfl, rfl, rfl⟩ s) _

/-! The values of R244, by FN. -/

theorem saluFn_sdiv_zero (x : Word) : saluFn 0x10 x 0 = 0xFFFFFFFFFFFFFFFF := by simp [saluFn]
theorem saluFn_sdivu_zero (x : Word) : saluFn 0x11 x 0 = 0xFFFFFFFFFFFFFFFF := by simp [saluFn]
theorem saluFn_srem_zero (x : Word) : saluFn 0x12 x 0 = x := by simp [saluFn]
theorem saluFn_sremu_zero (x : Word) : saluFn 0x13 x 0 = x := by simp [saluFn]

/-- The quotient 2^63 of the signed overflow wraps to the dividend. -/
theorem saluFn_sdiv_overflow : saluFn 0x10 (BitVec.ofNat 64 (2 ^ 63)) (-1) = BitVec.ofNat 64 (2 ^ 63) := by decide

theorem saluFn_srem_overflow : saluFn 0x12 (BitVec.ofNat 64 (2 ^ 63)) (-1) = 0 := by decide

/-- Settles O11: the four instructions pass the gate in every state in which a group issues, and end with a value; the values at the
corners are those of the SALU functions 0x10 to 0x13. -/
theorem divisionNeverTraps : Obligations.DivisionNeverTraps := by
  intro e d a b s hs h minInt
  refine ⟨saluFn 0x10, saluFn 0x11, saluFn 0x12, saluFn 0x13, ?sdiv, ?sdivu, ?srem, ?sremu, ?byZero, ?overflow⟩
  case sdiv => exact (exec_sdiv e d a b s).trans (issueSide_scalar2 hs e _ d a b)
  case sdivu => exact (exec_sdivu e d a b s).trans (issueSide_scalar2 hs e _ d a b)
  case srem => exact (exec_srem e d a b s).trans (issueSide_scalar2 hs e _ d a b)
  case sremu => exact (exec_sremu e d a b s).trans (issueSide_scalar2 hs e _ d a b)
  case byZero => exact fun x => ⟨saluFn_sdiv_zero x, saluFn_sdivu_zero x, saluFn_srem_zero x, saluFn_sremu_zero x⟩
  case overflow => exact ⟨saluFn_sdiv_overflow, saluFn_srem_overflow⟩

end Sys2Proof.Proofs
end

section
/-! Thermal domains: the rows of R426's table, and a sample of one domain. -/

open Sys2Proof Sys2Proof.Machine

namespace Sys2Proof.Proofs

theorem vget_replicate {α : Type} [Inhabited α] {n i : Nat} (x : α) (h : i < n) : vget (Vector.replicate n x) i = x := by
  simp [vget, List.getD_eq_getElem?_getD, h]

/-- R426, R425: a sample of a domain puts into its place what `thermalNext` gives for the domain's own trip point. -/
theorem thermalSample_domain (s : State) {dom : Nat} (temp : Nat) (h : dom < 24) :
    vget (thermalSample dom temp s).domains dom =
      thermalNext s.now (if dom < 20 then s.tripC.toNat else s.tripD.toNat) temp (vget s.domains dom) :=
  vget_vset_self _ _ _ h

/-! One equation per row of the table, the two rows of a NORMAL domain that stays together. -/

section Rows
variable {now tp temp : Nat} {x : Thermal}

theorem thermalNext_emergency (hx : x.throttled = false) (hot : 8 * tp + 80 ≤ temp) :
    thermalNext now tp temp x = { throttled := true, emergency := true, since := now, temp := temp } := by
  have h : tp * 8 + 80 ≤ temp := by omega
  simp [thermalNext, hx, h]

theorem thermalNext_trip (hx : x.throttled = false) (warm : 8 * tp ≤ temp) (cool : temp < 8 * tp + 80)
    (dwelt : 2000000 ≤ now - x.since) :
    thermalNext now tp temp x = { throttled := true, emergency := false, since := now, temp := temp } := by
  have h : ¬ tp * 8 + 80 ≤ temp := by omega
  have h' : tp * 8 ≤ temp := by omega
  simp [thermalNext, hx, h, h', dwelt]

theorem thermalNext_normal_stays (hx : x.throttled = false) (cool : temp < 8 * tp + 80)
    (stay : temp < 8 * tp ∨ ¬ 2000000 ≤ now - x.since) : thermalNext now tp temp x = { x with temp := temp } := by
  have h : ¬ tp * 8 + 80 ≤ temp := by omega
  have h' : ¬ (tp * 8 ≤ temp ∧ 2000000 ≤ now - x.since) := by omega
  simp only [thermalNext, hx, Bool.false_eq_true, if_false, if_neg h, if_neg h']

theorem thermalNext_release (hx : x.throttled = true) (cold : temp + 24 < 8 * tp) (dwelt : 2000000 ≤ now - x.since) :
    thermalNext now tp temp x = { throttled := false, emergency := false, since := now, temp := temp } := by
  have h : temp + 24 < tp * 8 := by omega
  simp [thermalNext, hx, h, dwelt]

theorem thermalNext_throttled_stays (hx : x.throttled = true) (stay : 8 * tp ≤ temp + 24 ∨ ¬ 2000000 ≤ now - x.since) :
    thermalNext now tp temp x = { x with temp := temp } := by
  have h : ¬ (temp + 24 < tp * 8 ∧ 2000000 ≤ now - x.since) := by omega
  simp only [thermalNext, hx, if_true, if_neg h]

/-- R426: the dwell starts anew exactly where the state changes. -/
theorem thermalNext_since (now tp temp : Nat) (x : Thermal) :
    (thermalNext now tp temp x).since = if (thermalNext now tp temp x).throttled = x.throttled then x.since else now := by
  cases hx : x.throttled with
  | false =>
    by_cases hot : 8 * tp + 80 ≤ temp
    · simp [thermalNext_emergency hx hot]
    by_cases trip : 8 * tp ≤ temp ∧ 2000000 ≤ now - x.since
    · simp [thermalNext_trip hx trip.1 (Nat.lt_of_not_le hot) trip.2]
    · have stay : temp < 8 * tp ∨ ¬ 2000000 ≤ now - x.since := by omega
      simp [thermalNext_normal_stays hx (Nat.lt_of_not_le hot) stay, hx]
  | true =>
    by_cases leave : temp + 24 < 8 * tp ∧ 2000000 ≤ now - x.since
    · simp [thermalNext_release hx leave.1 leave.2]
    · have stay : 8 * tp ≤ temp + 24 ∨ ¬ 2000000 ≤ now - x.since := by omega
      simp [thermalNext_throttled_stays hx stay, hx]

end Rows

/-- Settles O58: the sample replaces the domain by its `thermalNext`, and each clause is a row of that function's table. -/
theorem thermalStatesFollowTheirSamples : Obligations.ThermalStatesFollowTheirSamples := by
  refine ⟨fun dom hd => ?reset, fun s dom temp hd => ⟨thermalSample dom temp s, exec_thermalSample dom temp s, ?sample⟩⟩
  case reset =>
    have h : vget State.reset.domains dom = { throttled := false, emergency := false, since := 0, temp := 0 } :=
      vget_replicate _ hd
    rw [h]
    exact ⟨rfl, rfl⟩
  case sample =>
    rw [thermalSample_domain s temp hd]
    refine ⟨fun hx hot => ?emergency, fun hx warm cool dwelt => ?trip, fun hx _ cool early => ?retested, fun hx cold => ?cold,
      fun hx cold dwelt => ?release, fun hx stay => ?throttled, thermalNext_since ..⟩
    case emergency => rw [thermalNext_emergency hx hot]; exact ⟨rfl, rfl⟩
    case trip => rw [thermalNext_trip hx warm cool dwelt]; exact ⟨rfl, rfl⟩
    case retested => rw [thermalNext_normal_stays hx cool (.inr early)]; exact hx
    case cold => rw [thermalNext_normal_stays hx (by omega) (.inl cold)]; exact hx
    case release => rw [thermalNext_release hx cold dwelt]
    case throttled => rw [thermalNext_throttled_stays hx stay]; exact ⟨hx, rfl⟩

end Sys2Proof.Proofs
end
